-- ==== Sys2Proof/Word.lean ====
section
/-! DEFINITION. The word types of the part (00_scope.md R8, R10): bytes, registers, descriptors, and the
numbers of its units. -/

namespace Sys2Proof

abbrev Byte := BitVec 8
abbrev Half := BitVec 16
abbrev Word := BitVec 32
abbrev Dword := BitVec 64

/-- A core, 8y + x at mesh coordinate (x, y) (R8). -/
abbrev CoreId := Fin 64
/-- A core quad Q0–Q15: cores 4q to 4q + 3 (R8). -/
abbrev QuadId := Fin 16
/-- A memory controller: channel c of package p is 4p + c (R8). -/
abbrev ChanId := Fin 192
/-- A Churn, beside the package of its number (R8). -/
abbrev ChurnId := Fin 48
/-- A rim, and its root engine (R8). -/
abbrev RimId := Fin 4
/-- A Span port (R8). -/
abbrev SpanPort := Fin 16
/-- A faceplate cage and its touch-strip segment (R8). -/
abbrev CageId := Fin 8
/-- A ring (R8, R195). -/
abbrev RingId := Fin 32768
/-- A ledger tile L0–L7 of one core (R71). -/
abbrev TileId := Fin 8
/-- A Scratchpad bank of one core (R172). -/
abbrev BankId := Fin 16
/-- A power domain (R443). -/
abbrev DomainId := Fin 30

end Sys2Proof
end

