-- ==== Sys2Proof/Config.lean ====
section
/-! DEFINITION. What an implementation fixes and the manual leaves open: the free values. None has a body, so no
proof can rest on a value of one; each is applied to the state's free-value counter, or to the operands it depends on. -/

namespace Sys2Proof.Config

/-- Stored symbols of an atom that nothing has written since its channel came up (R524): the 36 bytes as found
by the n-th such read of atom index `idx`. DESIGN CHOICE (log entry 6). -/
opaque freeAtom : Nat → Nat → BitVec 288

/-- The skim bits e of one delivered popsum (R156); a user takes it modulo 2^k. DESIGN CHOICE (log entry 10). -/
opaque freeSkim : Nat → Nat

/-- A word of an INVALID ledger tile as a view reads it (R80, R83). DESIGN CHOICE (log entry 13). -/
opaque freeLedgerWord : Nat → BitVec 192

/-- Whether a core's grant mirror already holds a generation that is still being spread (R319, R322). DESIGN CHOICE (log entry 14). -/
opaque freeMirror : Nat → Bool

/-- The time field of a daybook entry (R465), and times that a record takes from a clock the model does not run. DESIGN CHOICE (log entry 3). -/
opaque freeTime : Nat → Nat

/-- Fresh random bits of the key engine (R492). DESIGN CHOICE (log entry 11). -/
opaque freeNonce : Nat → BitVec 128

/-- A signature made by a key of the key engine over a message (R496): `key` names the key. DESIGN CHOICE (log entry 11). -/
opaque sign : Nat → List Byte → BitVec 768

/-- A certificate that is made outside the module, in DER (R496, R497): 0 the Gulath root, 1 the Thiec T9 product intermediate. DESIGN CHOICE (log entry 11). -/
opaque certificate : Nat → List Byte

/-- The device identity certificate (R496, R497), in DER: it depends on the identity key alone, and its subject serial is the Device
Serial Number. DESIGN CHOICE (log entry 11). -/
opaque identityCert : Nat → BitVec 64 → List Byte

/-- The part of an alias certificate that the identity key signs, for an alias key (R496). DESIGN CHOICE (log entry 11). -/
opaque aliasBody : Nat → List Byte

/-- The DER encoding of a certificate from the part that is signed and the signature (R497). DESIGN CHOICE (log entry 11). -/
opaque x509 : List Byte → BitVec 768 → List Byte

/-- The certificate of the Gulath firmware key in an image (R496). DESIGN CHOICE (log entry 11). -/
opaque firmwareCert : Nat → List Byte

/-- SPDM messages that a requester and the responder exchanged before one of the commands (R497). DESIGN CHOICE (log entry 11). -/
opaque spdmEarlier : Nat → List Byte

/-- The algorithm ID of the ExtAsym entry under Gulath's vendor ID (R497). DESIGN CHOICE (log entry 11). -/
opaque extAsym : Half

/-- Content that an outside image gives, such as a digest of mask ROM or of microcode (R498). DESIGN CHOICE (log entry 11). -/
opaque imageDigest : Nat → BitVec 384

/-- The Device Serial Number (R419), the same on both ports. DESIGN CHOICE (log entry 11). -/
opaque serialNumber : BitVec 64
/-- The vendor ID in the configuration headers, which the manual does not give (R419). DESIGN CHOICE (log entry 11). -/
opaque vendorId : Half

/-- A value that the manual does not state, for a result that the step must still write. DESIGN CHOICE (log entry 50). DESIGN CHOICE (log entry 108). -/
opaque freeValue : Nat → BitVec 64

/-- Cycles of a clock that the model does not run, where a counter adds them and no command names them. DESIGN CHOICE (log entry 111). -/
opaque freeCycles : Nat → Nat

end Sys2Proof.Config
end

