-- ==== Sys2Proof/Machine/Tab.lean ====
section
/-! DEFINITION. Sparse tables: lists of (key, value) pairs with strictly rising keys. A table has one default value,
what an unlisted key reads as, and lists no entry equal to it, so that equal contents are equal lists. -/

namespace Sys2Proof

/-- A sparse table. DESIGN CHOICE (log entry 97). -/
abbrev Tab (α : Type) := List (Nat × α)

namespace Machine

/-- The entry listed at key `k`. -/
def tabFind {α : Type} : Tab α → Nat → Option α
  | [], _ => none
  | (j, v) :: r, k => if j = k then some v else tabFind r k

/-- The value at key `k`: the entry, or the default `d`. -/
def tabGet {α : Type} (d : α) (t : Tab α) (k : Nat) : α := (tabFind t k).getD d

/-- List `v` at key `k`. -/
def tabPut {α : Type} : Tab α → Nat → α → Tab α
  | [], k, v => [(k, v)]
  | (j, w) :: r, k, v =>
    if k < j then (k, v) :: (j, w) :: r
    else if j = k then (k, v) :: r
    else (j, w) :: tabPut r k v

/-- Take the entry at key `k` off the list. -/
def tabDel {α : Type} : Tab α → Nat → Tab α
  | [], _ => []
  | (j, w) :: r, k => if j = k then tabDel r k else (j, w) :: tabDel r k

/-- Write `v` at key `k`, keeping the canonical form for the default `d`. DESIGN CHOICE (log entry 97). -/
def tabSet {α : Type} [DecidableEq α] (d : α) (t : Tab α) (k : Nat) (v : α) : Tab α :=
  if v = d then tabDel t k else tabPut t k v

/-- Keys rise strictly from above `lo`. -/
def tabRising {α : Type} : Tab α → Nat → Bool
  | [], _ => true
  | (j, _) :: r, lo => decide (lo ≤ j) && tabRising r (j + 1)

/-- The canonical form: keys rise strictly. -/
def tabSorted {α : Type} (t : Tab α) : Bool := tabRising t 0

/-- The canonical form for the default `d`: keys rise strictly and no entry equals the default. DESIGN CHOICE (log entry 97). -/
def tabWf {α : Type} [DecidableEq α] (d : α) (t : Tab α) : Bool :=
  tabSorted t && t.all (fun e => decide (e.2 ≠ d))

/-- Take off the entries whose key satisfies `p`. -/
def tabDrop {α : Type} (p : Nat → Bool) (t : Tab α) : Tab α := t.filter (fun e => !p e.1)

/-- Canonical form of a byte memory whose unlisted bytes read as `d`. DESIGN CHOICE (log entry 97). -/
abbrev memoryWf (d : Byte) (t : Tab Byte) : Bool := tabWf d t

/-- `n` bytes from address `a` of a byte table, lowest first (R10). -/
def bytesGet (d : Byte) (t : Tab Byte) (a : Nat) : Nat → List Byte
  | 0 => []
  | n + 1 => tabGet d t a :: bytesGet d t (a + 1) n

/-- Write bytes from address `a` on. -/
def bytesSet (d : Byte) (t : Tab Byte) (a : Nat) : List Byte → Tab Byte
  | [] => t
  | b :: bs => bytesSet d (tabSet d t a b) (a + 1) bs

/-- The number that bytes spell, lowest first (R10). -/
def leNat : List Byte → Nat
  | [] => 0
  | b :: bs => b.toNat + 256 * leNat bs

/-- `n` bytes of a number, lowest first (R10). -/
def leBytes (v : Nat) : Nat → List Byte
  | 0 => []
  | n + 1 => BitVec.ofNat 8 v :: leBytes (v / 256) n

/-- Bits [hi:lo] of a number. -/
def bits (v lo len : Nat) : Nat := v / 2 ^ lo % 2 ^ len

/-- Bit `i` of a number. -/
def bitOf (v i : Nat) : Bool := v / 2 ^ i % 2 == 1

/-- 0 or 1. -/
def b2n (b : Bool) : Nat := if b then 1 else 0

/-- ⌈a ÷ b⌉. -/
def ceilDiv (a b : Nat) : Nat := (a + (b - 1)) / b

/-- Two's complement value of a `w`-bit number. -/
def sval (w v : Nat) : Int := if v % 2 ^ w < 2 ^ (w - 1) then ((v % 2 ^ w : Nat) : Int) else ((v % 2 ^ w : Nat) : Int) - (2 ^ w : Nat)

/-- Two's complement pattern of an integer in `w` bits. -/
def suns (w : Nat) (v : Int) : Nat := (v % ((2 ^ w : Nat) : Int)).toNat

/-- `n` least significant bits of a number, bit 0 first. -/
def natBits (v : Nat) : Nat → List Bool
  | 0 => []
  | n + 1 => (v % 2 == 1) :: natBits (v / 2) n

/-- The number of ones of a number, over `n` bits. -/
def popcount (v : Nat) : Nat → Nat
  | 0 => 0
  | n + 1 => v % 2 + popcount (v / 2) n

/-- Split a list into pieces of `k` elements, at most `n` pieces. -/
def chunks {α : Type} (k : Nat) : Nat → List α → List (List α)
  | 0, _ => []
  | n + 1, l => if l.isEmpty then [] else l.take k :: chunks k n (l.drop k)

end Machine

end Sys2Proof
end

