-- ==== Sys2Proof/Syntax.lean ====
section
/-! DEFINITION. The commands of the part: one constructor for each row of spec/opcode_table.json, with its operands.
Rows 0 to 66 are Ngaosh instructions, each passed by the Clerk of one core, with the operand fields of their
format (11_ngaosh_instruction_reference.md R275), reserved fields included. -/

namespace Sys2Proof

/-- Predicate of an instruction: bits [55:53] and the negate bit [52] (R272). -/
structure Pred where
  pp : BitVec 3
  pn : Bool
  deriving DecidableEq, Repr

/-- Format R (R275). -/
structure FmtR where
  gd : BitVec 5
  ga : BitVec 5
  gb : BitVec 5
  rsv : BitVec 37
  deriving DecidableEq, Repr

/-- Format I. -/
structure FmtI where
  gd : BitVec 5
  ga : BitVec 5
  rsv : BitVec 10
  imm : Word
  deriving DecidableEq, Repr

/-- Format C. -/
structure FmtC where
  pdst : BitVec 3
  cond : BitVec 3
  ga : BitVec 5
  gb : BitVec 5
  rsv : BitVec 4
  imm : Word
  deriving DecidableEq, Repr

/-- Format P. -/
structure FmtP where
  pdst : BitVec 3
  pa : BitVec 3
  pb : BitVec 3
  op : BitVec 2
  rsv : BitVec 41
  deriving DecidableEq, Repr

/-- Format B. -/
structure FmtB where
  gd : BitVec 5
  ga : BitVec 5
  rsv : BitVec 29
  target : BitVec 13
  deriving DecidableEq, Repr

/-- Format M. -/
structure FmtM where
  gv : BitVec 5
  ga : BitVec 5
  size : BitVec 1
  rsv : BitVec 9
  imm : Word
  deriving DecidableEq, Repr

/-- Format D. -/
structure FmtD where
  dd : BitVec 6
  ds : BitVec 6
  ga : BitVec 5
  word : BitVec 3
  rsv : BitVec 32
  deriving DecidableEq, Repr

/-- Format T. -/
structure FmtT where
  ds : BitVec 6
  dd : BitVec 6
  go : BitVec 5
  srcPail : BitVec 7
  dstPail : BitVec 7
  epoch : BitVec 4
  gs : BitVec 5
  dl : BitVec 6
  form : BitVec 1
  gc : BitVec 5
  deriving DecidableEq, Repr

/-- Format F. -/
structure FmtF where
  ga : BitVec 5
  gb : BitVec 5
  gc : BitVec 5
  rsv1 : BitVec 2
  srcPail : BitVec 7
  dstPail : BitVec 7
  epoch : BitVec 4
  gs : BitVec 5
  rsv2 : BitVec 12
  deriving DecidableEq, Repr

/-- Format A. -/
structure FmtA where
  gd : BitVec 5
  ga : BitVec 5
  gb : BitVec 5
  gc : BitVec 5
  rsv1 : BitVec 15
  gs : BitVec 5
  rsv2 : BitVec 12
  deriving DecidableEq, Repr

/-- Format X. -/
structure FmtX where
  dw : BitVec 6
  da : BitVec 6
  gr : BitVec 5
  q : BitVec 1
  layout : BitVec 2
  epoch : BitVec 4
  slip : BitVec 12
  dd : BitVec 6
  df : BitVec 6
  lead : BitVec 1
  rsv : BitVec 3
  deriving DecidableEq, Repr

/-- Format Y. -/
structure FmtY where
  dw1 : BitVec 6
  da : BitVec 6
  dw2 : BitVec 6
  di : BitVec 6
  gr : BitVec 5
  q : BitVec 1
  layout : BitVec 2
  epoch : BitVec 4
  slip : BitVec 12
  rsv : BitVec 4
  deriving DecidableEq, Repr

/-- Format S. -/
structure FmtS where
  tile : BitVec 3
  dd : BitVec 6
  df : BitVec 6
  gw : BitVec 5
  go : BitVec 5
  epoch : BitVec 4
  slip : BitVec 12
  rsv : BitVec 11
  deriving DecidableEq, Repr

/-- Format N. -/
structure FmtN where
  da : BitVec 6
  db : BitVec 6
  dc : BitVec 6
  dd : BitVec 6
  gr : BitVec 5
  q : BitVec 1
  epoch : BitVec 4
  slip : BitVec 12
  rsv : BitVec 6
  deriving DecidableEq, Repr

/-- Format G. -/
structure FmtG where
  gd : BitVec 5
  ga : BitVec 5
  gb : BitVec 5
  rsv1 : BitVec 20
  gs : BitVec 5
  rsv2 : BitVec 2
  imm : BitVec 10
  deriving DecidableEq, Repr

/-- Format E. -/
structure FmtE where
  rsv : BitVec 20
  imm : Word
  deriving DecidableEq, Repr

/-- A PCIe port (R8). -/
inductive HostPort where
  | A
  | B
  deriving DecidableEq, Repr

/-- Who makes a register access (R70): a host port, Sisyn's control path, or a core's narrow port. -/
inductive Requester where
  | host (p : HostPort)
  | sisyn
  | core (c : CoreId)
  deriving DecidableEq, Repr

/-- A quiescible unit (R458). -/
inductive QUnit where
  | churn (n : ChurnId)
  | root (i : RimId)
  | chan (m : ChanId)
  | port (p : SpanPort)
  deriving DecidableEq, Repr

/-- What Sisyn keeps a record of (R481). -/
inductive Watched where
  | unit (u : QUnit)
  | domain (d : DomainId)
  | spanPort (p : SpanPort)
  | skim (q : QuadId)
  deriving DecidableEq, Repr

/-- The reset that reaches one PCIe port (R437). -/
inductive PortResetKind where
  | perst
  | hotReset
  | linkDown
  | functionLevel
  deriving DecidableEq, Repr

/-- How a token reaches Sisyn (R492): from the host's buffer, or as one MCTP message of 320 bytes. -/
inductive TokenVia where
  | buffer
  | mctp (token : BitVec 2560)
  deriving DecidableEq, Repr

/-- A link that a PCIe port trained (R439). -/
structure LinkInfo where
  speed : BitVec 3
  width : BitVec 4
  flit : Bool
  deriving DecidableEq, Repr

/-- Where a register write goes: control space (R423), or, from a host alone, its port's BAR4 (R420), or its port's configuration
space: the command register, MSI-X Message Control (R419, R433), a word of the base address registers (R420), Device Control, or a word of
the Advanced Error Reporting capability (R419). -/
inductive RegSpace where
  | control
  | bar4
  | pciCommand
  | msixControl
  | pciBar
  | deviceControl
  | aer
  deriving DecidableEq, Repr

/-- The place of a register write: a space, and the offset in it. -/
structure RegPlace where
  space : RegSpace
  offset : BitVec 28
  deriving DecidableEq, Repr

/-- A step of a Churn on the command at the head of a ring: the ring's number, and how many work units the step does (R375),
all that are left where it is none. -/
structure ChurnTurn where
  ring : Fin 4
  units : Option Nat
  deriving DecidableEq, Repr

/-- A Churn that starts a parked command, and how many work units the step does, all where it is none. -/
structure ParkedTurn where
  churn : ChurnId
  units : Option Nat
  deriving DecidableEq, Repr

/-- A unit whose quiesce timeout ends, and, for a memory channel, the transfers, by core and operation, with accepted requests
that it has not finished (R459). -/
structure QuiesceCut where
  unit : QUnit
  transfers : List (CoreId × Nat)
  deriving DecidableEq, Repr

/-- The endpoint IDs that the bus owners of Sisyn's three MCTP bindings assign to it (R468); 0 where none is assigned. -/
structure MctpEids where
  smbus : Byte
  vdmA : Byte
  vdmB : Byte
  deriving DecidableEq, Repr, Inhabited

/-- What the part finds during the power-up sequence (R447, R471, R349, R448, R514, R468): the level of ADDR[1:0] at step 1, how
many verifications of each slot fail, the channels whose training fails, whether the pool self-test fails, the links
that trained, and the endpoint IDs that Sisyn is assigned. -/
structure BootFindings where
  addr : BitVec 2
  slotAFails : BitVec 2
  slotBFails : BitVec 2
  trainFailed : BitVec 192
  selftestFail : Bool
  linkA : Option LinkInfo
  linkB : Option LinkInfo
  eids : MctpEids
  deriving DecidableEq, Repr

/-- A maker-signed command (R489). -/
inductive MakerOp where
  | toField (ownerKey : BitVec 384)
  | scrap
  deriving DecidableEq, Repr

/-- Where a write to the calibration area goes (R463, R488): a quad's bound_off and floor_off, or the trim of a sensor, thermal
sites first, then voltage and current monitors (R464). -/
inductive CalPlace where
  | quad (q : QuadId)
  | trim (sensor : Fin 148)
  deriving DecidableEq, Repr

/-- What a debug access to Sisyn reaches (R488): a byte of its SRAM, or of its processor's debug registers. -/
inductive DebugPlace where
  | sram (offset : BitVec 19)
  | register (offset : BitVec 12)
  deriving DecidableEq, Repr

/-- An SPDM CHALLENGE (R497): the certificate slot, the type of measurement summary asked for, and the requester's nonce. -/
structure SpdmChallenge where
  slot : BitVec 8
  summary : Byte
  nonce : BitVec 256
  deriving DecidableEq, Repr

/-- What a request for measurements names (R498, R499): a measurement by its index, or a record of the passbook by its seq. -/
inductive MeasureAsk where
  | index (i : Byte)
  | record (seq : Word)
  deriving DecidableEq, Repr

/-- The commands: the rows of spec/opcode_table.json. -/
inductive Instr where
  -- Ngaosh instructions
  | nop (c : CoreId) (p : Pred) (f : FmtE)
  | add (c : CoreId) (p : Pred) (f : FmtR)
  | sub (c : CoreId) (p : Pred) (f : FmtR)
  | and (c : CoreId) (p : Pred) (f : FmtR)
  | or (c : CoreId) (p : Pred) (f : FmtR)
  | xor (c : CoreId) (p : Pred) (f : FmtR)
  | shl (c : CoreId) (p : Pred) (f : FmtR)
  | shr (c : CoreId) (p : Pred) (f : FmtR)
  | sra (c : CoreId) (p : Pred) (f : FmtR)
  | mul (c : CoreId) (p : Pred) (f : FmtR)
  | min (c : CoreId) (p : Pred) (f : FmtR)
  | max (c : CoreId) (p : Pred) (f : FmtR)
  | addi (c : CoreId) (p : Pred) (f : FmtI)
  | andi (c : CoreId) (p : Pred) (f : FmtI)
  | lil (c : CoreId) (p : Pred) (f : FmtI)
  | lih (c : CoreId) (p : Pred) (f : FmtI)
  | shli (c : CoreId) (p : Pred) (f : FmtI)
  | shri (c : CoreId) (p : Pred) (f : FmtI)
  | cmp (c : CoreId) (p : Pred) (f : FmtC)
  | cmpi (c : CoreId) (p : Pred) (f : FmtC)
  | plog (c : CoreId) (p : Pred) (f : FmtP)
  | br (c : CoreId) (p : Pred) (f : FmtB)
  | bal (c : CoreId) (p : Pred) (f : FmtB)
  | jr (c : CoreId) (p : Pred) (f : FmtB)
  | end_ (c : CoreId) (p : Pred) (f : FmtE)
  | ld (c : CoreId) (p : Pred) (f : FmtM)
  | st (c : CoreId) (p : Pred) (f : FmtM)
  | dmake (c : CoreId) (p : Pred) (f : FmtD)
  | dget (c : CoreId) (p : Pred) (f : FmtD)
  | dput (c : CoreId) (p : Pred) (f : FmtD)
  | dcopy (c : CoreId) (p : Pred) (f : FmtD)
  | move (c : CoreId) (p : Pred) (side : Bool) (f : FmtT)
  | gather (c : CoreId) (p : Pred) (side : Bool) (f : FmtT)
  | scatter (c : CoreId) (p : Pred) (side : Bool) (f : FmtT)
  | xpose (c : CoreId) (p : Pred) (side : Bool) (f : FmtT)
  | permute (c : CoreId) (p : Pred) (side : Bool) (f : FmtT)
  | fill (c : CoreId) (p : Pred) (f : FmtF)
  | copy (c : CoreId) (p : Pred) (f : FmtF)
  | aadd (c : CoreId) (p : Pred) (f : FmtA)
  | acas (c : CoreId) (p : Pred) (f : FmtA)
  | tmul (c : CoreId) (p : Pred) (f : FmtX)
  | tmul2 (c : CoreId) (p : Pred) (f : FmtY)
  | tstore (c : CoreId) (p : Pred) (f : FmtS)
  | tclear (c : CoreId) (p : Pred) (f : FmtE)
  | tingest (c : CoreId) (p : Pred) (f : FmtS)
  | sintMatch (c : CoreId) (p : Pred) (f : FmtN)
  | sintMerge (c : CoreId) (p : Pred) (f : FmtN)
  | sintPairs (c : CoreId) (p : Pred) (f : FmtN)
  | sintSelect (c : CoreId) (p : Pred) (f : FmtN)
  | pwait (c : CoreId) (p : Pred) (f : FmtE)
  | psig (c : CoreId) (p : Pred) (f : FmtE)
  | fence (c : CoreId) (p : Pred) (f : FmtE)
  | grant (c : CoreId) (p : Pred) (f : FmtG)
  | barrier (c : CoreId) (p : Pred) (f : FmtG)
  | take (c : CoreId) (p : Pred) (f : FmtG)
  | push (c : CoreId) (p : Pred) (f : FmtG)
  | pop (c : CoreId) (p : Pred) (f : FmtG)
  | setprec (c : CoreId) (p : Pred) (f : FmtE)
  | setclass (c : CoreId) (p : Pred) (f : FmtE)
  | spec (c : CoreId) (p : Pred) (f : FmtE)
  | verify (c : CoreId) (p : Pred) (f : FmtE)
  | squash (c : CoreId) (p : Pred) (f : FmtE)
  | sopen (c : CoreId) (p : Pred) (f : FmtE)
  | sclose (c : CoreId) (p : Pred) (f : FmtE)
  | wopen (c : CoreId) (p : Pred) (f : FmtG)
  | wclose (c : CoreId) (p : Pred) (f : FmtG)
  | update (c : CoreId) (p : Pred) (f : FmtG)
  -- steps of a core; `gap`, `cycles` and `waited` are core cycles that a counter shows
  | planning (c : CoreId) (gap : Nat)
  | slipIssue (c : CoreId)
  | freezeEnd (c : CoreId) (cycles : Nat)
  | freezeLimit (c : CoreId)
  | clerkWaitEnd (c : CoreId)
  | opCompletion (c : CoreId) (op : Nat)
  | psigAct (c : CoreId)
  | scloseAct (c : CoreId)
  | bankOwnerAct (c : CoreId)
  | epochCommit (c : CoreId) (e : BitVec 4)
  | epochFree (c : CoreId) (e : BitVec 4)
  | transferStart (c : CoreId) (op : Nat) (waited : Nat)
  | transferComplete (c : CoreId) (op : Nat)
  | p64Add (c : CoreId)
  | coreEnd (c : CoreId)
  -- tasks and host rings
  | taskTimeout
  | taskFailComplete
  | taskTake
  | coreStart
  | hostSubDoorbell (port : HostPort) (ring : RingId) (value : Dword)
  | hostCplDoorbell (port : HostPort) (ring : RingId) (value : Dword)
  | copyIn (ring : RingId) (hostStops : Option Nat)
  | copyOut (ring : RingId) (hostStops : Option Nat)
  | nopEntry (ring : RingId)
  | copyDone (ring : RingId)
  | completionWrite (ring : RingId)
  | msixSend (port : HostPort) (vector : BitVec 11)
  -- registers with behaviour of their own
  | ringConfigWrite (r : Requester) (ring : RingId) (word : Fin 8) (wide : Bool) (value : Dword)
  | pailCfgWrite (r : Requester) (c : CoreId) (pail : BitVec 6) (value : Word)
  | bankPwrReqWrite (r : Requester) (c : CoreId) (value : Word)
  | bankClose (c : CoreId) (b : BankId)
  | bankTransitionEnd (c : CoreId) (b : BankId)
  | poolModeWrite (r : Requester) (value : Word)
  | poolAccess (r : Requester) (offset : Nat) (write : Option Dword)
  | ledgTileFlagsWrite (r : Requester) (c : CoreId) (l : TileId) (value : Word)
  | residentLostClear (r : Requester) (c : CoreId) (value : Word)
  | memcErrClear (r : Requester) (m : ChanId) (value : Word)
  | counterLoRead (r : Requester) (offset : BitVec 28)
  | tellCtrValRead (r : Requester) (counter : BitVec 10)
  | memcErrIdxRead (r : Requester) (m : ChanId)
  | coreTallyCntClr (r : Requester) (c : CoreId) (value : Word)
  | ledgCntClr (r : Requester) (c : CoreId) (value : Word)
  | mintCntClr (r : Requester) (c : CoreId) (value : Word)
  | coreStrainCntClr (r : Requester) (c : CoreId) (value : Word)
  | pwrSkimCntClr (r : Requester) (q : QuadId) (value : Word)
  | spadCntClr (r : Requester) (c : CoreId) (value : Word)
  | spadHubCntClr (r : Requester) (value : Word)
  | coreClerkCntClr (r : Requester) (c : CoreId) (value : Word)
  | coreSchedCntClr (r : Requester) (value : Word)
  | coreDescCntClr (r : Requester) (c : CoreId) (value : Word)
  | tellCntClr (r : Requester) (value : Word)
  | coreRngCntClr (r : Requester) (c : CoreId) (value : Word)
  | pwrMemcCntClr (r : Requester) (m : ChanId) (value : Word)
  | churnCntClr (r : Requester) (n : ChurnId) (value : Word)
  | churnRootCntClr (r : Requester) (i : RimId) (value : Word)
  | spanCntClr (r : Requester) (value : Word)
  | spanPortCntClr (r : Requester) (port : SpanPort) (value : Word)
  | hostCntClr (r : Requester) (port : HostPort) (value : Word)
  | pwrCntClr (r : Requester) (value : Word)
  | sisynCntClr (r : Requester) (value : Word)
  | sisynFpCntClr (r : Requester) (value : Word)
  | sisynLcCntClr (r : Requester) (value : Word)
  | registerWrite (r : Requester) (offset : RegPlace) (wide : Bool) (value : Dword)
  -- Teller
  | tellRetire (r : Requester) (value : Word)
  | takeApply (c : CoreId) (op : Nat)
  | takeEntry (svc : Fin 64)
  | retire (svc : Fin 64)
  | barrierWake (c : CoreId) (op : Nat)
  -- memory controllers
  | memoryRead (addr : BitVec 48)
  | memoryWrite (addr : BitVec 48) (bytes : List Byte)
  | scrubRead (m : ChanId)
  | temperatureRead (m : ChanId) (celsius : BitVec 8)
  -- Churns and root engines
  | churnUpdate (n : ChurnId) (ring : ChurnTurn)
  | churnRelease (n : ChurnId) (ring : Fin 4)
  | churnRemint (n : ChurnId) (ring : ChurnTurn)
  | churnRoot (n : ChurnId) (ring : Fin 4)
  | parkedStart (n : ParkedTurn)
  | fenceTimeout (n : ChurnId) (slot : Fin 8)
  | rootJob (i : RimId)
  | rootJobEnd (i : RimId)
  | churnPbtWrite (r : Requester) (n : ChurnId) (reg : Fin 3) (value : Word)
  | pwrMemmapSplitWrite (r : Requester) (value : Word)
  -- Span
  | flitReceive (port : SpanPort) (flit : BitVec 2048) (fecCorrected : Nat) (fecUncorrectable : Nat)
  | spanRead (hdr : BitVec 128)
  | spanWrite (hdr : BitVec 128) (payload : List Dword)
  | spanFadd (hdr : BitVec 128) (payload : List Dword)
  | spanCas (hdr : BitVec 128) (payload : List Dword)
  | spanMsg (hdr : BitVec 128) (payload : List Dword)
  | spanPartial (hdr : BitVec 128) (payload : List Dword)
  | spanTake (hdr : BitVec 128) (payload : List Dword)
  | rsp (hdr : BitVec 128) (payload : List Dword)
  | spanTimeout (tag : Half)
  | heartbeatSend
  | heartbeat (src : Byte) (msg : BitVec 512)
  | echo (src : Byte) (msg : Dword)
  | registry (src : Byte) (window : BitVec 12) (entry : BitVec 128)
  | resync (src : Byte)
  | link (src : Byte) (msg : Dword)
  | managerLost
  | takeover
  | spanPortDrain (r : Requester) (port : SpanPort)
  | spanPortUndrain (r : Requester) (port : SpanPort)
  | spanPortEnable (r : Requester) (port : SpanPort) (on : Bool)
  | drain (port : SpanPort)
  | drainTimeout (port : SpanPort)
  | init (port : SpanPort) (node : Byte) (peerPort : BitVec 4) (seq : BitVec 12)
  | portDown (port : SpanPort)
  | trainRetry (port : SpanPort) (trains : Bool)
  | modulePlugged (cage : CageId) (identifier : Byte) (power : Byte) (lanesOk : Bool)
  | moduleUnplugged (cage : CageId)
  | spanNodeCtlWrite (r : Requester) (value : Word)
  | spanWinClose (r : Requester) (value : Word)
  -- hosts
  | bar2Read (port : HostPort) (offset : BitVec 48) (len : Nat)
  | bar2Write (port : HostPort) (offset : BitVec 48) (bytes : List Byte)
  | unmappedAccess (port : HostPort) (offset : BitVec 28) (isWrite : Bool)
  | hostClaimWrite (r : Requester) (k : Fin 16) (value : Word)
  | portReset (port : HostPort) (kind : PortResetKind)
  | perstRelease (port : HostPort) (refclk : Bool)
  | refclkArrival (port : HostPort)
  -- power, clocks and reset; `hottest` is the highest junction site in degrees Celsius, `watts` the input power averaged over
  -- 1 ms, `cut` the transfers (core, operation) with accepted requests that a channel has not finished
  | powerOn (find : BootFindings)
  | domainOnRequest (r : Requester) (value : Word)
  | domainOffRequest (r : Requester) (value : Word)
  | domainSwitch (d : DomainId)
  | domainUp (d : DomainId) (trainFailed : BitVec 192)
  | quiesceRequest (r : Requester) (value : Word)
  | enableRequest (r : Requester) (value : Word)
  | quiesceComplete (u : QUnit)
  | quiesceTimeout (u : QuiesceCut)
  | moduleReset (r : Requester) (value : Word)
  | vinWarn (millivolts : Half)
  | vinWarnEnd (millivolts : Half)
  | brownOut
  | droop (q : QuadId)
  | droopEnd (q : QuadId)
  | quadReset (q : QuadId)
  | auxSag (find : BootFindings)
  | auxLoss
  | thermalDemandStep (hottest : Byte)
  | powerDemandStep (watts : Half)
  | thermalTrip
  | tripResume (find : BootFindings)
  | watchdog (find : BootFindings)
  -- Sisyn and the faceplate
  | sensorCopy (temps : List Half) (volts : List Half) (currents : List Half)
  | daybookWrite
  | dbSelect (r : Requester) (k : HostPort) (seq : Word)
  | stateCompare
  | stateRecheck (w : Watched)
  | fwUpdate (imageOk : Bool) (version : Word) (svn : BitVec 7)
  | activateFirmware
  | fwCommit (r : Requester) (value : Word)
  | touch (k : CageId)
  | touchRelease (k : CageId)
  | drainGesture (k : CageId)
  | segmentStuck (k : CageId)
  | attnPress
  | attnLongPress
  | attnGrant (port : HostPort)
  | attnVeto (port : HostPort)
  | attnTimeout
  | powerOff
  | locateEffecter (mode : BitVec 2)
  -- lifecycle and attestation; `r` writes submit where a token comes by the buffer, and `signed` is the requester's nonce
  | challenge (ask : SpdmChallenge)
  | getMeasurements (ask : MeasureAsk) (signed : Option (BitVec 256))
  | newNonce (r : Requester) (value : Word)
  | debugToken (via : TokenVia) (r : Requester) (find : BootFindings)
  | returnToken (via : TokenVia) (r : Requester) (find : BootFindings)
  | scrapToken (via : TokenVia) (r : Requester) (find : BootFindings)
  | keyAdd (via : TokenVia) (r : Requester)
  | keyRevoke (via : TokenVia) (r : Requester)
  | makerProvision (identitySeed : BitVec 384)
  | makerCommand (op : MakerOp) (sigOk : Bool) (find : BootFindings)
  | debugEnd
  | pbSelect (r : Requester) (seq : Word)
  | norRawAccess (offset : BitVec 26) (write : Option Byte)
  | calibrationWrite (place : CalPlace) (first : Byte) (second : Byte)
  | sisynDebugAccess (place : DebugPlace) (write : Option Byte)
  -- steps added by name
  | writeBack (m : ChanId)
  | tagReuse (tag : Half)
  | vinRestored (find : BootFindings)
  | pcieLinkUp (port : HostPort) (link : LinkInfo)
  | addViewWrite (port : HostPort) (c : CoreId) (offset : BitVec 16) (wide : Bool) (value : Dword)
  | invalidSubmissionEntry (ring : RingId) (readFails : Bool)
  | tokenSubmitInvalid (via : TokenVia)
  | confirmationEnd (cage : CageId)
  | resizableBarWrite (port : HostPort) (log2GiB : BitVec 6)
  deriving DecidableEq, Repr

end Sys2Proof
end

