-- ==== Sys2Proof/Machine/CoreState.lean ====
section
/-! DEFINITION. The state of one core: Clerk, Sequencer, ledgers, Scratchpad, core DMA engine and random streams
(03_the_tally.md to 11_ngaosh_instruction_reference.md). Counters and plain registers lie in the register map of
State.lean. -/

namespace Sys2Proof.Machine

/-- A precision (R226) or a tile's tags (R72, R73): point tag and format tag. -/
structure Prec where
  pt : BitVec 10
  w : BitVec 4
  a : BitVec 4
  f : BitVec 4
  deriving DecidableEq, Repr, Inhabited

/-- States of a ledger tile (R80, R151). -/
inductive TileSt where
  | clear
  | opened
  | invalid
  | shadow
  deriving DecidableEq, Repr, Inhabited

/-- A ledger tile (R71–R75, R80, R151). `rows` holds the global rows of its channels where its weight was gathered by
block (R150). `before` holds, for a shadow tile, the tags it held before. A word is listed
at 16n + t; an unlisted word is zero. -/
structure Tile where
  st : TileSt
  tagged : Bool
  tag : Prec
  sat : Bool
  sub : Bool
  range : Bool
  epoch : Nat
  before : Option Prec
  rows : List Nat
  words : Tab (BitVec 192)
  deriving DecidableEq, Repr, Inhabited

/-- A tile at task start (R94): CLEAR and untagged. -/
def Tile.reset : Tile := ⟨.clear, false, ⟨0, 0, 0, 0⟩, false, false, false, 0, none, [], []⟩

/-- Power states of a bank (R191). -/
inductive BankPow where
  | off
  | retain
  | on
  deriving DecidableEq, Repr, Inhabited

/-- A Scratchpad bank's power (R191, R193): the state reached, a request that waits for in-flight writes, a transition
in progress, and the last request that came during it. -/
structure Bank where
  pow : BankPow
  closing : Option BankPow
  moving : Option BankPow
  next : Option BankPow
  deriving DecidableEq, Repr, Inhabited

/-- A bank that is On and at rest. -/
def Bank.reset : Bank := ⟨.on, none, none, none⟩

/-- States of a pail (R185). -/
inductive PailSt where
  | empty
  | filling
  | full
  | draining
  deriving DecidableEq, Repr, Inhabited

/-- A pail's tag (R185), err with the kept status of a failed fill (R189), and its epoch (R190). -/
structure Pail where
  st : PailSt
  err : Bool
  kept : Nat
  epoch : Nat
  deriving DecidableEq, Repr, Inhabited

/-- EMPTY with epoch 0. -/
def Pail.reset : Pail := ⟨.empty, false, 0, 0⟩

/-- States of a speculation epoch (R228). -/
inductive EpochSt where
  | free
  | opened
  | endingVerify
  | endingSquash
  deriving DecidableEq, Repr, Inhabited

/-- A fault that stops a core, or that an operation meets: its status code (R505), what its records show, and the seq of
the daybook entry that is its error record already, 0 for none (R507). -/
structure Stop where
  code : Nat
  detail : Nat
  pc : Option Nat
  slip : Option Nat
  tile : Option Nat
  array : Nat
  dreg : Nat
  row : Nat
  bank : Nat
  port : Nat
  addr : Option Nat
  seq : Nat
  node : Nat
  window : Nat
  deriving DecidableEq, Repr, Inhabited

/-- A stop with a code alone. -/
def Stop.of (code : Nat) : Stop := ⟨code, 0, none, none, none, 0, 0, 0, 0, 0, none, 0, 0, 0⟩

/-- The classes that FENCE selects (R302): `barrier` counts with `sync` and holds later instructions until it lands (R304);
`other` is awaited by none. -/
inductive OpClass where
  | barrier
  | narrow
  | dma
  | tensor
  | sync
  | setclass
  | other
  deriving DecidableEq, Repr, Inhabited

/-- What an ended operation lands (R218, R219). -/
structure OpResult where
  status : Nat
  value : Option Dword
  stop : Stop
  deriving DecidableEq, Repr, Inhabited

/-- A passed instruction that is not complete (R217): its result register gd and status register gs; `named` says
whether it has a status field at all. -/
structure Op where
  id : Nat
  pc : Nat
  cls : OpClass
  gd : Nat
  gs : Nat
  named : Bool
  result : Option OpResult
  deriving DecidableEq, Repr, Inhabited

/-- An operation in the Sequencer queue (R225). -/
inductive SeqKind where
  | tmul (f : FmtX)
  | tmul2 (f : FmtY)
  | tstore (f : FmtS)
  | tclear (mask : Nat)
  | tingest (f : FmtS)
  | sint (fn : Nat) (f : FmtN)
  | setprec (p : Prec)
  | setclass (cls k : Nat)
  deriving DecidableEq, Repr

/-- A slip of an expanded template (R221). -/
structure Slip where
  row : Nat
  kind : Nat
  pail : Nat
  last : Bool
  rowOff : Nat
  rows : Nat
  planeW : Nat
  planeA : Nat
  arrays : Nat
  tile : Nat
  deriving DecidableEq, Repr, Inhabited

/-- One step of a NEST loop (R260): accumulate local reduction elements [k0, k1) of the quartet tile at (n, m) into a
quartet from the slabs in two pails, or store a quartet into a pail. -/
inductive NestStep where
  | slab (half n m k0 k1 wPail aPail : Nat) (lastW lastA : Bool)
  | store (half n m pail : Nat)
  deriving DecidableEq, Repr, Inhabited

/-- What the slips of one chunk of a product are the first to consume (R29, R68, R127): raw chunks of the reduction, and
product groups with their whey records; and what the chunk adds to counters as its first slip issues (R154), as `Part` lists it. -/
structure ChunkUse where
  raws : List Nat
  groups : List Nat
  counts : List (Nat × Nat × Nat)
  deriving DecidableEq, Repr, Inhabited

/-- An entry of a block coordinate list (R131): row block, chunk, slot. -/
abbrev ListEntry := Nat × Nat × Nat

/-- A part of an operation: TMUL2 has three (R292), any other operation one. Its number, whether it takes its pail events
alone (R254–R256), the slips still to issue, the steps of a NEST loop, and what its end adds to counters: a 64-bit
counter (code 0), a 32-bit one (1) or a register that holds a maximum (2), with its place and the amount. `pairs` is how
many plane-pair cycles of the part are not counted yet (R69); `uses` is what its chunks to come consume, in order of issue. `first` is
what its first slip adds to counters, `perGroup` what each product group adds as it scatters (R88). Of a NEST loop, `halves` are the
quartets that it uses, and `lists` the entries of its operands' lists as far as they have been read, by d-register (R138). -/
structure Part where
  num : Nat
  quiet : Bool
  slips : List Slip
  nest : List NestStep
  counts : List (Nat × Nat × Nat)
  pairs : Nat
  uses : List ChunkUse
  first : List (Nat × Nat × Nat)
  perGroup : List (List (Nat × Nat × Nat))
  halves : List Nat
  lists : List (Nat × List ListEntry)
  deriving DecidableEq, Repr, Inhabited

/-- A part without slips, steps or counts. -/
def plainPart (num : Nat) : Part := ⟨num, false, [], [], [], 0, [], [], [], [], []⟩

/-- The plan of an operation (R223): the parts still to run. -/
structure Plan where
  parts : List Part
  deriving DecidableEq, Repr, Inhabited

/-- A descriptor as an operation copied it at pass (R222): its d-register, its bits, and the value bound to a dimension
(R253). -/
structure DCopy where
  dreg : Nat
  bits : BitVec 512
  bound : Dword
  deriving DecidableEq, Repr, Inhabited

/-- An entry of the Sequencer queue, with the copies of R222 and R118. `overlay` holds the Scratchpad bytes that its
READ slips have read, by plain offset; `group` is the next product group that ends; `checked` is how many PAIR slips of the
part have issued, and so consumed their operands (R68); `begun` says that the part now running has issued its first slip; `drawn` is
one above the last index drawn for the Sampled checker (R330). -/
structure SeqOp where
  id : Nat
  pc : Nat
  epoch : Nat
  slip : Nat
  kind : SeqKind
  descs : List DCopy
  gvals : List Dword
  prec : Option Prec
  tables : Tab Word
  plan : Option Plan
  started : Bool
  begun : Bool
  group : Nat
  checked : Nat
  drawn : Nat
  overlay : Tab Byte
  reads : List Nat
  writes : List Nat
  deriving DecidableEq, Repr

/-- Kinds of transfers of the core DMA engine (R282, R286). -/
inductive XferKind where
  | move
  | gather
  | scatter
  | xpose
  | permute
  | fill
  | copy
  deriving DecidableEq, Repr, Inhabited

/-- A window and generation that a request carries (R393). -/
structure WinRef where
  node : Nat
  window : Nat
  generation : Nat
  deriving DecidableEq, Repr, Inhabited

/-- Where a P64 add came from (R86). -/
inductive AddFrom where
  | xfer (c id : Nat)
  | partials (served : Nat)
  | host
  deriving DecidableEq, Repr, Inhabited

/-- A P64 add on its way to a tile of a core (R86, R89). -/
structure LedgAdd where
  src : AddFrom
  tile : Nat
  word : Nat
  value : Dword
  deriving DecidableEq, Repr, Inhabited

/-- A transfer in the core DMA queue, with what it copied at pass (R283). `remote` holds the bytes of other modules that
have arrived, by Span address; `spanWait` the tags of its requests in flight, 65,536 for one that waits for a tag; `addWait`
its ledger adds on their way; `addHold` those, by core, that wait for room in an add-port buffer (R89). -/
structure Xfer where
  id : Nat
  pc : Nat
  kind : XferKind
  side : Bool
  src : DCopy
  dst : DCopy
  list : DCopy
  org : Dword
  form : Bool
  cnt : Dword
  dstAddr : Nat
  srcAddr : Nat
  len : Nat
  srcPail : Option Nat
  dstPail : Option Nat
  epoch : Nat
  grant : Option Dword
  granted : Bool
  srcWin : Option WinRef
  dstWin : Option WinRef
  listWin : Option WinRef
  nest : Bool
  started : Bool
  moved : Bool
  discard : Bool
  status : Nat
  stop : Stop
  remote : Tab Byte
  spanWait : List Nat
  addWait : Nat
  addHold : List (Nat × LedgAdd)
  deriving DecidableEq, Repr, Inhabited

/-- A lockstep freeze (R65): the pail that the freeze waits for. -/
structure Freeze where
  pail : Nat
  deriving DecidableEq, Repr, Inhabited

/-- One core. `sampleGroups` counts product groups by array (R163); `packed` holds, by the whey base of a destination, the
blocks that a GATHER of form 1 put there (R150); `sampledAct` is the activity
threshold that SELECT last copied (R155). -/
structure Core where
  running : Bool
  ended : Bool
  stopped : Bool
  ending : Bool
  waiting : Option Instr
  pc : Nat
  progLen : Nat
  store : Tab Dword
  g : Tab Dword
  d : Tab (BitVec 512)
  p : Tab Bool
  grant : Option Dword
  ops : List Op
  nextOp : Nat
  precPass : Option Prec
  precHead : Option Prec
  classHead : Nat × Nat
  slipRows : Nat
  slips : Tab (BitVec 256)
  seq : List SeqOp
  freeze : Option Freeze
  tiles : Tab Tile
  adds : List LedgAdd
  sampleGroups : Tab Nat
  epochs : Tab EpochSt
  streams : Tab (Nat × Bool)
  psigs : List (Nat × Nat)
  scloses : List (Nat × Nat)
  ownerReq : Option Word
  owner : Word
  banks : Tab Bank
  pails : Tab Pail
  mem : Tab Byte
  badParity : List Nat
  dma : List Xfer
  mirror : Tab (BitVec 16)
  sampledBlocks : List Nat
  sampledAct : Word
  packed : List (Nat × List Nat)
  deriving DecidableEq, Repr

/-- A core right after reset: nothing runs, nothing is loaded, every bank is On (R203). DESIGN CHOICE (log entry 7). DESIGN CHOICE (log entry 9). -/
def Core.reset : Core where
  running := false
  ended := false
  stopped := false
  ending := false
  waiting := none
  pc := 0
  progLen := 0
  store := []
  g := []
  d := []
  p := []
  grant := none
  ops := []
  nextOp := 0
  precPass := none
  precHead := none
  classHead := (0, 0)
  slipRows := 0
  slips := []
  seq := []
  freeze := none
  tiles := []
  adds := []
  sampleGroups := []
  epochs := []
  streams := []
  psigs := []
  scloses := []
  ownerReq := none
  owner := 0
  banks := []
  pails := []
  mem := []
  badParity := []
  dma := []
  mirror := []
  sampledBlocks := []
  sampledAct := 0
  packed := []

end Sys2Proof.Machine
end

