-- ==== Sys2Proof/Machine/RegMap.lean ====
section
/-! DEFINITION. The control space (16_host_attachment.md R422, R423): the register blocks, every register with the bits
that a write sets (RW), the bits that a 1 clears (RW1C) and its reset value, from the register tables of the chapters.
Register names are the manual's. -/

namespace Sys2Proof.Machine

/-- A register, or `count` registers at a stride: block offset, writable bits, write-one-to-clear bits, reset value. -/
structure RegRow where
  off : Nat
  stride : Nat
  count : Nat
  rw : Nat
  w1c : Nat
  reset : Nat
  deriving DecidableEq, Repr

/-- The kinds of register blocks. -/
inductive BlockKind where
  | tally
  | ledg
  | strain
  | clerk
  | desc
  | rng
  | spad
  | mint
  | handle
  | skim
  | sched
  | tell
  | hub
  | memc
  | memmap
  | churn
  | root
  | spanPort
  | span
  | pwr
  | sisyn
  | fp
  | lc
  | host
  | claim
  deriving DecidableEq, Repr

/-- A row of blocks of one kind: BAR0 offset of block 0, pitch, number, size, unit_kind. -/
structure BlockRow where
  kind : BlockKind
  base : Nat
  stride : Nat
  count : Nat
  size : Nat
  unit : Nat
  rows : List RegRow
  deriving DecidableEq, Repr

namespace Reg

/-- CORE_TALLY_ID (03_the_tally.md R69), BAR0 offset. -/
def CORE_TALLY_ID (c : Nat) : Nat := 0x00080000 + 0x100000 * c

/-- CORE_TALLY_STATUS (03_the_tally.md R69), BAR0 offset. -/
def CORE_TALLY_STATUS (c : Nat) : Nat := 0x00080004 + 0x100000 * c

/-- CORE_TALLY_FREEZE_LIMIT (03_the_tally.md R69), BAR0 offset. -/
def CORE_TALLY_FREEZE_LIMIT (c : Nat) : Nat := 0x00080008 + 0x100000 * c

/-- CORE_TALLY_CNT_CLR (03_the_tally.md R69), BAR0 offset. -/
def CORE_TALLY_CNT_CLR (c : Nat) : Nat := 0x0008000C + 0x100000 * c

/-- CORE_TALLY_PAIRS_LO (03_the_tally.md R69), BAR0 offset. -/
def CORE_TALLY_PAIRS_LO (c : Nat) : Nat := 0x00080010 + 0x100000 * c

/-- CORE_TALLY_PAIRS_HI (03_the_tally.md R69), BAR0 offset. -/
def CORE_TALLY_PAIRS_HI (c : Nat) : Nat := 0x00080014 + 0x100000 * c

/-- CORE_TALLY_STALL_LO (03_the_tally.md R69), BAR0 offset. -/
def CORE_TALLY_STALL_LO (c : Nat) : Nat := 0x00080018 + 0x100000 * c

/-- CORE_TALLY_STALL_HI (03_the_tally.md R69), BAR0 offset. -/
def CORE_TALLY_STALL_HI (c : Nat) : Nat := 0x0008001C + 0x100000 * c

/-- CORE_TALLY_PORT_LO (03_the_tally.md R69), BAR0 offset. -/
def CORE_TALLY_PORT_LO (c : Nat) : Nat := 0x00080020 + 0x100000 * c

/-- CORE_TALLY_PORT_HI (03_the_tally.md R69), BAR0 offset. -/
def CORE_TALLY_PORT_HI (c : Nat) : Nat := 0x00080024 + 0x100000 * c

/-- CORE_TALLY_TERMS_LO (03_the_tally.md R69), BAR0 offset. -/
def CORE_TALLY_TERMS_LO (c : Nat) : Nat := 0x00080028 + 0x100000 * c

/-- CORE_TALLY_TERMS_HI (03_the_tally.md R69), BAR0 offset. -/
def CORE_TALLY_TERMS_HI (c : Nat) : Nat := 0x0008002C + 0x100000 * c

/-- CORE_TALLY_NO_TERM (03_the_tally.md R69), BAR0 offset. -/
def CORE_TALLY_NO_TERM (c : Nat) : Nat := 0x00080030 + 0x100000 * c

/-- CORE_TALLY_FREEZE_MAX (03_the_tally.md R69), BAR0 offset. -/
def CORE_TALLY_FREEZE_MAX (c : Nat) : Nat := 0x00080034 + 0x100000 * c

/-- CORE_TALLY_FAULT (03_the_tally.md R69), BAR0 offset. -/
def CORE_TALLY_FAULT (c : Nat) : Nat := 0x00080038 + 0x100000 * c

/-- LEDG_ID (04_ledgers.md R93), BAR0 offset. -/
def LEDG_ID (c : Nat) : Nat := 0x00080100 + 0x100000 * c

/-- LEDG_STATUS (04_ledgers.md R93), BAR0 offset. -/
def LEDG_STATUS (c : Nat) : Nat := 0x00080104 + 0x100000 * c

/-- LEDG_CNT_CLR (04_ledgers.md R93), BAR0 offset. -/
def LEDG_CNT_CLR (c : Nat) : Nat := 0x00080108 + 0x100000 * c

/-- LEDG_TILE_TAG_l (04_ledgers.md R93), BAR0 offset. -/
def LEDG_TILE_TAG (c : Nat) (l : Nat) : Nat := 0x00080110 + 0x100000 * c + 8 * l

/-- LEDG_TILE_FLAGS_l (04_ledgers.md R93), BAR0 offset. -/
def LEDG_TILE_FLAGS (c : Nat) (l : Nat) : Nat := 0x00080114 + 0x100000 * c + 8 * l

/-- LEDG_SUB_TERMS_LO (04_ledgers.md R93), BAR0 offset. -/
def LEDG_SUB_TERMS_LO (c : Nat) : Nat := 0x00080150 + 0x100000 * c

/-- LEDG_SUB_TERMS_HI (04_ledgers.md R93), BAR0 offset. -/
def LEDG_SUB_TERMS_HI (c : Nat) : Nat := 0x00080154 + 0x100000 * c

/-- LEDG_SAT_ADDS (04_ledgers.md R93), BAR0 offset. -/
def LEDG_SAT_ADDS (c : Nat) : Nat := 0x00080158 + 0x100000 * c

/-- LEDG_SCALE_RANGE_TERMS (04_ledgers.md R93), BAR0 offset. -/
def LEDG_SCALE_RANGE_TERMS (c : Nat) : Nat := 0x0008015C + 0x100000 * c

/-- LEDG_REMOTE_ADDS_LO (04_ledgers.md R93), BAR0 offset. -/
def LEDG_REMOTE_ADDS_LO (c : Nat) : Nat := 0x00080160 + 0x100000 * c

/-- LEDG_REMOTE_ADDS_HI (04_ledgers.md R93), BAR0 offset. -/
def LEDG_REMOTE_ADDS_HI (c : Nat) : Nat := 0x00080164 + 0x100000 * c

/-- LEDG_REMOTE_DROP (04_ledgers.md R93), BAR0 offset. -/
def LEDG_REMOTE_DROP (c : Nat) : Nat := 0x00080168 + 0x100000 * c

/-- LEDG_SCATTER_IDLE (04_ledgers.md R93), BAR0 offset. -/
def LEDG_SCATTER_IDLE (c : Nat) : Nat := 0x0008016C + 0x100000 * c

/-- LEDG_QUEUE_MAX (04_ledgers.md R93), BAR0 offset. -/
def LEDG_QUEUE_MAX (c : Nat) : Nat := 0x00080170 + 0x100000 * c

/-- LEDG_FAULT (04_ledgers.md R93), BAR0 offset. -/
def LEDG_FAULT (c : Nat) : Nat := 0x00080174 + 0x100000 * c

/-- CORE_STRAIN_ID (06_sparse_operands_and_the_strainer.md R154), BAR0 offset. -/
def CORE_STRAIN_ID (c : Nat) : Nat := 0x00080200 + 0x100000 * c

/-- CORE_STRAIN_STATUS (06_sparse_operands_and_the_strainer.md R154), BAR0 offset. -/
def CORE_STRAIN_STATUS (c : Nat) : Nat := 0x00080204 + 0x100000 * c

/-- CORE_STRAIN_CNT_CLR (06_sparse_operands_and_the_strainer.md R154), BAR0 offset. -/
def CORE_STRAIN_CNT_CLR (c : Nat) : Nat := 0x00080208 + 0x100000 * c

/-- CORE_STRAIN_PRED_CTL (06_sparse_operands_and_the_strainer.md R154), BAR0 offset. -/
def CORE_STRAIN_PRED_CTL (c : Nat) : Nat := 0x0008020C + 0x100000 * c

/-- CORE_STRAIN_PRED_THRESH (06_sparse_operands_and_the_strainer.md R154), BAR0 offset. -/
def CORE_STRAIN_PRED_THRESH (c : Nat) : Nat := 0x00080210 + 0x100000 * c

/-- CORE_STRAIN_PRED_ACT (06_sparse_operands_and_the_strainer.md R154), BAR0 offset. -/
def CORE_STRAIN_PRED_ACT (c : Nat) : Nat := 0x00080214 + 0x100000 * c

/-- CORE_STRAIN_COMPACT_LO (06_sparse_operands_and_the_strainer.md R154), BAR0 offset. -/
def CORE_STRAIN_COMPACT_LO (c : Nat) : Nat := 0x00080218 + 0x100000 * c

/-- CORE_STRAIN_COMPACT_HI (06_sparse_operands_and_the_strainer.md R154), BAR0 offset. -/
def CORE_STRAIN_COMPACT_HI (c : Nat) : Nat := 0x0008021C + 0x100000 * c

/-- CORE_STRAIN_RAW_LO (06_sparse_operands_and_the_strainer.md R154), BAR0 offset. -/
def CORE_STRAIN_RAW_LO (c : Nat) : Nat := 0x00080220 + 0x100000 * c

/-- CORE_STRAIN_RAW_HI (06_sparse_operands_and_the_strainer.md R154), BAR0 offset. -/
def CORE_STRAIN_RAW_HI (c : Nat) : Nat := 0x00080224 + 0x100000 * c

/-- CORE_STRAIN_STEALS (06_sparse_operands_and_the_strainer.md R154), BAR0 offset. -/
def CORE_STRAIN_STEALS (c : Nat) : Nat := 0x00080228 + 0x100000 * c

/-- CORE_STRAIN_SKIPPED (06_sparse_operands_and_the_strainer.md R154), BAR0 offset. -/
def CORE_STRAIN_SKIPPED (c : Nat) : Nat := 0x0008022C + 0x100000 * c

/-- CORE_STRAIN_PRED_ACTIVE (06_sparse_operands_and_the_strainer.md R154), BAR0 offset. -/
def CORE_STRAIN_PRED_ACTIVE (c : Nat) : Nat := 0x00080230 + 0x100000 * c

/-- CORE_STRAIN_PRED_INACTIVE (06_sparse_operands_and_the_strainer.md R154), BAR0 offset. -/
def CORE_STRAIN_PRED_INACTIVE (c : Nat) : Nat := 0x00080234 + 0x100000 * c

/-- CORE_STRAIN_PRED_SAMPLED (06_sparse_operands_and_the_strainer.md R154), BAR0 offset. -/
def CORE_STRAIN_PRED_SAMPLED (c : Nat) : Nat := 0x00080238 + 0x100000 * c

/-- CORE_STRAIN_PRED_MISSED (06_sparse_operands_and_the_strainer.md R154), BAR0 offset. -/
def CORE_STRAIN_PRED_MISSED (c : Nat) : Nat := 0x0008023C + 0x100000 * c

/-- CORE_STRAIN_SHADOW (06_sparse_operands_and_the_strainer.md R154), BAR0 offset. -/
def CORE_STRAIN_SHADOW (c : Nat) : Nat := 0x00080240 + 0x100000 * c

/-- CORE_STRAIN_FAULT (06_sparse_operands_and_the_strainer.md R154), BAR0 offset. -/
def CORE_STRAIN_FAULT (c : Nat) : Nat := 0x00080244 + 0x100000 * c

/-- CORE_CLERK_ID (09_programming_model.md R235), BAR0 offset. -/
def CORE_CLERK_ID (c : Nat) : Nat := 0x00080300 + 0x100000 * c

/-- CORE_CLERK_STATUS (09_programming_model.md R235), BAR0 offset. -/
def CORE_CLERK_STATUS (c : Nat) : Nat := 0x00080304 + 0x100000 * c

/-- CORE_CLERK_PC (09_programming_model.md R235), BAR0 offset. -/
def CORE_CLERK_PC (c : Nat) : Nat := 0x00080308 + 0x100000 * c

/-- CORE_CLERK_CNT_CLR (09_programming_model.md R235), BAR0 offset. -/
def CORE_CLERK_CNT_CLR (c : Nat) : Nat := 0x0008030C + 0x100000 * c

/-- CORE_CLERK_INSTR_LO (09_programming_model.md R235), BAR0 offset. -/
def CORE_CLERK_INSTR_LO (c : Nat) : Nat := 0x00080310 + 0x100000 * c

/-- CORE_CLERK_INSTR_HI (09_programming_model.md R235), BAR0 offset. -/
def CORE_CLERK_INSTR_HI (c : Nat) : Nat := 0x00080314 + 0x100000 * c

/-- CORE_SEQ_SLIPS_LO (09_programming_model.md R235), BAR0 offset. -/
def CORE_SEQ_SLIPS_LO (c : Nat) : Nat := 0x00080318 + 0x100000 * c

/-- CORE_SEQ_SLIPS_HI (09_programming_model.md R235), BAR0 offset. -/
def CORE_SEQ_SLIPS_HI (c : Nat) : Nat := 0x0008031C + 0x100000 * c

/-- CORE_SEQ_GAP_LO (09_programming_model.md R235), BAR0 offset. -/
def CORE_SEQ_GAP_LO (c : Nat) : Nat := 0x00080320 + 0x100000 * c

/-- CORE_SEQ_GAP_HI (09_programming_model.md R235), BAR0 offset. -/
def CORE_SEQ_GAP_HI (c : Nat) : Nat := 0x00080324 + 0x100000 * c

/-- CORE_SPEC_STATE (09_programming_model.md R235), BAR0 offset. -/
def CORE_SPEC_STATE (c : Nat) : Nat := 0x00080328 + 0x100000 * c

/-- CORE_SPEC_OPENED (09_programming_model.md R235), BAR0 offset. -/
def CORE_SPEC_OPENED (c : Nat) : Nat := 0x0008032C + 0x100000 * c

/-- CORE_SPEC_VERIFIED (09_programming_model.md R235), BAR0 offset. -/
def CORE_SPEC_VERIFIED (c : Nat) : Nat := 0x00080330 + 0x100000 * c

/-- CORE_SPEC_SQUASHED (09_programming_model.md R235), BAR0 offset. -/
def CORE_SPEC_SQUASHED (c : Nat) : Nat := 0x00080334 + 0x100000 * c

/-- CORE_SPEC_CUT (09_programming_model.md R235), BAR0 offset. -/
def CORE_SPEC_CUT (c : Nat) : Nat := 0x00080338 + 0x100000 * c

/-- CORE_SPEC_DISCARDED (09_programming_model.md R235), BAR0 offset. -/
def CORE_SPEC_DISCARDED (c : Nat) : Nat := 0x0008033C + 0x100000 * c

/-- CORE_CLERK_PREC (09_programming_model.md R235), BAR0 offset. -/
def CORE_CLERK_PREC (c : Nat) : Nat := 0x00080340 + 0x100000 * c

/-- CORE_CLERK_FAULT (09_programming_model.md R235), BAR0 offset. -/
def CORE_CLERK_FAULT (c : Nat) : Nat := 0x00080344 + 0x100000 * c

/-- CORE_CLERK_FAULT_SLIP (09_programming_model.md R235), BAR0 offset. -/
def CORE_CLERK_FAULT_SLIP (c : Nat) : Nat := 0x00080348 + 0x100000 * c

/-- CORE_DESC_ID (10_tensors_and_tiling.md R270), BAR0 offset. -/
def CORE_DESC_ID (c : Nat) : Nat := 0x00080400 + 0x100000 * c

/-- CORE_DESC_STATUS (10_tensors_and_tiling.md R270), BAR0 offset. -/
def CORE_DESC_STATUS (c : Nat) : Nat := 0x00080404 + 0x100000 * c

/-- CORE_DESC_CNT_CLR (10_tensors_and_tiling.md R270), BAR0 offset. -/
def CORE_DESC_CNT_CLR (c : Nat) : Nat := 0x00080408 + 0x100000 * c

/-- CORE_DESC_DROPPED_LO (10_tensors_and_tiling.md R270), BAR0 offset. -/
def CORE_DESC_DROPPED_LO (c : Nat) : Nat := 0x00080410 + 0x100000 * c

/-- CORE_DESC_DROPPED_HI (10_tensors_and_tiling.md R270), BAR0 offset. -/
def CORE_DESC_DROPPED_HI (c : Nat) : Nat := 0x00080414 + 0x100000 * c

/-- CORE_DESC_OOB_WRITES_LO (10_tensors_and_tiling.md R270), BAR0 offset. -/
def CORE_DESC_OOB_WRITES_LO (c : Nat) : Nat := 0x00080418 + 0x100000 * c

/-- CORE_DESC_OOB_WRITES_HI (10_tensors_and_tiling.md R270), BAR0 offset. -/
def CORE_DESC_OOB_WRITES_HI (c : Nat) : Nat := 0x0008041C + 0x100000 * c

/-- CORE_DESC_FILL_READS_LO (10_tensors_and_tiling.md R270), BAR0 offset. -/
def CORE_DESC_FILL_READS_LO (c : Nat) : Nat := 0x00080420 + 0x100000 * c

/-- CORE_DESC_FILL_READS_HI (10_tensors_and_tiling.md R270), BAR0 offset. -/
def CORE_DESC_FILL_READS_HI (c : Nat) : Nat := 0x00080424 + 0x100000 * c

/-- CORE_DESC_NOOPS (10_tensors_and_tiling.md R270), BAR0 offset. -/
def CORE_DESC_NOOPS (c : Nat) : Nat := 0x00080428 + 0x100000 * c

/-- CORE_DESC_NEST_REUSE (10_tensors_and_tiling.md R270), BAR0 offset. -/
def CORE_DESC_NEST_REUSE (c : Nat) : Nat := 0x0008042C + 0x100000 * c

/-- CORE_DESC_FAULT (10_tensors_and_tiling.md R270), BAR0 offset. -/
def CORE_DESC_FAULT (c : Nat) : Nat := 0x00080430 + 0x100000 * c

/-- CORE_DESC_FAULT_PC (10_tensors_and_tiling.md R270), BAR0 offset. -/
def CORE_DESC_FAULT_PC (c : Nat) : Nat := 0x00080434 + 0x100000 * c

/-- CORE_RNG_ID (12_teller_and_random_streams.md R332), BAR0 offset. -/
def CORE_RNG_ID (c : Nat) : Nat := 0x00080500 + 0x100000 * c

/-- CORE_RNG_STATUS (12_teller_and_random_streams.md R332), BAR0 offset. -/
def CORE_RNG_STATUS (c : Nat) : Nat := 0x00080504 + 0x100000 * c

/-- CORE_RNG_CNT_CLR (12_teller_and_random_streams.md R332), BAR0 offset. -/
def CORE_RNG_CNT_CLR (c : Nat) : Nat := 0x00080508 + 0x100000 * c

/-- CORE_RNG_BLOCKS_LO (12_teller_and_random_streams.md R332), BAR0 offset. -/
def CORE_RNG_BLOCKS_LO (c : Nat) : Nat := 0x00080510 + 0x100000 * c

/-- CORE_RNG_BLOCKS_HI (12_teller_and_random_streams.md R332), BAR0 offset. -/
def CORE_RNG_BLOCKS_HI (c : Nat) : Nat := 0x00080514 + 0x100000 * c

/-- CORE_RNG_FAULT (12_teller_and_random_streams.md R332), BAR0 offset. -/
def CORE_RNG_FAULT (c : Nat) : Nat := 0x00080518 + 0x100000 * c

/-- CORE_RNG_STREAM_s (12_teller_and_random_streams.md R332), BAR0 offset. -/
def CORE_RNG_STREAM (c : Nat) (s : Nat) : Nat := 0x00080520 + 0x100000 * c + 4 * s

/-- SPAD_ID (08_scratchpad_pails_and_rings.md R203), BAR0 offset. -/
def SPAD_ID (c : Nat) : Nat := 0x00080800 + 0x100000 * c

/-- SPAD_STATUS (08_scratchpad_pails_and_rings.md R203), BAR0 offset. -/
def SPAD_STATUS (c : Nat) : Nat := 0x00080804 + 0x100000 * c

/-- SPAD_CNT_CLR (08_scratchpad_pails_and_rings.md R203), BAR0 offset. -/
def SPAD_CNT_CLR (c : Nat) : Nat := 0x00080808 + 0x100000 * c

/-- SPAD_BANK_OWNER (08_scratchpad_pails_and_rings.md R203), BAR0 offset. -/
def SPAD_BANK_OWNER (c : Nat) : Nat := 0x0008080C + 0x100000 * c

/-- SPAD_BANK_PWR_REQ (08_scratchpad_pails_and_rings.md R203), BAR0 offset. -/
def SPAD_BANK_PWR_REQ (c : Nat) : Nat := 0x00080810 + 0x100000 * c

/-- SPAD_BANK_PWR_STATE (08_scratchpad_pails_and_rings.md R203), BAR0 offset. -/
def SPAD_BANK_PWR_STATE (c : Nat) : Nat := 0x00080814 + 0x100000 * c

/-- SPAD_BANK_CLOSING (08_scratchpad_pails_and_rings.md R203), BAR0 offset. -/
def SPAD_BANK_CLOSING (c : Nat) : Nat := 0x00080818 + 0x100000 * c

/-- SPAD_TASK_BANKS (08_scratchpad_pails_and_rings.md R203), BAR0 offset. -/
def SPAD_TASK_BANKS (c : Nat) : Nat := 0x0008081C + 0x100000 * c

/-- SPAD_RESIDENT_k (08_scratchpad_pails_and_rings.md R203), BAR0 offset. -/
def SPAD_RESIDENT (c : Nat) (k : Nat) : Nat := 0x00080820 + 0x100000 * c + 8 * k

/-- SPAD_RESIDENT_k_BANKS (08_scratchpad_pails_and_rings.md R203), BAR0 offset. -/
def SPAD_RESIDENT_BANKS (c : Nat) (k : Nat) : Nat := 0x00080824 + 0x100000 * c + 8 * k

/-- SPAD_PARITY_ERRS (08_scratchpad_pails_and_rings.md R203), BAR0 offset. -/
def SPAD_PARITY_ERRS (c : Nat) : Nat := 0x00080830 + 0x100000 * c

/-- SPAD_OFF_DROPS (08_scratchpad_pails_and_rings.md R203), BAR0 offset. -/
def SPAD_OFF_DROPS (c : Nat) : Nat := 0x00080834 + 0x100000 * c

/-- SPAD_PORT_DENIED (08_scratchpad_pails_and_rings.md R203), BAR0 offset. -/
def SPAD_PORT_DENIED (c : Nat) : Nat := 0x00080838 + 0x100000 * c

/-- SPAD_PAIL_NACKS (08_scratchpad_pails_and_rings.md R203), BAR0 offset. -/
def SPAD_PAIL_NACKS (c : Nat) : Nat := 0x0008083C + 0x100000 * c

/-- SPAD_PAIL_WAIT_LO (08_scratchpad_pails_and_rings.md R203), BAR0 offset. -/
def SPAD_PAIL_WAIT_LO (c : Nat) : Nat := 0x00080840 + 0x100000 * c

/-- SPAD_PAIL_WAIT_HI (08_scratchpad_pails_and_rings.md R203), BAR0 offset. -/
def SPAD_PAIL_WAIT_HI (c : Nat) : Nat := 0x00080844 + 0x100000 * c

/-- SPAD_FAULT (08_scratchpad_pails_and_rings.md R203), BAR0 offset. -/
def SPAD_FAULT (c : Nat) : Nat := 0x00080848 + 0x100000 * c

/-- SPAD_FAULT_SLIP (08_scratchpad_pails_and_rings.md R203), BAR0 offset. -/
def SPAD_FAULT_SLIP (c : Nat) : Nat := 0x0008084C + 0x100000 * c

/-- SPAD_PAIL_CFG_i (08_scratchpad_pails_and_rings.md R203), BAR0 offset. -/
def SPAD_PAIL_CFG (c : Nat) (i : Nat) : Nat := 0x00080900 + 0x100000 * c + 8 * i

/-- SPAD_PAIL_STATE_i (08_scratchpad_pails_and_rings.md R203), BAR0 offset. -/
def SPAD_PAIL_STATE (c : Nat) (i : Nat) : Nat := 0x00080904 + 0x100000 * c + 8 * i

/-- MINT_ID (05_the_mint.md R119), BAR0 offset. -/
def MINT_ID (c : Nat) : Nat := 0x00081000 + 0x100000 * c

/-- MINT_STATUS (05_the_mint.md R119), BAR0 offset. -/
def MINT_STATUS (c : Nat) : Nat := 0x00081004 + 0x100000 * c

/-- MINT_CNT_CLR (05_the_mint.md R119), BAR0 offset. -/
def MINT_CNT_CLR (c : Nat) : Nat := 0x00081008 + 0x100000 * c

/-- MINT_SAT_CODES_LO (05_the_mint.md R119), BAR0 offset. -/
def MINT_SAT_CODES_LO (c : Nat) : Nat := 0x00081010 + 0x100000 * c

/-- MINT_SAT_CODES_HI (05_the_mint.md R119), BAR0 offset. -/
def MINT_SAT_CODES_HI (c : Nat) : Nat := 0x00081014 + 0x100000 * c

/-- MINT_ZERO_CODES_LO (05_the_mint.md R119), BAR0 offset. -/
def MINT_ZERO_CODES_LO (c : Nat) : Nat := 0x00081018 + 0x100000 * c

/-- MINT_ZERO_CODES_HI (05_the_mint.md R119), BAR0 offset. -/
def MINT_ZERO_CODES_HI (c : Nat) : Nat := 0x0008101C + 0x100000 * c

/-- MINT_NZ_INPUTS_LO (05_the_mint.md R119), BAR0 offset. -/
def MINT_NZ_INPUTS_LO (c : Nat) : Nat := 0x00081020 + 0x100000 * c

/-- MINT_NZ_INPUTS_HI (05_the_mint.md R119), BAR0 offset. -/
def MINT_NZ_INPUTS_HI (c : Nat) : Nat := 0x00081024 + 0x100000 * c

/-- MINT_CLIP_RETRY (05_the_mint.md R119), BAR0 offset. -/
def MINT_CLIP_RETRY (c : Nat) : Nat := 0x00081028 + 0x100000 * c

/-- MINT_FUNC_CLAMP (05_the_mint.md R119), BAR0 offset. -/
def MINT_FUNC_CLAMP (c : Nat) : Nat := 0x0008102C + 0x100000 * c

/-- MINT_STORES_LO (05_the_mint.md R119), BAR0 offset. -/
def MINT_STORES_LO (c : Nat) : Nat := 0x00081030 + 0x100000 * c

/-- MINT_STORES_HI (05_the_mint.md R119), BAR0 offset. -/
def MINT_STORES_HI (c : Nat) : Nat := 0x00081034 + 0x100000 * c

/-- MINT_COMPRESSED (05_the_mint.md R119), BAR0 offset. -/
def MINT_COMPRESSED (c : Nat) : Nat := 0x00081038 + 0x100000 * c

/-- MINT_DENSE (05_the_mint.md R119), BAR0 offset. -/
def MINT_DENSE (c : Nat) : Nat := 0x0008103C + 0x100000 * c

/-- MINT_STAT_MAXABS (05_the_mint.md R119), BAR0 offset. -/
def MINT_STAT_MAXABS (c : Nat) : Nat := 0x00081040 + 0x100000 * c

/-- MINT_LAST_FLAGS (05_the_mint.md R119), BAR0 offset. -/
def MINT_LAST_FLAGS (c : Nat) : Nat := 0x00081044 + 0x100000 * c

/-- MINT_FAULT (05_the_mint.md R119), BAR0 offset. -/
def MINT_FAULT (c : Nat) : Nat := 0x00081048 + 0x100000 * c

/-- MINT_GSCALE_j (05_the_mint.md R119), BAR0 offset. -/
def MINT_GSCALE (c : Nat) (j : Nat) : Nat := 0x00081200 + 0x100000 * c + 4 * j

/-- MINT_CHMUL_n (05_the_mint.md R119), BAR0 offset. -/
def MINT_CHMUL (c : Nat) (n : Nat) : Nat := 0x00081400 + 0x100000 * c + 4 * n

/-- SPAN_HANDLE_ID (15_span_fabric.md R417), BAR0 offset. -/
def SPAN_HANDLE_ID (c : Nat) : Nat := 0x00082000 + 0x100000 * c

/-- SPAN_HANDLE_FAULT (15_span_fabric.md R417), BAR0 offset. -/
def SPAN_HANDLE_FAULT (c : Nat) : Nat := 0x00082004 + 0x100000 * c

/-- SPAN_HANDLE_h (15_span_fabric.md R417), BAR0 offset. -/
def SPAN_HANDLE (c : Nat) (h : Nat) : Nat := 0x00082100 + 0x100000 * c + 32 * h

/-- PWR_SKIM_ID (07_skim_classes.md R170), BAR0 offset. -/
def PWR_SKIM_ID (q : Nat) : Nat := 0x04000000 + 0x100 * q

/-- PWR_SKIM_STATUS (07_skim_classes.md R170), BAR0 offset. -/
def PWR_SKIM_STATUS (q : Nat) : Nat := 0x04000004 + 0x100 * q

/-- PWR_SKIM_CNT_CLR (07_skim_classes.md R170), BAR0 offset. -/
def PWR_SKIM_CNT_CLR (q : Nat) : Nat := 0x04000008 + 0x100 * q

/-- PWR_SKIM_CAL (07_skim_classes.md R170), BAR0 offset. -/
def PWR_SKIM_CAL (q : Nat) : Nat := 0x0400000C + 0x100 * q

/-- PWR_SKIM_CHECKS_LO (07_skim_classes.md R170), BAR0 offset. -/
def PWR_SKIM_CHECKS_LO (q : Nat) : Nat := 0x04000010 + 0x100 * q

/-- PWR_SKIM_CHECKS_HI (07_skim_classes.md R170), BAR0 offset. -/
def PWR_SKIM_CHECKS_HI (q : Nat) : Nat := 0x04000014 + 0x100 * q

/-- PWR_SKIM_MISMATCH_LO (07_skim_classes.md R170), BAR0 offset. -/
def PWR_SKIM_MISMATCH_LO (q : Nat) : Nat := 0x04000018 + 0x100 * q

/-- PWR_SKIM_MISMATCH_HI (07_skim_classes.md R170), BAR0 offset. -/
def PWR_SKIM_MISMATCH_HI (q : Nat) : Nat := 0x0400001C + 0x100 * q

/-- PWR_SKIM_RAISES (07_skim_classes.md R170), BAR0 offset. -/
def PWR_SKIM_RAISES (q : Nat) : Nat := 0x04000020 + 0x100 * q

/-- PWR_SKIM_SATURATED (07_skim_classes.md R170), BAR0 offset. -/
def PWR_SKIM_SATURATED (q : Nat) : Nat := 0x04000024 + 0x100 * q

/-- PWR_SKIM_WINDOW (07_skim_classes.md R170), BAR0 offset. -/
def PWR_SKIM_WINDOW (q : Nat) : Nat := 0x04000028 + 0x100 * q

/-- CORE_SCHED_ID (09_programming_model.md R236), BAR0 offset. -/
def CORE_SCHED_ID : Nat := 0x04001000

/-- CORE_SCHED_STATUS (09_programming_model.md R236), BAR0 offset. -/
def CORE_SCHED_STATUS : Nat := 0x04001004

/-- CORE_SCHED_CNT_CLR (09_programming_model.md R236), BAR0 offset. -/
def CORE_SCHED_CNT_CLR : Nat := 0x04001008

/-- CORE_SCHED_HEADER_LO (09_programming_model.md R236), BAR0 offset. -/
def CORE_SCHED_HEADER_LO : Nat := 0x04001010

/-- CORE_SCHED_HEADER_HI (09_programming_model.md R236), BAR0 offset. -/
def CORE_SCHED_HEADER_HI : Nat := 0x04001014

/-- CORE_SCHED_DONE_LO (09_programming_model.md R236), BAR0 offset. -/
def CORE_SCHED_DONE_LO : Nat := 0x04001018

/-- CORE_SCHED_DONE_HI (09_programming_model.md R236), BAR0 offset. -/
def CORE_SCHED_DONE_HI : Nat := 0x0400101C

/-- CORE_SCHED_FAILED (09_programming_model.md R236), BAR0 offset. -/
def CORE_SCHED_FAILED : Nat := 0x04001020

/-- CORE_SCHED_REFUSED (09_programming_model.md R236), BAR0 offset. -/
def CORE_SCHED_REFUSED : Nat := 0x04001024

/-- CORE_SCHED_LOAD_MAX (09_programming_model.md R236), BAR0 offset. -/
def CORE_SCHED_LOAD_MAX : Nat := 0x04001028

/-- CORE_SCHED_FAULT (09_programming_model.md R236), BAR0 offset. -/
def CORE_SCHED_FAULT : Nat := 0x0400102C

/-- TELL_ID (12_teller_and_random_streams.md R331), BAR0 offset. -/
def TELL_ID : Nat := 0x04004000

/-- TELL_STATUS (12_teller_and_random_streams.md R331), BAR0 offset. -/
def TELL_STATUS : Nat := 0x04004004

/-- TELL_CNT_CLR (12_teller_and_random_streams.md R331), BAR0 offset. -/
def TELL_CNT_CLR : Nat := 0x04004008

/-- TELL_RETIRE (12_teller_and_random_streams.md R331), BAR0 offset. -/
def TELL_RETIRE : Nat := 0x0400400C

/-- TELL_TAKES_LO (12_teller_and_random_streams.md R331), BAR0 offset. -/
def TELL_TAKES_LO : Nat := 0x04004010

/-- TELL_TAKES_HI (12_teller_and_random_streams.md R331), BAR0 offset. -/
def TELL_TAKES_HI : Nat := 0x04004014

/-- TELL_REMOTE_TAKES_LO (12_teller_and_random_streams.md R331), BAR0 offset. -/
def TELL_REMOTE_TAKES_LO : Nat := 0x04004018

/-- TELL_REMOTE_TAKES_HI (12_teller_and_random_streams.md R331), BAR0 offset. -/
def TELL_REMOTE_TAKES_HI : Nat := 0x0400401C

/-- TELL_STALE (12_teller_and_random_streams.md R331), BAR0 offset. -/
def TELL_STALE : Nat := 0x04004020

/-- TELL_EXHAUSTED (12_teller_and_random_streams.md R331), BAR0 offset. -/
def TELL_EXHAUSTED : Nat := 0x04004024

/-- TELL_REMOTE_DENIED (12_teller_and_random_streams.md R331), BAR0 offset. -/
def TELL_REMOTE_DENIED : Nat := 0x04004028

/-- TELL_FAULT (12_teller_and_random_streams.md R331), BAR0 offset. -/
def TELL_FAULT : Nat := 0x0400402C

/-- TELL_CTR_VAL_i (12_teller_and_random_streams.md R331), BAR0 offset. -/
def TELL_CTR_VAL (i : Nat) : Nat := 0x04005000 + 8 * i

/-- TELL_CTR_GEN_i (12_teller_and_random_streams.md R331), BAR0 offset. -/
def TELL_CTR_GEN (i : Nat) : Nat := 0x04005004 + 8 * i

/-- TELL_REMOTE_OK_k (12_teller_and_random_streams.md R331), BAR0 offset. -/
def TELL_REMOTE_OK (k : Nat) : Nat := 0x04007000 + 4 * k

/-- SPAD_HUB_ID (08_scratchpad_pails_and_rings.md R204), BAR0 offset. -/
def SPAD_HUB_ID : Nat := 0x04200000

/-- SPAD_POOL_CTL (08_scratchpad_pails_and_rings.md R204), BAR0 offset. -/
def SPAD_POOL_CTL : Nat := 0x04200004

/-- SPAD_HUB_CNT_CLR (08_scratchpad_pails_and_rings.md R204), BAR0 offset. -/
def SPAD_HUB_CNT_CLR : Nat := 0x04200008

/-- SPAD_RING_PUSHES_LO (08_scratchpad_pails_and_rings.md R204), BAR0 offset. -/
def SPAD_RING_PUSHES_LO : Nat := 0x04200010

/-- SPAD_RING_PUSHES_HI (08_scratchpad_pails_and_rings.md R204), BAR0 offset. -/
def SPAD_RING_PUSHES_HI : Nat := 0x04200014

/-- SPAD_RING_REFUSED (08_scratchpad_pails_and_rings.md R204), BAR0 offset. -/
def SPAD_RING_REFUSED : Nat := 0x04200018

/-- SPAD_RING_FAULT (08_scratchpad_pails_and_rings.md R204), BAR0 offset. -/
def SPAD_RING_FAULT : Nat := 0x0420001C

/-- SPAD_RING_CFG_i (08_scratchpad_pails_and_rings.md R204), BAR0 offset. -/
def SPAD_RING_CFG (i : Nat) : Nat := 0x04300000 + 32 * i

/-- PWR_MEMC_ID (13_lpddr6_memory.md R351), BAR0 offset. -/
def PWR_MEMC_ID (m : Nat) : Nat := 0x08000000 + 0x100 * m

/-- PWR_MEMC_STATUS (13_lpddr6_memory.md R351), BAR0 offset. -/
def PWR_MEMC_STATUS (m : Nat) : Nat := 0x08000004 + 0x100 * m

/-- PWR_MEMC_CNT_CLR (13_lpddr6_memory.md R351), BAR0 offset. -/
def PWR_MEMC_CNT_CLR (m : Nat) : Nat := 0x08000008 + 0x100 * m

/-- PWR_MEMC_READS_LO (13_lpddr6_memory.md R351), BAR0 offset. -/
def PWR_MEMC_READS_LO (m : Nat) : Nat := 0x08000010 + 0x100 * m

/-- PWR_MEMC_READS_HI (13_lpddr6_memory.md R351), BAR0 offset. -/
def PWR_MEMC_READS_HI (m : Nat) : Nat := 0x08000014 + 0x100 * m

/-- PWR_MEMC_WRITES_LO (13_lpddr6_memory.md R351), BAR0 offset. -/
def PWR_MEMC_WRITES_LO (m : Nat) : Nat := 0x08000018 + 0x100 * m

/-- PWR_MEMC_WRITES_HI (13_lpddr6_memory.md R351), BAR0 offset. -/
def PWR_MEMC_WRITES_HI (m : Nat) : Nat := 0x0800001C + 0x100 * m

/-- PWR_MEMC_CE (13_lpddr6_memory.md R351), BAR0 offset. -/
def PWR_MEMC_CE (m : Nat) : Nat := 0x08000020 + 0x100 * m

/-- PWR_MEMC_UE (13_lpddr6_memory.md R351), BAR0 offset. -/
def PWR_MEMC_UE (m : Nat) : Nat := 0x08000024 + 0x100 * m

/-- PWR_MEMC_SCRUB_PASSES (13_lpddr6_memory.md R351), BAR0 offset. -/
def PWR_MEMC_SCRUB_PASSES (m : Nat) : Nat := 0x08000028 + 0x100 * m

/-- PWR_MEMC_ERR_IDX_LO (13_lpddr6_memory.md R351), BAR0 offset. -/
def PWR_MEMC_ERR_IDX_LO (m : Nat) : Nat := 0x08000030 + 0x100 * m

/-- PWR_MEMC_ERR_IDX_HI (13_lpddr6_memory.md R351), BAR0 offset. -/
def PWR_MEMC_ERR_IDX_HI (m : Nat) : Nat := 0x08000034 + 0x100 * m

/-- PWR_MEMC_ERR (13_lpddr6_memory.md R351), BAR0 offset. -/
def PWR_MEMC_ERR (m : Nat) : Nat := 0x08000038 + 0x100 * m

/-- PWR_MEMMAP_ID (13_lpddr6_memory.md R352), BAR0 offset. -/
def PWR_MEMMAP_ID : Nat := 0x0800C000

/-- PWR_MEMMAP_SPLIT (13_lpddr6_memory.md R352), BAR0 offset. -/
def PWR_MEMMAP_SPLIT : Nat := 0x0800C004

/-- PWR_MEMMAP_CHANNELS (13_lpddr6_memory.md R352), BAR0 offset. -/
def PWR_MEMMAP_CHANNELS : Nat := 0x0800C008

/-- PWR_MEMMAP_CE_THRESH (13_lpddr6_memory.md R352), BAR0 offset. -/
def PWR_MEMMAP_CE_THRESH : Nat := 0x0800C00C

/-- PWR_MEMMAP_FAILED_LO (13_lpddr6_memory.md R352), BAR0 offset. -/
def PWR_MEMMAP_FAILED_LO : Nat := 0x0800C010

/-- PWR_MEMMAP_FAILED_HI (13_lpddr6_memory.md R352), BAR0 offset. -/
def PWR_MEMMAP_FAILED_HI : Nat := 0x0800C014

/-- PWR_MEMMAP_WARN_LO (13_lpddr6_memory.md R352), BAR0 offset. -/
def PWR_MEMMAP_WARN_LO : Nat := 0x0800C018

/-- PWR_MEMMAP_WARN_HI (13_lpddr6_memory.md R352), BAR0 offset. -/
def PWR_MEMMAP_WARN_HI : Nat := 0x0800C01C

/-- PWR_MEMMAP_SCRUB (13_lpddr6_memory.md R352), BAR0 offset. -/
def PWR_MEMMAP_SCRUB : Nat := 0x0800C020

/-- CHURN_ID (14_the_churn.md R380), BAR0 offset. -/
def CHURN_ID (n : Nat) : Nat := 0x08010000 + 0x100 * n

/-- CHURN_STATUS (14_the_churn.md R380), BAR0 offset. -/
def CHURN_STATUS (n : Nat) : Nat := 0x08010004 + 0x100 * n

/-- CHURN_CNT_CLR (14_the_churn.md R380), BAR0 offset. -/
def CHURN_CNT_CLR (n : Nat) : Nat := 0x08010008 + 0x100 * n

/-- CHURN_PBT_COUNT (14_the_churn.md R380), BAR0 offset. -/
def CHURN_PBT_COUNT (n : Nat) : Nat := 0x0801000C + 0x100 * n

/-- CHURN_PBT_BASE_LO (14_the_churn.md R380), BAR0 offset. -/
def CHURN_PBT_BASE_LO (n : Nat) : Nat := 0x08010010 + 0x100 * n

/-- CHURN_PBT_BASE_HI (14_the_churn.md R380), BAR0 offset. -/
def CHURN_PBT_BASE_HI (n : Nat) : Nat := 0x08010014 + 0x100 * n

/-- CHURN_FENCE_TIMEOUT (14_the_churn.md R380), BAR0 offset. -/
def CHURN_FENCE_TIMEOUT (n : Nat) : Nat := 0x08010018 + 0x100 * n

/-- CHURN_CMDS_LO (14_the_churn.md R380), BAR0 offset. -/
def CHURN_CMDS_LO (n : Nat) : Nat := 0x08010020 + 0x100 * n

/-- CHURN_CMDS_HI (14_the_churn.md R380), BAR0 offset. -/
def CHURN_CMDS_HI (n : Nat) : Nat := 0x08010024 + 0x100 * n

/-- CHURN_BLOCKS_LO (14_the_churn.md R380), BAR0 offset. -/
def CHURN_BLOCKS_LO (n : Nat) : Nat := 0x08010028 + 0x100 * n

/-- CHURN_BLOCKS_HI (14_the_churn.md R380), BAR0 offset. -/
def CHURN_BLOCKS_HI (n : Nat) : Nat := 0x0801002C + 0x100 * n

/-- CHURN_FROZEN_SKIPS (14_the_churn.md R380), BAR0 offset. -/
def CHURN_FROZEN_SKIPS (n : Nat) : Nat := 0x08010030 + 0x100 * n

/-- CHURN_DONE_SKIPS (14_the_churn.md R380), BAR0 offset. -/
def CHURN_DONE_SKIPS (n : Nat) : Nat := 0x08010034 + 0x100 * n

/-- CHURN_NONFINITE (14_the_churn.md R380), BAR0 offset. -/
def CHURN_NONFINITE (n : Nat) : Nat := 0x08010038 + 0x100 * n

/-- CHURN_SAT_CODES (14_the_churn.md R380), BAR0 offset. -/
def CHURN_SAT_CODES (n : Nat) : Nat := 0x0801003C + 0x100 * n

/-- CHURN_FAULT (14_the_churn.md R380), BAR0 offset. -/
def CHURN_FAULT (n : Nat) : Nat := 0x08010040 + 0x100 * n

/-- CHURN_ROOT_ID (14_the_churn.md R381), BAR0 offset. -/
def CHURN_ROOT_ID (i : Nat) : Nat := 0x08014000 + 0x100 * i

/-- CHURN_ROOT_STATUS (14_the_churn.md R381), BAR0 offset. -/
def CHURN_ROOT_STATUS (i : Nat) : Nat := 0x08014004 + 0x100 * i

/-- CHURN_ROOT_CNT_CLR (14_the_churn.md R381), BAR0 offset. -/
def CHURN_ROOT_CNT_CLR (i : Nat) : Nat := 0x08014008 + 0x100 * i

/-- CHURN_ROOT_JOBS_LO (14_the_churn.md R381), BAR0 offset. -/
def CHURN_ROOT_JOBS_LO (i : Nat) : Nat := 0x08014010 + 0x100 * i

/-- CHURN_ROOT_JOBS_HI (14_the_churn.md R381), BAR0 offset. -/
def CHURN_ROOT_JOBS_HI (i : Nat) : Nat := 0x08014014 + 0x100 * i

/-- CHURN_ROOT_STALE (14_the_churn.md R381), BAR0 offset. -/
def CHURN_ROOT_STALE (i : Nat) : Nat := 0x08014018 + 0x100 * i

/-- CHURN_ROOT_ITER_MAX (14_the_churn.md R381), BAR0 offset. -/
def CHURN_ROOT_ITER_MAX (i : Nat) : Nat := 0x0801401C + 0x100 * i

/-- CHURN_ROOT_LAST_RES (14_the_churn.md R381), BAR0 offset. -/
def CHURN_ROOT_LAST_RES (i : Nat) : Nat := 0x08014020 + 0x100 * i

/-- SPAN_PORT_ID (15_span_fabric.md R416), BAR0 offset. -/
def SPAN_PORT_ID (p : Nat) : Nat := 0x08018000 + 0x100 * p

/-- SPAN_PORT_STATUS (15_span_fabric.md R416), BAR0 offset. -/
def SPAN_PORT_STATUS (p : Nat) : Nat := 0x08018004 + 0x100 * p

/-- SPAN_PORT_CNT_CLR (15_span_fabric.md R416), BAR0 offset. -/
def SPAN_PORT_CNT_CLR (p : Nat) : Nat := 0x08018008 + 0x100 * p

/-- SPAN_PORT_CTL (15_span_fabric.md R416), BAR0 offset. -/
def SPAN_PORT_CTL (p : Nat) : Nat := 0x0801800C + 0x100 * p

/-- SPAN_PORT_TX_LO (15_span_fabric.md R416), BAR0 offset. -/
def SPAN_PORT_TX_LO (p : Nat) : Nat := 0x08018010 + 0x100 * p

/-- SPAN_PORT_TX_HI (15_span_fabric.md R416), BAR0 offset. -/
def SPAN_PORT_TX_HI (p : Nat) : Nat := 0x08018014 + 0x100 * p

/-- SPAN_PORT_RX_LO (15_span_fabric.md R416), BAR0 offset. -/
def SPAN_PORT_RX_LO (p : Nat) : Nat := 0x08018018 + 0x100 * p

/-- SPAN_PORT_RX_HI (15_span_fabric.md R416), BAR0 offset. -/
def SPAN_PORT_RX_HI (p : Nat) : Nat := 0x0801801C + 0x100 * p

/-- SPAN_PORT_RETRIES (15_span_fabric.md R416), BAR0 offset. -/
def SPAN_PORT_RETRIES (p : Nat) : Nat := 0x08018020 + 0x100 * p

/-- SPAN_PORT_CRC_ERRS (15_span_fabric.md R416), BAR0 offset. -/
def SPAN_PORT_CRC_ERRS (p : Nat) : Nat := 0x08018024 + 0x100 * p

/-- SPAN_PORT_FEC_CORR (15_span_fabric.md R416), BAR0 offset. -/
def SPAN_PORT_FEC_CORR (p : Nat) : Nat := 0x08018028 + 0x100 * p

/-- SPAN_PORT_FEC_UNCORR (15_span_fabric.md R416), BAR0 offset. -/
def SPAN_PORT_FEC_UNCORR (p : Nat) : Nat := 0x0801802C + 0x100 * p

/-- SPAN_PORT_DOWNS (15_span_fabric.md R416), BAR0 offset. -/
def SPAN_PORT_DOWNS (p : Nat) : Nat := 0x08018030 + 0x100 * p

/-- SPAN_PORT_CREDIT_WAIT (15_span_fabric.md R416), BAR0 offset. -/
def SPAN_PORT_CREDIT_WAIT (p : Nat) : Nat := 0x08018034 + 0x100 * p

/-- SPAN_PORT_MODULE (15_span_fabric.md R416), BAR0 offset. -/
def SPAN_PORT_MODULE (p : Nat) : Nat := 0x08018038 + 0x100 * p

/-- SPAN_ID (15_span_fabric.md R415), BAR0 offset. -/
def SPAN_ID : Nat := 0x08040000

/-- SPAN_STATUS (15_span_fabric.md R415), BAR0 offset. -/
def SPAN_STATUS : Nat := 0x08040004

/-- SPAN_CNT_CLR (15_span_fabric.md R415), BAR0 offset. -/
def SPAN_CNT_CLR : Nat := 0x08040008

/-- SPAN_NODE_CTL (15_span_fabric.md R415), BAR0 offset. -/
def SPAN_NODE_CTL : Nat := 0x0804000C

/-- SPAN_MAP_VERSION (15_span_fabric.md R415), BAR0 offset. -/
def SPAN_MAP_VERSION : Nat := 0x08040010

/-- SPAN_REGISTRY_BASE_LO (15_span_fabric.md R415), BAR0 offset. -/
def SPAN_REGISTRY_BASE_LO : Nat := 0x08040014

/-- SPAN_REGISTRY_BASE_HI (15_span_fabric.md R415), BAR0 offset. -/
def SPAN_REGISTRY_BASE_HI : Nat := 0x08040018

/-- SPAN_DRAIN_TIMEOUT (15_span_fabric.md R415), BAR0 offset. -/
def SPAN_DRAIN_TIMEOUT : Nat := 0x0804001C

/-- SPAN_MSG_GROUP (15_span_fabric.md R415), BAR0 offset. -/
def SPAN_MSG_GROUP : Nat := 0x08040020

/-- SPAN_WIN_CLOSE (15_span_fabric.md R415), BAR0 offset. -/
def SPAN_WIN_CLOSE : Nat := 0x08040024

/-- SPAN_REQS_LO (15_span_fabric.md R415), BAR0 offset. -/
def SPAN_REQS_LO : Nat := 0x08040028

/-- SPAN_REQS_HI (15_span_fabric.md R415), BAR0 offset. -/
def SPAN_REQS_HI : Nat := 0x0804002C

/-- SPAN_SERVED_LO (15_span_fabric.md R415), BAR0 offset. -/
def SPAN_SERVED_LO : Nat := 0x08040030

/-- SPAN_SERVED_HI (15_span_fabric.md R415), BAR0 offset. -/
def SPAN_SERVED_HI : Nat := 0x08040034

/-- SPAN_NACKS (15_span_fabric.md R415), BAR0 offset. -/
def SPAN_NACKS : Nat := 0x08040038

/-- SPAN_TIMEOUTS (15_span_fabric.md R415), BAR0 offset. -/
def SPAN_TIMEOUTS : Nat := 0x0804003C

/-- SPAN_REROUTED (15_span_fabric.md R415), BAR0 offset. -/
def SPAN_REROUTED : Nat := 0x08040040

/-- SPAN_LINK_LOST (15_span_fabric.md R415), BAR0 offset. -/
def SPAN_LINK_LOST : Nat := 0x08040044

/-- SPAN_ROUTE_n (15_span_fabric.md R415), BAR0 offset. -/
def SPAN_ROUTE (n : Nat) : Nat := 0x08040100 + 4 * n

/-- SPAN_GROUP_g_k (15_span_fabric.md R415), BAR0 offset. -/
def SPAN_GROUP (g : Nat) (k : Nat) : Nat := 0x08040500 + 32 * g + 4 * k

/-- SPAN_WIN_i (15_span_fabric.md R415), BAR0 offset. -/
def SPAN_WIN (i : Nat) : Nat := 0x08041000 + 32 * i

/-- PWR_ID (17_power_clocks_and_reset.md R460), BAR0 offset. -/
def PWR_ID : Nat := 0x0C000000

/-- PWR_STATUS (17_power_clocks_and_reset.md R460), BAR0 offset. -/
def PWR_STATUS : Nat := 0x0C000004

/-- PWR_CNT_CLR (17_power_clocks_and_reset.md R460), BAR0 offset. -/
def PWR_CNT_CLR : Nat := 0x0C000008

/-- PWR_DOMAIN_REQ (17_power_clocks_and_reset.md R460), BAR0 offset. -/
def PWR_DOMAIN_REQ : Nat := 0x0C00000C

/-- PWR_DOMAIN_STATE (17_power_clocks_and_reset.md R460), BAR0 offset. -/
def PWR_DOMAIN_STATE : Nat := 0x0C000010

/-- PWR_DOMAIN_BUSY (17_power_clocks_and_reset.md R460), BAR0 offset. -/
def PWR_DOMAIN_BUSY : Nat := 0x0C000014

/-- PWR_VIN (17_power_clocks_and_reset.md R460), BAR0 offset. -/
def PWR_VIN : Nat := 0x0C000018

/-- PWR_LIMIT (17_power_clocks_and_reset.md R460), BAR0 offset. -/
def PWR_LIMIT : Nat := 0x0C00001C

/-- PWR_THROTTLE (17_power_clocks_and_reset.md R460), BAR0 offset. -/
def PWR_THROTTLE : Nat := 0x0C000020

/-- PWR_QUIESCE_REQ (17_power_clocks_and_reset.md R460), BAR0 offset. -/
def PWR_QUIESCE_REQ : Nat := 0x0C000024

/-- PWR_REQ_IGNORED (17_power_clocks_and_reset.md R460), BAR0 offset. -/
def PWR_REQ_IGNORED : Nat := 0x0C000028

/-- PWR_VIN_WARNS (17_power_clocks_and_reset.md R460), BAR0 offset. -/
def PWR_VIN_WARNS : Nat := 0x0C00002C

/-- PWR_RESET_CAUSE (17_power_clocks_and_reset.md R460), BAR0 offset. -/
def PWR_RESET_CAUSE : Nat := 0x0C000030

/-- PWR_MODULE_RESET (17_power_clocks_and_reset.md R460), BAR0 offset. -/
def PWR_MODULE_RESET : Nat := 0x0C000034

/-- PWR_THERMAL_MAX (17_power_clocks_and_reset.md R460), BAR0 offset. -/
def PWR_THERMAL_MAX : Nat := 0x0C000038

/-- PWR_FAULT (17_power_clocks_and_reset.md R460), BAR0 offset. -/
def PWR_FAULT : Nat := 0x0C00003C

/-- PWR_QTIMEOUT_k (17_power_clocks_and_reset.md R460), BAR0 offset. -/
def PWR_QTIMEOUT (k : Nat) : Nat := 0x0C000080 + 4 * k

/-- PWR_DROOP_q (17_power_clocks_and_reset.md R460), BAR0 offset. -/
def PWR_DROOP (q : Nat) : Nat := 0x0C000100 + 4 * q

/-- PWR_QSTATE_k (17_power_clocks_and_reset.md R460), BAR0 offset. -/
def PWR_QSTATE (k : Nat) : Nat := 0x0C000200 + 4 * k

/-- SISYN_ID (18_sisyn_and_the_faceplate.md R483), BAR0 offset. -/
def SISYN_ID : Nat := 0x0C001000

/-- SISYN_STATUS (18_sisyn_and_the_faceplate.md R483), BAR0 offset. -/
def SISYN_STATUS : Nat := 0x0C001004

/-- SISYN_CNT_CLR (18_sisyn_and_the_faceplate.md R483), BAR0 offset. -/
def SISYN_CNT_CLR : Nat := 0x0C001008

/-- SISYN_FW_VERSION_A (18_sisyn_and_the_faceplate.md R483), BAR0 offset. -/
def SISYN_FW_VERSION_A : Nat := 0x0C00100C

/-- SISYN_FW_VERSION_B (18_sisyn_and_the_faceplate.md R483), BAR0 offset. -/
def SISYN_FW_VERSION_B : Nat := 0x0C001010

/-- SISYN_FW_SVN (18_sisyn_and_the_faceplate.md R483), BAR0 offset. -/
def SISYN_FW_SVN : Nat := 0x0C001014

/-- SISYN_FW_CTL (18_sisyn_and_the_faceplate.md R483), BAR0 offset. -/
def SISYN_FW_CTL : Nat := 0x0C001018

/-- SISYN_BOOT (18_sisyn_and_the_faceplate.md R483), BAR0 offset. -/
def SISYN_BOOT : Nat := 0x0C00101C

/-- SISYN_DB_HEAD (18_sisyn_and_the_faceplate.md R483), BAR0 offset. -/
def SISYN_DB_HEAD : Nat := 0x0C001020

/-- SISYN_DB_TAIL (18_sisyn_and_the_faceplate.md R483), BAR0 offset. -/
def SISYN_DB_TAIL : Nat := 0x0C001024

/-- SISYN_DB_SEL_k (18_sisyn_and_the_faceplate.md R483), BAR0 offset. -/
def SISYN_DB_SEL (k : Nat) : Nat := 0x0C001028 + 4 * k

/-- SISYN_DB_LOST (18_sisyn_and_the_faceplate.md R483), BAR0 offset. -/
def SISYN_DB_LOST : Nat := 0x0C001030

/-- SISYN_WDOG (18_sisyn_and_the_faceplate.md R483), BAR0 offset. -/
def SISYN_WDOG : Nat := 0x0C001034

/-- SISYN_DISAGREE (18_sisyn_and_the_faceplate.md R483), BAR0 offset. -/
def SISYN_DISAGREE : Nat := 0x0C001038

/-- SISYN_FORCED (18_sisyn_and_the_faceplate.md R483), BAR0 offset. -/
def SISYN_FORCED : Nat := 0x0C00103C

/-- SISYN_ATTN_CTL (18_sisyn_and_the_faceplate.md R483), BAR0 offset. -/
def SISYN_ATTN_CTL : Nat := 0x0C001040

/-- SISYN_ATTN_TIMEOUT (18_sisyn_and_the_faceplate.md R483), BAR0 offset. -/
def SISYN_ATTN_TIMEOUT : Nat := 0x0C001044

/-- SISYN_DB_DATA_k_w (18_sisyn_and_the_faceplate.md R483), BAR0 offset. -/
def SISYN_DB_DATA (k : Nat) (w : Nat) : Nat := 0x0C001100 + 64 * k + 4 * w

/-- SISYN_TEMP_s (18_sisyn_and_the_faceplate.md R483), BAR0 offset. -/
def SISYN_TEMP (s : Nat) : Nat := 0x0C001200 + 4 * s

/-- SISYN_VOLT_v (18_sisyn_and_the_faceplate.md R483), BAR0 offset. -/
def SISYN_VOLT (v : Nat) : Nat := 0x0C001380 + 4 * v

/-- SISYN_CURR_i (18_sisyn_and_the_faceplate.md R483), BAR0 offset. -/
def SISYN_CURR (i : Nat) : Nat := 0x0C001420 + 4 * i

/-- SISYN_FP_ID (18_sisyn_and_the_faceplate.md R484), BAR0 offset. -/
def SISYN_FP_ID : Nat := 0x0C002000

/-- SISYN_FP_STATUS (18_sisyn_and_the_faceplate.md R484), BAR0 offset. -/
def SISYN_FP_STATUS : Nat := 0x0C002004

/-- SISYN_FP_CNT_CLR (18_sisyn_and_the_faceplate.md R484), BAR0 offset. -/
def SISYN_FP_CNT_CLR : Nat := 0x0C002008

/-- SISYN_FP_CTL (18_sisyn_and_the_faceplate.md R484), BAR0 offset. -/
def SISYN_FP_CTL : Nat := 0x0C00200C

/-- SISYN_FP_CAGE_k (18_sisyn_and_the_faceplate.md R484), BAR0 offset. -/
def SISYN_FP_CAGE (k : Nat) : Nat := 0x0C002010 + 4 * k

/-- SISYN_FP_GESTURES (18_sisyn_and_the_faceplate.md R484), BAR0 offset. -/
def SISYN_FP_GESTURES : Nat := 0x0C002030

/-- SISYN_FP_REFUSED (18_sisyn_and_the_faceplate.md R484), BAR0 offset. -/
def SISYN_FP_REFUSED : Nat := 0x0C002034

/-- SISYN_LC_ID (19_lifecycle_and_attestation.md R501), BAR0 offset. -/
def SISYN_LC_ID : Nat := 0x0C003000

/-- SISYN_LC_STATUS (19_lifecycle_and_attestation.md R501), BAR0 offset. -/
def SISYN_LC_STATUS : Nat := 0x0C003004

/-- SISYN_LC_CNT_CLR (19_lifecycle_and_attestation.md R501), BAR0 offset. -/
def SISYN_LC_CNT_CLR : Nat := 0x0C003008

/-- SISYN_LC_CTL (19_lifecycle_and_attestation.md R501), BAR0 offset. -/
def SISYN_LC_CTL : Nat := 0x0C00300C

/-- SISYN_LC_DEBUG_LEFT (19_lifecycle_and_attestation.md R501), BAR0 offset. -/
def SISYN_LC_DEBUG_LEFT : Nat := 0x0C003010

/-- SISYN_LC_RESULT (19_lifecycle_and_attestation.md R501), BAR0 offset. -/
def SISYN_LC_RESULT : Nat := 0x0C003014

/-- SISYN_LC_REFUSED (19_lifecycle_and_attestation.md R501), BAR0 offset. -/
def SISYN_LC_REFUSED : Nat := 0x0C003018

/-- SISYN_PB_SEL (19_lifecycle_and_attestation.md R501), BAR0 offset. -/
def SISYN_PB_SEL : Nat := 0x0C00301C

/-- SISYN_LC_NONCE_w (19_lifecycle_and_attestation.md R501), BAR0 offset. -/
def SISYN_LC_NONCE (w : Nat) : Nat := 0x0C003020 + 4 * w

/-- SISYN_LC_TOKEN_w (19_lifecycle_and_attestation.md R501), BAR0 offset. -/
def SISYN_LC_TOKEN (w : Nat) : Nat := 0x0C003100 + 4 * w

/-- SISYN_PB_DATA_w (19_lifecycle_and_attestation.md R501), BAR0 offset. -/
def SISYN_PB_DATA (w : Nat) : Nat := 0x0C003300 + 4 * w

/-- HOST_ID (16_host_attachment.md R439), BAR0 offset. -/
def HOST_ID (k : Nat) : Nat := 0x0F000000 + 0x1000 * k

/-- HOST_STATUS (16_host_attachment.md R439), BAR0 offset. -/
def HOST_STATUS (k : Nat) : Nat := 0x0F000004 + 0x1000 * k

/-- HOST_CNT_CLR (16_host_attachment.md R439), BAR0 offset. -/
def HOST_CNT_CLR (k : Nat) : Nat := 0x0F000008 + 0x1000 * k

/-- HOST_EVENT_RING (16_host_attachment.md R439), BAR0 offset. -/
def HOST_EVENT_RING (k : Nat) : Nat := 0x0F00000C + 0x1000 * k

/-- HOST_APT_BASE (16_host_attachment.md R439), BAR0 offset. -/
def HOST_APT_BASE (k : Nat) : Nat := 0x0F000010 + 0x1000 * k

/-- HOST_IRQ_HOLDOFF (16_host_attachment.md R439), BAR0 offset. -/
def HOST_IRQ_HOLDOFF (k : Nat) : Nat := 0x0F000014 + 0x1000 * k

/-- HOST_DB_LO (16_host_attachment.md R439), BAR0 offset. -/
def HOST_DB_LO (k : Nat) : Nat := 0x0F000018 + 0x1000 * k

/-- HOST_DB_HI (16_host_attachment.md R439), BAR0 offset. -/
def HOST_DB_HI (k : Nat) : Nat := 0x0F00001C + 0x1000 * k

/-- HOST_DB_WRONG_PORT (16_host_attachment.md R439), BAR0 offset. -/
def HOST_DB_WRONG_PORT (k : Nat) : Nat := 0x0F000020 + 0x1000 * k

/-- HOST_DB_RANGE (16_host_attachment.md R439), BAR0 offset. -/
def HOST_DB_RANGE (k : Nat) : Nat := 0x0F000024 + 0x1000 * k

/-- HOST_ENTRIES_LO (16_host_attachment.md R439), BAR0 offset. -/
def HOST_ENTRIES_LO (k : Nat) : Nat := 0x0F000028 + 0x1000 * k

/-- HOST_ENTRIES_HI (16_host_attachment.md R439), BAR0 offset. -/
def HOST_ENTRIES_HI (k : Nat) : Nat := 0x0F00002C + 0x1000 * k

/-- HOST_COPY_BYTES_LO (16_host_attachment.md R439), BAR0 offset. -/
def HOST_COPY_BYTES_LO (k : Nat) : Nat := 0x0F000030 + 0x1000 * k

/-- HOST_COPY_BYTES_HI (16_host_attachment.md R439), BAR0 offset. -/
def HOST_COPY_BYTES_HI (k : Nat) : Nat := 0x0F000034 + 0x1000 * k

/-- HOST_APT_RANGE (16_host_attachment.md R439), BAR0 offset. -/
def HOST_APT_RANGE (k : Nat) : Nat := 0x0F000038 + 0x1000 * k

/-- HOST_UNMAPPED (16_host_attachment.md R439), BAR0 offset. -/
def HOST_UNMAPPED (k : Nat) : Nat := 0x0F00003C + 0x1000 * k

/-- HOST_EVENTS_DROPPED (16_host_attachment.md R439), BAR0 offset. -/
def HOST_EVENTS_DROPPED (k : Nat) : Nat := 0x0F000040 + 0x1000 * k

/-- HOST_RESETS (16_host_attachment.md R439), BAR0 offset. -/
def HOST_RESETS (k : Nat) : Nat := 0x0F000044 + 0x1000 * k

/-- HOST_CLAIM_ID (16_host_attachment.md R440), BAR0 offset. -/
def HOST_CLAIM_ID : Nat := 0x0F002000

/-- HOST_CLAIM_k (16_host_attachment.md R440), BAR0 offset. -/
def HOST_CLAIM (k : Nat) : Nat := 0x0F002040 + 4 * k

end Reg

/-- Registers of unit_kind 0x21 (R69): CORE_TALLY_ID to CORE_TALLY_FAULT. -/
def rowsTally : List RegRow :=
  [⟨0x0, 4, 1, 0x0, 0x0, 0x0⟩,
   ⟨0x4, 4, 1, 0x0, 0x0, 0x0⟩,
   ⟨0x8, 4, 1, 0xFFFFFFFF, 0x0, 0x1000000⟩,
   ⟨0xC, 4, 1, 0x0, 0x0, 0x0⟩,
   ⟨0x10, 4, 1, 0x0, 0x0, 0x0⟩,
   ⟨0x14, 4, 1, 0x0, 0x0, 0x0⟩,
   ⟨0x18, 4, 1, 0x0, 0x0, 0x0⟩,
   ⟨0x1C, 4, 1, 0x0, 0x0, 0x0⟩,
   ⟨0x20, 4, 1, 0x0, 0x0, 0x0⟩,
   ⟨0x24, 4, 1, 0x0, 0x0, 0x0⟩,
   ⟨0x28, 4, 1, 0x0, 0x0, 0x0⟩,
   ⟨0x2C, 4, 1, 0x0, 0x0, 0x0⟩,
   ⟨0x30, 4, 1, 0x0, 0x0, 0x0⟩,
   ⟨0x34, 4, 1, 0x0, 0x0, 0x0⟩,
   ⟨0x38, 4, 1, 0x0, 0x0, 0x0⟩]

/-- Registers of unit_kind 0x22 (R93): LEDG_ID to LEDG_FAULT. -/
def rowsLedg : List RegRow :=
  [⟨0x0, 4, 1, 0x0, 0x0, 0x0⟩,
   ⟨0x4, 4, 1, 0x0, 0x0, 0x0⟩,
   ⟨0x8, 4, 1, 0x0, 0x0, 0x0⟩,
   ⟨0x10, 8, 8, 0x0, 0x0, 0x0⟩,
   ⟨0x14, 8, 8, 0x0, 0x7, 0x0⟩,
   ⟨0x50, 4, 1, 0x0, 0x0, 0x0⟩,
   ⟨0x54, 4, 1, 0x0, 0x0, 0x0⟩,
   ⟨0x58, 4, 1, 0x0, 0x0, 0x0⟩,
   ⟨0x5C, 4, 1, 0x0, 0x0, 0x0⟩,
   ⟨0x60, 4, 1, 0x0, 0x0, 0x0⟩,
   ⟨0x64, 4, 1, 0x0, 0x0, 0x0⟩,
   ⟨0x68, 4, 1, 0x0, 0x0, 0x0⟩,
   ⟨0x6C, 4, 1, 0x0, 0x0, 0x0⟩,
   ⟨0x70, 4, 1, 0x0, 0x0, 0x0⟩,
   ⟨0x74, 4, 1, 0x0, 0x0, 0x0⟩]

/-- Registers of unit_kind 0x24 (R154): CORE_STRAIN_ID to CORE_STRAIN_FAULT. -/
def rowsStrain : List RegRow :=
  [⟨0x0, 4, 1, 0x0, 0x0, 0x0⟩,
   ⟨0x4, 4, 1, 0x0, 0x0, 0x0⟩,
   ⟨0x8, 4, 1, 0x0, 0x0, 0x0⟩,
   ⟨0xC, 4, 1, 0x3FFFFF, 0x0, 0x4⟩,
   ⟨0x10, 4, 1, 0xFFFFFFFF, 0x0, 0x0⟩,
   ⟨0x14, 4, 1, 0xFFFFFFFF, 0x0, 0x0⟩,
   ⟨0x18, 4, 1, 0x0, 0x0, 0x0⟩,
   ⟨0x1C, 4, 1, 0x0, 0x0, 0x0⟩,
   ⟨0x20, 4, 1, 0x0, 0x0, 0x0⟩,
   ⟨0x24, 4, 1, 0x0, 0x0, 0x0⟩,
   ⟨0x28, 4, 1, 0x0, 0x0, 0x0⟩,
   ⟨0x2C, 4, 1, 0x0, 0x0, 0x0⟩,
   ⟨0x30, 4, 1, 0x0, 0x0, 0x0⟩,
   ⟨0x34, 4, 1, 0x0, 0x0, 0x0⟩,
   ⟨0x38, 4, 1, 0x0, 0x0, 0x0⟩,
   ⟨0x3C, 4, 1, 0x0, 0x0, 0x0⟩,
   ⟨0x40, 4, 1, 0x0, 0x0, 0x0⟩,
   ⟨0x44, 4, 1, 0x0, 0x0, 0x0⟩]

/-- Registers of unit_kind 0x27 (R235): CORE_CLERK_ID to CORE_CLERK_FAULT_SLIP. -/
def rowsClerk : List RegRow :=
  [⟨0x0, 4, 1, 0x0, 0x0, 0x0⟩,
   ⟨0x4, 4, 1, 0x0, 0x0, 0x0⟩,
   ⟨0x8, 4, 1, 0x0, 0x0, 0x0⟩,
   ⟨0xC, 4, 1, 0x0, 0x0, 0x0⟩,
   ⟨0x10, 4, 1, 0x0, 0x0, 0x0⟩,
   ⟨0x14, 4, 1, 0x0, 0x0, 0x0⟩,
   ⟨0x18, 4, 1, 0x0, 0x0, 0x0⟩,
   ⟨0x1C, 4, 1, 0x0, 0x0, 0x0⟩,
   ⟨0x20, 4, 1, 0x0, 0x0, 0x0⟩,
   ⟨0x24, 4, 1, 0x0, 0x0, 0x0⟩,
   ⟨0x28, 4, 1, 0x0, 0x0, 0x0⟩,
   ⟨0x2C, 4, 1, 0x0, 0x0, 0x0⟩,
   ⟨0x30, 4, 1, 0x0, 0x0, 0x0⟩,
   ⟨0x34, 4, 1, 0x0, 0x0, 0x0⟩,
   ⟨0x38, 4, 1, 0x0, 0x0, 0x0⟩,
   ⟨0x3C, 4, 1, 0x0, 0x0, 0x0⟩,
   ⟨0x40, 4, 1, 0x0, 0x0, 0x0⟩,
   ⟨0x44, 4, 1, 0x0, 0x0, 0x0⟩,
   ⟨0x48, 4, 1, 0x0, 0x0, 0x0⟩]

/-- Registers of unit_kind 0x28 (R270): CORE_DESC_ID to CORE_DESC_FAULT_PC. -/
def rowsDesc : List RegRow :=
  [⟨0x0, 4, 1, 0x0, 0x0, 0x0⟩,
   ⟨0x4, 4, 1, 0x0, 0x0, 0x0⟩,
   ⟨0x8, 4, 1, 0x0, 0x0, 0x0⟩,
   ⟨0x10, 4, 1, 0x0, 0x0, 0x0⟩,
   ⟨0x14, 4, 1, 0x0, 0x0, 0x0⟩,
   ⟨0x18, 4, 1, 0x0, 0x0, 0x0⟩,
   ⟨0x1C, 4, 1, 0x0, 0x0, 0x0⟩,
   ⟨0x20, 4, 1, 0x0, 0x0, 0x0⟩,
   ⟨0x24, 4, 1, 0x0, 0x0, 0x0⟩,
   ⟨0x28, 4, 1, 0x0, 0x0, 0x0⟩,
   ⟨0x2C, 4, 1, 0x0, 0x0, 0x0⟩,
   ⟨0x30, 4, 1, 0x0, 0x0, 0x0⟩,
   ⟨0x34, 4, 1, 0x0, 0x0, 0x0⟩]

/-- Registers of unit_kind 0x29 (R332): CORE_RNG_ID to CORE_RNG_STREAM. -/
def rowsRng : List RegRow :=
  [⟨0x0, 4, 1, 0x0, 0x0, 0x0⟩,
   ⟨0x4, 4, 1, 0x0, 0x0, 0x0⟩,
   ⟨0x8, 4, 1, 0x0, 0x0, 0x0⟩,
   ⟨0x10, 4, 1, 0x0, 0x0, 0x0⟩,
   ⟨0x14, 4, 1, 0x0, 0x0, 0x0⟩,
   ⟨0x18, 4, 1, 0x0, 0x0, 0x0⟩,
   ⟨0x20, 4, 16, 0x0, 0x0, 0x0⟩]

/-- Registers of unit_kind 0x26 (R203): SPAD_ID to SPAD_PAIL_STATE. -/
def rowsSpad : List RegRow :=
  [⟨0x0, 4, 1, 0x0, 0x0, 0x0⟩,
   ⟨0x4, 4, 1, 0x0, 0x2, 0x0⟩,
   ⟨0x8, 4, 1, 0x0, 0x0, 0x0⟩,
   ⟨0xC, 4, 1, 0xFFFFFFFF, 0x0, 0x0⟩,
   ⟨0x10, 4, 1, 0xFFFFFFFF, 0x0, 0xAAAAAAAA⟩,
   ⟨0x14, 4, 1, 0x0, 0x0, 0xAAAAAAAA⟩,
   ⟨0x18, 4, 1, 0x0, 0x0, 0x0⟩,
   ⟨0x1C, 4, 1, 0x0, 0x0, 0xFFFF⟩,
   ⟨0x20, 8, 2, 0x3FFFF, 0x0, 0x0⟩,
   ⟨0x24, 8, 2, 0xFFFF, 0x0, 0x0⟩,
   ⟨0x30, 4, 1, 0x0, 0x0, 0x0⟩,
   ⟨0x34, 4, 1, 0x0, 0x0, 0x0⟩,
   ⟨0x38, 4, 1, 0x0, 0x0, 0x0⟩,
   ⟨0x3C, 4, 1, 0x0, 0x0, 0x0⟩,
   ⟨0x40, 4, 1, 0x0, 0x0, 0x0⟩,
   ⟨0x44, 4, 1, 0x0, 0x0, 0x0⟩,
   ⟨0x48, 4, 1, 0x0, 0x0, 0x0⟩,
   ⟨0x4C, 4, 1, 0x0, 0x0, 0x0⟩,
   ⟨0x100, 8, 64, 0xFFFFF, 0x0, 0x0⟩,
   ⟨0x104, 8, 64, 0x0, 0x0, 0x0⟩]

/-- Registers of unit_kind 0x23 (R119): MINT_ID to MINT_CHMUL. -/
def rowsMint : List RegRow :=
  [⟨0x0, 4, 1, 0x0, 0x0, 0x0⟩,
   ⟨0x4, 4, 1, 0x0, 0x0, 0x0⟩,
   ⟨0x8, 4, 1, 0x0, 0x0, 0x0⟩,
   ⟨0x10, 4, 1, 0x0, 0x0, 0x0⟩,
   ⟨0x14, 4, 1, 0x0, 0x0, 0x0⟩,
   ⟨0x18, 4, 1, 0x0, 0x0, 0x0⟩,
   ⟨0x1C, 4, 1, 0x0, 0x0, 0x0⟩,
   ⟨0x20, 4, 1, 0x0, 0x0, 0x0⟩,
   ⟨0x24, 4, 1, 0x0, 0x0, 0x0⟩,
   ⟨0x28, 4, 1, 0x0, 0x0, 0x0⟩,
   ⟨0x2C, 4, 1, 0x0, 0x0, 0x0⟩,
   ⟨0x30, 4, 1, 0x0, 0x0, 0x0⟩,
   ⟨0x34, 4, 1, 0x0, 0x0, 0x0⟩,
   ⟨0x38, 4, 1, 0x0, 0x0, 0x0⟩,
   ⟨0x3C, 4, 1, 0x0, 0x0, 0x0⟩,
   ⟨0x40, 4, 1, 0x0, 0x0, 0x0⟩,
   ⟨0x44, 4, 1, 0x0, 0x0, 0x0⟩,
   ⟨0x48, 4, 1, 0x0, 0x0, 0x0⟩,
   ⟨0x200, 4, 64, 0xFFFFFFFF, 0x0, 0x0⟩,
   ⟨0x400, 4, 256, 0xFFFF, 0x0, 0x7F00⟩]

/-- Registers of unit_kind 0x62 (R417): SPAN_HANDLE_ID to SPAN_HANDLE. -/
def rowsHandle : List RegRow :=
  [⟨0x0, 4, 1, 0x0, 0x0, 0x0⟩,
   ⟨0x4, 4, 1, 0x0, 0x0, 0x0⟩,
   ⟨0x100, 32, 64, 0xFFFFFFFF, 0x0, 0x0⟩,
   ⟨0x104, 32, 64, 0xFFFFFF, 0x0, 0x0⟩,
   ⟨0x108, 32, 64, 0xFFFFFFFF, 0x0, 0x0⟩,
   ⟨0x10C, 32, 64, 0xFFFF, 0x0, 0x0⟩,
   ⟨0x110, 32, 64, 0xFFFF8FFF, 0x0, 0x0⟩,
   ⟨0x114, 32, 64, 0x0, 0x0, 0x0⟩,
   ⟨0x118, 32, 64, 0x0, 0x0, 0x0⟩,
   ⟨0x11C, 32, 64, 0x0, 0x0, 0x0⟩]

/-- Registers of unit_kind 0x25 (R170): PWR_SKIM_ID to PWR_SKIM_WINDOW. -/
def rowsSkim : List RegRow :=
  [⟨0x0, 4, 1, 0x0, 0x0, 0x0⟩,
   ⟨0x4, 4, 1, 0x0, 0x0, 0x0⟩,
   ⟨0x8, 4, 1, 0x0, 0x0, 0x0⟩,
   ⟨0xC, 4, 1, 0x0, 0x0, 0x0⟩,
   ⟨0x10, 4, 1, 0x0, 0x0, 0x0⟩,
   ⟨0x14, 4, 1, 0x0, 0x0, 0x0⟩,
   ⟨0x18, 4, 1, 0x0, 0x0, 0x0⟩,
   ⟨0x1C, 4, 1, 0x0, 0x0, 0x0⟩,
   ⟨0x20, 4, 1, 0x0, 0x0, 0x0⟩,
   ⟨0x24, 4, 1, 0x0, 0x0, 0x0⟩,
   ⟨0x28, 4, 1, 0x0, 0x0, 0x0⟩]

/-- Registers of unit_kind 0x31 (R236): CORE_SCHED_ID to CORE_SCHED_FAULT. -/
def rowsSched : List RegRow :=
  [⟨0x0, 4, 1, 0x0, 0x0, 0x0⟩,
   ⟨0x4, 4, 1, 0x0, 0x0, 0x0⟩,
   ⟨0x8, 4, 1, 0x0, 0x0, 0x0⟩,
   ⟨0x10, 4, 1, 0x0, 0x0, 0x0⟩,
   ⟨0x14, 4, 1, 0x0, 0x0, 0x0⟩,
   ⟨0x18, 4, 1, 0x0, 0x0, 0x0⟩,
   ⟨0x1C, 4, 1, 0x0, 0x0, 0x0⟩,
   ⟨0x20, 4, 1, 0x0, 0x0, 0x0⟩,
   ⟨0x24, 4, 1, 0x0, 0x0, 0x0⟩,
   ⟨0x28, 4, 1, 0x0, 0x0, 0x0⟩,
   ⟨0x2C, 4, 1, 0x0, 0x0, 0x0⟩]

/-- Registers of unit_kind 0x32 (R331): TELL_ID to TELL_REMOTE_OK. -/
def rowsTell : List RegRow :=
  [⟨0x0, 4, 1, 0x0, 0x0, 0x0⟩,
   ⟨0x4, 4, 1, 0x0, 0x0, 0x0⟩,
   ⟨0x8, 4, 1, 0x0, 0x0, 0x0⟩,
   ⟨0xC, 4, 1, 0x0, 0x0, 0x0⟩,
   ⟨0x10, 4, 1, 0x0, 0x0, 0x0⟩,
   ⟨0x14, 4, 1, 0x0, 0x0, 0x0⟩,
   ⟨0x18, 4, 1, 0x0, 0x0, 0x0⟩,
   ⟨0x1C, 4, 1, 0x0, 0x0, 0x0⟩,
   ⟨0x20, 4, 1, 0x0, 0x0, 0x0⟩,
   ⟨0x24, 4, 1, 0x0, 0x0, 0x0⟩,
   ⟨0x28, 4, 1, 0x0, 0x0, 0x0⟩,
   ⟨0x2C, 4, 1, 0x0, 0x0, 0x0⟩,
   ⟨0x1000, 8, 1024, 0x0, 0x0, 0x0⟩,
   ⟨0x1004, 8, 1024, 0x0, 0x0, 0x0⟩,
   ⟨0x3000, 4, 32, 0x0, 0x0, 0x0⟩]

/-- Registers of unit_kind 0x30 (R204): SPAD_HUB_ID to SPAD_RING_CFG. -/
def rowsHub : List RegRow :=
  [⟨0x0, 4, 1, 0x0, 0x0, 0x0⟩,
   ⟨0x4, 4, 1, 0x1, 0x0, 0x1⟩,
   ⟨0x8, 4, 1, 0x0, 0x0, 0x0⟩,
   ⟨0x10, 4, 1, 0x0, 0x0, 0x0⟩,
   ⟨0x14, 4, 1, 0x0, 0x0, 0x0⟩,
   ⟨0x18, 4, 1, 0x0, 0x0, 0x0⟩,
   ⟨0x1C, 4, 1, 0x0, 0x0, 0x0⟩,
   ⟨0x100000, 32, 32768, 0xFFFFFFFF, 0x0, 0x0⟩,
   ⟨0x100004, 32, 32768, 0xFFFFFFFF, 0x0, 0x0⟩,
   ⟨0x100008, 32, 32768, 0x3FFFFFF, 0x0, 0x0⟩,
   ⟨0x10000C, 32, 32768, 0xFFFFFFFF, 0x0, 0x0⟩,
   ⟨0x100010, 32, 32768, 0xFFFFFFFF, 0x0, 0x0⟩,
   ⟨0x100014, 32, 32768, 0xFFFF, 0x0, 0x0⟩,
   ⟨0x100018, 32, 32768, 0xFFFFFFFF, 0x0, 0x0⟩,
   ⟨0x10001C, 32, 32768, 0xFFFFFFFF, 0x0, 0x0⟩]

/-- Registers of unit_kind 0x40 (R351): PWR_MEMC_ID to PWR_MEMC_ERR. -/
def rowsMemc : List RegRow :=
  [⟨0x0, 4, 1, 0x0, 0x0, 0x0⟩,
   ⟨0x4, 4, 1, 0x0, 0x0, 0x1⟩,
   ⟨0x8, 4, 1, 0x0, 0x0, 0x0⟩,
   ⟨0x10, 4, 1, 0x0, 0x0, 0x0⟩,
   ⟨0x14, 4, 1, 0x0, 0x0, 0x0⟩,
   ⟨0x18, 4, 1, 0x0, 0x0, 0x0⟩,
   ⟨0x1C, 4, 1, 0x0, 0x0, 0x0⟩,
   ⟨0x20, 4, 1, 0x0, 0x0, 0x0⟩,
   ⟨0x24, 4, 1, 0x0, 0x0, 0x0⟩,
   ⟨0x28, 4, 1, 0x0, 0x0, 0x0⟩,
   ⟨0x30, 4, 1, 0x0, 0x0, 0x0⟩,
   ⟨0x34, 4, 1, 0x0, 0x0, 0x0⟩,
   ⟨0x38, 4, 1, 0x0, 0x1, 0x0⟩]

/-- Registers of unit_kind 0x41 (R352): PWR_MEMMAP_ID to PWR_MEMMAP_SCRUB. -/
def rowsMemmap : List RegRow :=
  [⟨0x0, 4, 1, 0x0, 0x0, 0x0⟩,
   ⟨0x4, 4, 1, 0x3F, 0x0, 0x30⟩,
   ⟨0x8, 4, 1, 0x0, 0x0, 0x0⟩,
   ⟨0xC, 4, 1, 0xFFFFFFFF, 0x0, 0x10000⟩,
   ⟨0x10, 4, 1, 0x0, 0x0, 0x0⟩,
   ⟨0x14, 4, 1, 0x0, 0x0, 0x0⟩,
   ⟨0x18, 4, 1, 0x0, 0x0, 0x0⟩,
   ⟨0x1C, 4, 1, 0x0, 0x0, 0x0⟩,
   ⟨0x20, 4, 1, 0xFFFF, 0x0, 0x18⟩]

/-- Registers of unit_kind 0x50 (R380): CHURN_ID to CHURN_FAULT. -/
def rowsChurn : List RegRow :=
  [⟨0x0, 4, 1, 0x0, 0x0, 0x0⟩,
   ⟨0x4, 4, 1, 0x0, 0x0, 0x0⟩,
   ⟨0x8, 4, 1, 0x0, 0x0, 0x0⟩,
   ⟨0xC, 4, 1, 0x7FFF, 0x0, 0x0⟩,
   ⟨0x10, 4, 1, 0xFFFFFFFF, 0x0, 0x0⟩,
   ⟨0x14, 4, 1, 0xFFFF, 0x0, 0x0⟩,
   ⟨0x18, 4, 1, 0xFFFFFFFF, 0x0, 0x47868C00⟩,
   ⟨0x20, 4, 1, 0x0, 0x0, 0x0⟩,
   ⟨0x24, 4, 1, 0x0, 0x0, 0x0⟩,
   ⟨0x28, 4, 1, 0x0, 0x0, 0x0⟩,
   ⟨0x2C, 4, 1, 0x0, 0x0, 0x0⟩,
   ⟨0x30, 4, 1, 0x0, 0x0, 0x0⟩,
   ⟨0x34, 4, 1, 0x0, 0x0, 0x0⟩,
   ⟨0x38, 4, 1, 0x0, 0x0, 0x0⟩,
   ⟨0x3C, 4, 1, 0x0, 0x0, 0x0⟩,
   ⟨0x40, 4, 1, 0x0, 0x0, 0x0⟩]

/-- Registers of unit_kind 0x51 (R381): CHURN_ROOT_ID to CHURN_ROOT_LAST_RES. -/
def rowsRoot : List RegRow :=
  [⟨0x0, 4, 1, 0x0, 0x0, 0x0⟩,
   ⟨0x4, 4, 1, 0x0, 0x0, 0x0⟩,
   ⟨0x8, 4, 1, 0x0, 0x0, 0x0⟩,
   ⟨0x10, 4, 1, 0x0, 0x0, 0x0⟩,
   ⟨0x14, 4, 1, 0x0, 0x0, 0x0⟩,
   ⟨0x18, 4, 1, 0x0, 0x0, 0x0⟩,
   ⟨0x1C, 4, 1, 0x0, 0x0, 0x0⟩,
   ⟨0x20, 4, 1, 0x0, 0x0, 0x0⟩]

/-- Registers of unit_kind 0x61 (R416): SPAN_PORT_ID to SPAN_PORT_MODULE. -/
def rowsSpanPort : List RegRow :=
  [⟨0x0, 4, 1, 0x0, 0x0, 0x0⟩,
   ⟨0x4, 4, 1, 0x0, 0x0, 0x0⟩,
   ⟨0x8, 4, 1, 0x0, 0x0, 0x0⟩,
   ⟨0xC, 4, 1, 0x7, 0x0, 0x4⟩,
   ⟨0x10, 4, 1, 0x0, 0x0, 0x0⟩,
   ⟨0x14, 4, 1, 0x0, 0x0, 0x0⟩,
   ⟨0x18, 4, 1, 0x0, 0x0, 0x0⟩,
   ⟨0x1C, 4, 1, 0x0, 0x0, 0x0⟩,
   ⟨0x20, 4, 1, 0x0, 0x0, 0x0⟩,
   ⟨0x24, 4, 1, 0x0, 0x0, 0x0⟩,
   ⟨0x28, 4, 1, 0x0, 0x0, 0x0⟩,
   ⟨0x2C, 4, 1, 0x0, 0x0, 0x0⟩,
   ⟨0x30, 4, 1, 0x0, 0x0, 0x0⟩,
   ⟨0x34, 4, 1, 0x0, 0x0, 0x0⟩,
   ⟨0x38, 4, 1, 0x0, 0x0, 0x0⟩]

/-- Registers of unit_kind 0x60 (R415): SPAN_ID to SPAN_WIN. -/
def rowsSpan_0 : List RegRow :=
  [⟨0x0, 4, 1, 0x0, 0x0, 0x0⟩,
   ⟨0x4, 4, 1, 0x0, 0x0, 0x0⟩,
   ⟨0x8, 4, 1, 0x0, 0x0, 0x0⟩,
   ⟨0xC, 4, 1, 0x3FFFF, 0x0, 0x0⟩,
   ⟨0x10, 4, 1, 0x0, 0x0, 0x0⟩,
   ⟨0x14, 4, 1, 0xFFFFFFFF, 0x0, 0x0⟩,
   ⟨0x18, 4, 1, 0xFFFF, 0x0, 0x0⟩,
   ⟨0x1C, 4, 1, 0xFFFFFFFF, 0x0, 0x7D0⟩,
   ⟨0x20, 4, 1, 0xF, 0x0, 0x0⟩,
   ⟨0x24, 4, 1, 0x0, 0x0, 0x0⟩,
   ⟨0x28, 4, 1, 0x0, 0x0, 0x0⟩,
   ⟨0x2C, 4, 1, 0x0, 0x0, 0x0⟩,
   ⟨0x30, 4, 1, 0x0, 0x0, 0x0⟩,
   ⟨0x34, 4, 1, 0x0, 0x0, 0x0⟩,
   ⟨0x38, 4, 1, 0x0, 0x0, 0x0⟩,
   ⟨0x3C, 4, 1, 0x0, 0x0, 0x0⟩,
   ⟨0x40, 4, 1, 0x0, 0x0, 0x0⟩,
   ⟨0x44, 4, 1, 0x0, 0x0, 0x0⟩,
   ⟨0x100, 4, 256, 0x3FD, 0x0, 0x0⟩,
   ⟨0x500, 4, 8, 0xFFFFFFFF, 0x0, 0xFFFFFFFF⟩,
   ⟨0x520, 4, 120, 0xFFFFFFFF, 0x0, 0x0⟩,
   ⟨0x1000, 32, 4096, 0x0, 0x0, 0x0⟩,
   ⟨0x1004, 32, 4096, 0x0, 0x0, 0x0⟩,
   ⟨0x1008, 32, 4096, 0x0, 0x0, 0x0⟩]

/-- Registers of unit_kind 0x60 (R415): SPAN_WIN to SPAN_WIN. -/
def rowsSpan_1 : List RegRow :=
  [⟨0x100C, 32, 4096, 0x0, 0x0, 0x0⟩,
   ⟨0x1010, 32, 4096, 0x0, 0x0, 0x0⟩,
   ⟨0x1014, 32, 4096, 0x0, 0x0, 0x0⟩,
   ⟨0x1018, 32, 4096, 0x0, 0x0, 0x0⟩,
   ⟨0x101C, 32, 4096, 0x0, 0x0, 0x0⟩]

/-- Registers of unit_kind 0x80 (R460): PWR_ID to PWR_QSTATE. -/
def rowsPwr : List RegRow :=
  [⟨0x0, 4, 1, 0x0, 0x0, 0x0⟩,
   ⟨0x4, 4, 1, 0x0, 0x0, 0x0⟩,
   ⟨0x8, 4, 1, 0x0, 0x0, 0x0⟩,
   ⟨0xC, 4, 1, 0x0, 0x0, 0x0⟩,
   ⟨0x10, 4, 1, 0x0, 0x0, 0x0⟩,
   ⟨0x14, 4, 1, 0x0, 0x0, 0x0⟩,
   ⟨0x18, 4, 1, 0x0, 0x0, 0x0⟩,
   ⟨0x1C, 4, 1, 0x7FF, 0x0, 0x47E⟩,
   ⟨0x20, 4, 1, 0x7, 0x0, 0x0⟩,
   ⟨0x24, 4, 1, 0x0, 0x0, 0x0⟩,
   ⟨0x28, 4, 1, 0x0, 0x0, 0x0⟩,
   ⟨0x2C, 4, 1, 0x0, 0x0, 0x0⟩,
   ⟨0x30, 4, 1, 0x0, 0x0, 0x0⟩,
   ⟨0x34, 4, 1, 0x0, 0x0, 0x0⟩,
   ⟨0x38, 4, 1, 0x0, 0x0, 0x0⟩,
   ⟨0x3C, 4, 1, 0x0, 0x0, 0x0⟩,
   ⟨0x80, 4, 1, 0xFFFFFFFF, 0x0, 0x186A0⟩,
   ⟨0x84, 4, 1, 0xFFFFFFFF, 0x0, 0x2710⟩,
   ⟨0x88, 4, 1, 0xFFFFFFFF, 0x0, 0x3E8⟩,
   ⟨0x100, 4, 16, 0x0, 0x0, 0x0⟩,
   ⟨0x200, 4, 260, 0x0, 0x0, 0x0⟩]

/-- Registers of unit_kind 0x90 (R483): SISYN_ID to SISYN_CURR. -/
def rowsSisyn : List RegRow :=
  [⟨0x0, 4, 1, 0x0, 0x0, 0x0⟩,
   ⟨0x4, 4, 1, 0x0, 0x0, 0x0⟩,
   ⟨0x8, 4, 1, 0x0, 0x0, 0x0⟩,
   ⟨0xC, 4, 1, 0x0, 0x0, 0x0⟩,
   ⟨0x10, 4, 1, 0x0, 0x0, 0x0⟩,
   ⟨0x14, 4, 1, 0x0, 0x0, 0x0⟩,
   ⟨0x18, 4, 1, 0x0, 0x0, 0x0⟩,
   ⟨0x1C, 4, 1, 0x0, 0x0, 0x0⟩,
   ⟨0x20, 4, 1, 0x0, 0x0, 0x0⟩,
   ⟨0x24, 4, 1, 0x0, 0x0, 0x0⟩,
   ⟨0x28, 4, 2, 0xFFFFFFFF, 0x0, 0x0⟩,
   ⟨0x30, 4, 1, 0x0, 0x0, 0x0⟩,
   ⟨0x34, 4, 1, 0x0, 0x0, 0x0⟩,
   ⟨0x38, 4, 1, 0x0, 0x0, 0x0⟩,
   ⟨0x3C, 4, 1, 0x0, 0x0, 0x0⟩,
   ⟨0x40, 4, 1, 0x0, 0x0, 0x0⟩,
   ⟨0x44, 4, 1, 0xFFFF, 0x0, 0x1E⟩,
   ⟨0x100, 4, 32, 0x0, 0x0, 0x0⟩,
   ⟨0x200, 4, 96, 0x0, 0x0, 0x0⟩,
   ⟨0x380, 4, 40, 0x0, 0x0, 0x0⟩,
   ⟨0x420, 4, 12, 0x0, 0x0, 0x0⟩]

/-- Registers of unit_kind 0x91 (R484): SISYN_FP_ID to SISYN_FP_REFUSED. -/
def rowsFp : List RegRow :=
  [⟨0x0, 4, 1, 0x0, 0x0, 0x0⟩,
   ⟨0x4, 4, 1, 0x0, 0x0, 0x0⟩,
   ⟨0x8, 4, 1, 0x0, 0x0, 0x0⟩,
   ⟨0xC, 4, 1, 0xF, 0x0, 0x0⟩,
   ⟨0x10, 4, 8, 0x0, 0x0, 0x0⟩,
   ⟨0x30, 4, 1, 0x0, 0x0, 0x0⟩,
   ⟨0x34, 4, 1, 0x0, 0x0, 0x0⟩]

/-- Registers of unit_kind 0x92 (R501): SISYN_LC_ID to SISYN_PB_DATA. -/
def rowsLc : List RegRow :=
  [⟨0x0, 4, 1, 0x0, 0x0, 0x0⟩,
   ⟨0x4, 4, 1, 0x0, 0x0, 0x0⟩,
   ⟨0x8, 4, 1, 0x0, 0x0, 0x0⟩,
   ⟨0xC, 4, 1, 0x0, 0x0, 0x0⟩,
   ⟨0x10, 4, 1, 0x0, 0x0, 0x0⟩,
   ⟨0x14, 4, 1, 0x0, 0x0, 0x0⟩,
   ⟨0x18, 4, 1, 0x0, 0x0, 0x0⟩,
   ⟨0x1C, 4, 1, 0xFFFFFFFF, 0x0, 0x0⟩,
   ⟨0x20, 4, 4, 0x0, 0x0, 0x0⟩,
   ⟨0x100, 4, 80, 0xFFFFFFFF, 0x0, 0x0⟩,
   ⟨0x300, 4, 40, 0x0, 0x0, 0x0⟩]

/-- Registers of unit_kind 0x70 (R439): HOST_ID to HOST_RESETS. -/
def rowsHost : List RegRow :=
  [⟨0x0, 4, 1, 0x0, 0x0, 0x0⟩,
   ⟨0x4, 4, 1, 0x0, 0x0, 0x0⟩,
   ⟨0x8, 4, 1, 0x0, 0x0, 0x0⟩,
   ⟨0xC, 4, 1, 0xFFFF, 0x0, 0x0⟩,
   ⟨0x10, 4, 1, 0xFFF, 0x0, 0x0⟩,
   ⟨0x14, 4, 1, 0xFFFF, 0x0, 0x0⟩,
   ⟨0x18, 4, 1, 0x0, 0x0, 0x0⟩,
   ⟨0x1C, 4, 1, 0x0, 0x0, 0x0⟩,
   ⟨0x20, 4, 1, 0x0, 0x0, 0x0⟩,
   ⟨0x24, 4, 1, 0x0, 0x0, 0x0⟩,
   ⟨0x28, 4, 1, 0x0, 0x0, 0x0⟩,
   ⟨0x2C, 4, 1, 0x0, 0x0, 0x0⟩,
   ⟨0x30, 4, 1, 0x0, 0x0, 0x0⟩,
   ⟨0x34, 4, 1, 0x0, 0x0, 0x0⟩,
   ⟨0x38, 4, 1, 0x0, 0x0, 0x0⟩,
   ⟨0x3C, 4, 1, 0x0, 0x0, 0x0⟩,
   ⟨0x40, 4, 1, 0x0, 0x0, 0x0⟩,
   ⟨0x44, 4, 1, 0x0, 0x0, 0x0⟩]

/-- Registers of unit_kind 0x71 (R440): HOST_CLAIM_ID to HOST_CLAIM. -/
def rowsClaim : List RegRow :=
  [⟨0x0, 4, 1, 0x0, 0x0, 0x0⟩,
   ⟨0x40, 4, 16, 0xFFFFFFFF, 0x0, 0x0⟩]

/-- Every block of control space. -/
def blockTable : List BlockRow :=
  [⟨.tally, 0x00080000, 0x100000, 64, 0x100, 0x21, rowsTally⟩,
   ⟨.ledg, 0x00080100, 0x100000, 64, 0x100, 0x22, rowsLedg⟩,
   ⟨.strain, 0x00080200, 0x100000, 64, 0x100, 0x24, rowsStrain⟩,
   ⟨.clerk, 0x00080300, 0x100000, 64, 0x100, 0x27, rowsClerk⟩,
   ⟨.desc, 0x00080400, 0x100000, 64, 0x100, 0x28, rowsDesc⟩,
   ⟨.rng, 0x00080500, 0x100000, 64, 0x100, 0x29, rowsRng⟩,
   ⟨.spad, 0x00080800, 0x100000, 64, 0x400, 0x26, rowsSpad⟩,
   ⟨.mint, 0x00081000, 0x100000, 64, 0x1000, 0x23, rowsMint⟩,
   ⟨.handle, 0x00082000, 0x100000, 64, 0x1000, 0x62, rowsHandle⟩] ++
  [⟨.skim, 0x04000000, 0x100, 16, 0x100, 0x25, rowsSkim⟩,
   ⟨.sched, 0x04001000, 0x100, 1, 0x100, 0x31, rowsSched⟩,
   ⟨.tell, 0x04004000, 0x4000, 1, 0x4000, 0x32, rowsTell⟩,
   ⟨.hub, 0x04200000, 0x200000, 1, 0x200000, 0x30, rowsHub⟩,
   ⟨.memc, 0x08000000, 0x100, 192, 0x100, 0x40, rowsMemc⟩,
   ⟨.memmap, 0x0800C000, 0x100, 1, 0x100, 0x41, rowsMemmap⟩,
   ⟨.churn, 0x08010000, 0x100, 48, 0x100, 0x50, rowsChurn⟩,
   ⟨.root, 0x08014000, 0x100, 4, 0x100, 0x51, rowsRoot⟩] ++
  [⟨.spanPort, 0x08018000, 0x100, 16, 0x100, 0x61, rowsSpanPort⟩,
   ⟨.span, 0x08040000, 0x21000, 1, 0x21000, 0x60, rowsSpan_0 ++ rowsSpan_1⟩,
   ⟨.pwr, 0x0C000000, 0x1000, 1, 0x1000, 0x80, rowsPwr⟩,
   ⟨.sisyn, 0x0C001000, 0x1000, 1, 0x1000, 0x90, rowsSisyn⟩,
   ⟨.fp, 0x0C002000, 0x1000, 1, 0x1000, 0x91, rowsFp⟩,
   ⟨.lc, 0x0C003000, 0x1000, 1, 0x1000, 0x92, rowsLc⟩,
   ⟨.host, 0x0F000000, 0x1000, 2, 0x1000, 0x70, rowsHost⟩,
   ⟨.claim, 0x0F002000, 0x100, 1, 0x100, 0x71, rowsClaim⟩]

/-- A place in a block: its kind, instance number and block offset. -/
structure BlockAt where
  kind : BlockKind
  inst : Nat
  off : Nat
  unit : Nat
  rows : List RegRow
  deriving DecidableEq, Repr

/-- The block row that holds BAR0 offset `x`. -/
def blockIn (b : BlockRow) (x : Nat) : Option BlockAt :=
  if b.base ≤ x ∧ x < b.base + b.stride * b.count ∧ (x - b.base) % b.stride < b.size then
    some ⟨b.kind, (x - b.base) / b.stride, (x - b.base) % b.stride, b.unit, b.rows⟩
  else none

/-- The block at BAR0 offset `x`. -/
def blockAt (x : Nat) : Option BlockAt := blockTable.findSome? (blockIn · x)

/-- Whether a register row covers block offset `o`. -/
def RegRow.covers (r : RegRow) (o : Nat) : Bool :=
  decide (r.off ≤ o) && decide (o < r.off + r.stride * r.count) && ((o - r.off) % r.stride == 0)

end Sys2Proof.Machine
end

