-- ==== Sys2Proof/Machine/UnitState.lean ====
section
/-! DEFINITION. The state of the units around the cores: Churns and root engines (14_the_churn.md), Span
(15_span_fabric.md), hosts (16_host_attachment.md), power (17_power_clocks_and_reset.md), Sisyn and the faceplate
(18_sisyn_and_the_faceplate.md) and the lifecycle (19_lifecycle_and_attestation.md). What a register holds lies in the
register map of State.lean; here is the rest. -/

namespace Sys2Proof.Machine

/-! Churns. -/

/-- A Churn command (R361) with the ring and the counter value of its slot, the core and operation that posted it and
the seed of its task. -/
structure ChurnCmd where
  ring : Nat
  slot : Nat
  core : Nat
  id : Nat
  seed : BitVec 128
  op : Nat
  strict : Bool
  stat : Bool
  first : Nat
  count : Nat
  stream : Nat
  step : Nat
  lr : Word
  b1 : Word
  b2 : Word
  eps : Word
  wd : Word
  gmul : Word
  deriving DecidableEq, Repr, Inhabited

/-- One job of a ROOT command (R377): the root of L, or of R where `right` holds. -/
structure RootJob where
  churn : Nat
  entry : Nat
  right : Bool
  eps : Word
  ring : Nat
  slot : Nat
  deriving DecidableEq, Repr, Inhabited

/-- A ROOT command whose jobs have not all ended: the jobs left, the entries one of whose jobs was accepted (R378), and the
first failure of a job: its status, 0 without one, the entry it concerns (R380), and its daybook entry. -/
structure RootCmd where
  ring : Nat
  slot : Nat
  left : Nat
  accepted : List Nat
  status : Nat
  entry : Nat
  seq : Nat
  deriving DecidableEq, Repr, Inhabited

/-- An UPDATE or REMINT that a Churn runs (R375, R376): the command, the work units done, and the first entry with a value
that was not finite. -/
structure ChurnWork where
  cmd : ChurnCmd
  done : Nat
  nonfinite : Option Nat
  deriving DecidableEq, Repr, Inhabited

/-- A Churn: the command that runs (R363), parked commands in the order in which they parked (R365), the ring served last
(R363), and jobs that wait for the root engine's queue, each holding its ring (R378). -/
structure ChurnSt where
  running : Option ChurnWork
  parked : List ChurnCmd
  lastRing : Nat
  rootWait : List RootJob
  deriving DecidableEq, Repr, Inhabited

/-- A root engine (R378): its queue, the Churns whose jobs wait for room in it in the order in which the jobs came, the job
that runs, and the commands with jobs left. -/
structure RootSt where
  queue : List RootJob
  waiting : List Nat
  running : Option RootJob
  cmds : List RootCmd
  deriving DecidableEq, Repr, Inhabited

/-- A Churn at reset. DESIGN CHOICE (log entry 9). -/
def ChurnSt.reset : ChurnSt := ⟨none, [], 3, []⟩

/-- A root engine at reset. DESIGN CHOICE (log entry 9). -/
def RootSt.reset : RootSt := ⟨[], [], none, []⟩

/-! Span. -/

/-- A transaction: header and payload (R398). -/
structure SpanItem where
  hdr : BitVec 128
  payload : List Dword
  deriving DecidableEq, Repr, Inhabited

/-- A DATA flit sent and not acknowledged (R387), and the transaction whose slots it carries. DESIGN CHOICE (log entry 73). -/
structure TxFlit where
  seq : Nat
  vc : Nat
  replays : Nat
  slots : List (BitVec 128)
  item : SpanItem
  deriving DecidableEq, Repr, Inhabited

/-- A Span port (R386–R388, R411, R414): its state code (R416), what has been sent and received of INIT and DRAIN, the
next sequence number to send and the last accepted, the credits of each VC that are spent, the replay buffer,
transactions that wait for credit by VC, and received slots not yet a whole transaction; a slot is marked where its
flit ends. -/
structure PortSt where
  st : Nat
  initSent : Bool
  initSeen : Bool
  drainSent : Bool
  drainSeen : Bool
  txSeq : Nat
  rxSeq : Nat
  credits : Tab Nat
  replay : List TxFlit
  waiting : List (Nat × SpanItem)
  rx : Tab (List (BitVec 128 × Bool))
  discarding : Bool
  deriving DecidableEq, Repr, Inhabited

/-- A port at reset: DOWN. A VC's credits are listed as credits spent, so an unlisted VC has all 32 (R388). DESIGN CHOICE (log entry 9). -/
def PortSt.reset : PortSt := ⟨0, false, false, false, false, 0, 4095, [], [], [], [], false⟩

/-- A transaction that has arrived for this module, with its port, 16 for its own sender, and VC (R403, R404). -/
structure Arrived where
  port : Nat
  vc : Nat
  item : SpanItem
  deriving DecidableEq, Repr, Inhabited

/-- An accepted PARTIAL whose values have not all reached their tile (R402): its header, the values left, and whether one
was dropped. -/
structure Served where
  id : Nat
  hdr : BitVec 128
  core : Nat
  left : Nat
  dropped : Bool
  deriving DecidableEq, Repr, Inhabited

/-- Why this module sent a Span request (R402). -/
inductive SpanUse where
  | xferRead (c id : Nat) (addr len : Nat)
  | xferWrite (c id : Nat)
  | op (c id : Nat)
  | grant (c id : Nat)
  deriving DecidableEq, Repr, Inhabited

/-- A Span request of this module without its response (R402). `sent` is false while it waits in a FROZEN module (R408). -/
structure SpanReq where
  use : SpanUse
  item : SpanItem
  sent : Bool
  deriving DecidableEq, Repr, Inhabited

/-- The Span unit: ports, requests by tag, the next tag, tags that cool after a timeout, requests that wait for a free tag
(R402), arrived transactions,
PARTIALs being added, window generations (R396), the windows of the running task without persistent (R397), WCLOSEs that
wait (core, operation, window), management messages that wait (R408), the manager that the last heartbeat accepted names
(R406), and the manager's view (R407): nodes present and heartbeats that each node has not answered. -/
structure SpanSt where
  ports : Tab PortSt
  reqs : Tab SpanReq
  nextTag : Nat
  cooling : List Nat
  tagWait : List SpanReq
  arrived : List Arrived
  served : List Served
  nextServed : Nat
  winGen : Tab Nat
  taskWins : List Nat
  winWait : List (Nat × Nat × Nat)
  heldMgt : List SpanItem
  manager : Option Nat
  present : BitVec 256
  missed : Tab Nat
  deriving DecidableEq, Repr, Inhabited

/-- Span at reset. DESIGN CHOICE (log entry 9). -/
def SpanSt.reset : SpanSt := ⟨[], [], 0, [], [], [], [], 0, [], [], [], [], none, 0, []⟩

/-! Power. -/

/-- Power (R443–R459): whether AUX stands and the power-up sequence has begun, whether V_IN stands at 44.0 V or more,
whether it has fallen below 40.0 V since it last stood there (R449), whether a thermal trip holds the domains off (R453),
whether the module is ready for removal (R479) and PWR_OFF_REQ# is asserted (R513),
whether core firmware is loaded (step 6 of R447), quads whose clock is stretched (R450) and quads whose DROOP
event was posted (R473), requests for each domain, the one in progress first (R445), units whose enable waits (R459),
channels that failed training (R349), whether a Q domain's task start waits (R446), and PERST# and the reference clock of
each port (R438, R515). -/
structure PowerSt where
  aux : Bool
  vin : Bool
  brown : Bool
  tripped : Bool
  removed : Bool
  offReq : Bool
  loaded : Bool
  stretched : List Nat
  droopPosted : List Nat
  domReqs : Tab (List Bool)
  enableWait : List Nat
  trainFailed : BitVec 192
  perstA : Bool
  perstB : Bool
  refclkA : Bool
  refclkB : Bool
  deriving DecidableEq, Repr, Inhabited

/-- Power at reset: nothing is up; PERST# is held on both ports and both reference clocks run (R447). DESIGN CHOICE (log entry 9). -/
def PowerSt.reset : PowerSt := ⟨false, false, false, false, false, false, false, [], [], [], [], 0, true, true, true, true⟩

/-! Sisyn and the faceplate. -/

/-- The touch strip (R475–R477): segments touched, segments whose hold met a second touch, stuck segments, segments whose
hold has made its gesture, cages in the 1.0 s of confirmation and cages in the 0.5 s refusal blink (R474). -/
structure StripSt where
  touched : BitVec 8
  crossed : BitVec 8
  stuck : BitVec 8
  done : BitVec 8
  confirm : BitVec 8
  refused : BitVec 8
  deriving DecidableEq, Repr, Inhabited

/-- Sisyn: the level of ADDR[1:0] sampled at step 1 (R514), whether no firmware slot verifies (R471), whether a verified image waits in the slot that does not run (R472),
its record of states by the number of what it watches, rechecks in progress (what, reads left) (R481), the SPI NOR bytes
of areas that no other field holds (R463), SRAM bytes, the seed of the alias key, the strip, ATTN's request (0 none,
1 pending, 2 powering off, 3 ready) and whether the running task is no longer awaited (R479), and the scheduler's and
Churns' microcode in force (the image's number), the next slot of the daybook's area (R466), and the seqs sent as
platform events (R468). The bytes of its processor's debug registers (R488), and its endpoint IDs (R468). -/
structure SisynSt where
  addr : BitVec 2
  noFw : Bool
  staged : Bool
  record : Tab Nat
  recheck : Tab Nat
  nor : Tab Byte
  sram : Tab Byte
  imageA : Nat
  imageB : Nat
  nextImage : Nat
  microcode : Nat
  strip : StripSt
  attnPressed : Bool
  attn : Nat
  dbSlot : Nat
  pldmEvents : List Nat
  debugRegs : Tab Byte
  eids : MctpEids
  deriving DecidableEq, Repr, Inhabited

/-- Sisyn at reset. DESIGN CHOICE (log entry 9). -/
def SisynSt.reset : SisynSt :=
  ⟨0, false, false, [], [], [], [], 1, 1, 2, 0, ⟨0, 0, 0, 0, 0, 0⟩, false, 0, 0, [], [], ⟨0, 0, 0⟩⟩

/-! Lifecycle. -/

/-- Lifecycle states (R486). -/
inductive LcState where
  | blank
  | maker
  | field
  | fieldDebug
  | returned
  | scrap
  deriving DecidableEq, Repr, Inhabited

/-- The code of a lifecycle state (R486). -/
def LcState.code : LcState → Nat
  | .blank => 0
  | .maker => 1
  | .field => 2
  | .fieldDebug => 3
  | .returned => 4
  | .scrap => 5

/-- An owner key slot in fuses (R496): 0 EMPTY, 1 ACTIVE, 2 REVOKED, and the hash. -/
structure OwnerSlot where
  st : Nat
  hash : BitVec 384
  deriving DecidableEq, Repr, Inhabited

/-- A passbook record (R499), with its reserved bytes, which a raw write may set (R488). -/
structure PbRecord where
  seq : Nat
  boot : Nat
  kind : Nat
  from_ : Nat
  to_ : Nat
  slot : Nat
  rsv : BitVec 48
  digest : BitVec 384
  sig : BitVec 768
  deriving DecidableEq, Repr, Inhabited

/-- A zeroising transition that has written ZEROISE_BEGIN and not ZEROISE_DONE (R493, R494). -/
structure Zeroise where
  to_ : LcState
  slot : Nat
  digest : BitVec 384
  duration : Nat
  scope : Nat
  deriving DecidableEq, Repr, Inhabited

/-- The lifecycle (R486–R502): state, owner slots, identity seed fuses, the scope of a debug session, whether one was
seen since power-on, sessions since manufacture, the nonce in force, the passbook, a transition in progress, and the
measurements as they were computed last (R498), none before the first power-on, and the names of the identity key and of the
alias key as they were derived at the last power-on (R496). DEDUCED (log entry 99). DEDUCED (log entry 132). -/
structure LcSt where
  state : LcState
  slots : Tab OwnerSlot
  seedFuse : BitVec 384
  scope : Nat
  debugSeen : Bool
  debugEntries : Nat
  nonce : Option (BitVec 128)
  passbook : List PbRecord
  zeroise : Option Zeroise
  measured : List (List Byte)
  idKey : Nat
  alKey : Nat
  deriving DecidableEq, Repr, Inhabited

/-- The lifecycle of a module as made: BLANK. DESIGN CHOICE (log entry 9). -/
def LcSt.reset : LcSt := ⟨.blank, [], 0, 0, false, 0, none, [], none, [], 0, 0⟩

/-- An answer in bytes that a command gives outside: kind 0 success, 1 Unsupported Request, 2 Completer Abort, 3 an error
with status `status`. -/
structure Reply where
  kind : Nat
  status : Nat
  bytes : List Byte
  deriving DecidableEq, Repr, Inhabited

end Sys2Proof.Machine
end

