-- ==== Sys2Proof/Machine/State.lean ====
section
/-! DEFINITION. The state of the part, and its state right after reset. Plain data: sparse tables, lists and records. -/

namespace Sys2Proof.Machine

/-- Why the machine could stop. No meaning raises it: the manual gives every command an effect, and its own faults are
effects on the state (20_fault_index.md R504). -/
inductive Fault where
  /-- Raised by nothing. Safe. -/
  | none_
  deriving DecidableEq, Repr

/-- Why a command could have no meaning. -/
inductive Refusal where
  /-- Raised by an arm of exec that has no meaning yet. Safe. -/
  | notModelled (mnemonic : String)
  deriving DecidableEq, Repr

/-- The configurations of the module (00_scope.md R1). -/
inductive Variant where
  | m2304fu
  | m2304u
  | m2304f
  | m1152u
  deriving DecidableEq, Repr

/-- A region table entry (R208). -/
structure Region where
  base : Nat
  len : Nat
  space : Nat
  rd : Bool
  wr : Bool
  pinned : Bool
  package : Nat
  deriving DecidableEq, Repr, Inhabited

/-- The first fault of a task (R509): status, detail and the seq of its record. -/
structure Primary where
  status : Nat
  detail : Nat
  seq : Nat
  deriving DecidableEq, Repr, Inhabited

/-- A submission entry taken from a HOST_SUB ring (16_host_attachment.md R428, R429), and the port it came from (R437). -/
structure SubEntry where
  ring : Nat
  port : Nat
  tag : Dword
  op : Nat
  addr : Nat
  host : Nat
  len : Nat
  subHead : Nat
  deriving DecidableEq, Repr, Inhabited

/-- The scheduler's states (R236). -/
inductive SchedSt where
  | idle
  | loading
  | running
  | ending
  deriving DecidableEq, Repr, Inhabited

/-- The task scheduler and its task (R206–R214, R508–R511). -/
structure Sched where
  st : SchedSt
  lastRing : Nat
  entry : SubEntry
  header : Nat
  mask : Nat
  seed : BitVec 128
  argument : Dword
  timeout : Nat
  cls : Dword
  regions : List Region
  failing : Bool
  primary : Option Primary
  firstRec : Nat
  deriving DecidableEq, Repr, Inhabited

/-- A completion on its way to a HOST_CPL ring (R431, R432): `full` says that it found no room there. -/
structure CplEntry where
  ring : Nat
  bytes : List Byte
  full : Bool
  deriving DecidableEq, Repr, Inhabited

/-- A host copy in flight (R430). -/
structure HostCopy where
  entry : SubEntry
  moved : Nat
  stopped : Bool
  status : Nat
  seq : Nat
  deriving DecidableEq, Repr, Inhabited

/-- Advanced Error Reporting (16_host_attachment.md R419): uncorrectable and correctable status and mask, and the uncorrectable
severity. PRESUMED (log entry 100). -/
structure AerRegs where
  uncStatus : Word
  uncMask : Word
  uncSeverity : Word
  corStatus : Word
  corMask : Word
  deriving DecidableEq, Repr, Inhabited

/-- What a port's configuration space holds (16_host_attachment.md R419, R420, R433, R437): the command register, whose bit 1
enables memory space, MSI-X Enable and Function Mask, log2 of the GiB of BAR2, the base addresses written to BAR0, BAR2 and BAR4,
the codes of the maximum payload and read request sizes (128 B times a power of two), and the error reporting registers. PRESUMED (log entry 100). -/
structure PcieCfg where
  command : BitVec 16
  msixEnable : Bool
  functionMask : Bool
  bar : Nat
  base0 : Dword
  base2 : Dword
  base4 : Dword
  payload : BitVec 3
  readSize : BitVec 3
  aer : AerRegs
  deriving DecidableEq, Repr, Inhabited

/-- A configuration space at reset: memory space and MSI-X off, BAR2 of 64 GiB (R420), no base address, payloads of 128 B and
read requests of 512 B, and no error. PRESUMED (log entry 100). -/
def PcieCfg.reset : PcieCfg :=
  ⟨0, false, false, 6, 0, 0, 0, 0, 2, ⟨0, 0x00400000, 0x00462030, 0, 0x0000E000⟩⟩

/-- An MSI-X message sent: port, vector, and the address and the data of its table entry (R433). -/
structure MsixMsg where
  port : Nat
  vector : Nat
  addr : Nat
  data : Nat
  deriving DecidableEq, Repr, Inhabited

/-- The hosts' side of the two ports (16_host_attachment.md): host memory by port × 2^64 + address, BAR4 by port × 2^16 +
offset, MSI-X vectors waiting and messages sent, each port's configuration space, completions waiting for room, copies in
flight, and whether the running task's completion is to be discarded (R437). DESIGN CHOICE (log entry 8). DESIGN CHOICE (log entry 96). -/
structure HostState where
  mem : Tab Byte
  bar4 : Tab Byte
  msixWait : List (Nat × Nat)
  msixSent : List MsixMsg
  cfgA : PcieCfg
  cfgB : PcieCfg
  cplWait : List CplEntry
  copies : List HostCopy
  lastCopy : Nat
  discardTask : Bool
  deriving DecidableEq, Repr, Inhabited

/-- A daybook entry (R465). -/
structure DbEntry where
  seq : Nat
  time : Nat
  boot : Nat
  severity : Nat
  origin : Nat
  unit : Nat
  inst : Nat
  status : Nat
  event : Nat
  task : Nat
  detail : List Byte
  deriving DecidableEq, Repr, Inhabited

/-- An operation of a core that a shared unit holds (R225): a TAKE on its way to the Teller (R316), a BARRIER before its
TAKE is applied or, with its threshold and generation, after (R304), a PUSH whose entry the Teller has to serve (R319),
an UPDATE whose command a Churn holds, with the seed of its task (R361), a PUSH or UPDATE that waits for room in its ring
(R199) or, with its grant, for the check of a remote grant (R323), a RETIRE whose new
generation is still on its way to the mirrors (R319), and a BARRIER whose wait has ended with a status (R325). -/
inductive HubOp where
  | take (c id ctr addend : Nat)
  | barrier (c id ctr n : Nat) (wait : Option (Nat × Nat))
  | service (c id ring slot : Nat)
  | update (c id ring slot : Nat) (seed : BitVec 128)
  | post (c id ring : Nat) (entry : List Byte) (update : Bool) (grant : Option Dword)
  | remotePost (c id ringWord : Nat) (entry : List Byte) (grant : Dword)
  | spread (c id ctr : Nat)
  | awake (c id status : Nat)
  deriving DecidableEq, Repr, Inhabited

/-- The value of a register at reset (the Reset columns): an identification register by R4, the map's channel count by
R352. `present` is 1 for every unit that the configuration has, whatever its quiesce state and
its domain's power are (R4). DESIGN CHOICE (log entry 9). DESIGN CHOICE (log entry 130). -/
def regReset (v : Variant) (x : Nat) : Word :=
  match blockAt x with
  | none => 0
  | some b =>
    if b.off = 0 then BitVec.ofNat 32 (b.unit * 2 ^ 24 + b.inst * 2 ^ 12 + 1)
    else if b.kind = .memmap ∧ b.off = 8 then (if v = .m1152u then 96 else 192)
    else match b.rows.find? (·.covers b.off) with
      | some r => BitVec.ofNat 32 r.reset
      | none => 0

/-- The whole state of the part: waiting commands; the configuration and the Device Serial Number (R1, R419); registers, the _HI
latches and the last register answer of each requester; the free-value counter; cores; the scheduler; operations in shared units;
LPDDR symbols by channel and place, channels zeroised with the split of that moment, write-backs that wait by place, with their
symbols, and corrected atoms by package (13_lpddr6_memory.md); the Sampled offset of each quad (R162); hosts; the scrubbers' places;
the daybook; and the units of UnitState.lean. -/
structure State where
  pending : List Instr
  variant : Variant
  serial : Dword
  regs : Tab Word
  latches : Tab Word
  answers : Tab Dword
  free : Nat
  cores : Tab Core
  sched : Sched
  hubOps : List HubOp
  dram : Tab Byte
  zeroed : List (Nat × Nat)
  writeBacks : List (Nat × List Byte)
  pkgCe : Tab Nat
  skimOff : Tab Nat
  hosts : HostState
  scrubAt : Tab Nat
  dbQueue : List DbEntry
  dbArea : Tab DbEntry
  dbNext : Nat
  dbBoot : Nat
  churns : Tab ChurnSt
  roots : Tab RootSt
  span : SpanSt
  power : PowerSt
  sisyn : SisynSt
  lc : LcSt
  replies : Tab Reply
  deriving DecidableEq, Repr

/-- The scheduler at reset: IDLE, no task. DESIGN CHOICE (log entry 9). -/
def Sched.reset : Sched where
  st := .idle
  lastRing := 16895
  entry := ⟨0, 0, 0, 0, 0, 0, 0, 0⟩
  header := 0
  mask := 0
  seed := 0
  argument := 0
  timeout := 0
  cls := 0
  regions := []
  failing := false
  primary := none
  firstRec := 0

/-- The part right after reset, before the power-up sequence (R447, R455). DESIGN CHOICE (log entry 4). DESIGN CHOICE (log entry 9). -/
def State.reset : State where
  pending := []
  variant := .m2304fu
  serial := Config.serialNumber
  regs := []
  latches := []
  answers := []
  free := 0
  cores := []
  sched := Sched.reset
  hubOps := []
  dram := []
  zeroed := []
  writeBacks := []
  pkgCe := []
  skimOff := []
  hosts := ⟨[], [], [], [], PcieCfg.reset, PcieCfg.reset, [], [], 16895, false⟩
  scrubAt := []
  dbQueue := []
  dbArea := []
  dbNext := 1
  dbBoot := 0
  churns := []
  roots := []
  span := SpanSt.reset
  power := PowerSt.reset
  sisyn := SisynSt.reset
  lc := LcSt.reset
  replies := []

end Sys2Proof.Machine
end

