-- ==== Sys2Proof/Decode.lean ====
section
/-! DEFINITION. The commands that a table word spells. The opcode table gives no row any bits: its commands arrive as
register accesses, as packets, as instructions of a core's store, and as events, each with an encoding of its own that
the machine's files read. -/

namespace Sys2Proof

/-- The command that a word of the table's bits spells: none, since no row has bits. DESIGN CHOICE (log entry 15). -/
def decodeTableWord (_nbits _w : Nat) : Option Instr := none

end Sys2Proof
end

