-- ==== Sys2Proof/Machine/Counters.lean ====
section
/-! DEFINITION. The counters that each block's _CNT_CLR register clears, with the extra registers that its description
names, and the _LO registers whose reads latch their _HI half (R70), by block offset from the register tables. -/

namespace Sys2Proof.Machine

/-- Block offsets of what a block's _CNT_CLR clears. -/
def clearedRegs : BlockKind → List Nat
  | .tally =>
    [0x10, 0x14, 0x18, 0x1C, 0x20, 0x24, 0x28, 0x2C, 0x30, 0x34]
  | .ledg =>
    [0x50, 0x54, 0x58, 0x5C, 0x60, 0x64, 0x68, 0x6C, 0x70]
  | .strain =>
    [0x18, 0x1C, 0x20, 0x24, 0x28, 0x2C, 0x30, 0x34, 0x38, 0x3C]
  | .clerk =>
    [0x10, 0x14, 0x18, 0x1C, 0x20, 0x24, 0x2C, 0x30, 0x34, 0x38, 0x3C]
  | .desc =>
    [0x10, 0x14, 0x18, 0x1C, 0x20, 0x24, 0x28, 0x2C]
  | .rng =>
    [0x10, 0x14]
  | .spad =>
    [0x30, 0x34, 0x38, 0x3C, 0x40, 0x44]
  | .mint =>
    [0x10, 0x14, 0x18, 0x1C, 0x20, 0x24, 0x28, 0x2C, 0x30, 0x34, 0x38, 0x3C, 0x40]
  | .skim =>
    [0x10, 0x14, 0x18, 0x1C, 0x20, 0x24]
  | .sched =>
    [0x18, 0x1C, 0x20, 0x24, 0x28]
  | .tell =>
    [0x10, 0x14, 0x18, 0x1C, 0x20, 0x24, 0x28]
  | .hub =>
    [0x10, 0x14, 0x18]
  | .memc =>
    [0x10, 0x14, 0x18, 0x1C, 0x20, 0x24, 0x28]
  | .memmap =>
    []
  | .churn =>
    [0x20, 0x24, 0x28, 0x2C, 0x30, 0x34, 0x38, 0x3C, 0x40]
  | .root =>
    [0x10, 0x14, 0x18, 0x1C]
  | .spanPort =>
    [0x10, 0x14, 0x18, 0x1C, 0x20, 0x24, 0x28, 0x2C, 0x30, 0x34]
  | .span =>
    [0x28, 0x2C, 0x30, 0x34, 0x38, 0x3C, 0x40, 0x44]
  | .pwr =>
    [0x28, 0x2C, 0x100, 0x104, 0x108, 0x10C, 0x110, 0x114, 0x118, 0x11C, 0x120, 0x124, 0x128, 0x12C,
     0x130, 0x134, 0x138, 0x13C]
  | .sisyn =>
    [0x30, 0x34, 0x38, 0x3C]
  | .fp =>
    [0x30, 0x34]
  | .lc =>
    [0x18]
  | .host =>
    [0x18, 0x1C, 0x20, 0x24, 0x28, 0x2C, 0x30, 0x34, 0x38, 0x3C, 0x40, 0x44]
  | .handle => []
  | .claim => []

/-- Whether a read at a block offset latches the register above it (R70, R333, R353). -/
def latchesHi : BlockKind → Nat → Bool
  | .tally, o => [0x10, 0x18, 0x20, 0x28].contains o
  | .ledg, o => [0x50, 0x60].contains o
  | .strain, o => [0x18, 0x20].contains o
  | .clerk, o => [0x10, 0x18, 0x20].contains o
  | .desc, o => [0x10, 0x18, 0x20].contains o
  | .rng, o => [0x10].contains o
  | .spad, o => [0x40].contains o
  | .mint, o => [0x10, 0x18, 0x20, 0x30].contains o
  | .skim, o => [0x10, 0x18].contains o
  | .sched, o => [0x10, 0x18].contains o
  | .tell, o => [0x10, 0x18].contains o || (decide (0x1000 ≤ o) && decide (o < 0x3000) && o % 8 == 0)
  | .hub, o => [0x10].contains o
  | .memc, o => [0x10, 0x18, 0x30].contains o
  | .memmap, o => [0x10, 0x18].contains o
  | .churn, o => [0x20, 0x28].contains o
  | .root, o => [0x10].contains o
  | .spanPort, o => [0x10, 0x18].contains o
  | .span, o => [0x28, 0x30].contains o
  | .pwr, _ => false
  | .sisyn, _ => false
  | .fp, _ => false
  | .lc, _ => false
  | .host, o => [0x18, 0x28, 0x30].contains o
  | .handle, _ => false
  | .claim, _ => false

end Sys2Proof.Machine
end

