-- ==== Sys2Proof/Machine/Regs.lean ====
section
/-! DEFINITION. Shared operations on cores, registers and counters: one home for every access (00_scope.md R3, R4, R9;
03_the_tally.md R70). -/

namespace Sys2Proof.Machine

/-! Cores. -/

/-- Core `c`. -/
def State.core (s : State) (c : Nat) : Core := tabGet Core.reset s.cores c

/-- Replace core `c`. -/
def State.setCore (s : State) (c : Nat) (k : Core) : State := { s with cores := tabSet Core.reset s.cores c k }

/-- Change core `c`. -/
def State.modCore (s : State) (c : Nat) (f : Core → Core) : State := s.setCore c (f (s.core c))

/-- Core numbers 0 to 63. -/
def coreList : List Nat := List.range 64

/-- Change every core. -/
def State.allCores (s : State) (f : Core → Core) : State := coreList.foldl (fun t c => t.modCore c f) s

/-! Presence of units (R1–R3, R5, R6). -/

/-- Whether package `p` is populated (R2). -/
def pkgPresent (v : Variant) (p : Nat) : Bool :=
  match v with
  | .m1152u => p % 12 < 6 && p < 48
  | _ => p < 48

/-- Whether the configuration has Span ports (R1). -/
def spanPresent (v : Variant) : Bool := v == .m2304fu || v == .m2304f

/-- Whether the configuration has Churn `n` (R1, R2). -/
def churnPresent (v : Variant) (n : Nat) : Bool := v != .m2304f && pkgPresent v n

/-- Whether the configuration has the root engines (R1). -/
def rootPresent (v : Variant) : Bool := v != .m2304f

/-- Whether a register block's unit is present. -/
def blockPresent (v : Variant) (k : BlockKind) (i : Nat) : Bool :=
  match k with
  | .memc => pkgPresent v (i / 4)
  | .churn => churnPresent v i
  | .root => rootPresent v
  | .spanPort => spanPresent v
  | _ => true

/-! Registers. -/

/-- The stored value of the register at BAR0 offset `x`. -/
def State.reg (s : State) (x : Nat) : Word := (tabFind s.regs x).getD (regReset s.variant x)

/-- Store a register. -/
def State.setReg (s : State) (x : Nat) (v : Word) : State :=
  { s with regs := tabSet (regReset s.variant x) s.regs x v }

/-- The stored value as a number. -/
def State.regN (s : State) (x : Nat) : Nat := (s.reg x).toNat

/-- Store a number, low 32 bits. -/
def State.setRegN (s : State) (x v : Nat) : State := s.setReg x (BitVec.ofNat 32 v)

/-- Replace bits [lo + len − 1 : lo] of a register. -/
def State.setField (s : State) (x lo len v : Nat) : State :=
  let o := s.regN x
  s.setRegN x (o - bits o lo len * 2 ^ lo + v % 2 ^ len * 2 ^ lo)

/-- Bits of a register. -/
def State.field (s : State) (x lo len : Nat) : Nat := bits (s.regN x) lo len

/-- A 64-bit value held in two registers, low half first. -/
def State.reg64 (s : State) (x : Nat) : Nat := s.regN x + s.regN (x + 4) * 2 ^ 32

/-- Store a 64-bit value in two registers. -/
def State.setReg64 (s : State) (x v : Nat) : State := (s.setRegN x v).setRegN (x + 4) (v / 2 ^ 32)

/-- Add to a 64-bit counter, which wraps (R70). `x` is its _LO register. -/
def State.bump64 (s : State) (x n : Nat) : State :=
  if n = 0 then s else s.setReg64 x ((s.reg64 x + n) % 2 ^ 64)

/-- Add to a 32-bit counter, which saturates at 0xFFFF_FFFF. -/
def State.bump32 (s : State) (x n : Nat) : State :=
  if n = 0 then s else s.setRegN x (min (s.regN x + n) 0xFFFFFFFF)

/-- Put registers back to their reset values. -/
def State.clearRegs (s : State) (xs : List Nat) : State := xs.foldl (fun t x => t.setReg x (regReset t.variant x)) s

/-- Raise a register that holds a maximum. -/
def State.maxReg (s : State) (x v : Nat) : State := s.setRegN x (max (s.regN x) (min v 0xFFFFFFFF))

/-! Requesters, latches and free values. -/

/-- A number for each requester (R70). -/
def reqNum : Requester → Nat
  | .host .A => 0
  | .host .B => 1
  | .sisyn => 2
  | .core c => 3 + c.val

/-- The next free value: the counter before the step. DESIGN CHOICE (log entry 3). -/
def State.tick (s : State) : State × Nat := ({ s with free := s.free + 1 }, s.free)

/-- A time stamp of a clock that the model does not run. DESIGN CHOICE (log entry 3). -/
def State.stamp (s : State) : State × Nat := ({ s with free := s.free + 1 }, Config.freeTime s.free)

/-- Latch the _HI half of the counter pair at `x` for a requester. -/
def State.latch (s : State) (r : Requester) (x : Nat) (v : Word) : State :=
  { s with latches := tabSet 0 s.latches (reqNum r * 2 ^ 28 + x) v }

/-- What a requester's latch of the _HI register at `x` holds. -/
def State.latched (s : State) (r : Requester) (x : Nat) : Word := tabGet 0 s.latches (reqNum r * 2 ^ 28 + x)

/-- Zero every requester's latches of the registers in [lo, hi). -/
def State.dropLatches (s : State) (lo hi : Nat) : State :=
  { s with latches := tabDrop (fun k => decide (lo ≤ k % 2 ^ 28) && decide (k % 2 ^ 28 < hi)) s.latches }

/-- The answer of a requester's last read. -/
def State.answer (s : State) (r : Requester) (v : Dword) : State :=
  { s with answers := tabSet 0 s.answers (reqNum r) v }

end Sys2Proof.Machine
end

