-- ==== Sys2Proof/Machine/Report.lean ====
section
/-! DEFINITION. Fault registers, error records and the failing of a task (20_fault_index.md R503–R511, R527;
18_sisyn_and_the_faceplate.md R465, R466). -/

namespace Sys2Proof.Machine

/-! Status codes (R505). -/
namespace Code

def unitAbsent : Nat := 0x0101
def scaleSkew : Nat := 0x2101
def wheyReserved : Nat := 0x2102
def freezeLimit : Nat := 0x2103
def groupSplit : Nat := 0x2104
def layoutReserved : Nat := 0x2105
def classLimit : Nat := 0x2106
def classInvalid : Nat := 0x2107
def precisionMix : Nat := 0x2201
def ledgerInvalid : Nat := 0x2202
def shadowAccess : Nat := 0x2203
def addRefused : Nat := 0x2204
def wordReserved : Nat := 0x2301
def layoutFit : Nat := 0x2302
def mintGroupSplit : Nat := 0x2303
def destSpace : Nat := 0x2304
def mintOverlap : Nat := 0x2305
def streamClosed : Nat := 0x2306
def headerSkew : Nat := 0x2401
def tileSize : Nat := 0x2402
def metaReserved : Nat := 0x2403
def notTransposable : Nat := 0x2404
def listOrder : Nat := 0x2405
def listRange : Nat := 0x2406
def predMode : Nat := 0x2407
def bankPort : Nat := 0x2601
def bankOff : Nat := 0x2602
def parity : Nat := 0x2603
def pailInvalid : Nat := 0x2604
def pailRole : Nat := 0x2605
def specOutside : Nat := 0x2606
def spadRange : Nat := 0x2607
def ringRole : Nat := 0x2608
def ringConfig : Nat := 0x2609
def illegalOp : Nat := 0x2701
def pcRange : Nat := 0x2702
def epochOpen : Nat := 0x2703
def epochClosed : Nat := 0x2704
def epochKind : Nat := 0x2705
def addrRange : Nat := 0x2706
def dmaOverlap : Nat := 0x2810
def boxAlign : Nat := 0x2811
def permInvalid : Nat := 0x2812
def formatMismatch : Nat := 0x2813
def streamBusy : Nat := 0x2901
def streamLimit : Nat := 0x2902
def slipReserved : Nat := 0x2A10
def slipRange : Nat := 0x2A11
def precOperand : Nat := 0x2A12
def taskInvalid : Nat := 0x3101
def taskTimeout : Nat := 0x3102
def descInvalid : Nat := 0x3103
def shapeOver : Nat := 0x3104
def nestFit : Nat := 0x3105
def svcInvalid : Nat := 0x3201
def remoteDenied : Nat := 0x3202
def exhausted : Nat := 0x3203
def stale : Nat := 0x3204
def uncorrectable : Nat := 0x4001
def lpddrRange : Nat := 0x4002
def training : Nat := 0x4003
def cmdInvalid : Nat := 0x5001
def entryInvalid : Nat := 0x5002
def frozenWrite : Nat := 0x5003
def fenceTimeout : Nat := 0x5004
def stepStale : Nat := 0x5005
def releaseStep : Nat := 0x5006
def churnSkew : Nat := 0x5007
def nonfinite : Nat := 0x5008
def noHandle : Nat := 0x6001
def windowInvalid : Nat := 0x6002
def windowBusy : Nat := 0x6003
def windowStale : Nat := 0x6004
def windowBounds : Nat := 0x6005
def windowPerm : Nat := 0x6006
def targetRefused : Nat := 0x6007
def ringFull : Nat := 0x6008
def unreachable : Nat := 0x6009
def linkLost : Nat := 0x600A
def spanQuiesced : Nat := 0x600B
def opTarget : Nat := 0x600C
def spanTimeout : Nat := 0x600D
def subInvalid : Nat := 0x7001
def copyRange : Nat := 0x7002
def hostAbort : Nat := 0x7003
def selftestFail : Nat := 0x8001
def quadReset : Nat := 0x8002
def quiesceRefused : Nat := 0x8003
def quiesceAborted : Nat := 0x8004
def privileged : Nat := 0x9201
def tokenInvalid : Nat := 0x9202
def lcBusy : Nat := 0x9203
def noService : Nat := 0x9204
def passbookFull : Nat := 0x9205

end Code

/-! The daybook queue. -/

/-- The successor of a seq (R466). -/
def seqNext (n : Nat) : Nat := if n = 0xFFFFFFFF then 1 else n + 1

/-- Whether an entry is one that the work of a task may cause (R467): an error record of a unit that does such work, a package
warning (R350), a skim saturation or a stale root, and no change of a unit's state, no event of Sisyn and nothing that start-up
or a host's own access finds. DEDUCED (log entry 57). -/
def DbEntry.ofWork (e : DbEntry) : Bool :=
  e.origin == 0 && e.unit != 0x70 && e.status != Code.training && e.status != Code.selftestFail &&
    (e.status != 0 || e.event == 5 || (e.event == 0 && (e.unit == 0x25 || e.unit == 0x51)))

/-- Hand an entry to Sisyn: it takes the next seq and a place in the buffer of 1,024, or is lost (R466). Answers the seq,
0 for a lost entry. -/
def State.report (s : State) (e : DbEntry) : State × Nat :=
  if s.dbQueue.length ≥ 1024 then (s.bump32 Reg.SISYN_DB_LOST 1, 0)
  else
    let (s, t) := s.stamp
    let task := if s.sched.st = .idle then 0 else s.sched.header % 2 ^ 32
    let e := { e with seq := s.dbNext, time := t % 2 ^ 48, boot := s.dbBoot, task := task }
    ({ s with
        dbQueue := s.dbQueue ++ [e], dbNext := seqNext s.dbNext
        sched := { s.sched with firstRec := if s.sched.firstRec = 0 ∧ e.ofWork then e.seq else s.sched.firstRec } }, e.seq)

/-- Work that is not the task's: what it records is none of the task's records (R467). DEDUCED (log entry 57). -/
def State.apart (s : State) (f : State → State) : State :=
  let t := f s
  { t with sched := { t.sched with firstRec := s.sched.firstRec } }

/-- An entry for an event (R473) or another occurrence, with detail bytes. -/
def dbEvent (severity origin unit inst status event : Nat) (detail : List Byte) : DbEntry :=
  ⟨0, 0, 0, severity, origin, unit, inst, status, event, 0, (detail ++ List.replicate 32 0).take 32⟩

/-- Detail bytes of an error record (R506); the stop names the other node and the window of a Span fault. -/
def errDetail (core : Nat) (primary remote : Bool) (st : Stop) (faultReg : Word) (time : Nat) : List Byte :=
  leBytes core 1 ++
  leBytes (b2n primary + 2 * b2n st.pc.isSome + 4 * b2n st.slip.isSome + 8 * b2n st.addr.isSome + 16 * b2n remote) 1 ++
  leBytes (st.pc.getD 0) 2 ++ leBytes (st.slip.getD 0) 2 ++ leBytes st.detail 1 ++
  leBytes (st.tile.getD 0 + 8 * st.array) 1 ++ leBytes (st.addr.getD 0) 8 ++ leBytes faultReg.toNat 4 ++
  leBytes st.node 1 ++ leBytes 0 1 ++ leBytes st.window 2 ++ leBytes time 8

/-- The time field of an error record: hub cycles since task start, 0 outside a task (R506). DESIGN CHOICE (log entry 3). -/
def State.recordTime (s : State) : State × Nat :=
  if s.sched.st = .running ∨ s.sched.st = .ending then
    let (s, t) := s.stamp
    (s, t % 2 ^ 64)
  else (s, 0)

/-- Whether a fault now is the first of the running task, which is not failing yet (R509). DESIGN CHOICE (log entry 150). -/
def State.primaryNow (s : State) : Bool := (s.sched.st == .running || s.sched.st == .ending) && !s.sched.failing

/-- A daybook entry that is an error record of a fault that concerns no core (R506). DEDUCED (log entry 103). -/
def dbError (origin unit inst code : Nat) (faultReg : Word) : DbEntry :=
  dbEvent 2 origin unit inst code 0 (errDetail 0xFF false false (Stop.of code) faultReg 0)

/-- Whether a fault of unit byte CORE arises in a core's descriptor block: DESC_INVALID, SHAPE_OVER and NEST_FIT (R270). -/
def ofDescBlock (code : Nat) : Bool := code == Code.descInvalid || code == Code.shapeOver || code == Code.nestFit

/-- The unit_kind of the unit that a status code names (R503). -/
def unitOfCode (code : Nat) : Nat :=
  let u := code / 256
  if u = 0x28 ∨ ofDescBlock code then 0x28 else if u = 0x2A then 0x27 else if u = 0x01 then 0 else u

/-! Fault registers (R527): the first fault since the last clear stays. -/

/-- Write a fault register if it holds no cause yet. -/
def State.firstFault (s : State) (x v : Nat) : State := if s.field x 0 8 = 0 then s.setRegN x v else s

/-- Where core `c`'s fault is recorded, and the value (register tables of the chapters). DEDUCED (log entry 39). -/
def faultReg (c : Nat) (st : Stop) : Nat × Nat :=
  let u := st.code / 256
  let n := st.code % 256
  let slip := st.slip.getD 0
  let tile := st.tile.getD 0
  let pc := st.pc.getD 0
  if u = 0x21 then (Reg.CORE_TALLY_FAULT c, n + slip * 2 ^ 8 + st.array * 2 ^ 20)
  else if u = 0x22 then (Reg.LEDG_FAULT c, n + tile * 2 ^ 8 + slip * 2 ^ 11)
  else if u = 0x23 then (Reg.MINT_FAULT c, n + slip * 2 ^ 8)
  else if u = 0x24 then (Reg.CORE_STRAIN_FAULT c, n + slip * 2 ^ 8 + st.array * 2 ^ 20)
  else if st.code = Code.ringRole ∨ st.code = Code.ringConfig then
    (Reg.SPAD_RING_FAULT, (n - 7) + st.row * 2 ^ 8 + c * 2 ^ 23)
  else if u = 0x26 then (Reg.SPAD_FAULT c, n + st.row * 2 ^ 8 + st.bank * 2 ^ 17 + st.port * 2 ^ 21)
  else if u = 0x27 ∨ u = 0x2A then (Reg.CORE_CLERK_FAULT c, n + pc * 2 ^ 8)
  else if u = 0x28 then (Reg.CORE_DESC_FAULT c, n + st.detail * 2 ^ 8 + st.dreg * 2 ^ 16)
  else if u = 0x29 then (Reg.CORE_RNG_FAULT c, n + st.row * 2 ^ 8)
  else if ofDescBlock st.code then
    (Reg.CORE_DESC_FAULT c, (n - 2) + st.detail * 2 ^ 8 + st.dreg * 2 ^ 16)
  else if st.code = Code.noHandle ∨ st.code = Code.windowInvalid ∨ st.code = Code.windowBusy then
    (Reg.SPAN_HANDLE_FAULT c, n + pc * 2 ^ 8)
  else (0, 0)

/-- The companion registers that hold the slip or the pc of the same fault (R527). -/
def State.faultExtra (s : State) (c : Nat) (st : Stop) : State :=
  let u := st.code / 256
  if u = 0x2A then s.setRegN (Reg.CORE_CLERK_FAULT_SLIP c) (st.slip.getD 0)
  else if u = 0x26 ∧ st.code ≠ Code.ringRole ∧ st.code ≠ Code.ringConfig then
    s.setRegN (Reg.SPAD_FAULT_SLIP c) (st.slip.getD 0)
  else if u = 0x28 ∨ ofDescBlock st.code then
    s.setRegN (Reg.CORE_DESC_FAULT_PC c) (st.pc.getD 0)
  else s

/-- Record a fault of core `c` in its unit's fault register (R527). -/
def State.recordFault (s : State) (c : Nat) (st : Stop) : State :=
  let (x, v) := faultReg c st
  if x = 0 then s
  else if s.field x 0 8 = 0 then (s.setRegN x v).faultExtra c st
  else s

/-- Record a Teller fault (R331, R527). -/
def State.tellerFault (s : State) (code ctr : Nat) : State :=
  if code = Code.stale then s else s.firstFault Reg.TELL_FAULT (code % 256 + ctr * 2 ^ 8)

/-- The fault register as captured for a record (R506). -/
def State.capturedReg (s : State) (c : Nat) (st : Stop) : Word :=
  let x := (faultReg c st).1
  if x = 0 then 0 else s.reg x

/-! The failing of a task (R508, R509). -/

/-- Whether a core has an operation that has begun and so is awaited after a failure (R508 step 2). DEDUCED (log entry 58). -/
def Core.stopNow (k : Core) : Core :=
  let keep := k.dma.filter (·.started)
  let gone := (k.dma.filter (fun x => !x.started)).map (·.id) ++ k.seq.map (·.id) ++ k.psigs.map (·.2) ++ k.scloses.map (·.2)
  { k with
    stopped := k.running || k.stopped
    waiting := none
    dma := keep
    seq := []
    freeze := none
    psigs := []
    scloses := []
    ops := k.ops.filter (fun o => !(gone.contains o.id)) }

/-- Count `n` frozen core cycles of one freeze of core `c` (R67, R69). DESIGN CHOICE (log entry 108). -/
def State.countFreeze (s : State) (c n : Nat) : State :=
  (s.bump64 (Reg.CORE_TALLY_STALL_LO c) n).maxReg (Reg.CORE_TALLY_FREEZE_MAX c) n

/-- A freeze that a stop or a SQUASH cuts short ends: its core cycles so far are counted, a number below the freeze limit
that the manual does not give (R67). DESIGN CHOICE (log entry 108). -/
def State.freezeCut (s : State) (c : Nat) : State :=
  match (s.core c).freeze with
  | none => s
  | some _ =>
    let limit := s.regN (Reg.CORE_TALLY_FREEZE_LIMIT c)
    let (s, n) := s.tick
    let n := (Config.freeValue n).toNat
    (s.countFreeze c (if limit = 0 then n else n % limit)).modCore c (fun k => { k with freeze := none })

/-- Fail the running task with a primary fault, if it is not failing already: every running core stops, and operations
not started are discarded (R508 steps 1 and 2). DEDUCED (log entry 40). DESIGN CHOICE (log entry 150). -/
def State.failTask (s : State) (status detail seq : Nat) : State :=
  if s.primaryNow then
    let s := coreList.foldl State.freezeCut s
    { s with
      cores := (s.allCores Core.stopNow).cores
      sched := { s.sched with failing := true, primary := some ⟨status, detail, seq⟩, st := .ending } }
  else s

/-- Write the error record of a fault of core `c` (R506, R507). -/
def State.errorRecord (s : State) (c : Nat) (st : Stop) : State × Nat :=
  let (s, t) := s.recordTime
  let inst := if st.code / 256 = 0x32 ∨ (st.code / 256 = 0x31 ∧ ofDescBlock st.code = false) then 0 else c
  s.report (dbEvent 2 0 (unitOfCode st.code) inst st.code 0 (errDetail c s.primaryNow false st (s.capturedReg c st) t))

/-- An entry that a home chapter required, completed as the error record of a fault that stopped core `c` (R506, R507):
what the fault shows is filled in; the address, the captured register and the time that it holds stay. DEDUCED (log entry 51). -/
def DbEntry.completed (e : DbEntry) (c : Nat) (primary : Bool) (st : Stop) : DbEntry :=
  let old := e.detail
  let st := { st with addr := if bitOf (leNat ((old.drop 1).take 1)) 3 then some (leNat ((old.drop 8).take 8)) else st.addr }
  { e with detail := (errDetail c primary false st 0 0).take 16 ++ old.drop 16 }

/-- Complete the daybook entry `seq`, queued or written, as the error record of a fault that stops core `c` (R507, R509). DEDUCED (log entry 51). -/
def State.completeRecord (s : State) (c seq : Nat) (st : Stop) : State :=
  let f (e : DbEntry) : DbEntry := if e.seq = seq then e.completed c s.primaryNow st else e
  { s with dbQueue := s.dbQueue.map f, dbArea := s.dbArea.map (fun e => (e.1, f e.2)) }

/-- Core `c` stops on a fault whose error record is the daybook entry `seq` (R507). DEDUCED (log entry 51). -/
def State.stopCoreSeq (s : State) (c : Nat) (st : Stop) (seq : Nat) : State :=
  let k := s.core c
  if k.stopped || !k.running then s
  else
    let s := s.recordFault c st
    let s := ((s.completeRecord c seq st).freezeCut c).modCore c Core.stopNow
    s.failTask st.code st.detail seq

/-- Core `c` stops on a fault: the fault is recorded, its error record is written, and the task fails (R68, R176, R507,
R508). -/
def State.stopCore (s : State) (c : Nat) (st : Stop) : State :=
  let k := s.core c
  if k.stopped || !k.running then s
  else if st.seq ≠ 0 then s.stopCoreSeq c st st.seq
  else
    let s := s.recordFault c st
    let (s, seq) := s.errorRecord c st
    let s := (s.freezeCut c).modCore c Core.stopNow
    s.failTask st.code st.detail seq

/-- An Op fault that no status register takes stops the core (R219, R507); on a core already stopped its record is
written, with primary clear (R509). -/
def State.opStop (s : State) (c : Nat) (st : Stop) : State :=
  if (s.core c).running && (s.core c).stopped then
    (if st.seq = 0 then ((s.recordFault c st).errorRecord c st).1 else s.recordFault c st)
  else s.stopCore c st

/-- The daybook entry `seq` of a refused task is its primary record (R509, R511). -/
def State.markPrimary (s : State) (seq : Nat) : State :=
  let f (e : DbEntry) : DbEntry :=
    if e.seq = seq ∧ bitOf (leNat ((e.detail.drop 1).take 1)) 0 = false then
      { e with detail := e.detail.set 1 (e.detail.getD 1 0 ||| 1) }
    else e
  { s with dbQueue := s.dbQueue.map f, dbArea := s.dbArea.map (fun e => (e.1, f e.2)) }

end Sys2Proof.Machine
end

