-- ==== Sys2Proof/Machine/Daybook.lean ====
section
/-! DEFINITION. The daybook's entries in bytes, and what is retained (18_sisyn_and_the_faceplate.md R465–R467). -/

namespace Sys2Proof.Machine

/-- Bytes 0–55 of a daybook entry (R465). -/
def DbEntry.body (e : DbEntry) : List Byte :=
  leBytes e.seq 4 ++ leBytes e.time 6 ++ leBytes e.boot 2 ++ leBytes (e.severity + 16 * e.origin) 1 ++ leBytes e.unit 1 ++
  leBytes e.inst 2 ++ leBytes e.status 2 ++ leBytes e.event 2 ++ leBytes e.task 4 ++ (e.detail ++ List.replicate 32 0).take 32

/-- The 64 bytes of a daybook entry (R465). -/
def DbEntry.bytes (e : DbEntry) : List Byte := e.body ++ leBytes (crc32 e.body).toNat 4 ++ List.replicate 4 0

/-- Slots of the daybook's area (R465). -/
def dbSlots : Nat := 262144

/-- The retained entry with sequence number `seq` (R467). -/
def State.dbFind (s : State) (seq : Nat) : Option DbEntry := (s.dbArea.find? (fun e => e.2.seq = seq)).map (·.2)

/-- Whether an entry stands in the slot after another's and holds its successor (R466). -/
def dbFollows (e f : Nat × DbEntry) : Bool := f.1 == (e.1 + 1) % dbSlots && f.2.seq == seqNext e.2.seq

/-- Entries of a list of listed slots whose next slot holds no successor; `first` is the area's first listed entry, which the
area's last slot wraps to. An unlisted slot is erased or fails its crc. -/
def dbEnds (first : Nat × DbEntry) : List (Nat × DbEntry) → List (Nat × DbEntry)
  | [] => []
  | [e] => if dbFollows e first then [] else [e]
  | e :: f :: l => (if dbFollows e f then [] else [e]) ++ dbEnds first (f :: l)

/-- Of two entries, the one whose seq comes later: by less than half of the seqs there are. -/
def dbLater (a b : Nat × DbEntry) : Nat × DbEntry := if (b.2.seq + 2 ^ 32 - a.2.seq) % 2 ^ 32 < 2 ^ 31 then b else a

/-- The newest entry of the area, with its slot (R466). A log with a slot that a raw write has spoiled has more than one entry
without a successor: the latest of them is the newest. DEDUCED (log entry 91). -/
def State.dbNewest (s : State) : Option (Nat × DbEntry) :=
  match s.dbArea.head? with
  | none => none
  | some first =>
    match dbEnds first s.dbArea with
    | [] => none
    | e :: l => some (l.foldl dbLater e)

/-- The newest entry written (R466). -/
def State.dbHead (s : State) : Nat :=
  match tabFind s.dbArea ((s.sisyn.dbSlot + dbSlots - 1) % dbSlots) with
  | some e => e.seq
  | none => (s.dbNewest.map (·.2.seq)).getD 0

/-- The first listed entry at slot `k` or above, wrapping to the area's start. -/
def oldestFrom (t : Tab DbEntry) (k : Nat) : Option DbEntry :=
  match t.find? (fun e => k ≤ e.1) with
  | some e => some e.2
  | none => t.head?.map (·.2)

/-- The oldest retained entry (R466). -/
def State.dbTail (s : State) : Nat :=
  match oldestFrom s.dbArea s.sisyn.dbSlot with
  | some e => e.seq
  | none => 0

/-- Where the SPI NOR holds the daybook (R463). -/
def dbPlace : Nat := 0x2100000

/-- Write an entry in the next slot; the sector after the one being written is erased ahead (R466). Raw bytes in either are
gone. -/
def State.dbStore (s : State) (e : DbEntry) : State :=
  let k := s.sisyn.dbSlot
  let ahead := (k / 1024 + 1) % 256
  { s with dbArea := tabPut (tabDrop (fun x => x / 1024 == ahead) s.dbArea) k e
           sisyn := { s.sisyn with
             dbSlot := (k + 1) % dbSlots
             nor := tabDrop (fun a => decide (dbPlace ≤ a) && decide (a < dbPlace + 64 * dbSlots) &&
               ((a - dbPlace) / 65536 == ahead || (a - dbPlace) / 64 == k)) s.sisyn.nor } }

end Sys2Proof.Machine
end

