-- ==== Sys2Proof/Machine/Numeric.lean ====
section
/-! DEFINITION. Numbers of the part: U16 scales, Z16 zero points, binary32, bfloat16 and P64, their roundings, and the
functions of the Mint (02_codes_scales_and_planes.md R20–R47, 05_the_mint.md R102, R105, R111). Arithmetic is exact, on
rationals, until a rounding is named. -/

namespace Sys2Proof.Machine

/-- 2^e. -/
def pow2 (e : Int) : Rat :=
  if 0 ≤ e then ((2 ^ e.toNat : Nat) : Rat) else 1 / ((2 ^ (-e).toNat : Nat) : Rat)

/-- ⌊log2 q⌋ of a positive rational. -/
def ilog2 (q : Rat) : Int :=
  let n := q.num.toNat
  let e : Int := (Nat.log2 n : Int) - (Nat.log2 q.den : Int)
  if pow2 e ≤ q then e else e - 1

/-- The ways a magnitude is rounded to an integer. -/
inductive RoundMode where
  | tiesEven
  | tiesAway
  | down
  | up
  deriving DecidableEq, Repr

/-- A non-negative rational rounded to an integer. -/
def roundNat (m : RoundMode) (q : Rat) : Nat :=
  let f := q.floor.toNat
  let r := q - (f : Rat)
  match m with
  | .down => f
  | .up => if r = 0 then f else f + 1
  | .tiesAway => if 2 * r < 1 then f else f + 1
  | .tiesEven => if 2 * r < 1 then f else if 2 * r = 1 then f + f % 2 else f + 1

/-- |q|. -/
def ratAbs (q : Rat) : Rat := if q < 0 then -q else q

/-- A number decoded from a binary32 or bfloat16 pattern (R43). -/
inductive FVal where
  | fin (q : Rat)
  | inf (neg : Bool)
  | nan
  deriving DecidableEq, Repr

/-- Significand and weight of its least bit of a finite binary32 magnitude (R74, the terms' form). -/
def f32Term (w : Word) : Int × Int :=
  let n := w.toNat
  let e := bits n 23 8
  let m := bits n 0 23
  let mag : Int := if e = 0 then (m : Int) else ((m + 2 ^ 23 : Nat) : Int)
  let x : Int := if e = 0 then -149 else (e : Int) - 150
  (if bitOf n 31 then -mag else mag, x)

/-- The value of a binary32 pattern (R43). -/
def f32Val (w : Word) : FVal :=
  let n := w.toNat
  if bits n 23 8 = 255 then
    if bits n 0 23 = 0 then .inf (bitOf n 31) else .nan
  else .fin (((f32Term w).1 : Rat) * pow2 (f32Term w).2)

/-- A bfloat16 pattern widened to binary32 (R43). -/
def bf16Widen (h : Half) : Word := BitVec.ofNat 32 (h.toNat * 2 ^ 16)

/-- A magnitude rounded to a format of `p` significand bits with smallest exponent −126: exponent and fraction fields
as one number, which may reach past the largest finite one. -/
def roundMag (m : RoundMode) (p : Nat) (q : Rat) : Nat :=
  if q = 0 then 0
  else
    let e := max (ilog2 q) (-126)
    (e + 126).toNat * 2 ^ (p - 1) + roundNat m (q / pow2 (e - ((p : Int) - 1)))

/-- The largest finite binary32, (2 − 2^−23) × 2^127. -/
def f32Max : Rat := ((2 ^ 24 - 1 : Nat) : Rat) * pow2 104

/-- An exact value rounded to binary32, ties to even; an overflow becomes an infinity (R45). DEDUCED (log entry 16). -/
def f32Round (q : Rat) : Word :=
  let b := min (roundMag .tiesEven 24 (ratAbs q)) 0x7F800000
  BitVec.ofNat 32 (b + if q < 0 then 2 ^ 31 else 0)

/-- An exact value rounded to bfloat16, ties to even (R45). DEDUCED (log entry 16). -/
def bf16Round (q : Rat) : Half :=
  let b := min (roundMag .tiesEven 8 (ratAbs q)) 0x7F80
  BitVec.ofNat 16 (b + if q < 0 then 2 ^ 15 else 0)

/-- An exact value rounded to binary32 toward minus infinity (R111). -/
def f32Down (q : Rat) : Word :=
  if q < 0 then BitVec.ofNat 32 (min (roundMag .up 24 (-q)) 0x7F800000 + 2 ^ 31)
  else BitVec.ofNat 32 (min (roundMag .down 24 q) 0x7F7FFFFF)

/-- An exact value rounded to binary32 toward plus infinity (R111). -/
def f32Up (q : Rat) : Word :=
  if q < 0 then BitVec.ofNat 32 (min (roundMag .down 24 (-q)) 0x7F7FFFFF + 2 ^ 31)
  else BitVec.ofNat 32 (min (roundMag .up 24 q) 0x7F800000)

/-- rn32 of R102: the value, and whether an overflow was held at the largest finite binary32. DEDUCED (log entry 18). -/
def rn32 (q : Rat) : Rat × Bool :=
  match f32Val (f32Round q) with
  | .fin v => (v, false)
  | _ => (if q < 0 then -f32Max else f32Max, true)

/-- The finite value of a pattern; a non-finite pattern gives the largest finite binary32 of its sign, and a flag
(R102). -/
def f32Clamp (w : Word) : Rat × Bool :=
  match f32Val w with
  | .fin v => (v, false)
  | _ => (if bitOf w.toNat 31 then -f32Max else f32Max, true)

/-- A P64 made from an exact value (R46). DEDUCED (log entry 16). -/
def p64Round (q : Rat) : Dword :=
  let hi := f32Round q
  match f32Val hi with
  | .fin h => if h = 0 then BitVec.ofNat 64 hi.toNat else BitVec.ofNat 64 (hi.toNat + (f32Round (q - h)).toNat * 2 ^ 32)
  | _ => BitVec.ofNat 64 hi.toNat

/-- hi of a P64 (R46). -/
def p64Hi (v : Dword) : Word := v.extractLsb' 0 32

/-- lo of a P64 (R46). -/
def p64Lo (v : Dword) : Word := v.extractLsb' 32 32

/-! U16 scales (R22–R24). -/

/-- exp of a U16 (R22). -/
def u16Exp (h : Half) : Nat := bits h.toNat 8 8

/-- frac of a U16 (R22). -/
def u16Frac (h : Half) : Nat := bits h.toNat 0 8

/-- exp 255 used as 0xFEFF, by the consumers of the third kind of R22. -/
def u16Use (h : Half) : Half := if u16Exp h = 255 then 0xFEFF else h

/-- The value of a U16 (R22). -/
def u16Val (h : Half) : Rat :=
  if u16Exp h = 0 then 0 else ((256 + u16Frac h : Nat) : Rat) * pow2 ((u16Exp h : Int) - 135)

/-- A positive value rounded to U16 with a 9-bit significand: pattern number before the range rules. -/
def u16Mag (m : RoundMode) (q : Rat) : Int :=
  let e := ilog2 q
  (e + 126) * 256 + (roundNat m (q / pow2 (e - 8)) : Int)

/-- An exact value converted to U16 to nearest, ties away (R23). -/
def u16Near (q : Rat) : Half :=
  if q ≤ 0 then 0
  else
    let b := u16Mag .tiesAway q
    if b > 0xFEFF then 0xFEFF else if b < 0x0100 then 0 else BitVec.ofNat 16 b.toNat

/-- A binary32 value converted to U16 (R23). -/
def u16OfF32 (w : Word) : Half :=
  match f32Val w with
  | .fin q => u16Near q
  | .inf true => 0
  | .inf false => 0xFEFF
  | .nan => 0

/-- u16_up of R105. -/
def u16Up (q : Rat) : Half :=
  if q ≤ 0 then 0
  else
    let b := u16Mag .up q
    if b > 0xFEFF then 0xFEFF else if b < 0x0100 then 0x0100 else BitVec.ofNat 16 b.toNat

/-! Formats (R20, R21, R25). A format is its 4-bit code, the plane count minus one. -/

/-- The eight stored formats (R20). -/
def fmtStored (f : Nat) : Bool := f == 0 || f == 1 || f == 2 || f == 3 || f == 5 || f == 7 || f == 11 || f == 15

/-- Q12 or Q16. -/
def fmtWide (f : Nat) : Bool := f == 11 || f == 15

/-- Fraction bits of the stored zero point: Z16 12.4 or 16.0 (R25). -/
def zetaBits (f : Nat) : Nat := if fmtWide f then 0 else 4

/-- The value of a Z16 field under format `f` (R25). -/
def z16Val (f : Nat) (z : Half) : Rat := (z.toNat : Rat) / ((2 ^ zetaBits f : Nat) : Rat)

/-- The value of a stored code (R20). -/
def codeVal (f : Nat) (s : Rat) (z : Rat) (c : Nat) : Rat :=
  if f = 0 then s * (2 * (c : Rat) - 1) else s * ((c : Rat) - z)

/-! The whey record (R26). -/

/-- A whey record. -/
structure Whey where
  scale : Half
  zero : Half
  codeSum : Nat
  planesM1 : Nat
  tag : Nat
  deriving DecidableEq, Repr

/-- A record read from its 64 bits (R26). -/
def Whey.ofNat (v : Nat) : Whey :=
  ⟨BitVec.ofNat 16 (v / 2 ^ 48), BitVec.ofNat 16 (v / 2 ^ 32), bits v 10 22, bits v 6 4, bits v 0 6⟩

/-- The 64 bits of a record (R26). -/
def Whey.toNat (w : Whey) : Nat :=
  w.scale.toNat * 2 ^ 48 + w.zero.toNat * 2 ^ 32 + w.codeSum % 2 ^ 22 * 2 ^ 10 + w.planesM1 % 16 * 2 ^ 6 + w.tag % 64

/-- The tag of group `j` of row `r` with `ng` groups a row (R28). -/
def wheyTag (r ng j : Nat) : Nat := (r * ng + j) % 64

/-- n_g = ⌈K ÷ G⌉ (R28). -/
def groupsPerRow (k g : Nat) : Nat := ceilDiv k g

/-! Making codes (R40). -/

/-- One code made from an exact value under a non-zero scale (R40): the code, and sat. `draw` holds the 24 bits of a
STOCHASTIC store. -/
def makeCode (f : Nat) (s : Rat) (z : Rat) (draw : Option Nat) (v : Rat) : Nat × Bool :=
  let step := if f = 0 then 2 * s else s
  let zz := if f = 0 then 1 / 2 else z
  let top : Int := if f = 0 then 1 else (2 : Int) ^ (f + 1) - 1
  let t := v / step + zz
  let c : Int := match draw with
    | none => (t + 1 / 2).floor
    | some r =>
      let fq := ((t - (t.floor : Rat)) * ((2 ^ 24 : Nat) : Rat) + 1 / 2).floor
      t.floor + if (r : Int) < fq then 1 else 0
  ((min (max c 0) top).toNat, decide (c < 0 ∨ top < c))

/-- A code under any scale: a zero scale writes 0 (R24, R40). -/
def codeOf (f : Nat) (scale : Half) (zero : Half) (draw : Option Nat) (v : Rat) : Nat × Bool :=
  if u16Exp scale = 0 then (0, false) else makeCode f (u16Val scale) (z16Val f zero) draw v

/-- DYNAMIC's scale and zero over the range [lo, hi], zero included, of a group (R105). `mean` is the exact mean of
|v| for B1. A zero point beyond Z16, under a scale held at 0xFEFF, keeps its low 16 bits. DESIGN CHOICE (log entry 122). -/
def dynamicScale (f : Nat) (lo hi mean : Rat) : Half × Half :=
  if hi = lo then (0, 0)
  else if f = 0 then (u16Near mean, 0)
  else
    let zeta : Rat := 1 / ((2 ^ zetaBits f : Nat) : Rat)
    let scale := u16Up ((hi - lo) / (((2 ^ (f + 1) - 1 : Nat) : Rat) - zeta))
    let z := ((-lo / u16Val scale) / zeta).ceil
    (scale, BitVec.ofNat 16 z.toNat)

/-- The fill value a padding code is made from: NaN gives 0, an infinity the largest finite bfloat16 (R106). -/
def fillVal (fill : Half) : Rat :=
  match f32Val (bf16Widen fill) with
  | .fin q => q
  | .inf n => (if n then -1 else 1) * (((2 ^ 8 - 1 : Nat) : Rat) * pow2 120)
  | .nan => 0

/-! Square roots and the Mint's functions. -/

/-- The nearest binary32 to √q, ties to even, for a binary32-range rational (R40-style rounding of an exact root):
the root is formed to 80 bits below its leading one, with a sticky bit. DESIGN CHOICE (log entry 17). -/
def sqrtApprox (q : Rat) : Rat :=
  if q ≤ 0 then 0
  else
    let k : Int := 160 - 2 * (ilog2 q / 2)
    let n := (q * pow2 (2 * (k / 2))).floor.toNat
    let r := Nat.sqrt n
    let exact := decide (((r : Rat) * pow2 (-(k / 2))) * ((r : Rat) * pow2 (-(k / 2))) = q)
    (if exact then (r : Rat) else (r : Rat) + 1 / 2) * pow2 (-(k / 2))

/-- Fraction bits of the fixed-point work below. -/
def fxBits : Nat := 1280

/-- Terms x^k ÷ k! of e^x in fixed point, summed. -/
def expTerms (x : Int) : Nat → Nat → Int → Int → Int
  | 0, _, _, acc => acc
  | n + 1, k, t, acc => expTerms x n (k + 1) (t * x / (((k + 1) * 2 ^ fxBits : Nat) : Int)) (acc + t)

/-- e^x in fixed point for |x| ≤ 128, within 2^−1000 (a tail of 1,000 terms). DESIGN CHOICE (log entry 17). -/
def expFx (q : Rat) : Rat :=
  if q = 0 then 1
  else
    let x := (q * ((2 ^ fxBits : Nat) : Rat)).floor
    let e := expTerms x 1000 0 ((2 ^ fxBits : Nat) : Int) 0
    (e : Rat) / ((2 ^ fxBits : Nat) : Rat)

/-- arctan(1 ÷ n) in fixed point. -/
def arctanTerms (n : Nat) : Nat → Nat → Nat → Int → Int
  | 0, _, _, acc => acc
  | m + 1, k, t, acc =>
    arctanTerms n m (k + 1) (t / (n * n)) (if k % 2 = 0 then acc + (t / (2 * k + 1) : Nat) else acc - (t / (2 * k + 1) : Nat))

/-- π in fixed point, by π = 16 arctan(1/5) − 4 arctan(1/239). DESIGN CHOICE (log entry 17). -/
def piFx : Rat :=
  let one := 2 ^ fxBits
  ((16 * arctanTerms 5 300 0 (one / 5) 0 - 4 * arctanTerms 239 300 0 (one / 239) 0 : Int) : Rat) / (one : Rat)

/-- Terms of the series of Φ(x) − ½ without the factor 1 ÷ √(2π). -/
def phiTerms (x2 : Int) : Nat → Nat → Int → Int → Int
  | 0, _, _, acc => acc
  | n + 1, k, t, acc =>
    phiTerms x2 n (k + 1) (-(t * x2 / ((2 * (k + 1) * 2 ^ fxBits : Nat) : Int))) (acc + t / (2 * k + 1 : Nat))

/-- Φ(x) in fixed point for |x| ≤ 16. DESIGN CHOICE (log entry 17). -/
def phiFx (q : Rat) : Rat :=
  let one : Rat := ((2 ^ fxBits : Nat) : Rat)
  let x := (q * one).floor
  let s := phiTerms (x * x / ((2 ^ fxBits : Nat) : Int)) 1000 0 x 0
  let root : Rat := (Nat.sqrt ((2 * piFx * one * one).floor.toNat) : Rat) / one
  1 / 2 + ((s : Rat) / one) / root

/-- A real result rounded once to nearest binary32 (R102), as an exact value. DESIGN CHOICE (log entry 17). -/
def toF32 (q : Rat) : Rat := (rn32 q).1

/-- SIGMOID of R102: 1 ÷ (1 + e^−x), rounded once. -/
def fSigmoid (x : Rat) : Rat :=
  if x < -120 then 0 else if 120 < x then 1 else toF32 (1 / (1 + expFx (-x)))

/-- SILU of R102: x ÷ (1 + e^−x), rounded once. -/
def fSilu (x : Rat) : Rat :=
  if x < -127 then 0 else if 127 < x then x else toF32 (x / (1 + expFx (-x)))

/-- GELU of R102: x × Φ(x), rounded once. -/
def fGelu (x : Rat) : Rat :=
  if x < -16 then 0 else if 16 < x then x else toF32 (x * phiFx x)

/-- F(e^x) of R103, for x ≤ 0. -/
def fExp (x : Rat) : Rat := if x < -120 then 0 else toF32 (expFx x)

end Sys2Proof.Machine
end

