-- ==== Sys2Proof/Machine/Events.lean ====
section
/-! DEFINITION. Ring records, entries in host memory, completions and events (08_scratchpad_pails_and_rings.md R196, R198;
16_host_attachment.md R424, R431–R433). -/

namespace Sys2Proof.Machine

/-! Ring records (R196). They lie in the register map, eight words each. -/

/-- Register of word `k` of ring `i`'s record. -/
def ringReg (i k : Nat) : Nat := Reg.SPAD_RING_CFG i + 4 * k

/-- base. -/
def State.ringBase (s : State) (i : Nat) : Nat := s.reg64 (ringReg i 0)

/-- entry_log2. -/
def State.ringEntryLog (s : State) (i : Nat) : Nat := s.field (ringReg i 2) 0 4

/-- count_log2. -/
def State.ringCountLog (s : State) (i : Nat) : Nat := s.field (ringReg i 2) 4 5

/-- kind. -/
def State.ringKind (s : State) (i : Nat) : Nat := s.field (ringReg i 2) 9 4

/-- port: 0 A, 1 B. -/
def State.ringPort (s : State) (i : Nat) : Nat := s.field (ringReg i 2) 13 1

/-- irq. -/
def State.ringIrq (s : State) (i : Nat) : Bool := s.field (ringReg i 2) 14 1 == 1

/-- vector. -/
def State.ringVector (s : State) (i : Nat) : Nat := s.field (ringReg i 2) 15 11

/-- head. -/
def State.ringHead (s : State) (i : Nat) : Nat := s.regN (ringReg i 3)

/-- tail. -/
def State.ringTail (s : State) (i : Nat) : Nat := s.regN (ringReg i 4)

/-- Entries held (R198). -/
def State.ringUsed (s : State) (i : Nat) : Nat := (s.ringTail i + 2 ^ 32 - s.ringHead i) % 2 ^ 32

/-- Full (R198). -/
def State.ringIsFull (s : State) (i : Nat) : Bool := s.ringUsed i ≥ 2 ^ s.ringCountLog i

/-- Address of the slot of counter value `x` (R198). -/
def State.ringSlot (s : State) (i x : Nat) : Nat := s.ringBase i + x % 2 ^ s.ringCountLog i * 2 ^ s.ringEntryLog i

/-- Entry size in bytes. -/
def State.ringEntry (s : State) (i : Nat) : Nat := 2 ^ s.ringEntryLog i

/-- Advance head. -/
def State.ringAdvHead (s : State) (i : Nat) : State := s.setRegN (ringReg i 3) (s.ringHead i + 1)

/-- Advance tail. -/
def State.ringAdvTail (s : State) (i : Nat) : State := s.setRegN (ringReg i 4) (s.ringTail i + 1)

/-- The kind code of a ring ID, 0 for a reserved one (R195). -/
def ringKindOf (i : Nat) : Nat :=
  if i < 16384 then 1 else if i < 16896 then 2 else if i < 17408 then 3 else if i < 25600 then 4
  else if i < 25792 then 5 else if i < 25856 then 6 else 0

/-- Whether a ring serves an absent unit (R200). -/
def ringAbsent (v : Variant) (i : Nat) : Bool :=
  (ringKindOf i == 5 && !churnPresent v ((i - 25600) / 4)) || (ringKindOf i == 4 && !spanPresent v)

/-! Host memory. -/

/-- Bytes of host memory on port `p`. DESIGN CHOICE (log entry 8). -/
def State.hostRead (s : State) (p a n : Nat) : List Byte := bytesGet 0 s.hosts.mem (p * 2 ^ 64 + a) n

/-- Write bytes of host memory on port `p`. DESIGN CHOICE (log entry 8). -/
def State.hostWrite (s : State) (p a : Nat) (bs : List Byte) : State :=
  { s with hosts := { s.hosts with mem := bytesSet 0 s.hosts.mem (p * 2 ^ 64 + a) bs } }

/-- Note that an MSI-X vector has a message to send (R433): entries during a holdoff share one. DESIGN CHOICE (log entry 96). -/
def State.wantMsix (s : State) (p v : Nat) : State :=
  if s.hosts.msixWait.contains (p, v) then s
  else { s with hosts := { s.hosts with msixWait := s.hosts.msixWait ++ [(p, v)] } }

/-- Write an entry to a HOST_CPL ring that has room (R432, R433). -/
def State.cplPush (s : State) (r : Nat) (bs : List Byte) : State :=
  let p := s.ringPort r
  let s := s.hostWrite p (s.ringSlot r (s.ringTail r)) bs
  let s := (s.ringAdvTail r).bump64 Reg.SPAD_RING_PUSHES_LO 1
  if s.ringIrq r then s.wantMsix p (s.ringVector r) else s

/-- A completion entry (R431). -/
def cplBytes (tag : Dword) (status kind op detail ring subHead elapsed daybook unit inst code : Nat) : List Byte :=
  leBytes tag.toNat 8 ++ leBytes status 2 ++ leBytes (kind + op * 16) 1 ++ leBytes detail 1 ++ leBytes ring 2 ++
  leBytes 0 2 ++ leBytes subHead 4 ++ leBytes elapsed 4 ++ leBytes daybook 4 ++
  leBytes (unit + inst * 2 ^ 8 + code * 2 ^ 20) 4

/-- Whether port `p` takes events, and on which ring (R432, R439). -/
def State.eventRing (s : State) (p : Nat) : Option Nat :=
  if s.field (Reg.HOST_EVENT_RING p) 15 1 = 1 then some (s.field (Reg.HOST_EVENT_RING p) 0 15) else none

/-- Whether port `p` is ready (R438). -/
def State.portReady (s : State) (p : Nat) : Bool := s.field (Reg.HOST_STATUS p) 0 1 == 1

/-- Completions of a list that wait for ring `r`, of which the first `free` find room: the others wait on a full ring. -/
def markFull (r : Nat) : Nat → List CplEntry → List CplEntry
  | _, [] => []
  | free, e :: l =>
    if e.ring ≠ r then e :: markFull r free l
    else match free with
      | 0 => { e with full := true } :: markFull r 0 l
      | n + 1 => e :: markFull r n l

/-- An event has taken a slot of ring `r`: completions that find no room any more wait on a full ring (R432). DEDUCED (log entry 56). -/
def State.cplSqueezed (s : State) (r : Nat) : State :=
  { s with hosts := { s.hosts with cplWait := markFull r (2 ^ s.ringCountLog r - s.ringUsed r) s.hosts.cplWait } }

/-- One host's copy of an event entry: written, or dropped where the ring is full or is no enabled HOST_CPL ring of a port
that is ready (R432, R437). -/
def State.eventTo (s : State) (p : Nat) (bs : List Byte) : State :=
  match s.eventRing p with
  | none => s
  | some r =>
    if ringKindOf r = 3 ∧ s.ringKind r = 3 ∧ s.ringPort r = p ∧ s.portReady p ∧ s.ringIsFull r = false then
      (s.cplPush r bs).cplSqueezed r
    else s.bump32 (Reg.HOST_EVENTS_DROPPED p) 1

/-- Post an event to both hosts, with its daybook entry (R432, R473). -/
def State.postEvent (s : State) (severity origin unit inst code : Nat) (detail : List Byte) : State :=
  let (s, seq) := s.report (dbEvent severity origin unit inst 0 code detail)
  let bs := cplBytes 0 0 1 0 0 0 0 0 seq unit inst code
  (s.eventTo 0 bs).eventTo 1 bs

/-- Whether a completion finds no room in HOST_CPL ring `r` behind those that wait for it (R432). DEDUCED (log entry 56). -/
def State.cplFull (s : State) (r : Nat) : Bool :=
  decide (2 ^ s.ringCountLog r ≤ s.ringUsed r + (s.hosts.cplWait.filter (fun e => e.ring == r)).length)

/-- Queue the completion of a submission entry for the paired HOST_CPL ring (R431, R432). DESIGN CHOICE (log entry 60). -/
def State.queueCpl (s : State) (e : SubEntry) (status detail elapsed daybook : Nat) : State :=
  let r := e.ring + 512
  let c : CplEntry := ⟨r, cplBytes e.tag status 0 e.op detail e.ring e.subHead elapsed daybook 0 0 0, s.cplFull r⟩
  { s with hosts := { s.hosts with cplWait := s.hosts.cplWait ++ [c] } }

end Sys2Proof.Machine
end

