-- ==== Sys2Proof/Machine/Lpddr.lean ====
section
/-! DEFINITION. LPDDR6 memory: the local map, atoms with their check symbols, corrected and uncorrectable reads
(13_lpddr6_memory.md R334–R353, R524). -/

namespace Sys2Proof.Machine

/-! GF(2^8) with x^8 + x^4 + x^3 + x^2 + 1 (R339). -/

/-- Multiply by α. -/
def gfDouble (a : Nat) : Nat := if a < 128 then 2 * a else (2 * a) % 256 ^^^ 0x1D

/-- Product in GF(2^8): `n` bits of `b`. -/
def gfMulAux : Nat → Nat → Nat → Nat
  | 0, _, _ => 0
  | n + 1, a, b => (if b % 2 = 1 then a else 0) ^^^ gfMulAux n (gfDouble a) (b / 2)

/-- Product in GF(2^8). -/
def gfMul (a b : Nat) : Nat := gfMulAux 8 a b

/-- α^n. -/
def gfPow : Nat → Nat
  | 0 => 1
  | n + 1 => gfDouble (gfPow n)

/-- The symbols of a codeword, c_0 to c_3 then m_0 to m_36 (R339), evaluated at x by Horner's rule. -/
def gfEval (x : Nat) : List Nat → Nat
  | [] => 0
  | c :: cs => c ^^^ gfMul x (gfEval x cs)

/-- The message symbols of an atom: 32 data bytes and the 5 bytes of its index (R339). -/
def rsMessage (data : List Byte) (idx : Nat) : List Nat := (data ++ leBytes idx 5).map (·.toNat)

/-- One step of the division by g(x) = (x − 1)(x − α)(x − α²)(x − α³): the remainder r_0 to r_3 takes in a symbol. -/
def rsStep (r : Nat × Nat × Nat × Nat) (m : Nat) : Nat × Nat × Nat × Nat :=
  let (r0, r1, r2, r3) := r
  let f := m ^^^ r3
  -- g(x) = x^4 + 0x0F x^3 + 0x36 x^2 + 0x78 x + 0x40
  (gfMul f 0x40, r0 ^^^ gfMul f 0x78, r1 ^^^ gfMul f 0x36, r2 ^^^ gfMul f 0x0F)

/-- The four check bytes of an atom (R339). -/
def rsCheck (data : List Byte) (idx : Nat) : List Byte :=
  let (r0, r1, r2, r3) := (rsMessage data idx).reverse.foldl rsStep (0, 0, 0, 0)
  [BitVec.ofNat 8 r0, BitVec.ofNat 8 r1, BitVec.ofNat 8 r2, BitVec.ofNat 8 r3]

/-- The 36 stored symbols of an atom (R339). -/
def rsEncode (data : List Byte) (idx : Nat) : List Byte := data ++ rsCheck data idx

/-- How a read classifies an atom (R341). -/
inductive AtomRead where
  | clean (data : List Byte)
  | corrected (data : List Byte)
  | bad (address : Bool)
  deriving DecidableEq, Repr

/-- The position whose power of α is `x`, below `n`. -/
def gfLog (x : Nat) : Nat → Option Nat
  | 0 => none
  | n + 1 => if gfPow n = x then some n else gfLog x n

/-- Classify 36 stored symbols read for atom `idx` (R341). -/
def rsDecode (stored : List Byte) (idx : Nat) : AtomRead :=
  let data := stored.take 32
  let word := (stored.drop 32).map (·.toNat) ++ rsMessage data idx
  let s0 := gfEval 1 word
  let s1 := gfEval 2 word
  let s2 := gfEval 4 word
  let s3 := gfEval 8 word
  if s0 = 0 ∧ s1 = 0 ∧ s2 = 0 ∧ s3 = 0 then .clean data
  else if s0 ≠ 0 ∧ s1 ≠ 0 ∧ gfMul s1 s1 = gfMul s0 s2 ∧ gfMul s2 s2 = gfMul s1 s3 then
    match (List.range 41).find? (fun p => gfMul s0 (gfPow p) = s1) with
    | none => .bad false
    | some p =>
      if p < 4 then .corrected data
      else if p < 36 then
        .corrected (data.set (p - 4) (BitVec.ofNat 8 ((data.getD (p - 4) 0).toNat ^^^ s0)))
      else .bad true
  else .bad false

/-! The local map (R335–R337). -/

/-- N_p. -/
def State.numPkgs (s : State) : Nat := if s.variant = .m1152u then 24 else 48

/-- The split S in GiB (R335, R352). -/
def State.split (s : State) : Nat := min (s.field Reg.PWR_MEMMAP_SPLIT 0 6) 48

/-- End of the LPDDR range (R2). -/
def State.lpddrEnd (s : State) : Nat := s.numPkgs * 48 * 2 ^ 30

/-- The controller of channel slot `k` (R336). -/
def slotChan (v : Variant) (k : Nat) : Nat :=
  match v with
  | .m1152u => 4 * (k / 24 * 12 + k % 24 / 4) + k % 4
  | _ => k

/-- The package of rank ρ (R335). -/
def rankPkg (v : Variant) (r : Nat) : Nat :=
  match v with
  | .m1152u => r / 6 * 12 + r % 6
  | _ => r

/-- A place in memory: controller, channel-local byte address, sub-channel. -/
structure MemPlace where
  chan : Nat
  addr : Nat
  sub : Nat
  deriving DecidableEq, Repr

/-- Where a local address of the LPDDR range lies (R336, R337). -/
def State.memPlace (s : State) (a : Nat) : MemPlace :=
  let np := s.numPkgs
  let nch := 4 * np
  let sp := s.split
  let spread := np * sp * 2 ^ 30
  if a < spread then
    let g := a / 512
    let r := g / nch
    let c0 := g % nch
    let x := bits r 0 8 ^^^ bits r 8 8 ^^^ bits r 16 8 ^^^ bits r 24 8
    let k := (c0 + 73 * x % nch) % nch
    ⟨slotChan s.variant k, r * 512 + a % 512, a % 512 / 32 % 2⟩
  else
    let run := (48 - sp) * 2 ^ 30
    let o := (a - spread) % run
    let p := rankPkg s.variant ((a - spread) / run)
    ⟨4 * p + o / 512 % 4, sp * 256 * 2 ^ 20 + o / 2048 * 512 + o % 512, o % 512 / 32 % 2⟩

/-- Atoms of a channel: 12 GiB ÷ 32 B. -/
def atomsPerChan : Nat := 12 * 2 ^ 25

/-- Key of the first stored symbol of the atom with index `idx` (local address ÷ 32). -/
def State.atomKey (s : State) (idx : Nat) : Nat :=
  let m := s.memPlace (idx * 32)
  (m.chan * atomsPerChan + m.addr / 32) * 36

/-- The number of channel slot that controller `m` fills (R336). -/
def chanSlot (v : Variant) (m : Nat) : Nat :=
  match v with
  | .m1152u => m / 48 * 24 + m % 48
  | _ => m

/-- The rank of a present package (R335). -/
def pkgRank (v : Variant) (p : Nat) : Nat :=
  match v with
  | .m1152u => p / 12 * 6 + p % 12
  | _ => p

/-- The local address of byte `a` of channel `m` under split `sp`: the inverse of `memPlace` (R336, R337). -/
def State.chanAddressAt (s : State) (sp m a : Nat) : Nat :=
  let np := s.numPkgs
  let nch := 4 * np
  if a < sp * 256 * 2 ^ 20 then
    let r := a / 512
    let x := bits r 0 8 ^^^ bits r 8 8 ^^^ bits r 16 8 ^^^ bits r 24 8
    let c0 := (chanSlot s.variant m + nch - 73 * x % nch) % nch
    (r * nch + c0) * 512 + a % 512
  else
    let b := a - sp * 256 * 2 ^ 20
    np * sp * 2 ^ 30 + pkgRank s.variant (m / 4) * (48 - sp) * 2 ^ 30 + (b / 512 * 4 + m % 4) * 512 + b % 512

/-- The local address of byte `a` of channel `m`. -/
def State.chanAddress (s : State) (m a : Nat) : Nat := s.chanAddressAt s.split m a

/-- List the 36 symbols of an atom. -/
def putSymbols (t : Tab Byte) (k : Nat) : List Byte → Tab Byte
  | [] => t
  | b :: bs => putSymbols (tabPut t k b) (k + 1) bs

/-- The channel that a stored symbol's key lies in. -/
def dramChan (k : Nat) : Nat := k / 36 / atomsPerChan

/-- The symbols that a zeroisation left at the place of key `k`: zero data with the check bytes of the index that the place
had under the split of that moment (R335, R353). DESIGN CHOICE (log entry 6). -/
def State.zeroSymbols (s : State) (sp k : Nat) : List Byte :=
  rsEncode (List.replicate 32 0) (s.chanAddressAt sp (dramChan k) (k / 36 % atomsPerChan * 32) / 32)

/-- Put symbols at the place of key `k`. -/
def State.dramPut (s : State) (k : Nat) (w : List Byte) : State := { s with dram := putSymbols s.dram k w }

/-- The 36 symbols that an atom's place holds: what was written, zero data after a zeroisation, or a free value, which the
place holds from then on (R524). DESIGN CHOICE (log entry 6). -/
def State.atomStored (s : State) (idx : Nat) : State × List Byte :=
  let k := s.atomKey idx
  match tabFind s.dram k with
  | some _ => (s, bytesGet 0 s.dram k 36)
  | none =>
    match s.zeroed.find? (fun z => z.1 == dramChan k) with
    | some z => (s, s.zeroSymbols z.2 k)
    | none =>
      let (s, n) := s.tick
      let w := leBytes (Config.freeAtom n idx).toNat 36
      (s.dramPut k w, w)

/-- Write the 36 symbols of the atom with key `k`; a write-back of it that waits is dropped (R339, R343). -/
def State.placeWrite (s : State) (k : Nat) (w : List Byte) : State :=
  let s := { s.dramPut k w with writeBacks := s.writeBacks.filter (fun x => x.1 != k) }
  s.bump64 (Reg.PWR_MEMC_WRITES_LO (dramChan k)) 1

/-- Write an atom in full, with fresh check bytes (R339, R343). -/
def State.atomWrite (s : State) (idx : Nat) (data : List Byte) : State := s.placeWrite (s.atomKey idx) (rsEncode data idx)

/-- Count a corrected atom, with the package warning of R350. -/
def State.countCe (s : State) (chan : Nat) : State :=
  let s := s.bump32 (Reg.PWR_MEMC_CE chan) 1
  let p := chan / 4
  let n := tabGet 0 s.pkgCe p + 1
  let s := { s with pkgCe := tabSet 0 s.pkgCe p n }
  let th := s.regN Reg.PWR_MEMMAP_CE_THRESH
  let x := if p < 32 then Reg.PWR_MEMMAP_WARN_LO else Reg.PWR_MEMMAP_WARN_HI
  if th ≠ 0 ∧ n ≥ th ∧ s.field x (p % 32) 1 = 0 then
    (s.setField x (p % 32) 1 1).postEvent 1 0 0x40 (4 * p) 0x005 (leBytes p 8)
  else s

/-- A request from another node, as the requester of an access (R506): 256 beside 0xFF, which stands for a requester without a
core. -/
def fromNode : Nat := 0x1FF

/-- Report an uncorrectable atom (R344): count, record, daybook entry. Answers the seq of the entry. -/
def State.reportUe (s : State) (idx : Nat) (address scrub : Bool) (core : Nat) : State × Nat :=
  let m := s.memPlace (idx * 32)
  let s := s.bump32 (Reg.PWR_MEMC_UE m.chan) 1
  let s := if s.field (Reg.PWR_MEMC_ERR m.chan) 0 1 = 1 then s
    else (s.setReg64 (Reg.PWR_MEMC_ERR_IDX_LO m.chan) idx).setRegN (Reg.PWR_MEMC_ERR m.chan)
      (1 + 2 * b2n address + 4 * m.sub + 8 * b2n scrub)
  let p := s.recordTime
  p.1.report (dbEvent 2 0 0x40 m.chan Code.uncorrectable 0
    (errDetail (core % 256) false (core == fromNode) { Stop.of Code.uncorrectable with addr := some (idx * 32) }
      (p.1.reg (Reg.PWR_MEMC_ERR m.chan)) p.2))

/-- What a controller does with the symbols it has read (R342–R344): the data, if they are clean or corrected, and
otherwise the seq of the daybook entry. A corrected atom waits for its write-back. DEDUCED (log entry 68). -/
def State.atomAnswer (s : State) (idx chan : Nat) (scrub : Bool) (core : Nat) : AtomRead → State × (Except Nat (List Byte))
  | .clean d => (s, .ok d)
  | .corrected d =>
    ({ s.countCe chan with
        writeBacks := (s.writeBacks.filter (fun w => w.1 != s.atomKey idx)) ++ [(s.atomKey idx, rsEncode d idx)] }, .ok d)
  | .bad address =>
    ((s.reportUe idx address scrub core).1, .error (s.reportUe idx address scrub core).2)

/-- Read an atom as its controller does (R341–R344): the state, its data if it is clean or corrected, and otherwise the
seq of the daybook entry. `scrub` marks a patrol read; `core` is the core concerned, 0xFF for none. -/
def State.atomRead (s : State) (idx : Nat) (scrub : Bool) (core : Nat) : State × (Except Nat (List Byte)) :=
  let p := s.atomStored idx
  let chan := (p.1.memPlace (idx * 32)).chan
  (p.1.bump64 (Reg.PWR_MEMC_READS_LO chan) 1).atomAnswer idx chan scrub core (rsDecode p.2 idx)

/-- The outcome of an access: a status code, 0 for success, and the seq of the daybook entry it caused, 0 for none. -/
structure AccStatus where
  code : Nat
  seq : Nat
  deriving DecidableEq, Repr, Inhabited

/-- Success. -/
def AccStatus.ok : AccStatus := ⟨0, 0⟩

/-- Keep the first failure. -/
def AccStatus.first (a b : AccStatus) : AccStatus := if a.code = 0 then b else a

/-- Whether controller `m` takes requests: it is ENABLED (R458, R459). -/
def State.chanEnabled (s : State) (m : Nat) : Bool := s.field (Reg.PWR_QSTATE (52 + m)) 0 2 == 1

/-- Whether the controller of atom `idx` takes requests. -/
def State.atomEnabled (s : State) (idx : Nat) : Bool := s.chanEnabled (s.memPlace (idx * 32)).chan

/-- The bytes of `n` consecutive atoms from index `idx`; a failed or refused atom reads as zero. DEDUCED (log entry 68). -/
def State.atomsRead (s : State) (idx : Nat) (core : Nat) : Nat → State × List Byte × AccStatus
  | 0 => (s, [], .ok)
  | n + 1 =>
    if s.atomEnabled idx = false then
      let (s, r, _) := s.atomsRead (idx + 1) core n
      (s, List.replicate 32 0 ++ r, ⟨Code.quiesceRefused, 0⟩)
    else match s.atomRead idx false core with
    | (s, .ok d) =>
      let (s, r, st) := s.atomsRead (idx + 1) core n
      (s, d ++ r, st)
    | (s, .error seq) =>
      let (s, r, _) := s.atomsRead (idx + 1) core n
      (s, List.replicate 32 0 ++ r, ⟨Code.uncorrectable, seq⟩)

/-- Read bytes of the LPDDR range (R346). -/
def State.lpddrRead (s : State) (a len core : Nat) : State × List Byte × AccStatus :=
  if len = 0 then (s, [], .ok)
  else if a + len > s.lpddrEnd then (s, List.replicate len 0, ⟨Code.lpddrRange, 0⟩)
  else
    let first := a / 32
    let n := (a + len - 1) / 32 - first + 1
    let (s, bs, st) := s.atomsRead first core n
    (s, (bs.drop (a % 32)).take len, st)

/-- Read an atom once and write the bytes at `off` that `f` makes of its data, none to leave it; answers the data. An atomic
and a merge are one such access (R345, R347). -/
def State.atomUpdate (s : State) (idx off core : Nat) (f : List Byte → Option (List Byte)) : State × List Byte × AccStatus :=
  if s.atomEnabled idx = false then (s, [], ⟨Code.quiesceRefused, 0⟩)
  else
    match s.atomRead idx false core with
    | (s, .ok d) =>
      match f d with
      | some bs => (s.atomWrite idx (d.take off ++ bs ++ d.drop (off + bs.length)), d, .ok)
      | none => (s, d, .ok)
    | (s, .error seq) => (s, [], ⟨Code.uncorrectable, seq⟩)

/-- Write bytes that lie in one atom: in full, or by read, merge and write (R345). -/
def State.atomMerge (s : State) (idx off : Nat) (bs : List Byte) (core : Nat) : State × AccStatus :=
  if s.atomEnabled idx ∧ off = 0 ∧ bs.length = 32 then (s.atomWrite idx bs, .ok)
  else
    let (s, _, st) := s.atomUpdate idx off core (fun _ => some bs)
    (s, st)

/-- Write bytes over at most `n` atoms. DEDUCED (log entry 68). -/
def State.atomsWrite (s : State) (a : Nat) (bs : List Byte) (core : Nat) : Nat → State × AccStatus
  | 0 => (s, .ok)
  | n + 1 =>
    if bs.isEmpty then (s, .ok)
    else
      let k := 32 - a % 32
      let (s, st) := s.atomMerge (a / 32) (a % 32) (bs.take k) core
      let (s, st') := s.atomsWrite (a + k) (bs.drop k) core n
      (s, st.first st')

/-- Write bytes of the LPDDR range (R345, R346). -/
def State.lpddrWrite (s : State) (a : Nat) (bs : List Byte) (core : Nat) : State × AccStatus :=
  if bs.isEmpty then (s, .ok)
  else if a + bs.length > s.lpddrEnd then (s, ⟨Code.lpddrRange, 0⟩)
  else s.atomsWrite a bs core (bs.length / 32 + 2)

end Sys2Proof.Machine
end

