-- ==== Sys2Proof/Machine/Scratchpad.lean ====
section
/-! DEFINITION. The Scratchpad: banks, owners and power, the views, pails, parity
(08_scratchpad_pails_and_rings.md R172–R194, R525). -/

namespace Sys2Proof.Machine

/-! Agents (R183) and ports (R174) by their codes. -/

/-- DATA_PATH, CLERK, DMA or REMOTE. -/
inductive Agent where
  | dataPath
  | clerk
  | dma
  | remote
  deriving DecidableEq, Repr, Inhabited

/-- The code of an agent in a pail entry (R183), which is also that of its own port (R174). -/
def Agent.code : Agent → Nat
  | .dataPath => 0
  | .clerk => 1
  | .dma => 2
  | .remote => 3

/-! Banks. -/

/-- Bank `b` of a core. -/
def Core.bank (k : Core) (b : Nat) : Bank := tabGet Bank.reset k.banks b

/-- Replace bank `b`. -/
def Core.setBank (k : Core) (b : Nat) (v : Bank) : Core := { k with banks := tabSet Bank.reset k.banks b v }

/-- Owner code of bank `b` (R174). -/
def Core.ownerOf (k : Core) (b : Nat) : Nat := bits k.owner.toNat (2 * b) 2

/-- MATRIX-owned banks in ascending order (R175). -/
def Core.matrixBanks (k : Core) : List Nat := (List.range 16).filter (fun b => k.ownerOf b == 0)

/-- B_m (R175). -/
def Core.bm (k : Core) : Nat := k.matrixBanks.length

/-- A bank gives access only when it is On, not in transition and not closing (R191–R193). -/
def Bank.usable (b : Bank) : Bool := b.pow == .on && b.closing.isNone && b.moving.isNone

/-- The code of a power state (R203). -/
def BankPow.code : BankPow → Nat
  | .off => 0
  | .retain => 1
  | .on => 2

/-- Bits of SPAD_BANK_PWR_STATE for a bank (R203). -/
def Bank.stateCode (b : Bank) : Nat := if b.moving.isSome then 3 else b.pow.code

/-- Forget a bank's words: the bytes read as zero after the next zeroing (R181, R191). DESIGN CHOICE (log entry 7). -/
def Core.loseBank (k : Core) (b : Nat) : Core :=
  { k with mem := tabDrop (fun a => a / 64 % 16 == b) k.mem
           badParity := k.badParity.filter (fun a => a / 64 % 16 != b) }

/-- Bring a bank to a power state reached. -/
def Core.bankReach (k : Core) (b : Nat) (p : BankPow) : Core :=
  let was := (k.bank b).pow
  let k := if p = .off ∨ was = .off then k.loseBank b else k
  k.setBank b ⟨p, none, none, none⟩

/-- A power request acts on a bank at rest (R191). DEDUCED (log entry 64). -/
def Core.bankAct (k : Core) (b : Nat) (p : BankPow) : Core :=
  let v := k.bank b
  if v.pow = p then k.setBank b ⟨v.pow, none, none, none⟩
  else k.setBank b ⟨v.pow, none, some p, none⟩

/-- A power request reaches a bank (R191, R193): during a transition the last one waits; a request to leave On waits for
in-flight writes; any other acts. DEDUCED (log entry 64). -/
def Core.bankRequest (k : Core) (b : Nat) (p : BankPow) : Core :=
  let v := k.bank b
  if v.moving.isSome then k.setBank b { v with next := some p }
  else if v.pow = .on ∧ p ≠ .on then k.setBank b { v with closing := some p }
  else k.bankAct b p

/-! Views (R172, R177, R179, R525). -/

/-- Plain offset of a wide offset, none with no MATRIX-owned bank (R177). -/
def Core.wide (k : Core) (w : Nat) : Option Nat :=
  let bs := k.matrixBanks
  if bs.isEmpty then none
  else
    let row := w / (64 * bs.length)
    if row ≥ 384 then none
    else (bs[w / 64 % bs.length]?).map (fun b => row * 1024 + b * 64 + w % 64)

/-- Plain offset of byte `a` of diagonal storage (R179, R241): each 1 KiB row is one logical row of a block. -/
def diagPlain (a : Nat) : Nat := a / 1024 * 1024 + (a / 1024 % 16 + a / 64 % 16) % 16 * 64 + a % 64

/-- Row of a plain offset. -/
def rowOf (a : Nat) : Nat := a / 1024

/-- Bank of a plain offset. -/
def bankOf (a : Nat) : Nat := a / 64 % 16

/-! Pails. -/

/-- A pail entry (R183). -/
structure PailCfg where
  first : Nat
  rows : Nat
  producer : Nat
  consumer : Nat
  valid : Bool
  deriving DecidableEq, Repr, Inhabited

/-- A pail entry read from its register value (R203). -/
def PailCfg.of (v : Nat) : PailCfg := ⟨bits v 0 9, bits v 9 6 + 1, bits v 15 2, bits v 17 2, bitOf v 19⟩

/-- Pail entry `i` of core `c`. -/
def State.pailCfg (s : State) (c i : Nat) : PailCfg := PailCfg.of (s.regN (Reg.SPAD_PAIL_CFG c i))

/-- State of pail `i`. -/
def Core.pail (k : Core) (i : Nat) : Pail := tabGet Pail.reset k.pails i

/-- Replace the state of pail `i`. -/
def Core.setPail (k : Core) (i : Nat) (v : Pail) : Core := { k with pails := tabSet Pail.reset k.pails i v }

/-- Replace the state of pail `i` of core `c`. -/
def State.setPail (s : State) (c i : Nat) (v : Pail) : State := s.modCore c (·.setPail i v)

/-- The code of a pail state (R185). -/
def PailSt.code : PailSt → Nat
  | .empty => 0
  | .filling => 1
  | .full => 2
  | .draining => 3

/-- The valid pail whose storage holds a plain offset: its rows, in MATRIX-owned banks (R184). -/
def State.pailAt (s : State) (c a : Nat) : Option Nat :=
  if (s.core c).ownerOf (bankOf a) ≠ 0 then none
  else (List.range 64).find? (fun i =>
    let p := s.pailCfg c i
    p.valid && decide (p.first ≤ rowOf a) && decide (rowOf a < p.first + p.rows))

/-- Whether a consumer of epoch `e` may read a pail (R185, R190, R229). -/
def Pail.readable (p : Pail) (e : Nat) : Bool :=
  (p.st == .full || p.st == .draining) && (p.epoch == 0 || p.epoch == e)

/-- Whether a producer of epoch `e` may write a pail (R185, R190). -/
def Pail.writable (p : Pail) (e : Nat) : Bool :=
  (p.st == .empty || p.st == .filling) && (p.epoch == 0 || p.epoch == e)

/-- The consumer's first read (R185). -/
def Pail.firstRead (p : Pail) : Pail := if p.st = .full then { p with st := .draining } else p

/-- The producer's first write, of epoch `e` (R185, R190). -/
def Pail.firstWrite (p : Pail) (e : Nat) : Pail := if p.st = .empty then { p with st := .filling, epoch := e } else p

/-- The producer's end event (R187, R189). -/
def Pail.filled (p : Pail) (status : Nat) : Pail := { p with st := .full, err := status != 0, kept := status }

/-- The consumer's end event: err and the kept status are cleared, and the epoch stays (R187, R189, R190). -/
def Pail.emptied (p : Pail) : Pail := { Pail.reset with epoch := p.epoch }

/-! Checks of one access to the bank word at a plain offset. -/

/-- What an access meets. -/
inductive Access where
  | ok
  | wait
  | refused (st : Stop)
  deriving DecidableEq, Repr

/-- A Scratchpad fault (R176). -/
def spadStop (code a port : Nat) : Stop := { Stop.of code with row := rowOf a, bank := bankOf a, port := port }

/-- Whether the module is in pool mode (R201). -/
def State.poolMode (s : State) : Bool := s.field Reg.SPAD_POOL_CTL 0 1 == 1

/-- The port on which an agent's access to plain offset `a` travels: a pail's producer and consumer reach its storage through
the matrix port, any other access goes through the agent's own (R174, R186). -/
def State.portOf (s : State) (c : Nat) (ag : Agent) (write : Bool) (a : Nat) : Nat :=
  match if s.poolMode then none else s.pailAt c a with
  | some i =>
    let p := s.pailCfg c i
    if (if write then p.producer else p.consumer) = ag.code then 0 else ag.code
  | none => ag.code

/-- An access of an agent, naming no pail (R174, R186, R188, R192): read or write of the word at plain offset `a` of core
`c`. -/
def State.spadCheck (s : State) (c : Nat) (ag : Agent) (write : Bool) (a : Nat) : Access :=
  let k := s.core c
  let own := k.ownerOf (bankOf a)
  let port := s.portOf c ag write a
  let power : Access := if (k.bank (bankOf a)).usable then .ok else .refused (spadStop Code.bankOff a port)
  if s.poolMode then power
  else match s.pailAt c a with
    | some i =>
      let p := s.pailCfg c i
      let role := if write then p.producer else p.consumer
      if role ≠ ag.code then .refused (spadStop Code.pailRole a port)
      else match ag with
        | .dataPath => power
        | .dma => .refused (spadStop Code.pailRole a port)
        | _ =>
          if power ≠ .ok then power
          else if write then (if (k.pail i).writable 0 then .ok else .wait)
          else if (k.pail i).readable 0 then
            (if (k.pail i).err then .refused { Stop.of (k.pail i).kept with addr := some a } else .ok)
          else .wait
    | none => if own ≠ port then .refused (spadStop Code.bankPort a port) else power

/-- Count a refusal at core `c`'s Scratchpad (R176, R182, R188). -/
def State.countRefusal (s : State) (c code : Nat) : State :=
  if code = Code.bankPort ∨ code = Code.pailRole then s.bump32 (Reg.SPAD_PORT_DENIED c) 1
  else if code = Code.bankOff then s.bump32 (Reg.SPAD_OFF_DROPS c) 1
  else if code = Code.parity then s.bump32 (Reg.SPAD_PARITY_ERRS c) 1
  else s

/-- Move the tag of the pail that an access of an agent reaches, on its first read or write (R185). DEDUCED (log entry 32). -/
def State.pailTouch (s : State) (c : Nat) (write : Bool) (a : Nat) : State :=
  if s.poolMode then s
  else match s.pailAt c a with
    | some i => s.modCore c (fun k => k.setPail i (if write then (k.pail i).firstWrite 0 else (k.pail i).firstRead))
    | none => s

/-! Bytes. -/

/-- Bytes of a Scratchpad, at plain offsets. DESIGN CHOICE (log entry 7). -/
def Core.spadBytes (k : Core) (a n : Nat) : List Byte := bytesGet 0 k.mem a n

/-- Write bytes of a Scratchpad; their parity is made anew (R173, R182). -/
def Core.spadPut (k : Core) (a : Nat) (bs : List Byte) : Core :=
  { k with mem := bytesSet 0 k.mem a bs
           badParity := k.badParity.filter (fun x => x < a || a + bs.length ≤ x) }

/-- Whether a byte of [a, a + n) fails its parity (R181). DESIGN CHOICE (log entry 7). -/
def Core.parityBad (k : Core) (a n : Nat) : Bool := k.badParity.any (fun x => a ≤ x && x < a + n)

/-- Record a parity error of core `c` (R182): counted, one daybook entry, and the running task fails; `pc` and `slip` name the
operation and the slip of a data-path read, `remote` marks a reader on another node (R176, R506). Answers the seq. -/
def State.parityErrorAt (s : State) (c a port : Nat) (pc slip : Option Nat) (stops remote : Bool) : State × Nat :=
  let s := s.countRefusal c Code.parity
  let st := { spadStop Code.parity a port with pc := pc, slip := slip }
  let s := s.recordFault c st
  let (s, t) := s.recordTime
  let (s, seq) := s.report (dbEvent 2 0 0x26 c Code.parity 0
    (errDetail c s.primaryNow remote st (s.capturedReg c st) t))
  if stops then (s.stopCoreSeq c st seq, seq) else (s.failTask Code.parity 0 seq, seq)

/-- A parity error that no slip of the data path met; `remote` marks a reader on another node (R506). -/
def State.parityError (s : State) (c a port : Nat) (remote : Bool) : State × Nat := s.parityErrorAt c a port none none false remote

/-- The result of a Scratchpad access. -/
inductive SpadResult where
  | done (data : List Byte)
  | wait
  | refused (st : Stop) (seq : Nat)
  deriving DecidableEq, Repr

/-- Read `n` bytes that lie in one bank word, by an agent through its own port. The caller reports the fault. -/
def State.spadRead (s : State) (c : Nat) (ag : Agent) (a n : Nat) : State × SpadResult :=
  match s.spadCheck c ag false a with
  | .wait => (s, .wait)
  | .refused st => (s.countRefusal c st.code, .refused st 0)
  | .ok =>
    if (s.core c).parityBad a n then
      let port := s.portOf c ag false a
      let (s, seq) := s.parityError c a port (ag == .remote)
      (s, .refused { spadStop Code.parity a port with seq := seq } seq)
    else
      let s := s.pailTouch c false a
      (s, .done ((s.core c).spadBytes a n))

/-- Write bytes that lie in one bank word, by an agent through its own port. -/
def State.spadWrite (s : State) (c : Nat) (ag : Agent) (a : Nat) (bs : List Byte) : State × SpadResult :=
  match s.spadCheck c ag true a with
  | .wait => (s, .wait)
  | .refused st => (s.countRefusal c st.code, .refused st 0)
  | .ok =>
    let s := s.pailTouch c true a
    (s.modCore c (·.spadPut a bs), .done [])

/-- Read bytes over several bank words, at most `n` of them. -/
def State.spadReadN (s : State) (c : Nat) (ag : Agent) (a len : Nat) : Nat → State × SpadResult
  | 0 => (s, .done [])
  | n + 1 =>
    if len = 0 then (s, .done [])
    else
      let k := min len (64 - a % 64)
      match s.spadRead c ag a k with
      | (s, .done d) =>
        match s.spadReadN c ag (a + k) (len - k) n with
        | (s, .done r) => (s, .done (d ++ r))
        | x => x
      | x => x

/-- Write bytes over several bank words, at most `n` of them. -/
def State.spadWriteN (s : State) (c : Nat) (ag : Agent) (a : Nat) (bs : List Byte) : Nat → State × SpadResult
  | 0 => (s, .done [])
  | n + 1 =>
    if bs.isEmpty then (s, .done [])
    else
      let k := 64 - a % 64
      match s.spadWrite c ag a (bs.take k) with
      | (s, .done _) => s.spadWriteN c ag (a + k) (bs.drop k) n
      | x => x

/-! The local address of Scratchpads (R172). -/

/-- First local address of the Scratchpads. -/
def spadBase : Nat := 0xF00000000000

/-- The core and plain offset of a Scratchpad address, and whether it lies in a Scratchpad (R172). -/
def spadPlace (a : Nat) : Option (Nat × Nat) :=
  if spadBase ≤ a ∧ a < spadBase + 64 * 0x100000 then
    some ((a - spadBase) / 0x100000, (a - spadBase) % 0x100000)
  else none

end Sys2Proof.Machine
end

