-- ==== Sys2Proof/Machine/Ledger.lean ====
section
/-! DEFINITION. Ledger tiles and exact accumulation (04_ledgers.md R71–R94; shadow tiles of
06_sparse_operands_and_the_strainer.md R151–R153). -/

namespace Sys2Proof.Machine

/-- Tile `l` of a core. -/
def Core.tile (k : Core) (l : Nat) : Tile := tabGet Tile.reset k.tiles l

/-- Replace tile `l`. -/
def Core.setTile (k : Core) (l : Nat) (t : Tile) : Core := { k with tiles := tabSet Tile.reset k.tiles l t }

/-- The point tag as an integer (R72). -/
def Prec.point (p : Prec) : Int := p.pt.toInt

/-- The code of a tile state (R80, R151). -/
def TileSt.code : TileSt → Nat
  | .clear => 0
  | .opened => 1
  | .invalid => 2
  | .shadow => 3

/-- The integer in word `i` of a tile as the ledger reads it: zero while CLEAR (R80). -/
def Tile.word (t : Tile) (i : Nat) : Int := if t.st = .clear then 0 else (tabGet 0 t.words i).toInt

/-- The value of word `i` (R72). -/
def Tile.value (t : Tile) (i : Nat) : Rat := (t.word i : Rat) * pow2 t.tag.point

/-- Largest word. -/
def wordMax : Int := 2 ^ 191 - 1

/-- Most negative word. -/
def wordMin : Int := -(2 ^ 191)

/-- What an add did: the terms' counts of R93. -/
structure AddCount where
  sub : Nat
  sat : Nat
  range : Nat
  deriving DecidableEq, Repr, Inhabited

/-- Sum of counts. -/
def AddCount.add (a b : AddCount) : AddCount := ⟨a.sub + b.sub, a.sat + b.sat, a.range + b.range⟩

/-- Add a term (N, X) into word `i` of a tile that accepts adds (R74). -/
def Tile.addTerm (t : Tile) (i : Nat) (n x : Int) (tally : Bool) : Tile × AddCount :=
  let sh := x - t.tag.point
  let v : Int := if 0 ≤ sh then n * 2 ^ sh.toNat else n.fdiv (2 ^ (-sh).toNat)
  let sub := decide (sh < 0) && decide (n.fmod (2 ^ (-sh).toNat) ≠ 0)
  let range := tally && (decide (sh < 0) || decide (95 < sh))
  let s := (tabGet 0 t.words i).toInt + v
  let sat := decide (wordMax < s) || decide (s < wordMin)
  let w := if wordMax < s then wordMax else if s < wordMin then wordMin else s
  ({ t with words := tabSet 0 t.words i (BitVec.ofInt 192 w)
            sat := t.sat || sat
            sub := t.sub || sub
            range := t.range || range },
   ⟨b2n sub, b2n sat, b2n range⟩)

/-- Add one host value or P64 half (R44, R47): a finite pattern exactly, an infinity as the saturated word of its sign,
a NaN as nothing but SAT. LEDG_SAT_ADDS counts the infinity as one clamped add, and the NaN as none (R93). DESIGN CHOICE (log entry 121). -/
def Tile.addF32 (t : Tile) (i : Nat) (w : Word) : Tile × AddCount :=
  match f32Val w with
  | .fin _ => t.addTerm i (f32Term w).1 (f32Term w).2 false
  | .inf neg =>
    ({ t with words := tabSet 0 t.words i (BitVec.ofInt 192 (if neg then wordMin else wordMax)), sat := true }, ⟨0, 1, 0⟩)
  | .nan => ({ t with sat := true }, ⟨0, 0, 0⟩)

/-- Make a CLEAR tile OPEN with tags `p` (R80, R81). -/
def Tile.openWith (t : Tile) (p : Prec) : Tile :=
  { t with st := .opened, tagged := true, tag := p, rows := [], words := [] }

/-- Make a CLEAR tile a shadow tile of epoch `e` with tags `p`, keeping the tags it held (R151). -/
def Tile.shadowWith (t : Tile) (p : Prec) (e : Nat) : Tile :=
  { t with st := .shadow, tagged := true, tag := p, rows := [], words := [], epoch := e, before := if t.tagged then some t.tag else none }

/-- TCLEAR under precision `p` in force, or none (R80). -/
def Tile.clearTo (_ : Tile) (p : Option Prec) : Tile :=
  match p with
  | some p => { Tile.reset with tagged := true, tag := p }
  | none => Tile.reset

/-- A release: CLEAR, the tags kept, the flags cleared (R80). A shadow tile stays its epoch's, with words of zero (R151). DEDUCED (log entry 25). -/
def Tile.release (t : Tile) : Tile :=
  if t.st = .shadow then { t with sat := false, sub := false, range := false, words := [] }
  else { Tile.reset with tagged := t.tagged, tag := t.tag }

/-- VERIFY commits a shadow tile (R153). -/
def Tile.commit (t : Tile) : Tile := { t with st := .opened, epoch := 0, before := none }

/-- SQUASH of a shadow tile (R153). -/
def Tile.squash (t : Tile) : Tile := Tile.reset.clearTo t.before

/-- A fault marks a tile INVALID (R29, R80). -/
def Tile.invalidate (t : Tile) : Tile := { t with st := .invalid, epoch := 0, before := none }

/-- Count terms of core `c` (R93). -/
def State.countAdds (s : State) (c : Nat) (n : AddCount) : State :=
  ((s.bump64 (Reg.LEDG_SUB_TERMS_LO c) n.sub).bump32 (Reg.LEDG_SAT_ADDS c) n.sat).bump32 (Reg.LEDG_SCALE_RANGE_TERMS c) n.range

/-- Replace tile `l` of core `c`. -/
def State.setTile (s : State) (c l : Nat) (t : Tile) : State := s.modCore c (·.setTile l t)

/-- Invalidate tile `l` of core `c`. -/
def State.invalidTile (s : State) (c l : Nat) : State := s.modCore c (fun k => k.setTile l (k.tile l).invalidate)

/-- Whether a P64 add that reaches tile `l` of core `c` is accepted (R81, R83, R152). -/
def Tile.takesP64 (t : Tile) : Bool := t.st == .opened || (t.st == .clear && t.tagged)

/-- A P64 add reaches its word (R81, R83, R90, R152): the state, and whether it was added. -/
def State.p64Add (s : State) (c l i : Nat) (v : Dword) : State × Bool :=
  let t := (s.core c).tile l
  if t.takesP64 then
    let t := if t.st = .clear then t.openWith t.tag else t
    let (t, a) := t.addF32 i (p64Hi v)
    let (t, b) := t.addF32 i (p64Lo v)
    let s := (s.setTile c l t).countAdds c (a.add b)
    (s.bump64 (Reg.LEDG_REMOTE_ADDS_LO c) 1, true)
  else (s.bump32 (Reg.LEDG_REMOTE_DROP c) 1, false)

/-- Word `i` of tile `l` as a view reads it (R92): the integer and the point tag; an INVALID tile gives a free value
(R83). DESIGN CHOICE (log entry 13). -/
def State.viewWord (s : State) (c l i : Nat) : State × Int × Int :=
  let t := (s.core c).tile l
  if t.st = .invalid then
    let (s, n) := s.tick
    (s, (Config.freeLedgerWord n).toInt, t.tag.point)
  else (s, t.word i, t.tag.point)

/-- The add view's read: the word's value as P64 (R92, R46). -/
def State.addViewRead (s : State) (c l i : Nat) : State × Dword :=
  let (s, w, pt) := s.viewWord c l i
  (s, p64Round ((w : Rat) * pow2 pt))

/-- Eight bytes of the raw view at byte `o` (a multiple of 8) of word `i` (R92). -/
def State.rawViewRead (s : State) (c l i o : Nat) : State × Dword :=
  let (s, w, _) := s.viewWord c l i
  (s, BitVec.ofInt 64 (w.fdiv (2 ^ (8 * o))))

end Sys2Proof.Machine
end

