-- ==== Sys2Proof/Machine/StoreWord.lean ====
section
/-! DEFINITION. The store word (05_the_mint.md R95) and the tiles that it names. -/

namespace Sys2Proof.Machine

/-- A store word (R95). -/
structure StoreWord where
  span : Nat
  arr : Nat
  form : Nat
  layout : Nat
  dynamic : Bool
  retry : Bool
  stochastic : Bool
  release : Bool
  compress : Bool
  chmul : Bool
  stats : Bool
  rowstat : Bool
  func : Nat
  fuseOp : Nat
  fuseSrc : Nat
  fuseTile : Nat
  topk : Nat
  sideRow : Nat
  stream : Nat
  rsv : Nat
  deriving DecidableEq, Repr, Inhabited

/-- Read a store word. -/
def StoreWord.of (v : Nat) : StoreWord :=
  { span := bits v 0 2
    arr := bits v 2 2
    form := bits v 4 2
    layout := bits v 6 2
    dynamic := bitOf v 8
    retry := bitOf v 9
    stochastic := bitOf v 10
    release := bitOf v 11
    compress := bitOf v 12
    chmul := bitOf v 13
    stats := bitOf v 14
    rowstat := bitOf v 15
    func := bits v 16 4
    fuseOp := bits v 20 2
    fuseSrc := bits v 22 2
    fuseTile := bits v 24 3
    topk := bits v 27 6
    sideRow := bits v 33 9
    stream := bits v 42 16
    rsv := bits v 58 6 }

/-- Tiles of the span. -/
def StoreWord.tiles (w : StoreWord) : Nat := if w.span = 0 then 1 else if w.span = 1 then 4 else 8

/-- A fused operand at all. -/
def StoreWord.fused (w : StoreWord) : Bool := w.fuseOp == 1 || w.fuseOp == 2

/-- A fused operand that df names. -/
def StoreWord.usesDf (w : StoreWord) : Bool := w.fused && w.fuseSrc != 0

/-- Fused tiles. -/
def StoreWord.fuseTiles (w : StoreWord) : List Nat :=
  if w.fused && w.fuseSrc == 0 then (List.range w.tiles).map (· + w.fuseTile) else []

end Sys2Proof.Machine
end

