-- ==== Sys2Proof/Machine/RegView.lean ====
section
/-! DEFINITION. What a register read shows: the stored value, or a view of typed state (register tables of the chapters),
with presence (00_scope.md R3, R4) and the latches of R70. -/

namespace Sys2Proof.Machine

/-- Pack fields (value, shift). -/
def packBits (l : List (Nat × Nat)) : Nat := l.foldl (fun a f => a + f.1 * 2 ^ f.2) 0

/-- The operation that issues: the head of the Sequencer queue once its first slip has issued. -/
def Core.issuing (k : Core) : Option SeqOp :=
  match k.seq with
  | o :: _ => if o.started then some o else none
  | [] => none

/-- The part of an operation that runs. -/
def SeqOp.part (o : SeqOp) : Option Part := o.plan.bind (·.parts.head?)

/-- Whether a product has issued a plane pair or ended a group, and has not ended: its cycles are in flight (R69). A NEST loop is
between two slabs of a quartet. DEDUCED (log entry 133). -/
def SeqOp.pairing (o : SeqOp) : Bool :=
  decide (0 < o.checked) || decide (0 < o.group) ||
    (o.begun && o.part.any (fun p => match p.nest with
      | .slab _ _ _ _ _ _ _ _ _ :: _ => true
      | _ => false))

/-- CORE_TALLY_STATUS (R69). -/
def Core.tallyStatus (k : Core) : Nat :=
  match k.issuing with
  | some o =>
    match o.kind with
    | .tmul f => packBits [(b2n o.pairing, 0), (b2n k.freeze.isSome, 1), (f.layout.toNat, 2)]
    | .tmul2 f => packBits [(b2n o.pairing, 0), (b2n k.freeze.isSome, 1), (f.layout.toNat, 2)]
    | _ => packBits [(b2n k.freeze.isSome, 1)]
  | none => packBits [(b2n k.freeze.isSome, 1)]

/-- The steps of a NEST loop that an operation has left (R260). -/
def SeqOp.nestSteps (o : SeqOp) : List NestStep := (o.plan.map (fun p => p.parts.flatMap (·.nest))).getD []

/-- Whether a step of a NEST loop is a store. -/
def NestStep.stores : NestStep → Bool
  | .slab _ _ _ _ _ _ _ _ _ => false
  | .store _ _ _ _ => true

/-- Tiles of quartet `h`. -/
def halfTiles (h : Nat) : List Nat := (List.range 4).map (· + 4 * h)

/-- The tiles that an operation works on, fused tiles with them (R96, R97, R260). -/
def SeqOp.tilesOf (o : SeqOp) : List Nat :=
  match o.kind with
  | .tmul f =>
    if bitOf ((o.gvals.getD 1 0).toNat) 0 then
      ((o.part.map (·.halves)).getD []).flatMap halfTiles ++
        (let w := StoreWord.of (o.gvals.getD 2 0).toNat
         { w with span := 1 }.fuseTiles)
    else halfTiles f.q.toNat
  | .tmul2 _ => List.range 8
  | .tstore f =>
    let w := StoreWord.of (o.gvals.getD 0 0).toNat
    (List.range w.tiles).map (· + f.tile.toNat) ++ w.fuseTiles
  | .tingest f => [f.tile.toNat]
  | .tclear m => (List.range 8).filter (bitOf m)
  | .sint 2 f => (List.range 4).map (· + 4 * f.q.toNat)
  | _ => []

/-- Whether Span window `w` is open (R394). -/
def State.winOpen (s : State) (w : Nat) : Bool := s.field (Reg.SPAN_WIN w + 20) 0 1 == 1

/-- base of a window record. -/
def State.winBase (s : State) (w : Nat) : Nat := s.reg64 (Reg.SPAN_WIN w) % 2 ^ 48

/-- limit of a window record. -/
def State.winLimit (s : State) (w : Nat) : Nat := s.reg64 (Reg.SPAN_WIN w + 8) % 2 ^ 48

/-- kind of a window record. -/
def State.winKind (s : State) (w : Nat) : Nat := s.field (Reg.SPAN_WIN w + 16) 0 2

/-- First local address of control space (R423). -/
def controlBase : Nat := 0xF80000000000

/-- Whether an open window of kind LEDGER covers a word of tile `l` of core `c` (R93). -/
def State.tileWindow (s : State) (c l : Nat) : Bool :=
  let lo := controlBase + c * 0x100000 + l * 0x2000
  (List.range 4096).any (fun w => s.winOpen w && s.winKind w == 2 && decide (s.winBase w < lo + 0x2000) && decide (lo < s.winLimit w))

/-- LEDG_STATUS (R93); a full buffer of 64 shows as 63 in the six bits of add_fill. DEDUCED (log entry 105). -/
def State.ledgStatus (s : State) (c : Nat) : Nat :=
  let k := s.core c
  let work := match k.issuing with
    | some o => o.tilesOf
    | none => []
  packBits ((List.range 8).flatMap (fun l =>
    [(b2n (work.contains l || k.adds.any (fun a => a.tile == l)), l), (b2n (s.tileWindow c l), 8 + l)]) ++
    [(min k.adds.length 63, 16)])

/-- LEDG_TILE_TAG_l (R93). -/
def Tile.tagView (t : Tile) : Nat :=
  packBits [(t.tag.pt.toNat, 0), (t.tag.w.toNat, 10), (t.tag.a.toNat, 14), (t.tag.f.toNat, 18), (t.st.code, 22), (b2n t.tagged, 24)]

/-- LEDG_TILE_FLAGS_l (R93). -/
def Tile.flagView (t : Tile) : Nat := packBits [(b2n t.sat, 0), (b2n t.sub, 1), (b2n t.range, 2)]

/-- Whether an operation has a store in flight: a TSTORE, TMUL2's store of the intermediate, and a NEST loop that has come to
a store (R119, R260, R292). -/
def SeqOp.storing (o : SeqOp) : Bool :=
  match o.kind with
  | .tstore _ => true
  | .tmul2 _ => o.begun && o.plan.any (fun p => p.parts.head?.any (fun q => q.num == 1))
  | .tmul _ => o.nestSteps.head?.any NestStep.stores
  | _ => false

/-- MINT_STATUS (R119). The passes of a store run within one step, so between steps pass is 0. DESIGN CHOICE (log entry 106). -/
def Core.mintStatus (k : Core) : Nat := b2n (k.issuing.any SeqOp.storing)

/-- Whether a product whose lead operand an operation copied as descriptor `i` compacts: a BITMAP or N:M operand leads (R134). -/
def SeqOp.compacts (o : SeqOp) (i : Nat) : Bool :=
  let sparse := bits (o.descs.getD i ⟨0, 0, 0⟩).bits.toNat 78 3
  decide (1 ≤ sparse) && decide (sparse ≤ 4)

/-- CORE_STRAIN_STATUS (R154). -/
def Core.strainStatus (k : Core) : Nat :=
  match k.issuing with
  | some o =>
    match o.kind with
    | .tmul f => packBits [(b2n (o.compacts f.lead.toNat), 0), (b2n (f.lead == 1), 1)]
    | .tmul2 _ => b2n (o.part.any (fun p => p.num != 1 && o.compacts p.num))
    | .sint fn _ => packBits [(1, 0), (fn, 2)]
    | _ => 0
  | none => 0

/-- CORE_STRAIN_SHADOW (R154). -/
def Core.shadowView (k : Core) : Nat :=
  packBits ((List.range 8).map (fun l => (if (k.tile l).st = .shadow then (k.tile l).epoch else 0, 4 * l)))

/-- CORE_CLERK_STATUS (R235). -/
def Core.clerkStatus (k : Core) : Nat :=
  packBits [(b2n k.running, 0), (b2n k.ended, 1), (b2n k.waiting.isSome, 2), (k.ops.length, 3), (k.seq.length, 12)]

/-- CORE_CLERK_PC (R235): the oldest incomplete instruction. -/
def Core.pcView (k : Core) : Nat :=
  match k.ops with
  | o :: _ => o.pc
  | [] => k.pc

/-- The code of an epoch's state (R228). -/
def EpochSt.code : EpochSt → Nat
  | .free => 0
  | .opened => 1
  | .endingVerify => 2
  | .endingSquash => 2

/-- State of epoch `e`. -/
def Core.epoch (k : Core) (e : Nat) : EpochSt := tabGet .free k.epochs e

/-- CORE_SPEC_STATE (R235). -/
def Core.specView (k : Core) : Nat := packBits ((List.range 16).map (fun e => ((k.epoch e).code, 2 * e)))

/-- The 22 bits of a precision (R226, R308). -/
def Prec.toNat (p : Prec) : Nat := packBits [(p.pt.toNat, 0), (p.w.toNat, 10), (p.a.toNat, 14), (p.f.toNat, 18)]

/-- A precision from its 22 bits. -/
def Prec.ofNat (v : Nat) : Prec :=
  ⟨BitVec.ofNat 10 v, BitVec.ofNat 4 (bits v 10 4), BitVec.ofNat 4 (bits v 14 4), BitVec.ofNat 4 (bits v 18 4)⟩

/-- CORE_CLERK_PREC (R235). -/
def Core.precView (k : Core) : Nat :=
  match k.precHead with
  | some p => p.toNat + 2 ^ 22
  | none => 0

/-- The class that holds for a core: Exact while it runs no task (R161, R162). -/
def State.classOf (s : State) (c : Nat) : Nat := if (s.core c).running then (s.core c).classHead.1 else 0

/-- The rail offset of quad `q` (R162). -/
def State.skimOffset (s : State) (q : Nat) : Nat :=
  (List.range 4).foldl (fun a i =>
    min a (match s.classOf (4 * q + i) with
      | 1 => s.field (Reg.PWR_SKIM_CAL q) 0 8
      | 2 => tabGet 0 s.skimOff q
      | _ => 0)) 255

/-- PWR_SKIM_STATUS (R170). The rail reaches its offset within the step that sets it, so slewing is 0 between steps. DESIGN CHOICE (log entry 107). -/
def State.skimStatus (s : State) (q : Nat) : Nat :=
  packBits ((s.skimOffset q, 0) :: (List.range 4).map (fun i => (s.classOf (4 * q + i), 16 + 2 * i)))

/-- SPAD_BANK_PWR_STATE (R203). -/
def Core.bankStates (k : Core) : Nat := packBits ((List.range 16).map (fun b => ((k.bank b).stateCode, 2 * b)))

/-- SPAD_BANK_CLOSING (R203). -/
def Core.bankClosing (k : Core) : Nat := packBits ((List.range 16).map (fun b => (b2n (k.bank b).closing.isSome, b)))

/-- SPAD_PAIL_STATE_i (R203). -/
def Pail.view (p : Pail) : Nat := packBits [(p.st.code, 0), (b2n p.err, 2), (p.epoch, 3)]

/-- Whether every bank of every core is On and at rest (R201). -/
def State.allBanksOn (s : State) : Bool := coreList.all (fun c => (List.range 16).all (fun b => ((s.core c).bank b).usable))

/-- Whether the power of every core's Scratchpad is on: its Q domain (R443, R444). -/
def State.allQuadsOn (s : State) : Bool := (List.range 16).all (fun q => s.field Reg.PWR_DOMAIN_STATE q 1 == 1)

/-- SPAD_POOL_CTL (R204). -/
def State.poolCtl (s : State) : Nat := packBits [(b2n s.poolMode, 0), (b2n (s.poolMode && s.allQuadsOn && s.allBanksOn), 1)]

/-- SPAD_STATUS (R203): busy while a FILL or COPY runs, and resident_lost as it stands. -/
def State.spadStatus (s : State) (c : Nat) : Nat :=
  packBits [(b2n ((s.core c).dma.any (fun x => x.started && (x.kind == .fill || x.kind == .copy))), 0),
    (s.field (Reg.SPAD_STATUS c) 1 1, 1)]

/-- The code of the scheduler's state (R236). -/
def SchedSt.code : SchedSt → Nat
  | .idle => 0
  | .loading => 1
  | .running => 2
  | .ending => 3

/-- Whether a TELLER_SVC ring holds an entry, such as a take that a rim has passed on (R320, R404). -/
def State.svcQueued (s : State) : Bool :=
  (List.range 64).any (fun i =>
    s.field (Reg.SPAD_RING_CFG (25792 + i) + 8) 9 4 != 0 &&
      s.regN (Reg.SPAD_RING_CFG (25792 + i) + 12) != s.regN (Reg.SPAD_RING_CFG (25792 + i) + 16))

/-- Whether an operation is queued at the Teller (R331). -/
def State.tellerBusy (s : State) : Bool :=
  s.svcQueued || s.hubOps.any (fun o => match o with
    | .take _ _ _ _ => true
    | .service _ _ _ _ => true
    | .barrier _ _ _ _ none => true
    | _ => false)

/-- Whether the task that runs is Sampled: the checker then holds stream 0xFFFF on every core, until the task ends (R164). -/
def State.sampledTask (s : State) : Bool :=
  (s.sched.st == .running || s.sched.st == .ending) && bits s.sched.cls.toNat 0 2 == 2

/-- CORE_RNG_STATUS (R332). -/
def State.rngStatus (s : State) (c : Nat) : Nat :=
  packBits [((s.core c).streams.length, 0), (b2n s.sampledTask, 5)]

/-- CORE_RNG_STREAM_s (R332). -/
def Core.streamView (k : Core) (i : Nat) : Nat :=
  match tabFind k.streams i with
  | some (st, sh) => packBits [(st, 0), (b2n sh, 16), (1, 17)]
  | none => 0

/-- Churn `n`. -/
def State.churn (s : State) (n : Nat) : ChurnSt := tabGet ChurnSt.reset s.churns n

/-- Root engine `i`. -/
def State.root (s : State) (i : Nat) : RootSt := tabGet RootSt.reset s.roots i

/-- Replace Churn `n`. -/
def State.setChurn (s : State) (n : Nat) (v : ChurnSt) : State := { s with churns := tabSet ChurnSt.reset s.churns n v }

/-- Replace root engine `i`. -/
def State.setRoot (s : State) (i : Nat) (v : RootSt) : State := { s with roots := tabSet RootSt.reset s.roots i v }

/-- Span port `p`. -/
def State.port (s : State) (p : Nat) : PortSt := tabGet PortSt.reset s.span.ports p

/-- Replace Span port `p`. -/
def State.setPort (s : State) (p : Nat) (v : PortSt) : State :=
  { s with span := { s.span with ports := tabSet PortSt.reset s.span.ports p v } }

/-- CHURN_STATUS (R380). -/
def ChurnSt.status (c : ChurnSt) : Nat := packBits [(b2n c.running.isSome, 0), (c.parked.length, 1), (b2n (!c.rootWait.isEmpty), 5)]

/-- CHURN_ROOT_STATUS (R381). -/
def RootSt.status (r : RootSt) : Nat := packBits [(b2n r.running.isSome, 0), (r.queue.length, 1)]

/-- The throttle level in force (R452). -/
def State.throttleLevel (s : State) : Nat :=
  max (max (s.field Reg.PWR_THROTTLE 0 3) (s.field Reg.PWR_THROTTLE 3 3))
    (max (s.field Reg.PWR_THROTTLE 6 3) (s.field Reg.PWR_THROTTLE 9 3))

/-- PWR_STATUS (R460). -/
def State.pwrStatus (s : State) : Nat := s.regN Reg.PWR_STATUS % 32 + s.throttleLevel * 32

/-- PWR_DOMAIN_BUSY (R443, R460): a domain with a request under way, and a C domain whose M domain is being turned off. DEDUCED (log entry 85). -/
def State.domainBusy (s : State) : Nat :=
  packBits ((List.range 30).map (fun d =>
    (b2n (!(tabGet [] s.power.domReqs d).isEmpty ||
      (decide (20 ≤ d) && decide (d < 24) && (tabGet [] s.power.domReqs (d - 4)).head? == some false)), d)))

/-- The module in cage `k` (R416, R484). -/
def State.cageModule (s : State) (k : Nat) : Bool := s.field (Reg.SISYN_FP_CAGE k) 4 1 == 1

/-- Whether a cage's module was accepted (R385). -/
def State.cageAccepted (s : State) (k : Nat) : Bool := s.field (Reg.SPAN_PORT_MODULE (2 * k)) 16 1 == 1

/-- gesture_drain of cage `k` (R475). -/
def State.gestureDrain (s : State) (k : Nat) : Bool := s.field (Reg.SISYN_FP_CAGE k) 3 1 == 1

/-- Whether domain `d` is on (R460). -/
def State.domainOn (s : State) (d : Nat) : Bool := s.field Reg.PWR_DOMAIN_STATE d 1 == 1

/-- The LED code of cage `k` (R474). -/
def State.ledCode (s : State) (k : Nat) : Nat :=
  if spanPresent s.variant = false then 0
  else
    let a := (s.port (2 * k)).st
    let b := (s.port (2 * k + 1)).st
    let t := s.sisyn.strip
    let m := s.cageModule k
    if t.touched.getLsbD k && !t.done.getLsbD k && !t.stuck.getLsbD k then 5
    else if a == 3 || b == 3 || t.confirm.getLsbD k then 3
    else if t.refused.getLsbD k then 6
    else if m && (!s.cageAccepted k || (a == 0 && b == 0)) then 4
    else if m && (a != 2 || b != 2) && a != 4 && b != 4 then 2
    else if a == 2 && b == 2 then 1
    else 0

/-- SISYN_FP_CAGE_k (R484). -/
def State.cageView (s : State) (k : Nat) : Nat := s.ledCode k + s.regN (Reg.SISYN_FP_CAGE k) / 8 * 8

/-- Whether LOCATE is lit or blinks (R479, R480). -/
def State.locateLit (s : State) : Bool :=
  s.sisyn.attn != 0 || s.power.removed || (s.field Reg.SISYN_FP_CTL 2 2 == 1 || s.field Reg.SISYN_FP_CTL 2 2 == 2)

/-- SISYN_FP_STATUS (R484). -/
def State.fpStatus (s : State) : Nat :=
  packBits [(s.sisyn.strip.touched.toNat, 0), (b2n s.sisyn.attnPressed, 8), (b2n s.locateLit, 9)]

/-- Word `w` of the daybook entry that selector `k` shows (R467). -/
def State.dbData (s : State) (k w : Nat) : Nat :=
  match s.dbFind (s.regN (Reg.SISYN_DB_SEL k)) with
  | some e => leNat ((e.bytes.drop (4 * w)).take 4)
  | none => 0

/-- The 160 bytes of a passbook record (R499); the signature is shown most significant byte first, as R490 has it. -/
def PbRecord.bytes (r : PbRecord) : List Byte :=
  leBytes r.seq 4 ++ leBytes r.boot 2 ++ leBytes r.kind 1 ++ leBytes r.from_ 1 ++ leBytes r.to_ 1 ++ leBytes r.slot 1 ++
  leBytes r.rsv.toNat 6 ++ (leBytes r.digest.toNat 48).reverse ++ (leBytes r.sig.toNat 96).reverse

/-- Word `w` of the passbook record selected (R499). -/
def State.pbData (s : State) (w : Nat) : Nat :=
  match s.lc.passbook.find? (fun r => r.seq = s.regN Reg.SISYN_PB_SEL) with
  | some r => leNat ((r.bytes.drop (4 * w)).take 4)
  | none => 0

/-- Owner slot `k` (R496). -/
def LcSt.slot (l : LcSt) (k : Nat) : OwnerSlot := tabGet ⟨0, 0⟩ l.slots k

/-- SISYN_LC_STATUS (R501). -/
def State.lcStatus (s : State) : Nat :=
  packBits ([(s.lc.state.code, 0), (b2n s.lc.zeroise.isSome, 3), (b2n s.lc.debugSeen, 4)] ++
    (List.range 4).map (fun k => ((s.lc.slot k).st, 8 + 2 * k)))

/-- SISYN_LC_NONCE_w (R501). -/
def State.nonceView (s : State) (w : Nat) : Nat :=
  match s.lc.nonce with
  | some n => bits n.toNat (32 * w) 32
  | none => 0

/-- SISYN_ATTN_CTL (R483). -/
def State.attnView (s : State) : Nat := s.sisyn.attn * 4

/-- The view that stands at a place of a present block, where typed state holds the register. -/
def State.typedView (s : State) (b : BlockAt) : Option Nat :=
  let c := b.inst
  let o := b.off
  match b.kind with
  | .tally => if o = 4 then some (s.core c).tallyStatus else none
  | .ledg =>
    if o = 4 then some (s.ledgStatus c)
    else if 0x10 ≤ o ∧ o < 0x50 then
      some (if o % 8 = 0 then ((s.core c).tile ((o - 0x10) / 8)).tagView else ((s.core c).tile ((o - 0x10) / 8)).flagView)
    else none
  | .mint => if o = 4 then some (s.core c).mintStatus else none
  | .strain => if o = 4 then some (s.core c).strainStatus else if o = 0x40 then some (s.core c).shadowView else none
  | .clerk =>
    if o = 4 then some (s.core c).clerkStatus
    else if o = 8 then some (s.core c).pcView
    else if o = 0x28 then some (s.core c).specView
    else if o = 0x40 then some (s.core c).precView
    else none
  | .skim => if o = 4 then some (s.skimStatus c) else none
  | .spad =>
    let k := s.core c
    if o = 4 then some (s.spadStatus c)
    else if o = 0xC then some (k.ownerReq.getD k.owner).toNat
    else if o = 0x14 then some k.bankStates
    else if o = 0x18 then some k.bankClosing
    else if 0x100 ≤ o ∧ o < 0x300 ∧ o % 8 = 4 then some (k.pail ((o - 0x104) / 8)).view
    else none
  | .hub => if o = 4 then some s.poolCtl else none
  | .sched => if o = 4 then some (packBits [(s.sched.st.code, 0), (s.sched.entry.ring, 2)]) else none
  | .desc => if o = 4 then some (packBits [(b2n (!(s.core c).dma.isEmpty), 0), (min (s.core c).dma.length 64, 1)]) else none
  | .tell => if o = 4 then some (b2n s.tellerBusy) else none
  | .rng =>
    if o = 4 then some (s.rngStatus c)
    else if 0x20 ≤ o ∧ o < 0x60 then some ((s.core c).streamView ((o - 0x20) / 4))
    else none
  | .churn => if o = 4 then some (s.churn c).status else none
  | .root => if o = 4 then some (s.root c).status else none
  | .spanPort => if o = 4 then some ((s.port c).st + s.regN (Reg.SPAN_PORT_STATUS c) / 8 * 8) else none
  | .pwr => if o = 4 then some s.pwrStatus else if o = 0x14 then some s.domainBusy else none
  | .sisyn =>
    if o = 0x20 then some s.dbHead
    else if o = 0x24 then some s.dbTail
    else if o = 0x40 then some s.attnView
    else if 0x100 ≤ o ∧ o < 0x180 then some (s.dbData ((o - 0x100) / 64) ((o - 0x100) % 64 / 4))
    else none
  | .fp =>
    if o = 4 then some s.fpStatus
    else if 0x10 ≤ o ∧ o < 0x30 then some (s.cageView ((o - 0x10) / 4))
    else none
  | .lc =>
    if o = 4 then some s.lcStatus
    else if 0x20 ≤ o ∧ o < 0x30 then some (s.nonceView ((o - 0x20) / 4))
    else if 0x300 ≤ o ∧ o < 0x3A0 then some (s.pbData ((o - 0x300) / 4))
    else none
  | _ => none

/-- Whether a block is absent under R3, R383 or R354. DEDUCED (log entry 61). -/
def State.blockAbsent (s : State) (k : BlockKind) (i : Nat) : Bool :=
  !blockPresent s.variant k i || ((k == .span || k == .handle) && !spanPresent s.variant)

/-- BAR0 offset of the doorbells. -/
def doorbellBase : Nat := 0x0E000000

/-- A read of the doorbells at offset `o`: head in the low half, tail in the high one (R426). -/
def State.doorbellView (s : State) (o : Nat) : Word :=
  let rec_ := Reg.SPAD_RING_CFG (16384 + o / 8)
  s.reg (rec_ + (if o % 8 < 4 then 12 else 16))

/-- The value of a 32-bit register as a read shows it; an unassigned offset reads zero, and so does every register of an
absent unit (R3, R422). DEDUCED (log entry 61). -/
def State.regView (s : State) (x : Nat) : Word :=
  match blockAt x with
  | none => if doorbellBase ≤ x ∧ x < doorbellBase + 0x2000 then s.doorbellView (x - doorbellBase) else 0
  | some b =>
    if s.blockAbsent b.kind b.inst then 0
    else if b.kind = .hub ∧ 0x100000 ≤ b.off ∧ ringAbsent s.variant ((b.off - 0x100000) / 32) then 0
    else match s.typedView b with
      | some v => BitVec.ofNat 32 v
      | none =>
        match b.rows.find? (·.covers b.off) with
        | some _ => s.reg x
        | none => 0

/-- Whether the register at `x` latches the one above it. -/
def latchPair (x : Nat) : Bool :=
  match blockAt x with
  | some b => latchesHi b.kind b.off
  | none => false

/-- A read of SISYN_LC_DEBUG_LEFT: the seconds that have passed since the last read are a free value (R501). DESIGN CHOICE (log entry 3). -/
def State.debugLeftRead (s : State) : State × Word :=
  let (s, n) := s.tick
  let left := (Config.freeTime n) % (s.regN Reg.SISYN_LC_DEBUG_LEFT + 1)
  (s.setRegN Reg.SISYN_LC_DEBUG_LEFT left, BitVec.ofNat 32 left)

/-- A 4-byte register read by a requester (R70): a _LO read latches its _HI half; a _HI read gives the latch. -/
def State.regRead (s : State) (r : Requester) (x : Nat) : State × Word :=
  if x = Reg.SISYN_LC_DEBUG_LEFT ∧ s.reg x ≠ 0 then s.debugLeftRead
  else if latchPair x then (s.latch r (x + 4) (s.regView (x + 4)), s.regView x)
  else if 4 ≤ x ∧ latchPair (x - 4) then (s, s.latched r x)
  else (s, s.regView x)

/-- Whether an 8-byte access at `x` lies within one register: the 256-bit records (R11, R204, R415, R417) and the
doorbells (R426). -/
def wideInside (x : Nat) : Bool :=
  match blockAt x with
  | some b =>
    (b.kind == .hub && decide (0x100000 ≤ b.off)) || (b.kind == .span && decide (0x1000 ≤ b.off)) ||
      (b.kind == .handle && decide (0x100 ≤ b.off))
  | none => decide (doorbellBase ≤ x) && decide (x < doorbellBase + 0x2000)

/-- An 8-byte register read (R11). -/
def State.regRead8 (s : State) (x : Nat) : Dword :=
  if wideInside x then BitVec.ofNat 64 ((s.regView x).toNat + (s.regView (x + 4)).toNat * 2 ^ 32) else 0

end Sys2Proof.Machine
end

