-- ==== Sys2Proof/Machine/Ops.lean ====
section
/-! DEFINITION. The shape of every meaning, and the answers of operations to the cores that sent them
(09_programming_model.md R217–R219). -/

namespace Sys2Proof.Machine

/-- The outcome of a command. -/
abbrev Outcome := Host.Outcome State Fault Refusal

/-- A command whose step is enabled has its effect; one whose step is not enabled changes nothing. DESIGN CHOICE (log entry 2). -/
def act (ready : Bool) (s t : State) : Outcome := if ready then .next t else .next s

/-- How an operation fails: what stops the core, and the seq of a daybook entry that is the error record already (R507). -/
structure Fail where
  stop : Stop
  seq : Nat
  deriving DecidableEq, Repr, Inhabited

/-- A failure by its code alone. -/
def Fail.of (code : Nat) : Fail := ⟨Stop.of code, 0⟩

/-- Hand the end of operation `id` of core `c` to its Clerk (R218, R219); an operation that the core no longer holds is
received by none (R457, R508). -/
def Core.opDone (k : Core) (id : Nat) (r : OpResult) : Core :=
  { k with ops := k.ops.map (fun o => if o.id = id ∧ o.result = none then { o with result := some r } else o) }

/-- Hand the end of an operation with a status and a value. -/
def State.opEnd (s : State) (c id status : Nat) (value : Option Dword) : State :=
  s.modCore c (·.opDone id ⟨status, value, Stop.of status⟩)

/-- Hand the end of an operation that failed with what stops the core if no status register takes it. -/
def State.opFail (s : State) (c id : Nat) (st : Stop) : State :=
  s.modCore c (·.opDone id ⟨st.code, none, st⟩)

/-- The general register that an instruction reads: g0 reads zero (R212). -/
def Core.greg (k : Core) (i : Nat) : Dword := if i = 0 then 0 else tabGet 0 k.g i

/-- Write a general register: g0 discards (R212). -/
def Core.setG (k : Core) (i : Nat) (v : Dword) : Core := if i = 0 then k else { k with g := tabSet 0 k.g i v }

/-- A predicate register: p0 is 1 (R212). -/
def Core.pred (k : Core) (i : Nat) : Bool := if i = 0 then true else tabGet false k.p i

/-- Write a predicate register: p0 discards (R278). -/
def Core.setP (k : Core) (i : Nat) (v : Bool) : Core := if i = 0 then k else { k with p := tabSet false k.p i v }

/-- A descriptor register. -/
def Core.dreg (k : Core) (i : Nat) : BitVec 512 := tabGet 0 k.d i

/-- Write a descriptor register. -/
def Core.setD (k : Core) (i : Nat) (v : BitVec 512) : Core := { k with d := tabSet 0 k.d i v }

end Sys2Proof.Machine
end

