-- ==== Sys2Proof/Machine/CoreRegs.lean ====
section
/-! DEFINITION. Writes to the register blocks of a core, and the clearing of counters (08_scratchpad_pails_and_rings.md R175,
R183, R191–R194, R203; 04_ledgers.md R93; 00_scope.md R9; 03_the_tally.md R70). -/

namespace Sys2Proof.Machine

/-- A write to a register under its access code (R9). -/
def State.maskedWrite (s : State) (x : Nat) (row : RegRow) (v : Word) : State :=
  let rw := BitVec.ofNat 32 row.rw
  let w1c := BitVec.ofNat 32 row.w1c
  let old := s.reg x
  s.setReg x (((old &&& ~~~rw) ||| (v &&& rw)) &&& ~~~(v &&& w1c))

/-- A write of 1 to a block's _CNT_CLR register: its counters and its latches become zero (R70). -/
def State.cntClr (s : State) (k : BlockKind) (base size : Nat) (v : Word) : State :=
  if v.getLsbD 0 then (s.clearRegs ((clearedRegs k).map (base + ·))).dropLatches base (base + size) else s

/-! Pails. -/

/-- Slip row `r` of core `c` as a number. -/
def Core.slipRow (k : Core) (r : Nat) : Nat := (tabGet 0 k.slips r).toNat

/-- Rows of the template that begins at row `r`, up to its end row, at most `n` of them. -/
def Core.template (k : Core) (r : Nat) : Nat → List Nat
  | 0 => []
  | n + 1 => if r < k.slipRows then (if bitOf (k.slipRow r) 3 then [r] else r :: k.template (r + 1) n) else []

/-- Kind of slip row `r` (R220): 0 IDLE, 1 READ, 2 PAIR, 3 TERM, 4 STORE, 5 SCATTER, 6 LOOP. -/
def Core.rowKind (k : Core) (r : Nat) : Nat := bits (k.slipRow r) 0 3

/-- First row after the template that begins at row `r`. -/
def Core.afterTemplate (k : Core) (r : Nat) : Nat := r + (k.template r 4096).length

/-- The template rows of an operation's parts. TMUL2 runs the rows before its first STORE row as the first product, its
STORE rows with the IDLE and LOOP rows among and after them as the store, and the rest as the second product; where the
template has no STORE row, the templates of the store and of the second product follow it in the table. DEDUCED (log entry 26). -/
def Core.partRows (k : Core) (three : Bool) (r : Nat) : List (List Nat) :=
  let t := k.template r 4096
  if three then
    let a := t.takeWhile (fun i => k.rowKind i != 4)
    if a.length < t.length then
      let rest := t.drop a.length
      let b := rest.takeWhile (fun i => k.rowKind i == 4 || k.rowKind i == 0 || k.rowKind i == 6)
      [a, b, rest.drop b.length]
    else
      let r1 := k.afterTemplate r
      [t, k.template r1 4096, k.template (k.afterTemplate r1) 4096]
  else [t]

/-- Pails that the READ, STORE and SCATTER rows of an operation's template name. -/
def Core.templatePails (k : Core) (three : Bool) (r : Nat) : List Nat :=
  (k.partRows three r).flatten.filterMap (fun i =>
    if k.rowKind i = 1 ∨ k.rowKind i = 4 ∨ k.rowKind i = 5 then some (bits (k.slipRow i) 4 6) else none)

/-- Whether an operation runs a template. -/
def SeqKind.templated : SeqKind → Bool
  | .tmul _ => true
  | .tmul2 _ => true
  | .tstore _ => true
  | .tingest _ => true
  | .sint fn _ => fn == 2
  | _ => false

/-- Whether an operation has the three parts of TMUL2 (R292). -/
def SeqKind.threeParts : SeqKind → Bool
  | .tmul2 _ => true
  | _ => false

/-- Pails that the tiling word of a NEST TMUL names: its runs of weight, activation and output pails (R259). -/
def SeqOp.nestPails (o : SeqOp) : List Nat :=
  match o.kind with
  | .tmul _ =>
    let v := (o.gvals.getD 1 0).toNat
    if bitOf v 0 then [27, 33, 39].flatMap (fun p => (List.range (bits v 45 3 + 1)).map (fun i => (bits v p 6 + i) % 64)) else []
  | _ => []

/-- Whether an operation in flight names pail `i`, a PSIG that waits included (R183, R301). -/
def Core.pailNamed (k : Core) (i : Nat) : Bool :=
  k.psigs.any (fun e => e.1 == i) || k.dma.any (fun x => x.srcPail == some i || x.dstPail == some i) ||
  k.seq.any (fun o => o.reads.contains i || o.writes.contains i || (o.kind.templated && (k.templatePails o.kind.threeParts o.slip).contains i) ||
    o.nestPails.contains i)

/-- Whether two valid entries share a row (R183). -/
def PailCfg.meets (a b : PailCfg) : Bool :=
  a.valid && b.valid && decide (a.first < b.first + b.rows) && decide (b.first < a.first + a.rows)

/-- Whether an entry's rows pass row 383 (R183). -/
def PailCfg.long (a : PailCfg) : Bool := decide (384 < a.first + a.rows)

/-- Whether the own Clerk's rewrite of entry `i` breaks R183. -/
def State.pailRewriteBad (s : State) (c i : Nat) (e : PailCfg) : Bool :=
  let k := s.core c
  (k.pail i).st != .empty || (k.pail i).epoch != 0 || k.pailNamed i || e.long ||
  (List.range 64).any (fun j => j != i && e.meets (s.pailCfg c j))

/-- The stop of a rewrite that R183 refuses. -/
def pailInvalidStop (k : Core) (e : PailCfg) : Stop :=
  { Stop.of Code.pailInvalid with pc := some k.pc, row := e.first, port := 1 }

/-- A write to SPAD_PAIL_CFG_i (R183): the state, and what stops the core's own Clerk. -/
def State.pailCfgWrite (s : State) (r : Requester) (c i : Nat) (v : Word) : State × Option Stop :=
  let v := v &&& 0xFFFFF
  let set := s.setReg (Reg.SPAD_PAIL_CFG c i) v
  if r = .core (Fin.ofNat 64 c) then
    let e := PailCfg.of v.toNat
    if s.pailRewriteBad c i e then (s, some (pailInvalidStop (s.core c) e)) else (set, none)
  else if s.sched.st = .idle then (set, none)
  else (s, none)

/-! Banks. -/

/-- Banks of core `c`'s resident regions: those of a region with a row count (R194). DEDUCED (log entry 65). -/
def State.residentMask (s : State) (c : Nat) : Nat :=
  (List.range 2).foldl (fun m k =>
    if s.field (Reg.SPAD_RESIDENT c k) 9 9 = 0 then m else m ||| s.field (Reg.SPAD_RESIDENT_BANKS c k) 0 16) 0

/-- The power state that a request code names for a bank (R194, R203). -/
def bankAsked (v b mask : Nat) : Option BankPow :=
  match bits v (2 * b) 2 with
  | 0 => some (if bitOf mask b then .retain else .off)
  | 1 => some .retain
  | 2 => some .on
  | _ => none

/-- A write to SPAD_BANK_PWR_REQ (R191, R193). -/
def State.bankPwrReq (s : State) (c : Nat) (v : Word) : State :=
  let mask := s.residentMask c
  let s := s.setReg (Reg.SPAD_BANK_PWR_REQ c) v
  s.modCore c (fun k => (List.range 16).foldl (fun k b =>
    match bankAsked v.toNat b mask with
    | some p => k.bankRequest b p
    | none => k) k)

/-- Whether accesses that bank `b` accepted before a request are still under way: those of a transfer that has started. -/
def Core.writesInFlight (k : Core) : Bool := k.dma.any (fun x => x.started && !x.moved)

/-- A write to SPAD_BANK_OWNER waits for the accesses issued before it (R175). -/
def State.ownerWrite (s : State) (c : Nat) (v : Word) : State := s.modCore c (fun k => { k with ownerReq := some v })

/-! Ledger flags. -/

/-- A write of ones to LEDG_TILE_FLAGS_l (R75, R93). -/
def State.tileFlagsClear (s : State) (c l : Nat) (v : Word) : State :=
  s.modCore c (fun k =>
    let t := k.tile l
    k.setTile l { t with sat := t.sat && !v.getLsbD 0, sub := t.sub && !v.getLsbD 1, range := t.range && !v.getLsbD 2 })

/-! A write to a register of a core's own blocks. -/

/-- Size of a block of a kind that each core has. -/
def coreBlockSize : BlockKind → Nat
  | .spad => 0x400
  | .mint => 0x1000
  | .handle => 0x1000
  | _ => 0x100

/-- Block offset of a core block's _CNT_CLR register. -/
def coreCntClr : BlockKind → Nat
  | .tally => 0xC
  | .clerk => 0xC
  | _ => 8

/-- A 4-byte write at `x`, in block place `b`, of a register that a core has (R9, R183, R191, R203). -/
def State.coreRegWrite (s : State) (r : Requester) (b : BlockAt) (x : Nat) (v : Word) : State × Option Stop :=
  let c := b.inst
  if s.blockAbsent b.kind b.inst then (s, none)
  else if b.kind ≠ .handle ∧ b.off = coreCntClr b.kind then (s.cntClr b.kind (x - b.off) (coreBlockSize b.kind) v, none)
  else match b.kind with
    | .ledg =>
      if 0x10 ≤ b.off ∧ b.off < 0x50 ∧ b.off % 8 = 4 then (s.tileFlagsClear c ((b.off - 0x14) / 8) v, none) else (s, none)
    | .spad =>
      if b.off = 0xC then (s.ownerWrite c v, none)
      else if b.off = 0x10 then (s.bankPwrReq c v, none)
      else if 0x100 ≤ b.off ∧ b.off < 0x300 then
        (if b.off % 8 = 0 then s.pailCfgWrite r c ((b.off - 0x100) / 8) v else (s, none))
      else match b.rows.find? (·.covers b.off) with
        | some row => (s.maskedWrite x row v, none)
        | none => (s, none)
    | _ =>
      match b.rows.find? (·.covers b.off) with
      | some row => (s.maskedWrite x row v, none)
      | none => (s, none)

/-- Whether a block kind is one that each core has. -/
def coreBlock : BlockKind → Bool
  | .tally => true
  | .ledg => true
  | .strain => true
  | .clerk => true
  | .desc => true
  | .rng => true
  | .spad => true
  | .mint => true
  | .handle => true
  | _ => false

/-! Commands. -/

/-- What a write that may stop its core leaves. -/
def State.orStop (p : State × Option Stop) (c : Nat) : State :=
  match p.2 with
  | some st => p.1.stopCore c st
  | none => p.1

/-- PAIL_CFG_WRITE (R183). -/
def execPailCfgWrite (r : Requester) (c : CoreId) (pail : BitVec 6) (value : Word) (s : State) : Outcome :=
  .next (State.orStop (s.pailCfgWrite r c.val pail.toNat value) c.val)

/-- BANK_PWR_REQ_WRITE (R191). -/
def execBankPwrReqWrite (_r : Requester) (c : CoreId) (value : Word) (s : State) : Outcome := .next (s.bankPwrReq c.val value)

/-- BANK_CLOSE (R193). -/
def execBankClose (c : CoreId) (b : BankId) (s : State) : Outcome :=
  match ((s.core c.val).bank b.val).closing with
  | some p => act (!(s.core c.val).writesInFlight) s (s.modCore c.val (fun k => k.bankAct b.val p))
  | none => .next s

/-- A bank's transition ends, and a request that came during it acts (R191, R194). -/
def Core.bankArrive (k : Core) (b : Nat) : Core :=
  match (k.bank b).moving with
  | none => k
  | some p =>
    let next := (k.bank b).next
    let k := k.bankReach b p
    match next with
    | some q => k.bankRequest b q
    | none => k

/-- BANK_TRANSITION_END (R181, R191). -/
def execBankTransitionEnd (c : CoreId) (b : BankId) (s : State) : Outcome := .next (s.modCore c.val (·.bankArrive b.val))

/-- LEDG_TILE_FLAGS_WRITE (R93). -/
def execLedgTileFlagsWrite (_r : Requester) (c : CoreId) (l : TileId) (value : Word) (s : State) : Outcome :=
  .next (s.tileFlagsClear c.val l.val value)

/-- RESIDENT_LOST_CLEAR (R203). -/
def execResidentLostClear (_r : Requester) (c : CoreId) (value : Word) (s : State) : Outcome :=
  act (value.getLsbD 1) s (s.setField (Reg.SPAD_STATUS c.val) 1 1 0)

/-- CORE_TALLY_CNT_CLR (R69, R70). -/
def execCoreTallyCntClr (_r : Requester) (c : CoreId) (value : Word) (s : State) : Outcome :=
  .next (s.cntClr .tally (Reg.CORE_TALLY_ID c.val) 0x100 value)

/-- LEDG_CNT_CLR (R93). -/
def execLedgCntClr (_r : Requester) (c : CoreId) (value : Word) (s : State) : Outcome :=
  .next (s.cntClr .ledg (Reg.LEDG_ID c.val) 0x100 value)

/-- MINT_CNT_CLR (R119). -/
def execMintCntClr (_r : Requester) (c : CoreId) (value : Word) (s : State) : Outcome :=
  .next (s.cntClr .mint (Reg.MINT_ID c.val) 0x1000 value)

/-- CORE_STRAIN_CNT_CLR (R154). -/
def execCoreStrainCntClr (_r : Requester) (c : CoreId) (value : Word) (s : State) : Outcome :=
  .next (s.cntClr .strain (Reg.CORE_STRAIN_ID c.val) 0x100 value)

/-- SPAD_CNT_CLR (R203). -/
def execSpadCntClr (_r : Requester) (c : CoreId) (value : Word) (s : State) : Outcome :=
  .next (s.cntClr .spad (Reg.SPAD_ID c.val) 0x400 value)

/-- CORE_CLERK_CNT_CLR (R235). -/
def execCoreClerkCntClr (_r : Requester) (c : CoreId) (value : Word) (s : State) : Outcome :=
  .next (s.cntClr .clerk (Reg.CORE_CLERK_ID c.val) 0x100 value)

/-- CORE_DESC_CNT_CLR (R270). -/
def execCoreDescCntClr (_r : Requester) (c : CoreId) (value : Word) (s : State) : Outcome :=
  .next (s.cntClr .desc (Reg.CORE_DESC_ID c.val) 0x100 value)

/-- CORE_RNG_CNT_CLR (R332). -/
def execCoreRngCntClr (_r : Requester) (c : CoreId) (value : Word) (s : State) : Outcome :=
  .next (s.cntClr .rng (Reg.CORE_RNG_ID c.val) 0x100 value)

/-- PWR_SKIM_CNT_CLR (R170). -/
def execPwrSkimCntClr (_r : Requester) (q : QuadId) (value : Word) (s : State) : Outcome :=
  .next (s.cntClr .skim (Reg.PWR_SKIM_ID q.val) 0x100 value)

/-- SPAD_HUB_CNT_CLR (R204). -/
def execSpadHubCntClr (_r : Requester) (value : Word) (s : State) : Outcome :=
  .next (s.cntClr .hub Reg.SPAD_HUB_ID 0x200000 value)

/-- CORE_SCHED_CNT_CLR (R236). -/
def execCoreSchedCntClr (_r : Requester) (value : Word) (s : State) : Outcome :=
  .next (s.cntClr .sched Reg.CORE_SCHED_ID 0x100 value)

/-- TELL_CNT_CLR (R331). -/
def execTellCntClr (_r : Requester) (value : Word) (s : State) : Outcome := .next (s.cntClr .tell Reg.TELL_ID 0x4000 value)

/-- PWR_MEMC_CNT_CLR (R351). -/
def execPwrMemcCntClr (_r : Requester) (m : ChanId) (value : Word) (s : State) : Outcome :=
  act (blockPresent s.variant .memc m.val) s (s.cntClr .memc (Reg.PWR_MEMC_ID m.val) 0x100 value)

/-- CHURN_CNT_CLR (R380). -/
def execChurnCntClr (_r : Requester) (n : ChurnId) (value : Word) (s : State) : Outcome :=
  act (churnPresent s.variant n.val) s (s.cntClr .churn (Reg.CHURN_ID n.val) 0x100 value)

/-- CHURN_ROOT_CNT_CLR (R381). -/
def execChurnRootCntClr (_r : Requester) (i : RimId) (value : Word) (s : State) : Outcome :=
  act (rootPresent s.variant) s (s.cntClr .root (Reg.CHURN_ROOT_ID i.val) 0x100 value)

/-- SPAN_CNT_CLR (R415). -/
def execSpanCntClr (_r : Requester) (value : Word) (s : State) : Outcome :=
  act (spanPresent s.variant) s (s.cntClr .span Reg.SPAN_ID 0x21000 value)

/-- SPAN_PORT_CNT_CLR (R416). -/
def execSpanPortCntClr (_r : Requester) (port : SpanPort) (value : Word) (s : State) : Outcome :=
  act (spanPresent s.variant) s (s.cntClr .spanPort (Reg.SPAN_PORT_ID port.val) 0x100 value)

/-- A port's number. -/
def portNum : HostPort → Nat
  | .A => 0
  | .B => 1

/-- HOST_CNT_CLR (R439). -/
def execHostCntClr (_r : Requester) (port : HostPort) (value : Word) (s : State) : Outcome :=
  .next (s.cntClr .host (Reg.HOST_ID (portNum port)) 0x1000 value)

/-- PWR_CNT_CLR (R460). -/
def execPwrCntClr (_r : Requester) (value : Word) (s : State) : Outcome := .next (s.cntClr .pwr Reg.PWR_ID 0x1000 value)

/-- SISYN_CNT_CLR (R483). -/
def execSisynCntClr (_r : Requester) (value : Word) (s : State) : Outcome := .next (s.cntClr .sisyn Reg.SISYN_ID 0x1000 value)

/-- SISYN_FP_CNT_CLR (R484). -/
def execSisynFpCntClr (_r : Requester) (value : Word) (s : State) : Outcome :=
  .next (s.cntClr .fp Reg.SISYN_FP_ID 0x1000 value)

/-- SISYN_LC_CNT_CLR (R501). -/
def execSisynLcCntClr (_r : Requester) (value : Word) (s : State) : Outcome :=
  .next (s.cntClr .lc Reg.SISYN_LC_ID 0x1000 value)

end Sys2Proof.Machine
end

