-- ==== Sys2Proof/Machine/Access.lean ====
section
/-! DEFINITION. Accesses of the core DMA engine and of the ring facility to local memory: LPDDR, Scratchpads in the views of
R525, and ledger views (08_scratchpad_pails_and_rings.md, 13_lpddr6_memory.md, 04_ledgers.md R92). -/

namespace Sys2Proof.Machine

/-- How a side of a transfer sees a Scratchpad (R525): whether it names a pail, and whether its descriptor is diagonal. -/
structure SideView where
  pail : Bool
  diag : Bool
  deriving DecidableEq, Repr, Inhabited

/-- Plain offset of an offset in a side's view. -/
def Core.viewPlain (k : Core) (v : SideView) (o : Nat) : Option Nat :=
  if v.diag then some (diagPlain o) else if v.pail then k.wide o else some o

/-- The port of a side (R174, R186). -/
def SideView.port (v : SideView) : Nat := if v.pail then 0 else 2

/-- Whether a side's port owns what the diagonal view needs (R179). -/
def Core.diagOwned (k : Core) (v : SideView) : Bool := !v.diag || (List.range 16).all (fun b => k.ownerOf b == v.port)

/-- The check of a DMA access to the word at plain offset `a` (R174, R186, R192). -/
def State.dmaCheck (s : State) (t : Nat) (v : SideView) (a : Nat) : Access :=
  if (s.core t).diagOwned v = false then .refused (spadStop Code.bankPort a v.port)
  else if v.pail then
    (if ((s.core t).bank (bankOf a)).usable then .ok else .refused (spadStop Code.bankOff a 0))
  else s.spadCheck t .dma false a

/-- A fault that a local agent of core `c` meets at the Scratchpad of core `t`: counted there (R176). -/
def State.spadRefuse (s : State) (t : Nat) (st : Stop) : State × Fail := (s.countRefusal t st.code, ⟨st, 0⟩)

/-- Read `n` bytes within one bank word of core `t`, at an offset in a side's view. -/
def State.dmaWordRead (s : State) (t : Nat) (v : SideView) (o n : Nat) : State × Except Fail (List Byte) :=
  match (s.core t).viewPlain v o with
  | none => let (s, f) := s.spadRefuse t (spadStop Code.bankPort o v.port); (s, .error f)
  | some a =>
    match s.dmaCheck t v a with
    | .ok =>
      if (s.core t).parityBad a n then
        let (s, seq) := s.parityError t a v.port false
        (s, .error ⟨{ spadStop Code.parity a v.port with seq := seq }, seq⟩)
      else (s, .ok ((s.core t).spadBytes a n))
    | .wait => (s, .error (Fail.of Code.pailRole))
    | .refused st => let (s, f) := s.spadRefuse t st; (s, .error f)

/-- Write bytes within one bank word of core `t`, at an offset in a side's view. -/
def State.dmaWordWrite (s : State) (t : Nat) (v : SideView) (o : Nat) (bs : List Byte) : State × Option Fail :=
  match (s.core t).viewPlain v o with
  | none => let (s, f) := s.spadRefuse t (spadStop Code.bankPort o v.port); (s, some f)
  | some a =>
    match s.dmaCheck t v a with
    | .ok => (s.modCore t (·.spadPut a bs), none)
    | .wait => (s, some (Fail.of Code.pailRole))
    | .refused st => let (s, f) := s.spadRefuse t st; (s, some f)

/-- Read over several bank words, at most `fuel` of them. -/
def State.dmaSpadRead (s : State) (t : Nat) (v : SideView) (o len : Nat) : Nat → State × Except Fail (List Byte)
  | 0 => (s, .ok [])
  | fuel + 1 =>
    if len = 0 then (s, .ok [])
    else
      let k := min len (64 - o % 64)
      match s.dmaWordRead t v o k with
      | (s, .ok d) =>
        match s.dmaSpadRead t v (o + k) (len - k) fuel with
        | (s, .ok r) => (s, .ok (d ++ r))
        | (s, .error f) => (s, .error f)
      | (s, .error f) => (s, .error f)

/-- Write over several bank words, at most `fuel` of them. -/
def State.dmaSpadWrite (s : State) (t : Nat) (v : SideView) (o : Nat) (bs : List Byte) : Nat → State × Option Fail
  | 0 => (s, none)
  | fuel + 1 =>
    if bs.isEmpty then (s, none)
    else
      let k := 64 - o % 64
      match s.dmaWordWrite t v o (bs.take k) with
      | (s, none) => s.dmaSpadWrite t v (o + k) (bs.drop k) fuel
      | (s, some f) => (s, some f)

/-- A LPDDR status as a failure. -/
def AccStatus.fail (a : AccStatus) (addr : Nat) : Fail := ⟨{ Stop.of a.code with addr := some addr, seq := a.seq }, a.seq⟩

/-- The core, tile and word of a ledger add view address (R92). DEDUCED (log entry 49). -/
def addViewPlace (a : Nat) : Option (Nat × Nat × Nat) :=
  let x := a - controlBase
  if controlBase ≤ a ∧ x < 64 * 0x100000 ∧ x % 0x100000 < 0x10000 then
    some (x / 0x100000, x % 0x100000 / 0x2000, x % 0x2000 / 8)
  else none

/-- P64 words of a ledger add view, 8 bytes each (R92). -/
def State.addViewBytes (s : State) (a : Nat) : Nat → State × List Byte
  | 0 => (s, [])
  | n + 1 =>
    match addViewPlace a with
    | some (c, l, i) =>
      let (s, v) := s.addViewRead c l i
      let (s, r) := s.addViewBytes (a + 8) n
      (s, leBytes v.toNat 8 ++ r)
    | none =>
      let (s, r) := s.addViewBytes (a + 8) n
      (s, List.replicate 8 0 ++ r)

/-- The core, tile, word and byte (a multiple of 8) of a ledger raw view address (R92). DEDUCED (log entry 49). -/
def rawViewPlace (a : Nat) : Option (Nat × Nat × Nat × Nat) :=
  let x := a - controlBase
  let q := x % 0x100000 - 0x10000
  if controlBase ≤ a ∧ x < 64 * 0x100000 ∧ 0x10000 ≤ x % 0x100000 ∧ x % 0x100000 < 0x50000 then
    some (x / 0x100000, q / 0x8000, q % 0x8000 / 32, q % 32 / 8 * 8)
  else none

/-- Raw view bytes of the ledger words from `a` (a multiple of 8) on, 8 bytes each (R92). DEDUCED (log entry 49). -/
def State.rawViewBytes (s : State) (a : Nat) : Nat → State × List Byte
  | 0 => (s, [])
  | n + 1 =>
    match rawViewPlace a with
    | some (c, l, i, o) =>
      let (s, v) := s.rawViewRead c l i o
      let (s, r) := s.rawViewBytes (a + 8) n
      (s, leBytes v.toNat 8 ++ r)
    | none =>
      let (s, r) := s.rawViewBytes (a + 8) n
      (s, List.replicate 8 0 ++ r)

/-- Read local bytes for a core's DMA engine: LPDDR, a Scratchpad in the side's view, or a ledger view. DEDUCED (log entry 49). -/
def State.memRead (s : State) (c : Nat) (v : SideView) (a len : Nat) : State × Except Fail (List Byte) :=
  match spadPlace a with
  | some (t, o) =>
    if o + len > 0x60000 then (s, .error ⟨spadStop Code.spadRange o v.port, 0⟩)
    else s.dmaSpadRead t v o len (len / 64 + 2)
  | none =>
    if (addViewPlace a).isSome then
      let (s, bs) := s.addViewBytes (a / 8 * 8) (len / 8 + 1)
      (s, .ok ((bs.drop (a % 8)).take len))
    else if (rawViewPlace a).isSome then
      let (s, bs) := s.rawViewBytes (a / 8 * 8) (len / 8 + 1)
      (s, .ok ((bs.drop (a % 8)).take len))
    else
      match s.lpddrRead a len c with
      | (s, bs, st) => if st.code = 0 then (s, .ok bs) else (s, .error (st.fail a))

/-- Whether local bytes [lo, hi) lie in one of core `c`'s tables MINT_GSCALE and MINT_CHMUL, which the program may load by
core DMA (R118, R120). DEDUCED (log entry 98). -/
def mintTable (c lo hi : Nat) : Bool :=
  let b := controlBase + c * 0x100000
  (decide (b + 0x81200 ≤ lo) && decide (hi ≤ b + 0x81300)) || (decide (b + 0x81400 ≤ lo) && decide (hi ≤ b + 0x81800))

/-- Write 4-byte words to registers of core `c` from BAR0 offset `x` on. DEDUCED (log entry 98). -/
def State.tableWrite (s : State) (c x : Nat) (ws : List (List Byte)) : State :=
  ws.zipIdx.foldl (fun t w => match blockAt (x + 4 * w.2) with
    | some b => (t.coreRegWrite (.core (Fin.ofNat 64 c)) b (x + 4 * w.2) (BitVec.ofNat 32 (leNat w.1))).1
    | none => t) s

/-- Write local bytes for a core's DMA engine. DEDUCED (log entry 49). -/
def State.memWrite (s : State) (c : Nat) (v : SideView) (a : Nat) (bs : List Byte) : State × Option Fail :=
  match spadPlace a with
  | some (t, o) =>
    if o + bs.length > 0x60000 then (s, some ⟨spadStop Code.spadRange o v.port, 0⟩)
    else s.dmaSpadWrite t v o bs (bs.length / 64 + 2)
  | none =>
    if mintTable c a (a + bs.length) then (s.tableWrite c (a - controlBase) (chunks 4 bs.length bs), none)
    else match s.lpddrWrite a bs c with
    | (s, st) => if st.code = 0 then (s, none) else (s, some (st.fail a))

/-- Read local memory for a ring (R199): LPDDR, or a Scratchpad through its scalar port. -/
def State.ringMemRead (s : State) (c : Nat) (a len : Nat) : State × Except Fail (List Byte) :=
  match spadPlace a with
  | some (t, o) =>
    if o + len > 0x60000 then (s, .error ⟨spadStop Code.spadRange o 1, 0⟩)
    else
      match s.spadReadN t .clerk o len (len / 64 + 2) with
      | (s, .done d) => (s, .ok d)
      | (s, .wait) => (s, .error ⟨spadStop Code.pailRole o 1, 0⟩)
      | (s, .refused st seq) => (s, .error ⟨st, seq⟩)
  | none =>
    match s.lpddrRead a len c with
    | (s, bs, st) => if st.code = 0 then (s, .ok bs) else (s, .error (st.fail a))

/-- Write local memory for a ring (R199). -/
def State.ringMemWrite (s : State) (c : Nat) (a : Nat) (bs : List Byte) : State × Option Fail :=
  match spadPlace a with
  | some (t, o) =>
    if o + bs.length > 0x60000 then (s, some ⟨spadStop Code.spadRange o 1, 0⟩)
    else
      match s.spadWriteN t .clerk o bs (bs.length / 64 + 2) with
      | (s, .done _) => (s, none)
      | (s, .wait) => (s, some ⟨spadStop Code.pailRole o 1, 0⟩)
      | (s, .refused st seq) => (s, some ⟨st, seq⟩)
  | none =>
    match s.lpddrWrite a bs c with
    | (s, st) => if st.code = 0 then (s, none) else (s, some (st.fail a))

/-- The check of a ring slot's access when it is reserved (R199): owner, outside pool mode (R201), and power of every bank word
of it, and in LPDDR the range and the state of each channel (R346, R459). -/
def State.slotFault (s : State) (a len : Nat) : Option Stop :=
  match spadPlace a with
  | none =>
    if s.lpddrEnd < a + len then some { Stop.of Code.lpddrRange with addr := some a }
    else if (List.range (len / 32 + 2)).all (fun i =>
        decide (a + len ≤ (a / 32 + i) * 32) || s.atomEnabled (a / 32 + i)) then none
    else some { Stop.of Code.quiesceRefused with addr := some a }
  | some (t, o) =>
    if o + len > 0x60000 then some (spadStop Code.spadRange o 1)
    else
      ((List.range (len / 64 + 2)).map (fun i => o / 64 * 64 + 64 * i)).findSome? (fun w =>
        if w < o + len then
          (if s.poolMode = false ∧ (s.core t).ownerOf (bankOf w) ≠ 1 then some (spadStop Code.bankPort w 1)
           else if ((s.core t).bank (bankOf w)).usable then none else some (spadStop Code.bankOff w 1))
        else none)

end Sys2Proof.Machine
end

