-- ==== Sys2Proof/Machine/ChurnMath.lean ====
section
/-! DEFINITION. The Churn's binary32 arithmetic, matrices and update rules (14_the_churn.md R367–R370, R377). A zero has no
sign: the sign of a zero reaches no finite value. -/

namespace Sys2Proof.Machine

/-! Exact operations on binary32 values with infinities and NaN, and the one rounding `rn` (R367). -/

/-- rn (R367). -/
def FVal.rn : FVal → FVal
  | .fin q => f32Val (f32Round q)
  | x => x

/-- Exact sum. -/
def FVal.add : FVal → FVal → FVal
  | .fin a, .fin b => .fin (a + b)
  | .nan, _ => .nan
  | _, .nan => .nan
  | .inf a, .inf b => if a = b then .inf a else .nan
  | .inf a, .fin _ => .inf a
  | .fin _, .inf b => .inf b

/-- Negation. -/
def FVal.neg : FVal → FVal
  | .fin a => .fin (-a)
  | .inf a => .inf (!a)
  | .nan => .nan

/-- Exact difference. -/
def FVal.sub (a b : FVal) : FVal := a.add b.neg

/-- Exact product. -/
def FVal.mul : FVal → FVal → FVal
  | .fin a, .fin b => .fin (a * b)
  | .nan, _ => .nan
  | _, .nan => .nan
  | .inf a, .inf b => .inf (a != b)
  | .inf a, .fin b => if b = 0 then .nan else .inf (a != decide (b < 0))
  | .fin a, .inf b => if a = 0 then .nan else .inf (b != decide (a < 0))

/-- Exact quotient. -/
def FVal.div : FVal → FVal → FVal
  | .fin a, .fin b => if b = 0 then (if a = 0 then .nan else .inf (decide (a < 0))) else .fin (a / b)
  | .nan, _ => .nan
  | _, .nan => .nan
  | .inf _, .inf _ => .nan
  | .inf a, .fin b => .inf (a != decide (b < 0))
  | .fin _, .inf _ => .fin 0

/-- Square root, exact enough to round once. DEDUCED (log entry 72). -/
def FVal.sqrt : FVal → FVal
  | .fin a => if a < 0 then .nan else .fin (sqrtApprox a)
  | .inf false => .inf false
  | _ => .nan

/-- sign (R367). -/
def FVal.sign : FVal → FVal
  | .fin a => .fin (if a < 0 then -1 else if a = 0 then 0 else 1)
  | .inf n => .fin (if n then -1 else 1)
  | .nan => .nan

/-- Whether a value is finite. -/
def FVal.finite : FVal → Bool
  | .fin _ => true
  | _ => false

/-- The rational of a finite value. -/
def FVal.rat : FVal → Rat
  | .fin q => q
  | _ => 0

/-- The binary32 pattern of a rounded value. -/
def FVal.word : FVal → Word
  | .fin q => f32Round q
  | .inf true => 0xFF800000
  | .inf false => 0x7F800000
  | .nan => 0x7FC00000

/-- Rounded sum. -/
def rAdd (a b : FVal) : FVal := (a.add b).rn

/-- Rounded difference. -/
def rSub (a b : FVal) : FVal := (a.sub b).rn

/-- Rounded product. -/
def rMul (a b : FVal) : FVal := (a.mul b).rn

/-- Rounded quotient. -/
def rDiv (a b : FVal) : FVal := (a.div b).rn

/-- Rounded square root. -/
def rSqrt (a : FVal) : FVal := a.sqrt.rn

/-- 1. -/
def fOne : FVal := .fin 1

/-- Bits of a step from bit `n` − 1 down (R368). -/
def powBits (beta : FVal) (t : Nat) : Nat → FVal → FVal
  | 0, r => r
  | n + 1, r =>
    let r := rMul r r
    powBits beta t n (if bitOf t n then rMul r beta else r)

/-- pow32 (R368). -/
def pow32 (beta : FVal) (t : Nat) : FVal := powBits beta t 32 fOne

/-! Matrices: rows of values. -/

/-- A matrix, row by row. -/
abbrev Mat := List (List FVal)

/-- rnx of a dot product (R367). -/
def dotRound (a b : List FVal) : FVal := ((List.zipWith FVal.mul a b).foldl FVal.add (.fin 0)).rn

/-- The transpose of a matrix of `n` columns. -/
def Mat.cols (m : Mat) (n : Nat) : Mat := (List.range n).map (fun j => m.map (fun r => r.getD j (.fin 0)))

/-- rnx of a product; `n` is the number of columns of the second factor. -/
def matMul (a b : Mat) (n : Nat) : Mat := let bt := b.cols n; a.map (fun r => bt.map (dotRound r))

/-- Elementwise. -/
def Mat.zip (f : FVal → FVal → FVal) (a b : Mat) : Mat := List.zipWith (List.zipWith f) a b

/-- Elementwise. -/
def Mat.each (f : FVal → FVal) (a : Mat) : Mat := a.map (·.map f)

/-- x × I of size `m`. -/
def Mat.diag (x : FVal) (m : Nat) : Mat :=
  (List.range m).map (fun i => (List.range m).map (fun j => if i = j then x else .fin 0))

/-- Whether every element is finite. -/
def Mat.finite (a : Mat) : Bool := a.all (·.all FVal.finite)

/-! The rules (R369). -/

/-- The coefficients of a command. -/
structure Coef where
  t : Nat
  lr : FVal
  b1 : FVal
  b2 : FVal
  eps : FVal
  wd : FVal
  gmul : FVal
  deriving Repr

/-- The new master and moments of an element. -/
structure NewElem where
  w : FVal
  m : FVal
  v : FVal
  deriving Repr

/-- d and the new moments of one element (R369): rule 0 MOMENTUM, 1 ADAPTIVE, 2 SIGNED, 3 KRONECKER; `gg` is the scaled
gradient, or P for KRONECKER; c1 and c2 hold the two corrections of ADAPTIVE. -/
def ruleStep (rule : Nat) (k : Coef) (c1 c2 m v gg : FVal) : FVal × FVal × FVal :=
  match rule with
  | 0 => let m1 := rAdd (rMul k.b1 m) gg; (m1, m1, v)
  | 1 =>
    let m1 := rAdd (rMul k.b1 m) (rMul (rSub fOne k.b1) gg)
    let v1 := rAdd (rMul k.b2 v) (rMul (rSub fOne k.b2) (rMul gg gg))
    (rDiv (rDiv m1 c1) (rAdd (rSqrt (rDiv v1 c2)) k.eps), m1, v1)
  | 2 =>
    ((rAdd (rMul k.b1 m) (rMul (rSub fOne k.b1) gg)).sign, rAdd (rMul k.b2 m) (rMul (rSub fOne k.b2) gg), v)
  | _ => let m1 := rAdd (rMul k.b1 m) gg; (m1, m1, v)

/-- One element under a rule (R369). -/
def updateElem (rule : Nat) (k : Coef) (c1 c2 w m v gg : FVal) : NewElem :=
  let (d, m1, v1) := ruleStep rule k c1 c2 m v gg
  ⟨rSub w (rMul k.lr (rAdd d (rMul k.wd w))), m1, v1⟩

/-- The corrections c1 and c2 of ADAPTIVE (R369). -/
def correction (beta : FVal) (t : Nat) : FVal := rSub fOne (pow32 beta t)

/-! KRONECKER (R370). -/

/-- An element of L or R under stat. -/
def factorStep (k : Coef) (a g : FVal) : FVal := rAdd (rMul k.b2 a) (rMul (rSub fOne k.b2) g)

/-- L under stat. -/
def newLeft (k : Coef) (l gg : Mat) (cols rows : Nat) : Mat := l.zip (factorStep k) (matMul gg (gg.cols cols) rows)

/-- R under stat. -/
def newRight (k : Coef) (r gg : Mat) (cols : Nat) : Mat := r.zip (factorStep k) (matMul (gg.cols cols) gg cols)

/-- P. -/
def precondition (lroot rroot gg : Mat) (cols : Nat) : Mat := matMul lroot (matMul gg rroot cols) cols

/-! Inverse fourth roots (R377). -/

/-- How a root job ends: the root where it is accepted, iterations, and the last residual. -/
structure RootEnd where
  root : Option Mat
  iters : Nat
  res : Option Rat
  deriving Repr

/-- The residual of M: the largest |M[i][j] − I[i][j]|. -/
def residual (m : Mat) : Rat :=
  (m.mapIdx (fun i r => (r.mapIdx (fun j x => ratAbs (x.rat - if i = j then 1 else 0))).foldl max 0)).foldl max 0

/-- T of an iteration. -/
def rootT (m : Mat) : Mat :=
  m.mapIdx (fun i r => r.mapIdx (fun j x => rDiv (rSub (if i = j then .fin 5 else .fin 0) x) (.fin 4)))

/-- At most `n` iterations from X and M; `k` have run and `res` is the last residual. -/
def rootLoop (m : Nat) (x y : Mat) (k : Nat) (res : Option Rat) : Nat → RootEnd
  | 0 => ⟨if res.any (fun r => decide (r ≤ 1 / 1000)) then some x else none, k, res⟩
  | n + 1 =>
    let t := rootT y
    let x := matMul x t m
    let t2 := matMul t t m
    let y := matMul (matMul t2 t2 m) y m
    if x.finite && y.finite then
      let r := residual y
      if r ≤ 1 / 1048576 then ⟨some x, k + 1, some r⟩ else rootLoop m x y (k + 1) (some r) n
    else ⟨none, k + 1, res⟩

/-- A root job on the m × m matrix A with damping factor eps. DEDUCED (log entry 72). -/
def rootOf (a : Mat) (m : Nat) (eps : FVal) : RootEnd :=
  if a.finite = false then ⟨none, 0, none⟩
  else
    let tr := ((a.mapIdx (fun i r => r.getD i (.fin 0))).foldl FVal.add (.fin 0)).rn
    if tr = .fin 0 then ⟨some (Mat.diag fOne m), 0, none⟩
    else if tr = .inf true ∨ (tr.finite = true ∧ tr.rat < 0) then ⟨none, 0, none⟩
    else
      let damp := rMul eps (rDiv tr (.fin (m : Rat)))
      let ad := a.mapIdx (fun i r => r.mapIdx (fun j x => if i = j then rAdd x damp else x))
      let norm := rSqrt ((ad.flatten.map (fun x => x.mul x)).foldl FVal.add (.fin 0)).rn
      let z := rDiv (.fin 5) (rMul (.fin 2) norm)
      rootLoop m (Mat.diag (rSqrt (rSqrt z)) m) (Mat.each (rMul z) ad) 0 none 24

end Sys2Proof.Machine
end

