-- ==== Sys2Proof/Machine/ChurnEntry.lean ====
section
/-! DEFINITION. Parameter block entries, block records and a Churn's accesses to memory (14_the_churn.md R355–R360). -/

namespace Sys2Proof.Machine

/-- A parameter block table entry (R356). `g` and `gradG` are group sizes; `rsv` says that a reserved bit is set. -/
structure Pb where
  master : Nat
  mom1 : Nat
  mom2 : Nat
  recs : Nat
  grad : Nat
  gradWhey : Nat
  curd : Nat
  whey : Nat
  factor : Nat
  rows : Nat
  learned : Nat
  cols : Nat
  row0 : Nat
  col0 : Nat
  kglob : Nat
  fmt : Nat
  g : Nat
  cmSto : Bool
  learnedMode : Bool
  rule : Nat
  gradFmt : Nat
  gradG : Nat
  frozen : Bool
  wSto : Bool
  mSto : Bool
  readers : Nat
  relStep : Nat
  relCount : Nat
  rootStale : Bool
  rsv : Bool
  deriving DecidableEq, Repr, Inhabited

/-- The group size that a 2-bit code names (R238). -/
def groupSize (c : Nat) : Nat := if c = 1 then 32 else if c = 2 then 64 else 128

/-- Read an entry from its 128 bytes as a number (R356). -/
def Pb.of (n : Nat) : Pb where
  master := bits n 0 64
  mom1 := bits n 64 64
  mom2 := bits n 128 64
  recs := bits n 192 64
  grad := bits n 256 64
  gradWhey := bits n 320 64
  curd := bits n 384 64
  whey := bits n 448 64
  factor := bits n 512 64
  rows := bits n 576 16
  learned := bits n 592 14
  cols := bits n 608 20
  row0 := bits n 640 20
  col0 := bits n 672 20
  kglob := bits n 704 20
  fmt := bits n 736 4
  g := groupSize (bits n 740 2)
  cmSto := bitOf n 742
  learnedMode := bitOf n 743
  rule := bits n 744 2
  gradFmt := bits n 746 2
  gradG := groupSize (bits n 748 2)
  frozen := bitOf n 750
  wSto := bitOf n 752
  mSto := bitOf n 753
  readers := bits n 768 16
  relStep := bits n 800 32
  relCount := bits n 832 16
  rootStale := bitOf n 848
  rsv := bits n 606 2 != 0 || bits n 628 12 != 0 || bits n 660 12 != 0 || bits n 692 12 != 0 || bits n 724 12 != 0 ||
    bitOf n 751 || bits n 754 14 != 0 || bits n 784 16 != 0 || bits n 849 175 != 0

/-- Scale blocks of a row. -/
def Pb.perRow (e : Pb) : Nat := e.cols / 128

/-- Number of scale block (row r, columns 128j on) (R358). -/
def Pb.sblock (e : Pb) (r j : Nat) : Nat := r * e.perRow + j

/-- Groups of a row of the compute copy. -/
def Pb.groups (e : Pb) : Nat := e.cols / e.g

/-- Bytes of a tile of the compute copy, and of a PIT-W gradient, whose format code is the entry's. -/
def Pb.tileBytes (e : Pb) : Nat := 512 * (e.fmt + 1)

/-- Bytes of the tiles. -/
def Pb.curdBytes (e : Pb) : Nat := e.rows / 64 * (e.cols / 64) * e.tileBytes

/-- Bytes of a gradient element in a ROW layout. -/
def Pb.gradWidth (e : Pb) : Nat := if e.gradFmt = 0 then 4 else 2

/-- Whether the rule is KRONECKER. -/
def Pb.kron (e : Pb) : Bool := e.rule == 3

/-- The arrays of an entry: address, bytes, and whether the entry uses it (R356, R358, R360). -/
def Pb.arrays (e : Pb) : List (Nat × Nat × Bool) :=
  let n := e.rows * e.cols
  [(e.master, 2 * n, true), (e.mom1, 2 * n, true), (e.mom2, 2 * n, e.rule == 1), (e.recs, 24 * (e.rows * e.perRow), true),
   (e.grad, if e.gradFmt = 2 then e.curdBytes else n * e.gradWidth, true),
   (e.gradWhey, e.rows * (e.cols / e.gradG) * 8, e.gradFmt == 2),
   (e.curd, e.curdBytes, true), (e.whey, e.rows * e.groups * 8, true),
   (e.factor, 8 * (e.rows * e.rows + e.cols * e.cols), e.kron)]

/-- The PINNED run of package `p`: first byte and the byte beyond it (R335). -/
def State.pinnedRun (s : State) (p : Nat) : Nat × Nat :=
  let run := (48 - s.split) * 2 ^ 30
  let rank := match s.variant with
    | .m1152u => p / 12 * 6 + p % 12
    | _ => p
  let lo := s.numPkgs * s.split * 2 ^ 30 + rank * run
  (lo, lo + run)

/-- Whether an array breaks R357: named and zero, not used and not zero, not 64 B aligned, or outside the run. DEDUCED (log entry 71). -/
def arrayBad (lo hi : Nat) (a : Nat × Nat × Bool) : Bool :=
  if a.2.2 then a.1 == 0 || a.1 % 64 != 0 || decide (a.1 < lo) || decide (hi < a.1 + a.2.1) else a.1 != 0

/-- Whether an entry is invalid but for its learned entry (R357). DEDUCED (log entry 71). -/
def State.pbBad (s : State) (p : Nat) (e : Pb) : Bool :=
  let (lo, hi) := s.pinnedRun p
  e.rsv || e.gradFmt == 3 ||
  decide (e.rows < 64) || e.rows % 64 != 0 || decide (65472 < e.rows) || e.cols == 0 || e.cols % 128 != 0 || e.col0 % 128 != 0 ||
  !fmtStored e.fmt || (e.g == 128 && fmtWide e.fmt) || (e.gradFmt == 2 && e.gradG == 128 && fmtWide e.fmt) ||
  e.arrays.any (arrayBad lo hi) || (e.kron && (decide (256 < e.rows) || decide (256 < e.cols)))

/-- Whether the learned entry `l`, number `e.learned` of `count`, does not serve (R357). -/
def Pb.learnedBad (e l : Pb) (count : Nat) : Bool :=
  e.learnedMode && (decide (count ≤ e.learned) || l.rows != e.rows || decide (l.cols < ceilDiv (ceilDiv e.cols e.g) 128 * 128))

/-! Memory. -/

/-- Read bytes of memory for a Churn. -/
def State.churnRead (s : State) (a len : Nat) : State × Except Fail (List Byte) :=
  match s.lpddrRead a len 0xFF with
  | (s, bs, st) => if st.code = 0 then (s, .ok bs) else (s, .error (st.fail a))

/-- Address of entry `i` of Churn `n`'s table (R355). -/
def State.pbAddr (s : State) (n i : Nat) : Nat :=
  s.regN (Reg.CHURN_PBT_BASE_LO n) / 128 * 128 + s.field (Reg.CHURN_PBT_BASE_HI n) 0 16 * 2 ^ 32 + 128 * i

/-- CHURN_PBT_COUNT, at most 16,384 (R355). -/
def State.pbCount (s : State) (n : Nat) : Nat := min (s.field (Reg.CHURN_PBT_COUNT n) 0 15) 16384

/-- Read entry `i` of Churn `n`'s table. -/
def State.pbRead (s : State) (n i : Nat) : State × Except Fail Pb :=
  match s.churnRead (s.pbAddr n i) 128 with
  | (s, .ok bs) => (s, .ok (Pb.of (leNat bs)))
  | (s, .error f) => (s, .error f)

/-- Write bytes of memory for a Churn; a merge whose read fails writes nothing. -/
def State.churnWrite (s : State) (a : Nat) (bs : List Byte) : State × Option Fail :=
  match s.lpddrWrite a bs 0xFF with
  | (s, st) => (s, if st.code = 0 then none else some (st.fail a))

/-! Block records (R358, R359). -/

/-- A block record. -/
structure BlockRec where
  scale : Half
  zero : Half
  tag : Nat
  stamp : Nat
  deriving DecidableEq, Repr, Inhabited

/-- Read a record. -/
def BlockRec.of (n : Nat) : BlockRec := ⟨BitVec.ofNat 16 n, BitVec.ofNat 16 (n / 2 ^ 16), bits n 32 6, bits n 40 24⟩

/-- The 64 bits of a record. -/
def BlockRec.toNat (r : BlockRec) : Nat := r.scale.toNat + r.zero.toNat * 2 ^ 16 + r.tag % 64 * 2 ^ 32 + r.stamp % 2 ^ 24 * 2 ^ 40

/-- Whether the record of scale block `i` is skewed (R359). -/
def BlockRec.skewed (r : BlockRec) (i : Nat) : Bool := r.tag != i % 64 || u16Exp r.scale == 255

/-- The value of a stored code (R359). -/
def BlockRec.value (r : BlockRec) (c : Nat) : Rat := u16Val r.scale * ((c : Rat) - (r.zero.toNat : Rat))

/-- The 16-bit codes that bytes spell. -/
def codes16 (bs : List Byte) : List Nat := (chunks 2 (bs.length) bs).map leNat

/-- The binary32 patterns that bytes spell. -/
def words32 (bs : List Byte) : List Word := (chunks 4 (bs.length) bs).map (fun b => BitVec.ofNat 32 (leNat b))

/-- The value of bit plane words: code of element `i` of a row of a PIT-W tile with `b` planes, most significant first
(R32). -/
def planeBits (planes : List Nat) (i : Nat) : Nat := planes.foldl (fun a p => 2 * a + b2n (bitOf p i)) 0

/-- The plane words of 64 codes of `b` bits, most significant first (R32). -/
def codePlanes (b : Nat) (codes : List Nat) : List Nat :=
  (List.range b).map (fun k => (codes.zipIdx.foldl (fun a e => a + b2n (bitOf e.1 (b - 1 - k)) * 2 ^ e.2) 0))

end Sys2Proof.Machine
end

