-- ==== Sys2Proof/Machine/Rng.lean ====
section
/-! DEFINITION. Random generators: the keyed permutation, draws, and streams (12_teller_and_random_streams.md
R326–R330). -/

namespace Sys2Proof.Machine

/-- A round's four words. -/
structure Quad where
  x0 : Word
  x1 : Word
  x2 : Word
  x3 : Word
  deriving DecidableEq, Repr, Inhabited

/-- Word `i` mod 4 of a key (R327). -/
def keyWord (key : BitVec 128) (i : Nat) : Word := key.extractLsb' (32 * (i % 4)) 32

/-- One round (R327), with its number and its two rotations. -/
def permRound (key : BitVec 128) (x : Quad) (r : Nat × Nat × Nat) : Quad :=
  let (n, rot1, rot3) := r
  let a := x.x0 + (keyWord key n ^^^ BitVec.ofNat 32 n)
  let c := x.x2 + keyWord key (n + 2)
  let b := x.x1.rotateLeft rot1 ^^^ a
  let d := x.x3.rotateLeft rot3 ^^^ c
  ⟨b, c + b, d, a + d⟩

/-- Rounds 0 to 9 with rot1 and rot3 (R327). -/
def permRounds : List (Nat × Nat × Nat) :=
  [(0, 13, 16), (1, 15, 8), (2, 26, 10), (3, 6, 21), (4, 17, 7), (5, 29, 11), (6, 16, 25), (7, 24, 3), (8, 13, 19),
   (9, 15, 5)]

/-- The permutation of a 128-bit counter under a key (R327). -/
def perm (key ctr : BitVec 128) : BitVec 128 :=
  let y := permRounds.foldl (permRound key)
    ⟨ctr.extractLsb' 0 32, ctr.extractLsb' 32 32, ctr.extractLsb' 64 32, ctr.extractLsb' 96 32⟩
  y.x3 ++ y.x2 ++ y.x1 ++ y.x0

/-- The generator counter (R326). -/
def rngCounter (core stream : Nat) (shared : Bool) (block : Nat) : BitVec 128 :=
  BitVec.ofNat 128 (block % 2 ^ 40 + stream % 2 ^ 16 * 2 ^ 40 + (if shared then 0 else core % 64) * 2 ^ 56 +
    b2n shared * 2 ^ 62)

/-- The 24-bit draw of element index `i` (R328). -/
def draw (seed : BitVec 128) (core stream : Nat) (shared : Bool) (i : Nat) : Nat :=
  ((perm seed (rngCounter core stream shared (i / 5))).extractLsb' (24 * (i % 5)) 24).toNat

/-- The open slot of a stream on a core, with its shared flag (R329). -/
def Core.streamOpen (k : Core) (stream : Nat) : Option Bool :=
  (k.streams.find? (fun e => e.2.1 = stream)).map (·.2.2)

/-- The first free stream slot (R329, R332). -/
def Core.freeStream (k : Core) : Option Nat := (List.range 16).find? (fun i => (tabFind k.streams i).isNone)

/-- Count block evaluations of core `c` (R330). DEDUCED (log entry 20). -/
def State.countBlocks (s : State) (c n : Nat) : State := s.bump64 (Reg.CORE_RNG_BLOCKS_LO c) n

end Sys2Proof.Machine
end

