-- ==== Sys2Proof/Machine/ChurnUnit.lean ====
section
/-! DEFINITION. A Churn's work units: what it reads, the new values, re-quantisation, re-minting and what it writes
(14_the_churn.md R369–R376). -/

namespace Sys2Proof.Machine

/-- Work of a Churn: it changes the state and may stop with a failure. -/
abbrev Ch := ExceptT Fail (StateM State)

/-- Work from a function that answers a state and a result. -/
def chOf {α : Type} (f : State → State × Except Fail α) : Ch α := fun s => let (s, r) := f s; (r, s)

/-- Change the state. -/
def chDo (f : State → State) : Ch Unit := fun s => (.ok (), f s)

/-- Stop with a failure that concerns an entry. -/
def chFail {α : Type} (code entry : Nat) : Ch α := fun s => (.error ⟨{ Stop.of code with row := entry }, 0⟩, s)

/-- Work on entry `idx`: a failure of its memory concerns that entry (R380). -/
def chAt {α : Type} (idx : Nat) (w : Ch α) : Ch α := fun s =>
  match w.run s with
  | (.error f, s) => (.error (if f.stop.code / 256 = 0x50 then f else { f with stop := { f.stop with row := idx } }), s)
  | (.ok a, s) => (.ok a, s)

/-- Read bytes. -/
def chRead (a len : Nat) : Ch (List Byte) := chOf (fun s => s.churnRead a len)

/-! What a command gives its units. -/

/-- A command's settings: number of the Churn, seed, base stream, coefficients, stat, and whether it is a REMINT. -/
structure ChurnRun where
  n : Nat
  seed : BitVec 128
  stream : Nat
  k : Coef
  stat : Bool
  remint : Bool
  deriving Repr

/-- The draw of an element for stream offset `d` (R372). -/
def ChurnRun.drawAt (x : ChurnRun) (e : Pb) (sto : Bool) (d r c : Nat) : Option Nat :=
  if sto then some (draw x.seed 0 ((x.stream + d) % 2 ^ 16) true ((e.row0 + r) * e.kglob + e.col0 + c)) else none

/-! Reading. -/

/-- What a scale block holds: row, block of its row, whether an earlier run of the step updated it, its values and its
gradient. -/
structure SbIn where
  r : Nat
  j : Nat
  done : Bool
  w : List Rat
  m : List FVal
  v : List FVal
  g : List FVal
  deriving Repr, Inhabited

/-- Read a record of scale block `i`: `which` 0 master, 1 mom1, 2 mom2 (R358, R359). -/
def chRec (e : Pb) (idx i which : Nat) : Ch BlockRec := do
  let bs ← chRead (e.recs + 24 * i + 8 * which) 8
  let r := BlockRec.of (leNat bs)
  if r.skewed i then chFail Code.churnSkew idx else pure r

/-- Read the values of scale block `i` of an array. -/
def chValues (a i : Nat) (r : BlockRec) : Ch (List Rat) := do
  let bs ← chRead (a + 256 * i) 256
  return (codes16 bs).map r.value

/-- A value as the rules take it (R367). -/
def rounded (q : Rat) : FVal := (FVal.fin q).rn

/-- The records of a gradient's whey for columns 128j to 128j + 127 of row `r` (R360). -/
def chGradWhey (e : Pb) (idx r j : Nat) : Ch (List Whey) := do
  let n := 128 / e.gradG
  (List.range n).mapM (fun q => do
    let bs ← chRead (e.gradWhey + (r * (e.cols / e.gradG) + n * j + q) * 8) 8
    let w := Whey.ofNat (leNat bs)
    if w.tag != wheyTag (e.row0 + r) (groupsPerRow e.kglob e.gradG) (e.col0 / e.gradG + n * j + q) || u16Exp w.scale == 255 then
      chFail Code.churnSkew idx
    else pure w)

/-- The codes of 64 columns of row `r` in tile column `kb` of a PIT-W gradient (R32, R360). -/
def chGradCodes (e : Pb) (r kb : Nat) : Ch (List Nat) := do
  let base := e.grad + (r / 64 * (e.cols / 64) + kb) * e.tileBytes
  let planes ← (List.range (e.fmt + 1)).mapM (fun k => do
    let bs ← chRead (base + 512 * k + 8 * (r % 64)) 8
    return leNat bs)
  return (List.range 64).map (planeBits planes)

/-- The gradient of columns 128j to 128j + 127 of row `r` as binary32 values (R360). -/
def chGrad (e : Pb) (idx r j : Nat) : Ch (List FVal) := do
  if e.gradFmt = 2 then
    let ws ← chGradWhey e idx r j
    let a ← chGradCodes e r (2 * j)
    let b ← chGradCodes e r (2 * j + 1)
    return (a ++ b).mapIdx (fun i c =>
      let w := ws.getD (i / e.gradG) (Whey.ofNat 0)
      rounded (codeVal e.fmt (u16Val w.scale) (z16Val e.fmt w.zero) c))
  else
    let n := e.gradWidth
    let bs ← chRead (e.grad + (r * e.cols + 128 * j) * n) (128 * n)
    if n = 4 then return (words32 bs).map f32Val
    else return (codes16 bs).map (fun c => f32Val (bf16Widen (BitVec.ofNat 16 c)))

/-- Read a scale block for an UPDATE, or for a REMINT its master alone. A block that an earlier run updated is skipped
(R375), but a KRONECKER entry's gradient is read whole. -/
def chBlock (x : ChurnRun) (idx : Nat) (e : Pb) (r j : Nat) : Ch SbIn := do
  let i := e.sblock r j
  let rm ← chRec e idx i 0
  if x.remint then
    let w ← chValues e.master i rm
    return ⟨r, j, false, w, [], [], []⟩
  else
    let r1 ← chRec e idx i 1
    let r2 ← if e.rule = 1 then chRec e idx i 2 else pure default
    if rm.stamp = x.k.t % 2 ^ 24 ∧ e.kron = false then return ⟨r, j, true, [], [], [], []⟩
    else
      let w ← chValues e.master i rm
      let m ← chValues e.mom1 i r1
      let v ← if e.rule = 1 then chValues e.mom2 i r2 else pure []
      let g ← chGrad e idx r j
      return ⟨r, j, rm.stamp == x.k.t % 2 ^ 24, w, m.map rounded, v.map rounded, g⟩

/-- Read a matrix of binary32 at address `a`. -/
def chMat (a rows cols : Nat) : Ch Mat := (List.range rows).mapM (fun r => do
  let bs ← chRead (a + 4 * (r * cols)) (4 * cols)
  return (words32 bs).map f32Val)

/-- Places of L, R, Lroot and Rroot in the factor area (R360). -/
def Pb.matAt (e : Pb) (right root : Bool) : Nat :=
  e.factor + 4 * ((if root then e.rows * e.rows + e.cols * e.cols else 0) + if right then e.rows * e.rows else 0)

/-! New values. -/

/-- The new values of a scale block. -/
structure SbOut where
  r : Nat
  j : Nat
  w : List FVal
  m : List FVal
  v : List FVal
  deriving Repr, Inhabited

/-- Whether the block's values are all finite. -/
def SbOut.finite (o : SbOut) : Bool := o.w.all FVal.finite && o.m.all FVal.finite && o.v.all FVal.finite

/-- The update of a scale block; `gg` holds its scaled gradient, or P (R369). -/
def SbIn.update (x : ChurnRun) (e : Pb) (b : SbIn) (gg : List FVal) : SbOut :=
  let c1 := if e.rule = 1 then correction x.k.b1 x.k.t else fOne
  let c2 := if e.rule = 1 then correction x.k.b2 x.k.t else fOne
  let l := (List.range 128).map (fun i => updateElem e.rule x.k c1 c2 (rounded (b.w.getD i 0)) (b.m.getD i (.fin 0))
    (b.v.getD i (.fin 0)) (gg.getD i (.fin 0)))
  ⟨b.r, b.j, l.map (·.w), l.map (·.m), if e.rule = 1 then l.map (·.v) else []⟩

/-! Re-quantising (R371). -/

/-- Bytes to write, and codes that saturated. -/
abbrev Writes := List (Nat × List Byte) × Nat

/-- Re-quantise 128 values: codes, record without tag and stamp, and saturated codes. -/
def requant (dr : Nat → Option Nat) (vs : List Rat) : List Nat × Half × Half × Nat :=
  let (sc, ze) := dynamicScale 15 (vs.foldl min 0) (vs.foldl max 0) 0
  let cs := vs.mapIdx (fun i v => codeOf 15 sc ze (dr i) v)
  (cs.map (·.1), sc, ze, (cs.filter (·.2)).length)

/-- Write one array of a scale block. -/
def ChurnRun.putArray (x : ChurnRun) (e : Pb) (o : SbOut) (a which : Nat) (sto : Bool) (vs : List FVal) :
    Writes × List Rat :=
  let i := e.sblock o.r o.j
  let (cs, sc, ze, sat) := requant (fun c => x.drawAt e sto which o.r (128 * o.j + c)) (vs.map FVal.rat)
  let rec_ : BlockRec := ⟨sc, ze, i % 64, if which = 0 then x.k.t % 2 ^ 24 else 0⟩
  (([(a + 256 * i, cs.flatMap (fun c => leBytes c 2)), (e.recs + 24 * i + 8 * which, leBytes rec_.toNat 8)], sat),
    cs.map rec_.value)

/-! Re-minting (R373). -/

/-- Scale and zero of a group of the compute copy; `ls` is the learned scale (R105, R373). -/
def mintScale (e : Pb) (ls : Option Half) (vs : List Rat) : Half × Half :=
  let lo := vs.foldl min 0
  let hi := vs.foldl max 0
  match ls with
  | none => dynamicScale e.fmt lo hi ((vs.map ratAbs).foldl (· + ·) 0 / (e.g : Rat))
  | some s =>
    if u16Exp s = 0 ∨ e.fmt = 0 then (s, 0)
    else
      let z := ((-lo / u16Val s) * ((2 ^ zetaBits e.fmt : Nat) : Rat)).ceil
      (s, BitVec.ofNat 16 (min z.toNat 65535))

/-- The compute copy of a scale block from its new master's decoded values; `ls` gives the learned scale of each group. -/
def ChurnRun.putCopy (x : ChurnRun) (e : Pb) (r j : Nat) (vs : List Rat) (ls : List (Option Half)) : Writes :=
  let n := 128 / e.g
  let groups : List (List Nat × (Nat × List Byte) × Nat) := (chunks e.g 128 vs).mapIdx (fun q v =>
    let (sc, ze) := mintScale e ((ls.getD q none)) v
    let cs := v.mapIdx (fun i y => codeOf e.fmt sc ze (x.drawAt e e.cmSto 3 r (128 * j + e.g * q + i)) y)
    let codes := cs.map (·.1)
    let w : Whey := ⟨sc, ze, codes.foldl (· + ·) 0, e.fmt, wheyTag (e.row0 + r) (groupsPerRow e.kglob e.g) (e.col0 / e.g + n * j + q)⟩
    (codes, (e.whey + (r * e.groups + n * j + q) * 8, leBytes w.toNat 8), (cs.filter (·.2)).length))
  let codes := groups.flatMap (·.1)
  let tiles := (List.range 2).flatMap (fun t =>
    let base := e.curd + (r / 64 * (e.cols / 64) + 2 * j + t) * e.tileBytes + 8 * (r % 64)
    (codePlanes (e.fmt + 1) ((codes.drop (64 * t)).take 64)).mapIdx (fun k p => (base + 512 * k, leBytes p 8)))
  (groups.map (·.2.1) ++ tiles, (groups.map (·.2.2)).foldl (· + ·) 0)

/-- Read the learned scale of group `q` of row `r` from the learned entry (R373). -/
def chLearned (l : Pb) (idx r q : Nat) : Ch Half := do
  let i := l.sblock r (q / 128)
  let rm ← chRec l idx i 0
  let bs ← chRead (l.master + 256 * i + 2 * (q % 128)) 2
  return u16OfF32 (rounded (rm.value (leNat bs))).word

/-- The learned scales of a scale block's groups, or none under DYNAMIC. -/
def chScales (e : Pb) (l : Option (Nat × Pb)) (r j : Nat) : Ch (List (Option Half)) :=
  let n := 128 / e.g
  match l with
  | none => pure (List.replicate n none)
  | some (idx, l) => (List.range n).mapM (fun q => do
      let h ← chLearned l idx r (n * j + q)
      return some h)

/-! Writing: whole atoms, those written in part read first, so that a unit is written whole or not at all (R345, R375,
R376). -/

/-- Join stretches that follow each other. -/
def joinRuns (l : List (Nat × List Byte)) : List (Nat × List Byte) :=
  (l.mergeSort (fun a b => decide (a.1 ≤ b.1))).foldr (fun e acc => match acc with
    | (b, y) :: r => if e.1 + e.2.length = b then (e.1, e.2 ++ y) :: r else e :: acc
    | [] => [e]) []

/-- Pieces of a stretch by atom: index, offset, bytes. -/
def atomPieces (a : Nat) (bs : List Byte) : Nat → List (Nat × Nat × List Byte)
  | 0 => []
  | n + 1 =>
    if bs.isEmpty then []
    else
      let k := 32 - a % 32
      (a / 32, a % 32, bs.take k) :: atomPieces (a + k) (bs.drop k) n

/-- Put a piece into the atoms made so far, the last first. -/
def chPiece (acc : List (Nat × List Byte)) (p : Nat × Nat × List Byte) : Ch (List (Nat × List Byte)) := do
  let put (old : List Byte) : List Byte := old.take p.2.1 ++ p.2.2 ++ old.drop (p.2.1 + p.2.2.length)
  match acc with
  | (i, d) :: r => if i = p.1 then return (i, put d) :: r
  | [] => pure ()
  if p.2.2.length = 32 then return (p.1, p.2.2) :: acc
  let old ← chRead (p.1 * 32) 32
  return (p.1, put old) :: acc

/-- Write stretches. -/
def chWrite (l : List (Nat × List Byte)) : Ch Unit := do
  let pieces := (joinRuns l).flatMap (fun e => atomPieces e.1 e.2 (e.2.length / 32 + 2))
  let atoms ← pieces.foldlM chPiece []
  let s ← get
  if atoms.any (fun a => !s.atomEnabled a.1) then chFail Code.quiesceRefused 0
  else chDo (fun s => atoms.reverse.foldl (fun t a => t.atomWrite a.1 a.2) s)

/-! Units (R375, R376). -/

/-- Rows and block columns of the units of an entry: 64 × 128, or the whole entry for KRONECKER. -/
def Pb.units (e : Pb) : List (List (Nat × Nat)) :=
  let cells (rb j : Nat) : List (Nat × Nat) := (List.range 64).map (fun i => (64 * rb + i, j))
  let l := (List.range (e.rows / 64)).flatMap (fun rb => (List.range e.perRow).map (cells rb))
  if e.kron then [(List.range e.rows).flatMap (fun r => (List.range e.perRow).map (fun j => (r, j)))] else l

/-- Write what a unit has made, with its saturated codes counted. -/
def chUnitWrite (x : ChurnRun) (w : List Writes) (blocks : Nat) : Ch Unit := do
  chWrite (w.flatMap (·.1))
  chDo (fun s => (s.bump32 (Reg.CHURN_SAT_CODES x.n) ((w.map (·.2)).foldl (· + ·) 0)).bump64 (Reg.CHURN_BLOCKS_LO x.n) blocks)

/-- Re-quantise and re-mint the new values of a block, with the learned scales of its groups. -/
def ChurnRun.blockOut (x : ChurnRun) (e : Pb) (o : SbOut) (ls : List (Option Half)) : List Writes :=
  let (wm, vs) := x.putArray e o e.master 0 e.wSto o.w
  let (w1, _) := x.putArray e o e.mom1 1 e.mSto o.m
  let w2 := if e.rule = 1 then [(x.putArray e o e.mom2 2 e.mSto o.v).1] else []
  [wm, w1, x.putCopy e o.r o.j vs ls] ++ w2

/-- A non-finite unit is not written and is counted (R376). -/
def chNonfinite (x : ChurnRun) : Ch Bool := do
  chDo (fun s => s.bump32 (Reg.CHURN_NONFINITE x.n) 1)
  return true

/-- One unit of an UPDATE of a rule other than KRONECKER: whether a value was not finite. -/
def chUnit (x : ChurnRun) (idx : Nat) (e : Pb) (l : Option (Nat × Pb)) (cells : List (Nat × Nat)) : Ch Bool := do
  let ins ← cells.mapM (fun c => chBlock x idx e c.1 c.2)
  let work := ins.filter (fun b => !b.done)
  let ls ← work.mapM (fun b => chScales e l b.r b.j)
  chDo (fun s => s.bump32 (Reg.CHURN_DONE_SKIPS x.n) (ins.length - work.length))
  let gg := work.map (fun b => b.g.map (fun g => rMul g x.k.gmul))
  let outs := List.zipWith (fun b g => b.update x e g) work gg
  if gg.all (·.all FVal.finite) && outs.all SbOut.finite then
    chUnitWrite x (List.zipWith (x.blockOut e) outs ls).flatten outs.length
    return false
  else chNonfinite x

/-- Bytes of a matrix at an address. -/
def matBytes (a : Nat) (m : Mat) : Nat × List Byte := (a, m.flatten.flatMap (fun v => leBytes v.word.toNat 4))

/-- The unit of a KRONECKER entry (R370). -/
def chKron (x : ChurnRun) (idx : Nat) (e : Pb) (l : Option (Nat × Pb)) (cells : List (Nat × Nat)) : Ch Bool := do
  let ins ← cells.mapM (fun c => chBlock x idx e c.1 c.2)
  let work := ins.filter (fun b => !b.done)
  chDo (fun s => s.bump32 (Reg.CHURN_DONE_SKIPS x.n) (ins.length - work.length))
  let gg : Mat := (List.range e.rows).map (fun r =>
    ((ins.filter (fun b => b.r == r)).flatMap (·.g)).map (fun g => rMul g x.k.gmul))
  let left ← if x.stat then chMat (e.matAt false false) e.rows e.rows else pure []
  let right ← if x.stat then chMat (e.matAt true false) e.cols e.cols else pure []
  let lroot ← chMat (e.matAt false true) e.rows e.rows
  let rroot ← chMat (e.matAt true true) e.cols e.cols
  let ls ← work.mapM (fun b => chScales e l b.r b.j)
  let nl := if x.stat then newLeft x.k left gg e.cols e.rows else []
  let nr := if x.stat then newRight x.k right gg e.cols else []
  let p := precondition lroot rroot gg e.cols
  let outs := work.map (fun b => b.update x e (((p.getD b.r []).drop (128 * b.j)).take 128))
  if gg.finite && p.finite && nl.finite && nr.finite && outs.all SbOut.finite then
    let w := List.zipWith (x.blockOut e) outs ls
    let mats : List Writes := if x.stat then
        [([matBytes (e.matAt false false) nl, matBytes (e.matAt true false) nr], 0)] else []
    chUnitWrite x (w.flatten ++ mats) outs.length
    return false
  else chNonfinite x

/-- One unit of a REMINT (R373). -/
def chRemint (x : ChurnRun) (idx : Nat) (e : Pb) (l : Option (Nat × Pb)) (cells : List (Nat × Nat)) : Ch Unit := do
  let ins ← cells.mapM (fun c => chBlock x idx e c.1 c.2)
  let w ← ins.mapM (fun b => do
    let ls ← chScales e l b.r b.j
    return x.putCopy e b.r b.j b.w ls)
  chUnitWrite x w 0

end Sys2Proof.Machine
end

