-- ==== Sys2Proof/Machine/Rings.lean ====
section
/-! DEFINITION. Rings: posting, taking and configuring (08_scratchpad_pails_and_rings.md R195–R200, R526;
16_host_attachment.md R424, R425). -/

namespace Sys2Proof.Machine

/-- SPAD.RING_ROLE on a ring (R195): `row` carries the ring ID. DEDUCED (log entry 52). -/
def ringRoleStop (ring : Nat) : Stop := { Stop.of Code.ringRole with row := ring }

/-- What posting an entry meets. -/
inductive Posted where
  | slot (x : Nat)
  | full
  | failed (f : Fail)
  | lost (x : Nat) (f : Fail)
  deriving DecidableEq, Repr

/-- Whether no write to SPAD_BANK_OWNER waits at the core whose Scratchpad holds a ring: an access that comes after such a
write obeys the new owners (R175). -/
def State.ringSettled (s : State) (ring : Nat) : Bool :=
  match spadPlace (s.ringSlot ring 0) with
  | some (t, _) => (s.core t).ownerReq.isNone
  | none => true

/-- Post an entry to a local ring of kind `kind` (R195, R198, R199). A slot whose write fails keeps what it held, and tail
still advances past it. -/
def State.ringPost (s : State) (core ring kind : Nat) (entry : List Byte) : State × Posted :=
  if s.ringKind ring ≠ kind ∨ ringKindOf ring ≠ kind then (s, .failed ⟨ringRoleStop ring, 0⟩)
  else if s.ringIsFull ring then (s, .full)
  else
    let x := s.ringTail ring
    let a := s.ringSlot ring x
    match s.slotFault a (s.ringEntry ring) with
    | some st => (s.countRefusal ((spadPlace a).map (·.1) |>.getD 0) st.code, .failed ⟨st, 0⟩)
    | none =>
      let (s, f) := s.ringMemWrite core a (entry.take (s.ringEntry ring))
      let s := (s.ringAdvTail ring).bump64 Reg.SPAD_RING_PUSHES_LO 1
      match f with
      | none => (s, .slot x)
      | some f => (s, .lost x f)

/-- Count an entry refused on a full ring (R199). -/
def State.ringRefuse (s : State) (ring : Nat) : State :=
  let n := s.field (ringReg ring 5) 0 16
  (s.setField (ringReg ring 5) 0 16 (min (n + 1) 0xFFFF)).bump32 Reg.SPAD_RING_REFUSED 1

/-- Take the oldest entry of a local ring: head advances past it whether or not it can be read (R526). -/
def State.ringTake (s : State) (core ring : Nat) : State × Except Fail (List Byte) :=
  let (s, e) := s.ringMemRead core (s.ringSlot ring (s.ringHead ring)) (s.ringEntry ring)
  (s.ringAdvHead ring, e)

/-- The oldest entry without taking it. -/
def State.ringPeek (s : State) (core ring : Nat) : State × Except Fail (List Byte) :=
  s.ringMemRead core (s.ringSlot ring (s.ringHead ring)) (s.ringEntry ring)

/-- Whether a ring holds no entry. -/
def State.ringEmpty (s : State) (ring : Nat) : Bool := s.ringUsed ring == 0

/-- A service or command entry has been posted: the operation waits for the Teller or the Churn, and any other PUSH
completes (R307, R311, R319). -/
def State.posted (s : State) (c id ring slot : Nat) (update : Bool) : State :=
  if update then { s with hubOps := s.hubOps ++ [.update c id ring slot s.sched.seed] }
  else if ringKindOf ring = 6 then { s with hubOps := s.hubOps ++ [.service c id ring slot] }
  else s.opEnd c id 0 none

/-- A PUSH or UPDATE reaches its ring (R199): it waits while the ring is full, and while new owners of its Scratchpad's banks
are to take effect (R175). -/
def State.pushNow (s : State) (c id ring : Nat) (entry : List Byte) (update : Bool) : State :=
  if s.ringSettled ring = false then { s with hubOps := s.hubOps ++ [.post c id ring entry update none] }
  else match s.ringPost c ring (if update then 5 else ringKindOf ring) entry with
  | (s, .slot x) => s.posted c id ring x update
  | (s, .full) => { s with hubOps := s.hubOps ++ [.post c id ring entry update none] }
  | (s, .failed f) => s.opFail c id f.stop
  | (s, .lost _ f) => s.opFail c id f.stop

/-- The first PUSH or UPDATE that waits for room in a ring that has some, or that is no longer enabled and refuses it (R195,
R197). DEDUCED (log entry 53). -/
def State.ringReady (s : State) (ring : Nat) : Option HubOp :=
  s.hubOps.find? (fun o => match o with
    | .post _ _ r _ _ none => r == ring && (!s.ringIsFull ring || s.ringKind ring == 0) && s.ringSettled ring
    | _ => false)

/-- Operations that wait on a ring go on, in arrival order, at most `n` of them (R199). -/
def State.ringKick (s : State) (ring : Nat) : Nat → State
  | 0 => s
  | n + 1 =>
    match s.ringReady ring with
    | none => s
    | some o =>
      let s := { s with hubOps := s.hubOps.erase o }
      match o with
      | .post c id r e u _ => (s.pushNow c id r e u).ringKick ring n
      | _ => s

/-- After a ring's head or tail has moved. -/
def State.ringMoved (s : State) (ring : Nat) : State := s.ringKick ring 256

/-- The ring that a waiting PUSH or UPDATE names. -/
def HubOp.postRing (o : HubOp) : Option Nat :=
  match o with
  | .post _ _ r _ _ none => some r
  | _ => none

/-- Operations that wait on any ring go on where they may. -/
def State.ringsMoved (s : State) : State := (s.hubOps.filterMap HubOp.postRing).dedup.foldl State.ringMoved s

/-- BANK_OWNER_ACT (R175): the new owners take effect, and what waited for them goes on. -/
def execBankOwnerAct (c : CoreId) (s : State) : Outcome :=
  match (s.core c.val).ownerReq with
  | some v =>
    act (!(s.core c.val).writesInFlight) s (s.modCore c.val (fun k => { k with owner := v, ownerReq := none })).ringsMoved
  | none => .next s

/-! Configuration. -/

/-- The eight words of a ring record. -/
def State.ringWords (s : State) (ring : Nat) : List Nat := (List.range 8).map (fun k => s.regN (ringReg ring k))

/-- kind of eight words. -/
def recKind (w : List Nat) : Nat := bits (w.getD 2 0) 9 4

/-- entry_log2 of eight words. -/
def recEntry (w : List Nat) : Nat := bits (w.getD 2 0) 0 4

/-- count_log2 of eight words. -/
def recCount (w : List Nat) : Nat := bits (w.getD 2 0) 4 5

/-- base of eight words. -/
def recBase (w : List Nat) : Nat := w.getD 0 0 + w.getD 1 0 * 2 ^ 32

/-- port of eight words. -/
def recPort (w : List Nat) : Nat := bits (w.getD 2 0) 13 1

/-- Whether a ring's region lies in one core's Scratchpad or in LPDDR, a LOCAL ring's in its own core's (R197). -/
def State.ringRegionOk (s : State) (ring : Nat) (w : List Nat) : Bool :=
  let lo := recBase w
  let hi := lo + 2 ^ recEntry w * 2 ^ recCount w
  match spadPlace lo with
  | some (c, o) => decide (o + (hi - lo) ≤ 0x60000) && (ringKindOf ring != 1 || c == ring / 256)
  | none => decide (hi ≤ s.lpddrEnd)

/-- Whether a record that would be left enabled is refused (R197, R424). -/
def State.ringRecordBad (s : State) (ring : Nat) (w : List Nat) : Bool :=
  let k := recKind w
  let host := k == 2 || k == 3
  k != ringKindOf ring ||
  decide (recEntry w < 3) || decide (8 < recEntry w) || decide (recCount w < 1) || decide (20 < recCount w) ||
  bits (w.getD 2 0) 26 6 != 0 || bits (w.getD 5 0) 16 16 != 0 ||
  (!host && !s.ringRegionOk ring w) ||
  (k == 2 && (recEntry w != 6 || s.ringKind (ring + 512) != 3 || s.ringPort (ring + 512) != recPort w)) ||
  (k == 3 && recEntry w != 5)

/-- Whether base breaks its alignment (R197). -/
def baseBad (w : List Nat) : Bool := recBase w % max 64 (2 ^ recEntry w) != 0

/-- What word `k` of a ring's record holds of a value written: reserved bits read zero, and class is zero on every ring but a
HOST_SUB ring (R9, R196). -/
def ringWord (ring k v : Nat) : Nat :=
  if k = 2 then v % 2 ^ 26 else if k = 5 then v % 2 ^ 16 else if 6 ≤ k ∧ ringKindOf ring ≠ 2 then 0 else v

/-- Store eight words of a ring record. DEDUCED (log entry 53). -/
def State.setRing (s : State) (ring : Nat) (w : List Nat) : State :=
  (List.range 8).foldl (fun t k => t.setRegN (ringReg ring k) (ringWord ring k (w.getD k 0))) s

/-- A refused record write that no core made faults SPAD.RING_CONFIG and stops none (R197, R504, R527). DEDUCED (log entry 53). -/
def State.ringConfigRecord (s : State) (ring : Nat) : State :=
  let st := { Stop.of Code.ringConfig with row := ring }
  s.apart (fun s =>
    let s := s.firstFault Reg.SPAD_RING_FAULT (2 + ring * 2 ^ 8)
    let (s, t) := s.recordTime
    (s.report (dbEvent 2 0 0x26 0 Code.ringConfig 0 (errDetail 0xFF false false st (s.reg Reg.SPAD_RING_FAULT) t))).1)

/-- A refused record write faults SPAD.RING_CONFIG: a core that made it stops with it (R176, R197). DEDUCED (log entry 53). -/
def State.ringConfigFault (s : State) (r : Requester) (ring : Nat) : State :=
  match r with
  | .core c =>
    if (s.core c.val).running && !(s.core c.val).stopped then
      s.stopCore c.val { Stop.of Code.ringConfig with row := ring, pc := some (s.core c.val).pc }
    else s.ringConfigRecord ring
  | _ => s.ringConfigRecord ring

/-- A host write from the wrong port to a bound ring (R425, R427). DEDUCED (log entry 54). -/
def State.wrongPort (s : State) (p ring : Nat) : State :=
  let s := s.bump32 (Reg.HOST_DB_WRONG_PORT p) 1
  (s.report (dbEvent 1 2 0x70 p 0 0 (leBytes ring 8))).1

/-- The port of a requester, if it is a host. -/
def reqPort : Requester → Option Nat
  | .host .A => some 0
  | .host .B => some 1
  | _ => none

/-- Write words of an enabled record (R197): class at any time, and kind 0, which disables the ring. DEDUCED (log entry 53). -/
def State.ringWriteEnabled (s : State) (r : Requester) (ring : Nat) (covered : List Nat) (w : List Nat) : State :=
  if covered.all (fun k => decide (6 ≤ k)) then
    s.setRing ring w
  else if covered.contains 2 ∧ recKind w = 0 then
    if ringKindOf ring = 3 ∧ s.ringKind (ring - 512) = 2 then s.ringConfigFault r ring
    else (s.setField (ringReg ring 2) 9 4 0).ringMoved ring
  else s.ringConfigFault r ring

/-- Write words of a record (R197, R200, R424, R425). -/
def State.ringConfig (s : State) (r : Requester) (ring : Nat) (first n : Nat) (value : Nat) : State :=
  let covered := (List.range n).map (· + first)
  let w := (s.ringWords ring).mapIdx (fun k x => if covered.contains k then bits value (32 * (k - first)) 32 else x)
  if ringAbsent s.variant ring then s
  else if ringKindOf ring = 0 then
    (if recKind w = 0 ∧ ((covered.contains 0 ∨ covered.contains 1) → baseBad w = false) then s.setRing ring w
     else s.ringConfigFault r ring)
  else if s.ringKind ring ≠ 0 then
    if ringKindOf ring = 2 ∨ ringKindOf ring = 3 then
      match reqPort r with
      | some p => if p = s.ringPort ring then s.ringWriteEnabled r ring covered w else s.wrongPort p ring
      | none => s
    else s.ringWriteEnabled r ring covered w
  else if (recKind w ≠ 0 ∧ s.ringRecordBad ring w) ∨ ((covered.contains 0 ∨ covered.contains 1 ∨ recKind w ≠ 0) ∧ baseBad w) then
    s.ringConfigFault r ring
  else s.setRing ring w

/-- RING_CONFIG_WRITE (R197). -/
def execRingConfigWrite (r : Requester) (ring : RingId) (word : Fin 8) (wide : Bool) (value : Dword) (s : State) : Outcome :=
  act (!wide || word.val % 2 == 0) s (s.ringConfig r ring.val word.val (if wide then 2 else 1) value.toNat)

end Sys2Proof.Machine
end

