-- ==== Sys2Proof/Machine/Churn.lean ====
section
/-! DEFINITION. Churn commands: taking, the update fence, parking and the ops (14_the_churn.md R361–R366, R374–R376). -/

namespace Sys2Proof.Machine

/-! Commands (R361). -/

/-- Ring `i` of Churn `n`. -/
def churnRing (n i : Nat) : Nat := 25600 + 4 * n + i

/-- op of a command's bytes. -/
def cmdOp (bs : List Byte) : Nat := (bs.headD 0).toNat % 16

/-- A command from its 64 bytes as a number, with what its slot tells. -/
def ChurnCmd.of (n ring slot core id : Nat) (seed : BitVec 128) : ChurnCmd where
  ring := ring
  slot := slot
  core := core
  id := id
  seed := seed
  op := bits n 0 4
  strict := bitOf n 4
  stat := bitOf n 5
  first := bits n 16 14
  count := bits n 32 15
  stream := bits n 48 16
  step := bits n 64 32
  lr := BitVec.ofNat 32 (n / 2 ^ 96)
  b1 := BitVec.ofNat 32 (n / 2 ^ 128)
  b2 := BitVec.ofNat 32 (n / 2 ^ 160)
  eps := BitVec.ofNat 32 (n / 2 ^ 192)
  wd := BitVec.ofNat 32 (n / 2 ^ 224)
  gmul := BitVec.ofNat 32 (n / 2 ^ 256)

/-- Whether fields that an op does not use are set (R361). -/
def ChurnCmd.unused (c : ChurnCmd) : Bool :=
  let coefs := [c.lr, c.b1, c.b2, c.wd, c.gmul].any (· != 0)
  match c.op with
  | 0 => false
  | 1 => c.strict || c.stat || c.stream != 0 || coefs || c.eps != 0
  | 2 => c.strict || c.stat || c.step != 0 || coefs || c.eps != 0
  | _ => c.strict || c.stat || c.stream != 0 || c.step != 0 || coefs

/-- Whether a command is refused as CHURN.CMD_INVALID; `n` holds its bytes (R361). DEDUCED (log entry 71). -/
def ChurnCmd.bad (c : ChurnCmd) (n count : Nat) : Bool :=
  decide (3 < c.op) || bits n 6 10 != 0 || bits n 30 2 != 0 || bits n 47 1 != 0 || bits n 288 224 != 0 ||
  c.count == 0 || decide (16384 < c.count) || decide (count < c.first + c.count) ||
  (decide (c.op < 2) && c.step == 0) || c.unused ||
  [c.lr, c.b1, c.b2, c.eps, c.wd, c.gmul].any (fun w => !(f32Val w).finite)

/-- The settings that a command gives its units. -/
def ChurnCmd.run (c : ChurnCmd) (n : Nat) : ChurnRun :=
  ⟨n, c.seed, c.stream, ⟨c.step, f32Val c.lr, f32Val c.b1, f32Val c.b2, f32Val c.eps, f32Val c.wd, f32Val c.gmul⟩, c.stat,
    c.op == 2⟩

/-- Entries of a command. -/
def ChurnCmd.entries (c : ChurnCmd) : List Nat := (List.range c.count).map (· + c.first)

/-- Cause of CHURN_FAULT for a status (R380); 0 for one that it does not name. -/
def churnCause (code : Nat) : Nat :=
  if code = Code.cmdInvalid then 1 else if code = Code.entryInvalid then 2 else if code = Code.frozenWrite then 3
  else if code = Code.fenceTimeout then 4 else if code = Code.stepStale then 5 else if code = Code.releaseStep then 6
  else if code = Code.churnSkew then 7 else if code = Code.nonfinite then 8 else if code = Code.uncorrectable then 9 else 0

/-- The operation of a command's slot is no longer held by the Churn. -/
def State.churnForget (s : State) (ring slot : Nat) : State :=
  { s with hubOps := s.hubOps.filter (fun o => match o with
    | .update _ _ r x _ => !(r == ring && x == slot)
    | _ => true) }

/-- A command of Churn `n` completes: it is counted, a failure is recorded, and the core that posted it receives the status
(R362, R380). -/
def State.churnEnd (s : State) (n : Nat) (c : ChurnCmd) (f : Option Fail) : State :=
  let s := (s.churnForget c.ring c.slot).bump64 (Reg.CHURN_CMDS_LO n) 1
  match f with
  | none => s.opEnd c.core c.id 0 none
  | some f =>
    let cause := churnCause f.stop.code
    let s := if cause = 0 then s else s.setRegN (Reg.CHURN_FAULT n) (cause + f.stop.row % 2 ^ 14 * 2 ^ 8)
    s.opFail c.core c.id { f.stop with row := 0 }

/-- A failure that concerns an entry. -/
def entryFail (code entry : Nat) : Option Fail := some ⟨{ Stop.of code with row := entry }, 0⟩

/-! Entries and the fence (R357, R364, R365). -/

/-- An entry of a command: its number, the entry, and its learned entry with its number (R357). -/
abbrev ChEntry : Type := Nat × Pb × Option (Nat × Pb)

/-- Read and check entry `i` (R357). -/
def chEntry (n i : Nat) : Ch ChEntry := chAt i do
  let e ← chOf (fun s => s.pbRead n i)
  let s ← get
  if s.pbBad n e then chFail Code.entryInvalid i
  else if e.learnedMode then
    if s.pbCount n ≤ e.learned then chFail Code.entryInvalid i
    else
      let l ← chOf (fun s => s.pbRead n e.learned)
      if e.learnedBad l (s.pbCount n) then chFail Code.entryInvalid i
      else return (i, e, some (e.learned, l))
  else return (i, e, none)

/-- Read and check the entries of a command. -/
def chEntries (n : Nat) (c : ChurnCmd) : Ch (List ChEntry) := c.entries.mapM (chEntry n)

/-- Whether an entry is stale for step `t`. -/
def Pb.stale (e : Pb) (t : Nat) : Bool := decide (t < e.relStep)

/-- Whether an entry meets the fence of step `t`. -/
def Pb.met (e : Pb) (t : Nat) : Bool := e.relStep == t && decide (e.readers ≤ e.relCount)

/-- What an UPDATE finds before it runs. -/
inductive Fence where
  | refused (f : Fail)
  | parks
  | runs
  deriving Repr, DecidableEq

/-- The fence of an UPDATE (R357, R365): the state after the entries have been read, and what holds. -/
def State.churnFence (s : State) (n : Nat) (c : ChurnCmd) : State × Fence :=
  match (chEntries n c).run s with
  | (.error f, s) => (s, .refused f)
  | (.ok es, s) =>
    match es.find? (fun e => e.2.1.stale c.step) with
    | some e => (s, .refused ⟨{ Stop.of Code.stepStale with row := e.1 }, 0⟩)
    | none => (s, if es.all (fun e => e.2.1.met c.step) then .runs else .parks)

/-- Whether a command's range holds entry `i`. -/
def ChurnCmd.covers (c : ChurnCmd) (i : Nat) : Bool := decide (c.first ≤ i) && decide (i < c.first + c.count)

/-- Whether the running command of Churn `n` holds entry `i` (R363). -/
def State.churnHolds (s : State) (n i : Nat) : Bool := (s.churn n).running.any (fun w => w.cmd.covers i)

/-- Whether an entry of a command is held by a running root job or by the command that runs (R363). DEDUCED (log entry 71). -/
def State.churnHeld (s : State) (n : Nat) (c : ChurnCmd) : Bool :=
  (s.root (n / 12)).running.any (fun j => j.churn == n && c.covers j.entry) ||
  (s.churn n).running.any (fun w => decide (w.cmd.first < c.first + c.count) && decide (c.first < w.cmd.first + w.cmd.count))

/-! Running (R362–R376). -/

/-- The work units of an UPDATE or a REMINT in their order (R375); a frozen entry of an UPDATE is one step without cells
(R374). DESIGN CHOICE (log entry 70). -/
def ChurnCmd.units (c : ChurnCmd) (es : List ChEntry) : List (ChEntry × List (Nat × Nat)) :=
  es.flatMap (fun e => if c.op = 0 ∧ e.2.1.frozen then [(e, [])] else e.2.1.units.map (fun u => (e, u)))

/-- One work unit: whether a value was not finite (R373–R376). -/
def chWork (x : ChurnRun) (u : ChEntry × List (Nat × Nat)) : Ch Bool := chAt u.1.1 do
  let (i, e, l) := u.1
  if x.remint then
    chRemint x i e l u.2
    return false
  else if e.frozen then
    chDo (fun s => s.bump32 (Reg.CHURN_FROZEN_SKIPS x.n) 1)
    return false
  else if e.kron then chKron x i e l u.2
  else chUnit x i e l u.2

/-- Write rel_step and rel_count of entry `i`. DEDUCED (log entry 71). -/
def chRelease (n i step count : Nat) : Ch Unit :=
  chAt i <| chOf (fun s => match s.churnWrite (s.pbAddr n i + 100) (leBytes step 4 ++ leBytes count 2) with
    | (s, none) => (s, .ok ())
    | (s, some f) => (s, .error f))

/-- At most `k` work units of a running command, all that are left without a number; the work after them, and whether the
command is done. An UPDATE that is done moves the fence of its entries (R365, R373–R376). -/
def chUnits (n : Nat) (w : ChurnWork) (k : Option Nat) : Ch (ChurnWork × Bool) := do
  let c := w.cmd
  let es ← chEntries n c
  match es.find? (fun e => c.strict && w.done == 0 && e.2.1.frozen) with
  | some e => chFail Code.frozenWrite e.1
  | none => do
    let us := c.units es
    let now := (us.drop w.done).take (k.getD us.length)
    let bad ← now.foldlM (fun (b : Option Nat) u => do
      let x ← chWork (c.run n) u
      return if x && b.isNone then some u.1.1 else b) w.nonfinite
    let w := { w with done := w.done + now.length, nonfinite := bad }
    if us.length ≤ w.done then
      if c.op = 0 then es.forM (fun e => chRelease n e.1 ((c.step + 1) % 2 ^ 32) 0)
      return (w, true)
    else return (w, false)

/-- A RELEASE (R364). -/
def chReleaseCmd (n : Nat) (c : ChurnCmd) : Ch (Option Fail) := do
  let es ← chEntries n c
  (es.filter (fun e => e.2.1.relStep == c.step)).forM (fun e =>
    chRelease n e.1 e.2.1.relStep (min (e.2.1.relCount + 1) 65535))
  match es.find? (fun e => e.2.1.relStep != c.step) with
  | some e => return entryFail Code.releaseStep e.1
  | none => return none

/-- Run work and complete its command. -/
def State.churnRun (s : State) (n : Nat) (c : ChurnCmd) (w : Ch (Option Fail)) : State :=
  match w.run s with
  | (.ok f, s) => s.churnEnd n c f
  | (.error f, s) => s.churnEnd n c (some f)

/-- Set what Churn `n` runs. -/
def State.setRunning (s : State) (n : Nat) (w : Option ChurnWork) : State := s.setChurn n { s.churn n with running := w }

/-- The running command of Churn `n` is done or stops. DESIGN CHOICE (log entry 70). -/
def State.churnOver (s : State) (n : Nat) (c : ChurnCmd) (f : Option Fail) : State := (s.setRunning n none).churnEnd n c f

/-- Churn `n` does units of the command that it runs (R375, R376). DESIGN CHOICE (log entry 70). -/
def State.churnWork (s : State) (n : Nat) (k : Option Nat) : State :=
  match (s.churn n).running with
  | none => s
  | some w =>
    match (chUnits n w k).run s with
    | (.error f, s) => s.churnOver n w.cmd (some f)
    | (.ok (w, true), s) => s.churnOver n w.cmd (w.nonfinite.bind (entryFail Code.nonfinite))
    | (.ok (w, false), s) => s.setRunning n (some w)

/-- An UPDATE or a REMINT starts (R363). -/
def State.churnStart (s : State) (n : Nat) (c : ChurnCmd) (k : Option Nat) : State :=
  (s.setRunning n (some ⟨c, 0, none⟩)).churnWork n k

/-! Taking commands (R363). -/

/-- Whether a Churn takes commands: it is ENABLED (R458). -/
def State.churnEnabled (s : State) (n : Nat) : Bool := s.field (Reg.PWR_QSTATE n) 0 2 == 1

/-- The command at the head of a ring, as bytes or a failed read; the state is not changed. -/
def State.churnHead (s : State) (ring : Nat) : Except Fail (List Byte) := (s.ringPeek 0xFF ring).2

/-- The command in a slot: its core, operation and seed from the UPDATE that posted it. -/
def State.churnCmd (s : State) (ring slot : Nat) (bs : List Byte) : ChurnCmd :=
  match s.hubOps.findSome? (fun o => match o with
    | .update c id r x seed => if r = ring ∧ x = slot then some (c, id, seed) else none
    | _ => none) with
  | some (c, id, seed) => ChurnCmd.of (leNat bs) ring slot c id seed
  | none => ChurnCmd.of (leNat bs) ring slot 64 0 s.sched.seed

/-- Whether an UPDATE has to wait at the head of its ring behind what its fence finds: a command runs already, or it needs a
parking slot when all 8 are full (R363, R365). -/
def ChurnSt.waits (t : ChurnSt) (f : Fence) : Bool :=
  match f with
  | .refused _ => false
  | .parks => t.parked.length == 8
  | .runs => t.running.isSome

/-- Whether the command at the head of a ring has to wait there: its ring waits on the root engine's queue, it needs a
held entry, or another command runs (R363, R365, R378). A RELEASE is applied as it is taken. -/
def State.churnBlocked (s : State) (n ring : Nat) : Bool :=
  (s.churn n).rootWait.any (fun j => j.ring == ring) ||
  match s.churnHead ring with
  | .error _ => false
  | .ok bs =>
    let c := s.churnCmd ring (s.ringHead ring) bs
    s.churnEnabled n && s.ringEntry ring == 64 && !c.bad (leNat bs) (s.pbCount n) &&
    (((c.op == 0 || c.op == 2) && s.churnHeld n c) ||
     (c.op == 2 && (s.churn n).running.isSome) || (c.op == 0 && (s.churn n).waits (s.churnFence n c).2))

/-- The ring whose turn it is (R363). DESIGN CHOICE (log entry 70). -/
def State.churnTurn (s : State) (n : Nat) : Option Nat :=
  let l := (s.churn n).lastRing
  ((List.range 4).map (fun i => (l + 1 + i) % 4)).find? (fun i =>
    let r := churnRing n i
    s.ringKind r == 5 && !s.ringEmpty r && !s.churnBlocked n r)

/-- Whether the head of ring `i` of Churn `n` is taken as op `op`; an unreadable entry and a reserved op go with op 0. -/
def State.churnTakes (s : State) (n i op : Nat) : Bool :=
  churnPresent s.variant n && s.churnTurn n == some i &&
  match s.churnHead (churnRing n i) with
  | .error _ => op == 0
  | .ok bs => cmdOp bs == op || (op == 0 && decide (3 < cmdOp bs))

/-- Take the command at the head of ring `i` and hand it on; a command that is refused completes at once (R361, R376). -/
def State.churnTake (s : State) (n i : Nat) (go : State → ChurnCmd → State) : State :=
  let ring := churnRing n i
  let slot := s.ringHead ring
  let size := s.ringEntry ring
  let (s, e) := s.ringTake 0xFF ring
  let s := s.setChurn n { s.churn n with lastRing := i }
  let s := match e with
    | .error f => s.churnEnd n (s.churnCmd ring slot []) (some f)
    | .ok bs =>
      let c := s.churnCmd ring slot bs
      if s.churnEnabled n = false then s.churnEnd n c (some (Fail.of Code.quiesceRefused))
      else if size ≠ 64 ∨ c.bad (leNat bs) (s.pbCount n) then s.churnEnd n c (entryFail Code.cmdInvalid c.first)
      else go s c
  s.ringMoved ring

/-- An UPDATE as it is taken: refused, parked, or run (R365). -/
def State.churnUpdate (s : State) (n : Nat) (c : ChurnCmd) (k : Option Nat) : State :=
  match s.churnFence n c with
  | (s, .refused f) => s.churnEnd n c (some f)
  | (s, .parks) => s.setChurn n { s.churn n with parked := (s.churn n).parked ++ [c] }
  | (s, .runs) => s.churnStart n c k

/-- Whether Churn `n` runs a command of op `op` from ring `i`. -/
def State.churnRuns (s : State) (n i op : Nat) : Bool :=
  (s.churn n).running.any (fun w => w.cmd.ring == churnRing n i && w.cmd.op == op)

/-- CHURN_UPDATE (R365): the UPDATE that runs does units, or the one at the head of the ring is taken. DESIGN CHOICE (log entry 70). -/
def execChurnUpdate (n : ChurnId) (turn : ChurnTurn) (s : State) : Outcome :=
  let i := turn.ring.val
  if s.churnRuns n.val i 0 ∧ turn.units ≠ some 0 then .next (s.churnWork n.val turn.units)
  else act (s.churnTakes n.val i 0) s (s.churnTake n.val i (fun s c => s.churnUpdate n.val c turn.units))

/-- CHURN_RELEASE (R364). -/
def execChurnRelease (n : ChurnId) (ring : Fin 4) (s : State) : Outcome :=
  act (s.churnTakes n.val ring.val 1) s
    (s.churnTake n.val ring.val (fun s c => s.churnRun n.val c (chReleaseCmd n.val c)))

/-- CHURN_REMINT (R373): the REMINT that runs does units, or the one at the head of the ring is taken. -/
def execChurnRemint (n : ChurnId) (turn : ChurnTurn) (s : State) : Outcome :=
  let i := turn.ring.val
  if s.churnRuns n.val i 2 ∧ turn.units ≠ some 0 then .next (s.churnWork n.val turn.units)
  else act (s.churnTakes n.val i 2) s (s.churnTake n.val i (fun s c => s.churnStart n.val c turn.units))

/-! Parked commands (R365). -/

/-- Take a command off the parking slots. -/
def State.unpark (s : State) (n : Nat) (c : ChurnCmd) : State :=
  s.setChurn n { s.churn n with parked := (s.churn n).parked.erase c }

/-- The first parked command that no longer waits: its fence is met and no entry is held, or it is refused. -/
def State.parkedReady (s : State) (n : Nat) : Option ChurnCmd :=
  (s.churn n).parked.find? (fun c => !s.churnHeld n c && (s.churnFence n c).2 != .parks)

/-- PARKED_START (R365): it waits for the command that runs (R363). DEDUCED (log entry 71). -/
def execParkedStart (turn : ParkedTurn) (s : State) : Outcome :=
  let n := turn.churn.val
  match s.parkedReady n with
  | some c => act (s.churnEnabled n && (s.churn n).running.isNone) s ((s.unpark n c).churnUpdate n c turn.units)
  | none => .next s

/-- FENCE_TIMEOUT (R365): the command in a slot, in parking order, has been parked for CHURN_FENCE_TIMEOUT; 0 disables the
limit. -/
def execFenceTimeout (n : ChurnId) (slot : Fin 8) (s : State) : Outcome :=
  match (s.churn n.val).parked[slot.val]? with
  | some c => act (s.regN (Reg.CHURN_FENCE_TIMEOUT n.val) != 0) s
      ((s.unpark n.val c).churnEnd n.val c (entryFail Code.fenceTimeout c.first))
  | none => .next s

end Sys2Proof.Machine
end

