-- ==== Sys2Proof/Machine/Desc.lean ====
section
/-! DEFINITION. Tensor descriptors: layout, extents, placement, validation, fill (10_tensors_and_tiling.md R238–R253, R269;
06_sparse_operands_and_the_strainer.md R121, R128, R131; 02_codes_scales_and_planes.md R28, R32, R33). -/

namespace Sys2Proof.Machine

/-- A dimension of a descriptor: extent, padding, shard count minus one, shard index, block, stride in 64 B units. -/
structure Dim where
  e : Nat
  pad : Nat
  s : Nat
  x : Nat
  b : Nat
  stride : Nat
  deriving DecidableEq, Repr, Inhabited

/-- A descriptor's fields (R238). -/
structure Desc where
  addr : Nat
  valid : Bool
  fmt : Nat
  view : Nat
  layout : Nat
  gsize : Nat
  sparse : Nat
  transposable : Bool
  rankM1 : Nat
  cap : Bool
  diag : Bool
  across : Bool
  bindDim : Nat
  bindReg : Nat
  fill : Nat
  wheyOff : Int
  wheyStride : Nat
  metaOff : Int
  rsv : Nat
  dims : List Dim
  deriving DecidableEq, Repr, Inhabited

/-- Outer record k (R239). -/
def outerDim (n k : Nat) : Dim := ⟨bits n (352 + 40 * k) 12, 0, 0, 0, 0, bits n (364 + 40 * k) 28⟩

/-- A descriptor read from its 512 bits (R238). -/
def Desc.of (v : BitVec 512) : Desc :=
  let n := v.toNat
  { addr := bits n 0 64
    valid := bitOf n 64
    fmt := bits n 65 4
    view := bits n 69 4
    layout := bits n 73 3
    gsize := bits n 76 2
    sparse := bits n 78 3
    transposable := bitOf n 81
    rankM1 := bits n 82 3
    cap := bitOf n 85
    diag := bitOf n 86
    across := bitOf n 87
    bindDim := bits n 88 3
    bindReg := bits n 91 5
    fill := bits n 96 16
    wheyOff := sval 32 (bits n 112 32)
    wheyStride := bits n 144 20
    metaOff := sval 28 (bits n 164 28)
    rsv := bits n 350 2
    dims := [⟨bits n 192 24, bits n 216 8, bits n 224 8, bits n 232 8, bits n 240 16, 0⟩,
             ⟨bits n 256 24, bits n 280 8, bits n 288 8, bits n 296 8, bits n 304 16, bits n 320 30⟩,
             outerDim n 0, outerDim n 1, outerDim n 2, outerDim n 3] }


/-- Whether a descriptor is no program's: the window of a NEST loop in a pail, which no region of the task need hold (R248, R260).
A descriptor that DMAKE takes has the reserved field zero. DEDUCED (log entry 36). -/
def Desc.staged (d : Desc) : Bool := d.rsv != 0

/-- Dimension k. -/
def Desc.dim (d : Desc) (k : Nat) : Dim := d.dims.getD k ⟨1, 0, 0, 0, 0, 0⟩

/-- Rank. -/
def Desc.rank (d : Desc) : Nat := d.rankM1 + 1

/-- Node field of addr. -/
def Desc.node (d : Desc) : Nat := bits d.addr 48 8

/-- Local part of addr. -/
def Desc.local_ (d : Desc) : Nat := d.addr % 2 ^ 48

/-- A PIT layout. -/
def Desc.pit (d : Desc) : Bool := d.layout ≤ 1

/-- PIT-W. -/
def Desc.pitW (d : Desc) : Bool := d.layout == 1

/-- PIT-A. -/
def Desc.pitA (d : Desc) : Bool := d.layout == 0

/-- G. DEDUCED (log entry 21). -/
def Desc.g (d : Desc) : Nat := if d.gsize = 1 then 32 else if d.gsize = 2 then 64 else 128

/-- Stored planes b. -/
def Desc.planes (d : Desc) : Nat := d.fmt + 1

/-- Planes read b′. -/
def Desc.viewPlanes (d : Desc) : Nat := d.view + 1

/-- u_1 (R240). -/
def Desc.u1 (d : Desc) : Nat := if d.layout = 1 then 64 else if d.layout = 0 then 16 else 1

/-- u_k of dimension k (R240). -/
def Desc.u (d : Desc) (k : Nat) : Nat := if k = 0 then 64 else d.u1

/-- Rows of a tile. -/
def Desc.tileRows (d : Desc) : Nat := if d.layout = 1 then 64 else 16

/-- Bytes of a ROW element (R240). -/
def Desc.elem (d : Desc) : Nat := if d.layout = 2 then 4 else if d.layout = 3 then 2 else if d.layout = 4 then 8 else 1

/-- An N:M form. -/
def Desc.nm (d : Desc) : Bool := d.sparse == 2 || d.sparse == 3 || d.sparse == 4

/-- BITMAP. -/
def Desc.bitmap (d : Desc) : Bool := d.sparse == 1

/-- BCL. -/
def Desc.bcl (d : Desc) : Bool := d.sparse == 5

/-- DENSE. -/
def Desc.dense (d : Desc) : Bool := d.sparse == 0

/-- Index bytes and plane block bytes of an N:M tile (R128). -/
def Desc.nmBytes (d : Desc) : Nat × Nat := if d.sparse = 2 then (256, 128) else if d.sparse = 3 then (384, 256) else (320, 128)

/-- Elements that an N:M tile holds of each row in a chunk (R128). -/
def Desc.nmHeld (d : Desc) : Nat := if d.sparse = 3 then 32 else 16

/-- Planned extent of dimension k; 1 at or above the rank (R239). -/
def Desc.ext (d : Desc) (k : Nat) : Nat := if k < d.rank then (d.dim k).e else 1

/-- Global index of local 0 (R242). -/
def Desc.glob0 (d : Desc) (k : Nat) : Nat := if (d.dim k).s = 0 then 0 else (d.dim k).x * (d.dim k).b * d.u k

/-- Valid extent of dimension k for a global extent e (R242). -/
def Desc.validOf (d : Desc) (k e : Nat) : Nat := if (d.dim k).s = 0 then e else min (e - d.glob0 k) ((d.dim k).b * d.u k)

/-- Planned valid extent. -/
def Desc.planned (d : Desc) (k : Nat) : Nat := d.validOf k (d.ext k)

/-- Owned extent O_k (R239, R243). -/
def Desc.owned (d : Desc) (k : Nat) : Nat := if k < 2 then d.planned k + (d.dim k).pad else d.ext k

/-- Product of the outer extents. -/
def Desc.outer (d : Desc) : Nat := d.ext 2 * d.ext 3 * d.ext 4 * d.ext 5

/-- Whether the descriptor's storage lies in a Scratchpad. -/
def Desc.inSpad (d : Desc) : Bool := (spadPlace d.local_).any (fun p => decide (p.2 < 0x60000))

/-- The core in whose Scratchpad the storage lies. -/
def Desc.spadCore (d : Desc) : Option Nat := (spadPlace d.local_).bind (fun p => if p.2 < 0x60000 then some p.1 else none)

/-- Bytes of a dense tile at stored width. -/
def Desc.denseTile (d : Desc) : Nat := d.tileRows * 8 * d.planes

/-- Bytes of a tile of which `b` planes are held, for a DENSE or N:M form (R36, R123, R128). -/
def Desc.tileBytes (d : Desc) (b : Nat) : Nat :=
  if d.nm then d.nmBytes.1 + b * d.nmBytes.2 else d.tileRows * 8 * b

/-- Tile pitch T (R263). -/
def Desc.pitch (d : Desc) : Nat :=
  if d.inSpad && decide (d.view < d.fmt) && (d.dense || d.nm) then d.tileBytes d.viewPlanes else d.denseTile

/-- Planes of each tile that a transfer keeps in the descriptor's storage (R123, R263). A BITMAP view in a Scratchpad is one
that a NEST loop stages: DMAKE takes no other (R246). -/
def Desc.keptPlanes (d : Desc) : Nat :=
  if d.inSpad && decide (d.view < d.fmt) && (d.dense || d.nm || d.bitmap) then d.viewPlanes else d.planes

/-- n rounded up to a multiple of 64. -/
def up64 (n : Nat) : Nat := ceilDiv n 64 * 64

/-- Packed stride of dimension 1 in bytes (R240). -/
def Desc.packed1 (d : Desc) : Nat := up64 (if d.pit then ceilDiv (d.owned 0) 64 * d.pitch else d.owned 0 * d.elem)

/-- Stride of dimension 1 in bytes. -/
def Desc.stride1 (d : Desc) : Nat := if (d.dim 1).stride = 0 then d.packed1 else (d.dim 1).stride * 64

/-- Rows of dimension 1 as its stride counts them. -/
def Desc.rows1 (d : Desc) : Nat := ceilDiv (d.owned 1) d.u1

/-- Bytes of the owned span of the dimensions below k + 2, and the strides from k + 2 on: (packed, in force) pairs. -/
def Desc.outerStrides (d : Desc) : Nat → Nat → Nat → List (Nat × Nat)
  | 0, _, _ => []
  | n + 1, k, span =>
    let p := up64 span
    let st := if (d.dim k).stride = 0 then p else (d.dim k).stride * 64
    (p, st) :: d.outerStrides n (k + 1) (d.owned k * st)

/-- (packed, in force) strides of dimensions 2 to 5. -/
def Desc.strides (d : Desc) : List (Nat × Nat) := d.outerStrides 4 2 (d.rows1 * d.stride1)

/-- Outer positions o_2 to o_5 of a linear outer index (R241). -/
def Desc.outerPos (d : Desc) (ol : Nat) : List Nat :=
  let a := ol / max 1 (d.ext 2)
  let b := a / max 1 (d.ext 3)
  let c := b / max 1 (d.ext 4)
  [ol % max 1 (d.ext 2), a % max 1 (d.ext 3), b % max 1 (d.ext 4), c]

/-- Byte offset of the outer dimensions (R241). -/
def Desc.outerOff (d : Desc) (ol : Nat) : Nat := ((d.outerPos ol).zipWith (fun o s => o * s.2) d.strides).foldl (· + ·) 0

/-- Whey base (R238). -/
def Desc.wheyBase (d : Desc) : Int := (d.addr : Int) + 8 * d.wheyOff

/-- Metadata base (R238). -/
def Desc.metaBase (d : Desc) : Int := (d.addr : Int) + 64 * d.metaOff

/-- Rows of whey records and records in a row: grouped along dim 0, or along dim 1 in an across descriptor (R240, R269). DEDUCED (log entry 42). -/
def Desc.wheyRows (d : Desc) : Nat := if d.across then d.owned 0 else d.owned 1

/-- Dimension along which groups run: that of the reduction (R269). -/
def Desc.redDim (d : Desc) : Nat := if d.across then 1 else 0

/-- Global index, along the reduction, of local element 0. -/
def Desc.red0 (d : Desc) : Nat := d.glob0 d.redDim

/-- Elements of the first local group that lie before local element 0: groups begin at multiples of G of the global index,
whatever the shard (R21). -/
def Desc.lead (d : Desc) : Nat := d.red0 % d.g

/-- Local group that holds element `k` of the reduction (R21). -/
def Desc.group (d : Desc) (k : Nat) : Nat := (d.lead + k) / d.g

/-- Local groups that elements [lo, hi) of the reduction lie in. -/
def Desc.groupsOf (d : Desc) (lo hi : Nat) : List Nat :=
  if hi ≤ lo then [] else (List.range (d.group (hi - 1) + 1 - d.group lo)).map (· + d.group lo)

/-- Elements [lo, hi) of local group `j`, the elements before local element 0 left out. -/
def Desc.groupSpan (d : Desc) (j : Nat) : Nat × Nat := (j * d.g - d.lead, (j + 1) * d.g - d.lead)

/-- Groups of one row of the owned extent. -/
def Desc.wheyGroups (d : Desc) : Nat := ceilDiv (d.lead + d.owned d.redDim) d.g

/-- Whey stride in bytes (R31, R240). DEDUCED (log entry 42). -/
def Desc.wheyStrideB (d : Desc) : Nat := if d.wheyStride = 0 then d.wheyGroups * 8 else d.wheyStride * 8

/-- Address of tile (nb, kb) (R241). -/
def Desc.tileAddr (d : Desc) (nb kb ol : Nat) : Nat := d.addr + d.outerOff ol + nb * d.stride1 + kb * d.pitch

/-- Address of ROW element e of row r (R241). -/
def Desc.elemAddr (d : Desc) (e r ol : Nat) : Nat := d.addr + d.outerOff ol + r * d.stride1 + e * d.elem

/-- Address of the whey record of group j of row r (R241). DEDUCED (log entry 42). -/
def Desc.wheyAddr (d : Desc) (r j ol : Nat) : Nat := (d.wheyBase + (((ol * d.wheyRows + r) * d.wheyStrideB + j * 8 : Nat) : Int)).toNat

/-- Tiles in a row block: t_r (R34). -/
def Desc.tilesPerRow (d : Desc) : Nat := d.owned 0 / 64

/-- Number of tile (nb, kb) over the owned extent (R124, R241). -/
def Desc.tileNum (d : Desc) (nb kb ol : Nat) : Nat := (ol * (d.owned 1 / d.u1) + nb) * d.tilesPerRow + kb

/-- Address of a tile header (R124, R241). -/
def Desc.headAddr (d : Desc) (nb kb ol : Nat) : Nat := (d.metaBase + ((8 * d.tileNum nb kb ol : Nat) : Int)).toNat

/-- Address of the list header of a BCL tensor or a coordinate list (R131). -/
def Desc.listAddr (d : Desc) : Nat := d.metaBase.toNat

/-- Address of tile slot s of a BCL tensor (R132). -/
def Desc.slotAddr (d : Desc) (s : Nat) : Nat := d.addr + s * d.denseTile

/-- Address of a record of row r of tile slot s of a BCL tensor (R132). -/
def Desc.slotWhey (d : Desc) (s r j : Nat) : Nat :=
  (d.wheyBase + ((s * d.tileRows * (64 / d.g) * 8 + r * (64 / d.g) * 8 + j * 8 : Nat) : Int)).toNat

/-- Group size along the reduction, groups per row of the global shape, and the global row and group of a local place, for
the tag of R28 (R244, R269). -/
def Desc.tagOf (d : Desc) (r j : Nat) : Nat :=
  if d.across then wheyTag (d.glob0 0 + r) (groupsPerRow (d.ext 1) d.g) (d.red0 / d.g + j)
  else wheyTag (d.glob0 1 + r) (groupsPerRow (d.ext 0) d.g) (d.red0 / d.g + j)

/-- Linear index of R42 (R244). -/
def Desc.linear (d : Desc) (e r ol : Nat) : Nat := d.glob0 0 + e + d.ext 0 * (d.glob0 1 + r + d.ext 1 * ol)

/-! Validation (R245–R248). -/

/-- Whether every field of dimension k is zero. -/
def Desc.dimZero (d : Desc) (k : Nat) : Bool := d.dim k == ⟨0, 0, 0, 0, 0, 0⟩

/-- Detail 0x02. -/
def Desc.bad02 (d : Desc) : Bool :=
  bits d.addr 56 8 != 0 || d.rsv != 0 || decide (5 < d.layout) || decide (5 < d.rankM1) || decide (5 < d.sparse) ||
  (d.pit && !fmtStored d.fmt) ||
  (List.range 6).any (fun k => decide (d.rank ≤ k) && !d.dimZero k)

/-- Detail 0x03 (R121, R246): `space` is 0 LPDDR, 1 a Scratchpad, 2 the ledger add views. -/
def Desc.bad03 (d : Desc) (space : Nat) : Bool :=
  (d.pit && d.rank == 1) ||
  (!d.pit && (d.fmt != 0 || d.view != 0 || d.gsize != 0 || d.sparse != 0 || d.transposable || d.across ||
    d.wheyOff != 0 || d.wheyStride != 0 || d.metaOff != 0)) ||
  decide (d.fmt < d.view) ||
  (d.nm && d.pitA) || (d.transposable && !d.nm) || (d.bcl && d.g == 128) ||
  (d.bcl && d.rank != 2) ||
  (d.pit && d.g == 128 && fmtWide d.fmt) ||
  (d.across && (!d.pitW || !d.diag)) ||
  (d.diag && space != 1) ||
  (space == 2 && d.layout != 4) ||
  ((d.bitmap || d.bcl) && space == 1 && decide (d.view < d.fmt))

/-- Whether a base leaves the node of addr. -/
def Desc.baseLeaves (d : Desc) (b : Int) : Bool := decide (b < 0) || b.toNat / 2 ^ 48 != d.addr / 2 ^ 48

/-- Detail 0x04. -/
def Desc.bad04 (d : Desc) : Bool := d.addr % 64 != 0 || d.baseLeaves d.wheyBase || d.baseLeaves d.metaBase

/-- Shard rule of dimension k (R247). -/
def Desc.badShard (d : Desc) (k : Nat) : Bool :=
  let m := d.dim k
  if m.s = 0 then m.x != 0 || m.b != 0
  else m.b == 0 || decide (m.s < m.x) || decide ((m.s + 1) * m.b * d.u k < m.e)

/-- A non-zero stride below its packed value (R247). -/
def badStride (given packed : Nat) : Bool := given != 0 && decide (given < packed)

/-- Detail 0x05 (R239, R247). -/
def Desc.bad05 (d : Desc) : Bool :=
  d.badShard 0 || d.badShard 1 ||
  (d.pit && (d.owned 0 % max 64 d.g != 0 || d.owned 1 % d.u1 != 0 ||
    ((d.dim 0).s != 0 && (d.dim 0).b * 64 % d.g != 0) ||
    badStride (d.wheyStride * 8) (d.wheyGroups * 8))) ||
  badStride ((d.dim 1).stride * 64) d.packed1 ||
  (List.range 4).any (fun k => badStride ((d.dim (k + 2)).stride * 64) (d.strides.getD k (0, 0)).1) ||
  decide (4096 < d.outer) || decide (2 ^ 40 < d.ext 0 * d.ext 1 * d.outer)

/-- Detail 0x06 (R247). -/
def Desc.bad06 (d : Desc) : Bool :=
  (List.range 2).any (fun k => (d.dim k).s != 0 && (d.dim k).pad != 0 &&
    decide (((d.dim k).x + 1) * (d.dim k).b * d.u k < (d.dim k).e))

/-- Detail 0x09. -/
def Desc.bad09 (d : Desc) : Bool := d.bindDim != 0 && (decide (d.rank ≤ d.bindDim - 1) || d.bindReg == 0)


/-! Regions (R208, R248). -/

/-- Whether a region holds [lo, hi). -/
def Region.holds (r : Region) (lo hi : Nat) : Bool := decide (r.base ≤ lo) && decide (hi ≤ r.base + r.len)

/-- The region of the task that holds [lo, hi). -/
def regionFor (rs : List Region) (lo hi : Nat) : Option Region := rs.find? (·.holds lo hi)

/-- Address space of a local address: 0 LPDDR, 1 a Scratchpad, 2 the ledger add views (R208). -/
def addrSpace (a : Nat) : Nat :=
  if (addViewPlace a).isSome then 2 else if (spadPlace a).isSome then 1 else 0

/-- A footprint of a descriptor: local bytes [lo, hi), and whether its whole region counts (R248). -/
structure Hull where
  lo : Nat
  hi : Nat
  whole : Bool
  deriving DecidableEq, Repr, Inhabited

/-- The node bits taken off an address. -/
def localOf (a : Nat) : Nat := a % 2 ^ 48

/-- The three footprints of R248, curd or elements first. A descriptor with no owned position has none. -/
def Desc.hulls (d : Desc) : List Hull :=
  if d.owned 0 = 0 ∨ d.owned 1 = 0 ∨ d.outer = 0 then []
  else
    let a := d.local_
    let ob := ((List.range 4).map (fun k => (d.ext (k + 2) - 1) * (d.strides.getD k (0, 0)).2)).foldl (· + ·) 0
    if d.pit then
      let curd : Hull := ⟨a, a + ob + (d.rows1 - 1) * d.stride1 + ceilDiv (d.owned 0) 64 * d.pitch, d.bitmap || d.bcl⟩
      let w := localOf d.wheyBase.toNat
      let m := localOf d.metaBase.toNat
      let whey : Hull := ⟨w, w + (d.outer * d.wheyRows - 1) * d.wheyStrideB + d.wheyGroups * 8, false⟩
      let head : List Hull :=
        if d.bitmap then [⟨m, m + 8 * (d.outer * (d.owned 1 / d.u1) * d.tilesPerRow), false⟩]
        else if d.bcl then [⟨m, m + 8, true⟩] else []
      curd :: whey :: head
    else [⟨a, a + ob + (d.owned 1 - 1) * d.stride1 + d.owned 0 * d.elem, false⟩]

/-- The region of a footprint: the one that holds it, or, for a whole-region footprint, the one that holds its first
byte. -/
def Hull.region (h : Hull) (rs : List Region) : Option Region :=
  if h.whole then regionFor rs h.lo (h.lo + 1) else regionFor rs h.lo h.hi

/-- Detail 0x07 (R248). -/
def Desc.bad07 (d : Desc) (rs : List Region) : Bool :=
  d.hulls.any (fun h => match h.region rs with
    | none => true
    | some r => r.space == 2 && d.layout != 4)

/-- First address of the half of the memory map that TH9-M1152-U lacks (R7). -/
def absentLo : Nat := 0x012000000000

/-- First address beyond that half. -/
def absentHi : Nat := 0x024000000000

/-- Whether the address or a footprint of a descriptor reaches an absent package (R7). DESIGN CHOICE (log entry 101). -/
def Desc.absentPkg (d : Desc) (v : Variant) (rs : List Region) : Bool :=
  v == .m1152u && ((decide (absentLo ≤ d.local_) && decide (d.local_ < absentHi)) || d.hulls.any (fun h =>
    (decide (h.lo < absentHi) && decide (absentLo < h.hi)) ||
    (match h.region rs with
     | some r => r.pinned && !pkgPresent v r.package
     | none => false)))

/-- This module's node ID (R391). -/
def State.nodeId (s : State) : Nat := s.field Reg.SPAN_NODE_CTL 0 8

/-- Whether a descriptor's storage lies on this module (R248). -/
def State.isLocal (s : State) (d : Desc) : Bool := d.node == s.nodeId

/-- DMAKE's validation against a region table: none, or the status code and the lowest detail (R7, R245). UNIT.ABSENT ranks
after details 0x01 to 0x06 and before 0x07. DESIGN CHOICE (log entry 101). -/
def State.descBadIn (s : State) (rs : List Region) (d : Desc) : Option (Nat × Nat) :=
  let here := s.isLocal d
  if !d.valid then some (Code.descInvalid, 1)
  else if d.bad02 then some (Code.descInvalid, 2)
  else if d.bad03 (addrSpace d.local_) then some (Code.descInvalid, 3)
  else if d.bad04 then some (Code.descInvalid, 4)
  else if d.bad05 then some (Code.descInvalid, 5)
  else if d.bad06 then some (Code.descInvalid, 6)
  else if here && d.absentPkg s.variant rs then some (Code.unitAbsent, 0)
  else if here && d.bad07 rs then some (Code.descInvalid, 7)
  else if d.bad09 then some (Code.descInvalid, 9)
  else none

/-- As `descBadIn`, against the running task's regions. -/
def State.descBad (s : State) (d : Desc) : Option (Nat × Nat) := s.descBadIn s.sched.regions d

/-- The footprints of a descriptor with whether a use that writes the tensor writes it: everything but a block coordinate
list, which is only read (R131, R249). -/
def Desc.uses (d : Desc) (write : Bool) : List (Hull × Bool) :=
  d.hulls.zipIdx.map (fun h => (h.1, write && !(d.bcl && h.2 == 2)))

/-- R249: whether a region denies the access that a use makes. -/
def State.descDenied (s : State) (d : Desc) (write : Bool) : Bool :=
  !d.staged && s.isLocal d && (d.uses write).any (fun h => match h.1.region s.sched.regions with
    | some r => if h.2 then !r.wr else !r.rd
    | none => false)

/-- The region that holds the whole footprint whose first byte is `a`: where a header or a slot may point (R248). -/
def State.regionAt (s : State) (a : Nat) : Option Region := regionFor s.sched.regions a (a + 1)

/-! Run-time extents (R253). -/

/-- Valid extents of the six dimensions, with what R253 drops. -/
structure Shape where
  n : List Nat
  dropped : Nat
  excess : Bool
  deriving DecidableEq, Repr, Inhabited

/-- The run-time shape of a descriptor copy (R253). -/
def DCopy.shape (c : DCopy) : Shape :=
  let d := Desc.of c.bits
  let e : Nat → Nat := fun k => if d.bindDim = k + 1 then min c.bound.toNat (d.ext k) else d.ext k
  let big := d.bindDim ≠ 0 ∧ d.ext (d.bindDim - 1) < c.bound.toNat
  { n := (List.range 6).map (fun k => if k < 2 then d.validOf k (e k) else e k)
    dropped := if big ∧ d.cap = false then c.bound.toNat - d.ext (d.bindDim - 1) else 0
    excess := big && d.cap }

/-- Valid extent of dimension k. -/
def Shape.at (s : Shape) (k : Nat) : Nat := s.n.getD k 1

/-- Product of the outer valid extents. -/
def Shape.outer (s : Shape) : Nat := s.at 2 * s.at 3 * s.at 4 * s.at 5

/-- Copy a descriptor register with the value bound to its dimension (R222, R283). -/
def Core.copyD (k : Core) (i : Nat) : DCopy :=
  let b := k.dreg i
  ⟨i, b, k.greg (Desc.of b).bindReg⟩

/-! Curd tiles and fill (R32, R33, R250, R251). -/

/-- The codes of a row of a dense tile, from the words of its planes, most significant plane first: element e. -/
def planeCode (words : List Nat) (e : Nat) : Nat := words.foldl (fun a w => 2 * a + w / 2 ^ e % 2) 0

/-- Word of row n in plane slot k of a tile of `rows` rows. -/
def planeWord (tile : List Byte) (rows k n : Nat) : Nat := leNat ((tile.drop (rows * 8 * k + 8 * n)).take 8)

/-- Codes of a dense tile read from its first `b` planes, row by row (R32, R33). -/
def tileCodes (tile : List Byte) (rows b : Nat) : List (List Nat) :=
  (List.range rows).map (fun n =>
    let ws := (List.range b).map (fun k => planeWord tile rows k n)
    (List.range 64).map (planeCode ws))

/-- The 64-bit word of one plane of a row of codes: bit `i` of every code. -/
def codesWord (codes : List Nat) (i : Nat) : Nat := (codes.map (fun c => c / 2 ^ i % 2)).foldr (fun b a => 2 * a + b) 0

/-- The class of a fill value (R251): 0 zero, 1 positive, 2 negative; an infinity is a magnitude above all. -/
def fillClass (f : Nat) : Nat :=
  let e := bits f 7 8
  if e = 0 then 0 else if e = 255 ∧ bits f 0 7 ≠ 0 then 0 else if f < 2 ^ 15 then 1 else 2

/-- Scale, zero and code_sum of a synthesised tile's records (R251). -/
def Desc.fillWhey (d : Desc) : Nat × Nat × Nat :=
  let mag := u16OfF32 (bf16Widen (BitVec.ofNat 16 (d.fill % 2 ^ 15)))
  if fillClass d.fill = 0 then (0, 0, 0)
  else if fillClass d.fill = 1 then (mag.toNat, 0, d.g)
  else (mag.toNat, if d.fmt = 0 then 0 else if fmtWide d.fmt then 1 else 0x10, 0)

/-- The code of every element of a synthesised tile (R251). -/
def Desc.fillCode (d : Desc) : Nat := if fillClass d.fill = 1 then 1 else 0

/-- A synthesised record (R251) with its tag. -/
def Desc.fillRecord (d : Desc) (r j : Nat) : Whey :=
  let (s, z, c) := d.fillWhey
  ⟨BitVec.ofNat 16 s, BitVec.ofNat 16 z, c, d.fmt, d.tagOf r j⟩

/-- A fill element of a ROW layout (R250). DEDUCED (log entry 22). -/
def Desc.fillElem (d : Desc) : List Byte :=
  if d.layout = 2 then leBytes (d.fill * 2 ^ 16) 4
  else if d.layout = 3 then leBytes d.fill 2
  else if d.layout = 4 then leBytes (d.fill * 2 ^ 16) 8
  else leBytes d.fill 1

/-- Whether local bytes [lo, hi) lie in the region table with a permission (R286, R287): none, or the detail code. -/
def State.rangeBad (s : State) (lo hi : Nat) (rd wr : Bool) : Option Nat :=
  match regionFor s.sched.regions lo hi with
  | none => some 7
  | some r => if (rd && !r.rd) || (wr && !r.wr) then some 8 else none

end Sys2Proof.Machine
end

