-- ==== Sys2Proof/Machine/Flags.lean ====
section
/-! DEFINITION. The values that predicates take: comparisons and predicate logic (11_ngaosh_instruction_reference.md R278). -/

namespace Sys2Proof.Machine

/-- The condition of CMP and CMPI: 0 EQ, 1 NE, 2 LT, 3 GE, 4 LTU, 5 GEU (R278). -/
def condHolds (cond : Nat) (a b : BitVec 64) : Bool :=
  match cond with
  | 0 => a == b
  | 1 => a != b
  | 2 => a.slt b
  | 3 => !a.slt b
  | 4 => a.ult b
  | _ => !a.ult b

/-- PLOG: 0 AND, 1 OR, 2 XOR, 3 AND NOT (R278). -/
def predLogic (op : Nat) (a b : Bool) : Bool :=
  match op with
  | 0 => a && b
  | 1 => a || b
  | 2 => xor a b
  | _ => a && !b

end Sys2Proof.Machine
end

