-- ==== Sys2Proof/Machine/Operands.lean ====
section
/-! DEFINITION. Ngaosh words: the opcode map, the formats, reading a word, the decoding faults, and the registers that an
instruction reads or writes (11_ngaosh_instruction_reference.md R272–R275). -/

namespace Sys2Proof.Machine

/-- Place fields (value, lowest bit) of an instruction word. -/
def placed (l : List (Nat × Nat)) : Nat := l.foldl (fun a f => a + f.1 * 2 ^ f.2) 0

/-- Format R (R275). -/
def bitsR (f : FmtR) : Nat := placed [(f.gd.toNat, 47), (f.ga.toNat, 42), (f.gb.toNat, 37), (f.rsv.toNat, 0)]

/-- Format I. -/
def bitsI (f : FmtI) : Nat := placed [(f.gd.toNat, 47), (f.ga.toNat, 42), (f.rsv.toNat, 32), (f.imm.toNat, 0)]

/-- Format C. -/
def bitsC (f : FmtC) : Nat :=
  placed [(f.pdst.toNat, 49), (f.cond.toNat, 46), (f.ga.toNat, 41), (f.gb.toNat, 36), (f.rsv.toNat, 32), (f.imm.toNat, 0)]

/-- Format P. -/
def bitsP (f : FmtP) : Nat :=
  placed [(f.pdst.toNat, 49), (f.pa.toNat, 46), (f.pb.toNat, 43), (f.op.toNat, 41), (f.rsv.toNat, 0)]

/-- Format B. -/
def bitsB (f : FmtB) : Nat := placed [(f.gd.toNat, 47), (f.ga.toNat, 42), (f.rsv.toNat, 13), (f.target.toNat, 0)]

/-- Format M. -/
def bitsM (f : FmtM) : Nat :=
  placed [(f.gv.toNat, 47), (f.ga.toNat, 42), (f.size.toNat, 41), (f.rsv.toNat, 32), (f.imm.toNat, 0)]

/-- Format D. -/
def bitsD (f : FmtD) : Nat :=
  placed [(f.dd.toNat, 46), (f.ds.toNat, 40), (f.ga.toNat, 35), (f.word.toNat, 32), (f.rsv.toNat, 0)]

/-- Format T. -/
def bitsT (f : FmtT) : Nat :=
  placed [(f.ds.toNat, 46), (f.dd.toNat, 40), (f.go.toNat, 35), (f.srcPail.toNat, 28), (f.dstPail.toNat, 21),
    (f.epoch.toNat, 17), (f.gs.toNat, 12), (f.dl.toNat, 6), (f.form.toNat, 5), (f.gc.toNat, 0)]

/-- Format F. -/
def bitsF (f : FmtF) : Nat :=
  placed [(f.ga.toNat, 47), (f.gb.toNat, 42), (f.gc.toNat, 37), (f.rsv1.toNat, 35), (f.srcPail.toNat, 28),
    (f.dstPail.toNat, 21), (f.epoch.toNat, 17), (f.gs.toNat, 12), (f.rsv2.toNat, 0)]

/-- Format A. -/
def bitsA (f : FmtA) : Nat :=
  placed [(f.gd.toNat, 47), (f.ga.toNat, 42), (f.gb.toNat, 37), (f.gc.toNat, 32), (f.rsv1.toNat, 17), (f.gs.toNat, 12),
    (f.rsv2.toNat, 0)]

/-- Format X. -/
def bitsX (f : FmtX) : Nat :=
  placed [(f.dw.toNat, 46), (f.da.toNat, 40), (f.gr.toNat, 35), (f.q.toNat, 34), (f.layout.toNat, 32),
    (f.epoch.toNat, 28), (f.slip.toNat, 16), (f.dd.toNat, 10), (f.df.toNat, 4), (f.lead.toNat, 3), (f.rsv.toNat, 0)]

/-- Format Y. -/
def bitsY (f : FmtY) : Nat :=
  placed [(f.dw1.toNat, 46), (f.da.toNat, 40), (f.dw2.toNat, 34), (f.di.toNat, 28), (f.gr.toNat, 23), (f.q.toNat, 22),
    (f.layout.toNat, 20), (f.epoch.toNat, 16), (f.slip.toNat, 4), (f.rsv.toNat, 0)]

/-- Format S. -/
def bitsS (f : FmtS) : Nat :=
  placed [(f.tile.toNat, 49), (f.dd.toNat, 43), (f.df.toNat, 37), (f.gw.toNat, 32), (f.go.toNat, 27),
    (f.epoch.toNat, 23), (f.slip.toNat, 11), (f.rsv.toNat, 0)]

/-- Format N. -/
def bitsN (f : FmtN) : Nat :=
  placed [(f.da.toNat, 46), (f.db.toNat, 40), (f.dc.toNat, 34), (f.dd.toNat, 28), (f.gr.toNat, 23), (f.q.toNat, 22),
    (f.epoch.toNat, 18), (f.slip.toNat, 6), (f.rsv.toNat, 0)]

/-- Format G. -/
def bitsG (f : FmtG) : Nat :=
  placed [(f.gd.toNat, 47), (f.ga.toNat, 42), (f.gb.toNat, 37), (f.rsv1.toNat, 17), (f.gs.toNat, 12),
    (f.rsv2.toNat, 10), (f.imm.toNat, 0)]

/-- Format E. -/
def bitsE (f : FmtE) : Nat := placed [(f.rsv.toNat, 32), (f.imm.toNat, 0)]

/-- An instruction as its core's Clerk meets it: core, predicate, opcode, operand bits, whether a decoding fault stands
(R274), and the g-registers and descriptors that it names. -/
structure Clerked where
  core : Nat
  pred : Pred
  opcode : Nat
  operands : Nat
  illegal : Bool
  g : List Nat
  d : List Nat
  deriving DecidableEq, Repr

/-- The 64-bit word (R272). -/
def Clerked.word (k : Clerked) : Nat := placed [(k.opcode, 56), (k.pred.pp.toNat, 53), (b2n k.pred.pn, 52), (k.operands, 0)]

/-- Format R instructions. -/
def clerkR (c : CoreId) (p : Pred) (op : Nat) (f : FmtR) : Clerked :=
  ⟨c.val, p, op, bitsR f, f.rsv != 0, [f.gd.toNat, f.ga.toNat, f.gb.toNat], []⟩

/-- Format I instructions; `bad` holds the instruction's own reserved values. -/
def clerkI (c : CoreId) (p : Pred) (op : Nat) (f : FmtI) (bad : Bool) : Clerked :=
  ⟨c.val, p, op, bitsI f, f.rsv != 0 || bad, [f.gd.toNat, f.ga.toNat], []⟩

/-- Format C instructions. -/
def clerkC (c : CoreId) (p : Pred) (op : Nat) (f : FmtC) (bad : Bool) : Clerked :=
  ⟨c.val, p, op, bitsC f, f.rsv != 0 || decide (5 < f.cond.toNat) || bad, [f.ga.toNat, f.gb.toNat], []⟩

/-- Format B instructions. -/
def clerkB (c : CoreId) (p : Pred) (op : Nat) (f : FmtB) (bad : Bool) : Clerked :=
  ⟨c.val, p, op, bitsB f, f.rsv != 0 || bad, [f.gd.toNat, f.ga.toNat], []⟩

/-- Format M instructions. -/
def clerkM (c : CoreId) (p : Pred) (op : Nat) (f : FmtM) : Clerked :=
  ⟨c.val, p, op, bitsM f, f.rsv != 0, [f.gv.toNat, f.ga.toNat], []⟩

/-- Format D instructions. -/
def clerkD (c : CoreId) (p : Pred) (op : Nat) (f : FmtD) (bad : Bool) : Clerked :=
  ⟨c.val, p, op, bitsD f, f.rsv != 0 || bad, [f.ga.toNat], []⟩

/-- Whether a GATHER or SCATTER of form 0, which counts by its list's header, names a count register: a field that it does not
use must be zero (R282). DEDUCED (log entry 146). -/
def countUnused (f : FmtT) : Bool := f.form == 0 && f.gc != 0

/-- Format T instructions: opcode bit 0 is the side (R282). -/
def clerkT (c : CoreId) (p : Pred) (op : Nat) (side : Bool) (f : FmtT) (bad lists : Bool) : Clerked :=
  ⟨c.val, p, op + b2n side, bitsT f, bad, [f.go.toNat, f.gs.toNat, f.gc.toNat],
    [f.ds.toNat, f.dd.toNat] ++ if lists then [f.dl.toNat] else []⟩

/-- Format F instructions. -/
def clerkF (c : CoreId) (p : Pred) (op : Nat) (f : FmtF) : Clerked :=
  ⟨c.val, p, op, bitsF f, f.rsv1 != 0 || f.rsv2 != 0, [f.ga.toNat, f.gb.toNat, f.gc.toNat, f.gs.toNat], []⟩

/-- Format A instructions. -/
def clerkA (c : CoreId) (p : Pred) (op : Nat) (f : FmtA) (bad : Bool) : Clerked :=
  ⟨c.val, p, op, bitsA f, f.rsv1 != 0 || f.rsv2 != 0 || bad,
    [f.gd.toNat, f.ga.toNat, f.gb.toNat, f.gc.toNat, f.gs.toNat], []⟩

/-- Format G instructions. -/
def clerkG (c : CoreId) (p : Pred) (op : Nat) (f : FmtG) (bad : Bool) : Clerked :=
  ⟨c.val, p, op, bitsG f, f.rsv1 != 0 || f.rsv2 != 0 || bad, [f.gd.toNat, f.ga.toNat, f.gb.toNat, f.gs.toNat], []⟩

/-- Format E instructions. -/
def clerkE (c : CoreId) (p : Pred) (op : Nat) (f : FmtE) (bad : Bool) : Clerked :=
  ⟨c.val, p, op, bitsE f, f.rsv != 0 || bad, [], []⟩

/-- SINT instructions. -/
def clerkN (c : CoreId) (p : Pred) (op : Nat) (f : FmtN) (bad : Bool) (g d : List Nat) : Clerked :=
  ⟨c.val, p, op, bitsN f, f.rsv != 0 || bad, g, d⟩

/-- Whether a class record or immediate keeps the ranges of R158 (0 Exact, 1 Bounded, 2 Sampled). -/
def classOk (cls k : Nat) : Bool :=
  (cls == 0 && k == 0) || (cls == 1 && decide (1 ≤ k) && decide (k ≤ 8)) || (cls == 2 && decide (1 ≤ k) && decide (k ≤ 12))

/-- Whether an immediate has a bit at or above `n`. -/
def immOver (f : FmtE) (n : Nat) : Bool := f.imm.toNat / 2 ^ n != 0

/-- What the Clerk of its core sees of an Ngaosh instruction; none for any other command (R274, R275). An epoch that an
instruction may not name is no decoding fault: the meaning gives CLERK.EPOCH_KIND (R229). DEDUCED (log entry 117). -/
def clerkOf : Instr → Option Clerked
  | .nop c p f => some (clerkE c p 0x00 f (immOver f 0))
  | .add c p f => some (clerkR c p 0x01 f)
  | .sub c p f => some (clerkR c p 0x02 f)
  | .and c p f => some (clerkR c p 0x03 f)
  | .or c p f => some (clerkR c p 0x04 f)
  | .xor c p f => some (clerkR c p 0x05 f)
  | .shl c p f => some (clerkR c p 0x06 f)
  | .shr c p f => some (clerkR c p 0x07 f)
  | .sra c p f => some (clerkR c p 0x08 f)
  | .mul c p f => some (clerkR c p 0x09 f)
  | .min c p f => some (clerkR c p 0x0A f)
  | .max c p f => some (clerkR c p 0x0B f)
  | .addi c p f => some (clerkI c p 0x0C f false)
  | .andi c p f => some (clerkI c p 0x0D f false)
  | .lil c p f => some (clerkI c p 0x0E f (f.ga != 0))
  | .lih c p f => some (clerkI c p 0x0F f (f.ga != 0))
  | .shli c p f => some (clerkI c p 0x10 f (f.imm.toNat / 64 != 0))
  | .shri c p f => some (clerkI c p 0x11 f (f.imm.toNat / 64 != 0))
  | .cmp c p f => some (clerkC c p 0x12 f (f.imm != 0))
  | .cmpi c p f => some (clerkC c p 0x13 f (f.gb != 0))
  | .plog c p f => some ⟨c.val, p, 0x14, bitsP f, f.rsv != 0, [], []⟩
  | .br c p f => some (clerkB c p 0x18 f (f.gd != 0 || f.ga != 0))
  | .bal c p f => some (clerkB c p 0x19 f (f.ga != 0))
  | .jr c p f => some (clerkB c p 0x1A f (f.gd != 0 || f.target != 0))
  | .end_ c p f => some (clerkE c p 0x1B f (immOver f 0))
  | .ld c p f => some (clerkM c p 0x20 f)
  | .st c p f => some (clerkM c p 0x21 f)
  | .dmake c p f => some (clerkD c p 0x30 f (f.ds != 0 || f.word != 0))
  | .dget c p f => some (clerkD c p 0x31 f (f.dd != 0))
  | .dput c p f => some (clerkD c p 0x32 f (f.ds != 0))
  | .dcopy c p f => some (clerkD c p 0x33 f (f.ga != 0 || f.word != 0))
  | .move c p b f => some (clerkT c p 0x40 b f (f.dl != 0 || f.form != 0 || f.gc != 0) false)
  | .gather c p b f => some (clerkT c p 0x42 b f (countUnused f) true)
  | .scatter c p b f => some (clerkT c p 0x44 b f (countUnused f) true)
  | .xpose c p b f => some (clerkT c p 0x46 b f (f.dl != 0 || f.form != 0 || f.gc != 0) false)
  | .permute c p b f => some (clerkT c p 0x48 b f (f.dl != 0 || f.form != 0) false)
  | .fill c p f => some (clerkF c p 0x4A f)
  | .copy c p f => some (clerkF c p 0x4B f)
  | .aadd c p f => some (clerkA c p 0x4C f (f.gc != 0))
  | .acas c p f => some (clerkA c p 0x4D f false)
  | .tmul c p f =>
    some ⟨c.val, p, 0x50, bitsX f, f.rsv != 0 || decide (30 < f.gr.toNat), [f.gr.toNat, f.gr.toNat + 1],
      [f.dw.toNat, f.da.toNat, f.dd.toNat, f.df.toNat]⟩
  | .tmul2 c p f =>
    some ⟨c.val, p, 0x51, bitsY f, f.rsv != 0 || decide (28 < f.gr.toNat),
      [f.gr.toNat, f.gr.toNat + 1, f.gr.toNat + 2, f.gr.toNat + 3], [f.dw1.toNat, f.da.toNat, f.dw2.toNat, f.di.toNat]⟩
  | .tstore c p f =>
    some ⟨c.val, p, 0x52, bitsS f, f.rsv != 0, [f.gw.toNat, f.go.toNat], [f.dd.toNat, f.df.toNat]⟩
  | .tclear c p f => some (clerkE c p 0x53 f (immOver f 8))
  | .tingest c p f =>
    some ⟨c.val, p, 0x54, bitsS f, f.rsv != 0 || f.df != 0 || f.gw != 0, [f.go.toNat], [f.dd.toNat]⟩
  | .sintMatch c p f =>
    some (clerkN c p 0x60 f (f.dc != 0 || f.q != 0 || f.slip != 0) [f.gr.toNat]
      [f.da.toNat, f.db.toNat, f.dd.toNat])
  | .sintMerge c p f =>
    some (clerkN c p 0x61 f (f.dc != 0 || f.q != 0 || f.slip != 0) [f.gr.toNat]
      [f.da.toNat, f.db.toNat, f.dd.toNat])
  | .sintPairs c p f =>
    some (clerkN c p 0x62 f (f.dd != 0 || decide (30 < f.gr.toNat)) [f.gr.toNat, f.gr.toNat + 1]
      [f.da.toNat, f.db.toNat, f.dc.toNat])
  | .sintSelect c p f =>
    some (clerkN c p 0x63 f (f.db != 0 || f.dc != 0 || f.q != 0 || f.slip != 0) [f.gr.toNat]
      [f.da.toNat, f.dd.toNat])
  | .pwait c p f => some (clerkE c p 0x70 f (immOver f 8 || bits f.imm.toNat 6 2 == 3))
  | .psig c p f => some (clerkE c p 0x71 f (immOver f 6))
  | .fence c p f => some (clerkE c p 0x72 f (immOver f 5))
  | .grant c p f => some (clerkG c p 0x73 f (f.gd != 0 || f.gb != 0 || f.gs != 0 || f.imm != 0))
  | .barrier c p f => some (clerkG c p 0x74 f (f.gd != 0 || f.gb != 0))
  | .take c p f => some (clerkG c p 0x75 f (f.imm != 0))
  | .push c p f => some (clerkG c p 0x80 f (f.gd != 0 || f.imm != 0))
  | .pop c p f => some (clerkG c p 0x81 f (f.gd != 0 || f.gs != 0 || f.imm != 0))
  | .setprec c p f => some (clerkE c p 0x90 f (immOver f 22 || decide (8 < bits f.imm.toNat 18 4)))
  | .setclass c p f => some (clerkE c p 0x91 f (immOver f 6 || !classOk (bits f.imm.toNat 0 2) (bits f.imm.toNat 2 4)))
  | .spec c p f => some (clerkE c p 0xA0 f (immOver f 4 || f.imm == 0))
  | .verify c p f => some (clerkE c p 0xA1 f (immOver f 4 || f.imm == 0))
  | .squash c p f => some (clerkE c p 0xA2 f (immOver f 4 || f.imm == 0))
  | .sopen c p f => some (clerkE c p 0xB0 f (immOver f 17))
  | .sclose c p f => some (clerkE c p 0xB1 f (immOver f 16))
  | .wopen c p f => some (clerkG c p 0xC0 f (f.gd != 0 || f.imm != 0))
  | .wclose c p f => some (clerkG c p 0xC1 f (f.gd != 0 || f.gb != 0 || f.imm != 0))
  | .update c p f => some (clerkG c p 0xD0 f (f.gd != 0 || f.imm != 0))
  | _ => none

/-- Whether an opcode is in the opcode map (R274). -/
def opcodeKnown (op : Nat) : Bool :=
  decide (op ≤ 0x14) || (decide (0x18 ≤ op) && decide (op ≤ 0x1B)) || op == 0x20 || op == 0x21 ||
  (decide (0x30 ≤ op) && decide (op ≤ 0x33)) || (decide (0x40 ≤ op) && decide (op ≤ 0x4D)) ||
  (decide (0x50 ≤ op) && decide (op ≤ 0x54)) || (decide (0x60 ≤ op) && decide (op ≤ 0x63)) ||
  (decide (0x70 ≤ op) && decide (op ≤ 0x75)) || op == 0x80 || op == 0x81 || op == 0x90 || op == 0x91 ||
  (decide (0xA0 ≤ op) && decide (op ≤ 0xA2)) || op == 0xB0 || op == 0xB1 || op == 0xC0 || op == 0xC1 || op == 0xD0

/-! Reading a word (R272, R274, R275). -/

/-- Bits [lo + n − 1 : lo] of a word. -/
def fieldAt (w lo n : Nat) : BitVec n := BitVec.ofNat n (w / 2 ^ lo)

/-- The fields of a word in format R. -/
def fmtRAt (w : Nat) : FmtR :=
  ⟨fieldAt w 47 5, fieldAt w 42 5, fieldAt w 37 5, fieldAt w 0 37⟩

/-- The fields of a word in format I. -/
def fmtIAt (w : Nat) : FmtI :=
  ⟨fieldAt w 47 5, fieldAt w 42 5, fieldAt w 32 10, fieldAt w 0 32⟩

/-- The fields of a word in format C. -/
def fmtCAt (w : Nat) : FmtC :=
  ⟨fieldAt w 49 3, fieldAt w 46 3, fieldAt w 41 5, fieldAt w 36 5, fieldAt w 32 4, fieldAt w 0 32⟩

/-- The fields of a word in format P. -/
def fmtPAt (w : Nat) : FmtP :=
  ⟨fieldAt w 49 3, fieldAt w 46 3, fieldAt w 43 3, fieldAt w 41 2, fieldAt w 0 41⟩

/-- The fields of a word in format B. -/
def fmtBAt (w : Nat) : FmtB :=
  ⟨fieldAt w 47 5, fieldAt w 42 5, fieldAt w 13 29, fieldAt w 0 13⟩

/-- The fields of a word in format M. -/
def fmtMAt (w : Nat) : FmtM :=
  ⟨fieldAt w 47 5, fieldAt w 42 5, fieldAt w 41 1, fieldAt w 32 9, fieldAt w 0 32⟩

/-- The fields of a word in format D. -/
def fmtDAt (w : Nat) : FmtD :=
  ⟨fieldAt w 46 6, fieldAt w 40 6, fieldAt w 35 5, fieldAt w 32 3, fieldAt w 0 32⟩

/-- The fields of a word in format T. -/
def fmtTAt (w : Nat) : FmtT :=
  ⟨fieldAt w 46 6, fieldAt w 40 6, fieldAt w 35 5, fieldAt w 28 7, fieldAt w 21 7, fieldAt w 17 4, fieldAt w 12 5,
    fieldAt w 6 6, fieldAt w 5 1, fieldAt w 0 5⟩

/-- The fields of a word in format F. -/
def fmtFAt (w : Nat) : FmtF :=
  ⟨fieldAt w 47 5, fieldAt w 42 5, fieldAt w 37 5, fieldAt w 35 2, fieldAt w 28 7, fieldAt w 21 7, fieldAt w 17 4,
    fieldAt w 12 5, fieldAt w 0 12⟩

/-- The fields of a word in format A. -/
def fmtAAt (w : Nat) : FmtA :=
  ⟨fieldAt w 47 5, fieldAt w 42 5, fieldAt w 37 5, fieldAt w 32 5, fieldAt w 17 15, fieldAt w 12 5, fieldAt w 0 12⟩

/-- The fields of a word in format X. -/
def fmtXAt (w : Nat) : FmtX :=
  ⟨fieldAt w 46 6, fieldAt w 40 6, fieldAt w 35 5, fieldAt w 34 1, fieldAt w 32 2, fieldAt w 28 4, fieldAt w 16 12,
    fieldAt w 10 6, fieldAt w 4 6, fieldAt w 3 1, fieldAt w 0 3⟩

/-- The fields of a word in format Y. -/
def fmtYAt (w : Nat) : FmtY :=
  ⟨fieldAt w 46 6, fieldAt w 40 6, fieldAt w 34 6, fieldAt w 28 6, fieldAt w 23 5, fieldAt w 22 1, fieldAt w 20 2,
    fieldAt w 16 4, fieldAt w 4 12, fieldAt w 0 4⟩

/-- The fields of a word in format S. -/
def fmtSAt (w : Nat) : FmtS :=
  ⟨fieldAt w 49 3, fieldAt w 43 6, fieldAt w 37 6, fieldAt w 32 5, fieldAt w 27 5, fieldAt w 23 4, fieldAt w 11 12,
    fieldAt w 0 11⟩

/-- The fields of a word in format N. -/
def fmtNAt (w : Nat) : FmtN :=
  ⟨fieldAt w 46 6, fieldAt w 40 6, fieldAt w 34 6, fieldAt w 28 6, fieldAt w 23 5, fieldAt w 22 1, fieldAt w 18 4,
    fieldAt w 6 12, fieldAt w 0 6⟩

/-- The fields of a word in format G. -/
def fmtGAt (w : Nat) : FmtG :=
  ⟨fieldAt w 47 5, fieldAt w 42 5, fieldAt w 37 5, fieldAt w 17 20, fieldAt w 12 5, fieldAt w 10 2, fieldAt w 0 10⟩

/-- The fields of a word in format E. -/
def fmtEAt (w : Nat) : FmtE :=
  ⟨fieldAt w 32 20, fieldAt w 0 32⟩

/-- The predicate of a word. -/
def predAt (w : Nat) : Pred := ⟨fieldAt w 53 3, w / 2 ^ 52 % 2 == 1⟩

/-- The instruction that a word spells for core `c`; none where its opcode is not in the opcode map. -/
def ngaoshAt (c : CoreId) (w : Nat) : Option Instr :=
  let p := predAt w
  match w / 2 ^ 56 with
  | 0x00 => some (.nop c p (fmtEAt w))
  | 0x01 => some (.add c p (fmtRAt w))
  | 0x02 => some (.sub c p (fmtRAt w))
  | 0x03 => some (.and c p (fmtRAt w))
  | 0x04 => some (.or c p (fmtRAt w))
  | 0x05 => some (.xor c p (fmtRAt w))
  | 0x06 => some (.shl c p (fmtRAt w))
  | 0x07 => some (.shr c p (fmtRAt w))
  | 0x08 => some (.sra c p (fmtRAt w))
  | 0x09 => some (.mul c p (fmtRAt w))
  | 0x0A => some (.min c p (fmtRAt w))
  | 0x0B => some (.max c p (fmtRAt w))
  | 0x0C => some (.addi c p (fmtIAt w))
  | 0x0D => some (.andi c p (fmtIAt w))
  | 0x0E => some (.lil c p (fmtIAt w))
  | 0x0F => some (.lih c p (fmtIAt w))
  | 0x10 => some (.shli c p (fmtIAt w))
  | 0x11 => some (.shri c p (fmtIAt w))
  | 0x12 => some (.cmp c p (fmtCAt w))
  | 0x13 => some (.cmpi c p (fmtCAt w))
  | 0x14 => some (.plog c p (fmtPAt w))
  | 0x18 => some (.br c p (fmtBAt w))
  | 0x19 => some (.bal c p (fmtBAt w))
  | 0x1A => some (.jr c p (fmtBAt w))
  | 0x1B => some (.end_ c p (fmtEAt w))
  | 0x20 => some (.ld c p (fmtMAt w))
  | 0x21 => some (.st c p (fmtMAt w))
  | 0x30 => some (.dmake c p (fmtDAt w))
  | 0x31 => some (.dget c p (fmtDAt w))
  | 0x32 => some (.dput c p (fmtDAt w))
  | 0x33 => some (.dcopy c p (fmtDAt w))
  | 0x40 => some (.move c p false (fmtTAt w))
  | 0x41 => some (.move c p true (fmtTAt w))
  | 0x42 => some (.gather c p false (fmtTAt w))
  | 0x43 => some (.gather c p true (fmtTAt w))
  | 0x44 => some (.scatter c p false (fmtTAt w))
  | 0x45 => some (.scatter c p true (fmtTAt w))
  | 0x46 => some (.xpose c p false (fmtTAt w))
  | 0x47 => some (.xpose c p true (fmtTAt w))
  | 0x48 => some (.permute c p false (fmtTAt w))
  | 0x49 => some (.permute c p true (fmtTAt w))
  | 0x4A => some (.fill c p (fmtFAt w))
  | 0x4B => some (.copy c p (fmtFAt w))
  | 0x4C => some (.aadd c p (fmtAAt w))
  | 0x4D => some (.acas c p (fmtAAt w))
  | 0x50 => some (.tmul c p (fmtXAt w))
  | 0x51 => some (.tmul2 c p (fmtYAt w))
  | 0x52 => some (.tstore c p (fmtSAt w))
  | 0x53 => some (.tclear c p (fmtEAt w))
  | 0x54 => some (.tingest c p (fmtSAt w))
  | 0x60 => some (.sintMatch c p (fmtNAt w))
  | 0x61 => some (.sintMerge c p (fmtNAt w))
  | 0x62 => some (.sintPairs c p (fmtNAt w))
  | 0x63 => some (.sintSelect c p (fmtNAt w))
  | 0x70 => some (.pwait c p (fmtEAt w))
  | 0x71 => some (.psig c p (fmtEAt w))
  | 0x72 => some (.fence c p (fmtEAt w))
  | 0x73 => some (.grant c p (fmtGAt w))
  | 0x74 => some (.barrier c p (fmtGAt w))
  | 0x75 => some (.take c p (fmtGAt w))
  | 0x80 => some (.push c p (fmtGAt w))
  | 0x81 => some (.pop c p (fmtGAt w))
  | 0x90 => some (.setprec c p (fmtEAt w))
  | 0x91 => some (.setclass c p (fmtEAt w))
  | 0xA0 => some (.spec c p (fmtEAt w))
  | 0xA1 => some (.verify c p (fmtEAt w))
  | 0xA2 => some (.squash c p (fmtEAt w))
  | 0xB0 => some (.sopen c p (fmtEAt w))
  | 0xB1 => some (.sclose c p (fmtEAt w))
  | 0xC0 => some (.wopen c p (fmtGAt w))
  | 0xC1 => some (.wclose c p (fmtGAt w))
  | 0xD0 => some (.update c p (fmtGAt w))
  | _ => none

/-- A 32-bit immediate sign-extended (R278). -/
def sext (imm : Word) : Dword := imm.signExtend 64

end Sys2Proof.Machine
end

