-- ==== Sys2Proof/Machine/Clerk.lean ====
section
/-! DEFINITION. How a Clerk passes an instruction, its narrow accesses, and the scalar, branch, narrow and descriptor
instructions (09_programming_model.md R215–R219, R276; 11_ngaosh_instruction_reference.md R273, R274, R278–R281). -/

namespace Sys2Proof.Machine

/-- What an instruction meets when it would pass. -/
inductive Passed where
  | pass (s : State)
  | jump (s : State) (target : Nat)
  | ended (s : State)
  | wait (s : State)
  | stop (s : State) (st : Stop) (seq : Nat)

/-- A stop by its code alone. -/
def Passed.fault (s : State) (code : Nat) : Passed := .stop s (Stop.of code) 0

/-- Core `c`'s Clerk stops at its instruction (R216, R507). -/
def State.clerkStop (s : State) (c pc : Nat) (st : Stop) (seq : Nat) : State :=
  let st := { st with pc := some pc }
  if seq = 0 then s.stopCore c st else s.stopCoreSeq c st seq

/-- The Clerk goes on at `pc`; an instruction that started no operation is complete (R217, R235). -/
def State.clerkAt (s : State) (c pc ops : Nat) : State :=
  let s := s.modCore c (fun k => { k with pc := pc, waiting := none })
  if (s.core c).nextOp = ops then s.bump64 (Reg.CORE_CLERK_INSTR_LO c) 1 else s

/-- What follows an instruction at `pc` of core `c` in state `s` (R216, R276, R279). -/
def State.clerkAfter (s : State) (c : Nat) (i : Instr) (p : Passed) : State :=
  let k := s.core c
  match p with
  | .pass t => if k.pc + 1 < k.progLen then t.clerkAt c (k.pc + 1) k.nextOp else (t.clerkAt c k.pc k.nextOp).clerkStop c k.pc (Stop.of Code.pcRange) 0
  | .jump t target => if target < k.progLen then t.clerkAt c target k.nextOp else s.clerkStop c k.pc (Stop.of Code.pcRange) 0
  | .ended t => t.clerkAt c k.pc k.nextOp
  | .wait t => t.modCore c (fun k => { k with waiting := some i })
  | .stop t st seq => t.clerkStop c k.pc st seq

/-- Whether g-register `r` is pending (R218). -/
def Core.pendingG (k : Core) (r : Nat) : Bool := r != 0 && k.ops.any (fun o => o.gd == r || o.gs == r)

/-- g-registers bound to a dimension of a descriptor that an instruction copies (R222, R253). -/
def Core.boundRegs (k : Core) (ds : List Nat) : List Nat :=
  ds.filterMap (fun d => if (Desc.of (k.dreg d)).bindDim = 0 then none else some (Desc.of (k.dreg d)).bindReg)

/-- Whether an instruction must wait for a pending register, for room in the window of 256, or for a BARRIER (R217, R218,
R304). -/
def Core.mustWait (k : Core) (w : Clerked) : Bool :=
  decide (256 ≤ k.ops.length) || (w.g ++ k.boundRegs w.d).any k.pendingG || k.ops.any (fun o => o.cls == .barrier)

/-- Whether an instruction executes (R273). -/
def Core.executes (k : Core) (p : Pred) : Bool := xor (k.pred p.pp.toNat) p.pn

/-- The opcode of the word at a core's pc. -/
def Core.opcodeAt (k : Core) : Nat := (tabGet 0 k.store k.pc).toNat / 2 ^ 56

/-- The instruction at the pc of its core meets its decoding faults, its predicate, its registers and then its own
effect (R216–R218, R273, R274). DESIGN CHOICE (log entry 5). -/
def State.clerkGo (s : State) (w : Clerked) (i : Instr) (body : State → Passed) : State :=
  let k := s.core w.core
  s.clerkAfter w.core i
    (if opcodeKnown k.opcodeAt = false ∨ w.illegal then .fault s Code.illegalOp
     else if k.executes w.pred = false then .pass s
     else if k.mustWait w then .wait s
     else body s)

/-- Whether a core's Clerk takes the instruction now: it runs, waits for nothing, and its store holds the instruction's
word at the pc, or a word of no known opcode. DESIGN CHOICE (log entry 5). -/
def Core.takes (k : Core) (w : Clerked) : Bool :=
  k.running && !k.stopped && !k.ended && !k.ending && k.waiting.isNone &&
  ((tabGet 0 k.store k.pc).toNat == w.word || !opcodeKnown k.opcodeAt)

/-- The step of one instruction. -/
def State.clerk (s : State) (i : Instr) (body : State → Passed) : Outcome :=
  match clerkOf i with
  | some w => act ((s.core w.core).takes w) s (s.clerkGo w i body)
  | none => .next s

/-- Start an operation on core `c`: the state and its number (R217). -/
def State.newOp (s : State) (c : Nat) (cls : OpClass) (gd gs : Nat) (named : Bool) : State × Nat :=
  let k := s.core c
  (s.setCore c { k with ops := k.ops ++ [⟨k.nextOp, k.pc, cls, gd, gs, named, none⟩], nextOp := k.nextOp + 1 }, k.nextOp)

/-- Write a g-register of core `c`. -/
def State.putG (s : State) (c r : Nat) (v : Dword) : State := s.modCore c (·.setG r v)

/-! Scalar and branch instructions (R278, R279). -/

/-- gd := f ga gb. -/
def bodyR (c : CoreId) (f : FmtR) (op : Dword → Dword → Dword) (s : State) : Passed :=
  let k := s.core c.val
  .pass (s.putG c.val f.gd.toNat (op (k.greg f.ga.toNat) (k.greg f.gb.toNat)))

/-- gd := f ga imm. -/
def bodyI (c : CoreId) (f : FmtI) (op : Dword → Word → Dword) (s : State) : Passed :=
  .pass (s.putG c.val f.gd.toNat (op ((s.core c.val).greg f.ga.toNat) f.imm))

/-- LIH: gd[63:32] := imm. -/
def bodyLih (c : CoreId) (f : FmtI) (s : State) : Passed :=
  .pass (s.putG c.val f.gd.toNat (f.imm ++ ((s.core c.val).greg f.gd.toNat).extractLsb' 0 32))

/-- p[pdst] := (ga cond b). -/
def bodyC (c : CoreId) (f : FmtC) (b : Core → Dword) (s : State) : Passed :=
  let k := s.core c.val
  .pass (s.modCore c.val (·.setP f.pdst.toNat (condHolds f.cond.toNat (k.greg f.ga.toNat) (b k))))

/-- PLOG. -/
def bodyPlog (c : CoreId) (f : FmtP) (s : State) : Passed :=
  let k := s.core c.val
  .pass (s.modCore c.val (·.setP f.pdst.toNat (predLogic f.op.toNat (k.pred f.pa.toNat) (k.pred f.pb.toNat))))

/-- BAL: gd := pc + 1; pc := target. -/
def bodyBal (c : CoreId) (f : FmtB) (s : State) : Passed :=
  .jump (s.putG c.val f.gd.toNat (BitVec.ofNat 64 ((s.core c.val).pc + 1))) f.target.toNat

/-- JR: pc := ga, whose bits [63:13] must be zero. -/
def bodyJr (c : CoreId) (f : FmtB) (s : State) : Passed :=
  let v := ((s.core c.val).greg f.ga.toNat).toNat
  if v < 2 ^ 13 then .jump s v else .fault s Code.pcRange

/-! Narrow accesses (R172, R178, R280). -/

/-- What a narrow access meets. -/
inductive Narrow where
  | done (bs : List Byte)
  | wait
  | stop (st : Stop) (seq : Nat)

/-- The Scratchpad's answer to the Clerk. -/
def Narrow.of : SpadResult → Narrow
  | .done d => .done d
  | .wait => .wait
  | .refused st seq => .stop st seq

/-- Offset of an address in core `c`'s own Scratchpad range (R172); the Scratchpad itself holds its first 0x60000 bytes. -/
def ownSpad (c a : Nat) : Option Nat :=
  if spadBase + c * 0x100000 ≤ a ∧ a < spadBase + (c + 1) * 0x100000 then some (a - spadBase - c * 0x100000) else none

/-- The block place of an address in core `c`'s own register blocks, with its BAR0 offset. -/
def ownReg (c a : Nat) : Option (BlockAt × Nat) :=
  if controlBase ≤ a then
    (blockAt (a - controlBase)).bind (fun b => if coreBlock b.kind ∧ b.inst = c then some (b, a - controlBase) else none)
  else none

/-- A narrow read of `n` bytes, 4 or 8, at address `a` (R280); one that is misaligned in the register blocks spans two
registers and reads zero (R11). -/
def State.narrowRead (s : State) (c a n : Nat) : State × Narrow :=
  match ownSpad c a with
  | some o =>
    if 0x60000 ≤ o then (s, .stop (Stop.of Code.addrRange) 0)
    else if (s.core c).ownerReq.isSome then (s, .wait)
    else if o % n ≠ 0 then (s, .stop (spadStop Code.spadRange o 1) 0)
    else
      let (s, r) := s.spadRead c .clerk o n
      (s, .of r)
  | none =>
    match ownReg c a with
    | some (_, x) =>
      if a % n ≠ 0 then (s, .done (List.replicate n 0))
      else if n = 4 then
        let (s, v) := s.regRead (.core (Fin.ofNat 64 c)) x
        (s, .done (leBytes v.toNat 4))
      else (s, .done (leBytes (s.regRead8 x).toNat 8))
    | none => (s, .stop (Stop.of Code.addrRange) 0)

/-- A narrow write (R280): the state, or what stops the core. DEDUCED (log entry 63). -/
def State.narrowWrite (s : State) (c a : Nat) (bs : List Byte) : State × Narrow :=
  let n := bs.length
  match ownSpad c a with
  | some o =>
    if 0x60000 ≤ o then (s, .stop (Stop.of Code.addrRange) 0)
    else if (s.core c).ownerReq.isSome then (s, .wait)
    else if o % n ≠ 0 then (s, .stop (spadStop Code.spadRange o 1) 0)
    else
      let (s, r) := s.spadWrite c .clerk o bs
      (s, .of r)
  | none =>
    match ownReg c a with
    | some (b, x) =>
      if a % n ≠ 0 then (s, .done [])
      else if n = 4 then
        match s.coreRegWrite (.core (Fin.ofNat 64 c)) b x (BitVec.ofNat 32 (leNat bs)) with
        | (s, none) => (s, .done [])
        | (s, some st) => (s, .stop st 0)
      else if wideInside x then
        let (s, _) := s.coreRegWrite (.core (Fin.ofNat 64 c)) b x (BitVec.ofNat 32 (leNat bs))
        let (s, _) := s.coreRegWrite (.core (Fin.ofNat 64 c)) { b with off := b.off + 4 } (x + 4) (BitVec.ofNat 32 (leNat (bs.drop 4)))
        (s, .done [])
      else (s, .done [])
    | none => (s, .stop (Stop.of Code.addrRange) 0)

/-- Width of a narrow access: size 0 is 8 bytes (R280). -/
def narrowLen (f : FmtM) : Nat := if f.size = 0 then 8 else 4

/-- Address of a narrow access. -/
def narrowAddr (k : Core) (f : FmtM) : Nat := (k.greg f.ga.toNat + sext f.imm).toNat

/-- LD (R280). -/
def bodyLd (c : CoreId) (f : FmtM) (s : State) : Passed :=
  match s.narrowRead c.val (narrowAddr (s.core c.val) f) (narrowLen f) with
  | (s, .done bs) => .pass (s.putG c.val f.gv.toNat (BitVec.ofNat 64 (leNat bs)))
  | (s, .wait) => .wait s
  | (s, .stop st seq) => .stop s st seq

/-- ST (R280). -/
def bodySt (c : CoreId) (f : FmtM) (s : State) : Passed :=
  let k := s.core c.val
  match s.narrowWrite c.val (narrowAddr k f) (leBytes (k.greg f.gv.toNat).toNat (narrowLen f)) with
  | (s, .done _) => .pass s
  | (s, .wait) => .wait s
  | (s, .stop st seq) => .stop s st seq

/-! Descriptor instructions (R281). -/

/-- Word `i` of a descriptor replaced. -/
def setWord (v : BitVec 512) (i : Nat) (w : Dword) : BitVec 512 :=
  BitVec.ofNat 512 (v.toNat - bits v.toNat (64 * i) 64 * 2 ^ (64 * i) + w.toNat * 2 ^ (64 * i))

/-- d[dd] := v once it is valid (R245, R281). -/
def State.putValid (s : State) (c dd : Nat) (v : BitVec 512) : Passed :=
  match s.descBad (Desc.of v) with
  | none => .pass (s.modCore c (·.setD dd v))
  | some (code, detail) => .stop s { Stop.of code with detail := detail, dreg := dd } 0

/-- DMAKE (R245, R281). -/
def bodyDmake (c : CoreId) (f : FmtD) (s : State) : Passed :=
  match ownSpad c.val ((s.core c.val).greg f.ga.toNat).toNat with
  | none => .fault s Code.addrRange
  | some o =>
    if 0x60000 < o + 64 then .fault s Code.addrRange
    else if o % 64 ≠ 0 then .stop s (spadStop Code.spadRange o 1) 0
    else if (s.core c.val).ownerReq.isSome then .wait s
    else match s.spadRead c.val .clerk o 64 with
      | (s, .done bs) => s.putValid c.val f.dd.toNat (BitVec.ofNat 512 (leNat bs))
      | (s, .wait) => .wait s
      | (s, .refused st seq) => .stop s st seq

/-- DGET: g[ga] := word of d[ds]. -/
def bodyDget (c : CoreId) (f : FmtD) (s : State) : Passed :=
  .pass (s.putG c.val f.ga.toNat (((s.core c.val).dreg f.ds.toNat).extractLsb' (64 * f.word.toNat) 64))

/-- DPUT (R281). -/
def bodyDput (c : CoreId) (f : FmtD) (s : State) : Passed :=
  let k := s.core c.val
  s.putValid c.val f.dd.toNat (setWord (k.dreg f.dd.toNat) f.word.toNat (k.greg f.ga.toNat))

/-- DCOPY: d[dd] := d[ds]. -/
def bodyDcopy (c : CoreId) (f : FmtD) (s : State) : Passed :=
  .pass (s.modCore c.val (fun k => k.setD f.dd.toNat (k.dreg f.ds.toNat)))

end Sys2Proof.Machine
end

