-- ==== Sys2Proof/Machine/Teller.lean ====
section
/-! DEFINITION. The Teller: counters, takes, retirement, barriers and grants (12_teller_and_random_streams.md R314–R325). -/

namespace Sys2Proof.Machine

/-- Value of counter `i` (R314). -/
def State.ctrValue (s : State) (i : Nat) : Nat := s.regN (Reg.TELL_CTR_VAL i) + s.field (Reg.TELL_CTR_VAL i + 4) 0 16 * 2 ^ 32

/-- Generation of counter `i`. -/
def State.ctrGen (s : State) (i : Nat) : Nat := s.field (Reg.TELL_CTR_VAL i + 4) 16 16

/-- remote_ok of counter `i`. -/
def State.ctrRemote (s : State) (i : Nat) : Bool := s.field (Reg.TELL_REMOTE_OK (i / 32)) (i % 32) 1 == 1

/-- Write value and generation of a counter. -/
def State.setCtr (s : State) (i value gen : Nat) : State :=
  (s.setRegN (Reg.TELL_CTR_VAL i) value).setRegN (Reg.TELL_CTR_VAL i + 4) (value / 2 ^ 32 % 2 ^ 16 + gen % 2 ^ 16 * 2 ^ 16)

/-- Write remote_ok of a counter. -/
def State.setRemote (s : State) (i : Nat) (ok : Bool) : State := s.setField (Reg.TELL_REMOTE_OK (i / 32)) (i % 32) 1 (b2n ok)

/-- What a TAKE gives: value before the add in [47:0], generation in [63:48] (R305). -/
def State.takeWord (s : State) (i : Nat) : Dword := BitVec.ofNat 64 (s.ctrValue i + s.ctrGen i * 2 ^ 48)

/-- Whether an addend would carry a counter past 2^48 − 1 (R316). -/
def State.takeOver (s : State) (i a : Nat) : Bool := decide (2 ^ 48 ≤ s.ctrValue i + a % 2 ^ 48)

/-- The status with which a waiting BARRIER wakes (R304, R325), if it does. -/
def State.barrierStatus (s : State) (i thr g : Nat) : Option Nat :=
  if s.ctrGen i ≠ g then some Code.stale else if thr ≤ s.ctrValue i then some 0 else none

/-- A BARRIER on counter `i` whose threshold or generation the counter now shows waits no longer: its status stands, whatever
the counter does before BARRIER_WAKE hands it over (R304, R325). -/
def State.awoken (s : State) (i : Nat) (o : HubOp) : HubOp :=
  match o with
  | .barrier c id ctr _ (some (thr, g)) =>
    if ctr = i then
      match s.barrierStatus i thr g with
      | some st => .awake c id st
      | none => o
    else o
  | _ => o

/-- Counter `i` has changed: its BARRIERs wake (R325). -/
def State.wakeBarriers (s : State) (i : Nat) : State := { s with hubOps := s.hubOps.map (s.awoken i) }

/-- Apply a take of addend `a` (R316): the state, and its status. DEDUCED (log entry 62). -/
def State.applyTake (s : State) (i a : Nat) : State × Nat :=
  if s.takeOver i a then ((s.bump32 Reg.TELL_EXHAUSTED 1).tellerFault Code.exhausted i, Code.exhausted)
  else (((s.setCtr i (s.ctrValue i + a % 2 ^ 48) (s.ctrGen i)).bump64 Reg.TELL_TAKES_LO 1).wakeBarriers i, 0)

/-- Retire a counter (R319). -/
def State.retireCtr (s : State) (i value : Nat) (ok : Bool) : State :=
  ((s.setCtr i value ((s.ctrGen i + 1) % 2 ^ 16)).setRemote i ok).wakeBarriers i

/-- Note that every core's mirror may still hold the generation before a retirement (R319, R322). DESIGN CHOICE (log entry 14). -/
def State.spreadGen (s : State) (i : Nat) : State :=
  let g : BitVec 16 := BitVec.ofNat 16 (s.ctrGen i)
  { s with cores := (s.allCores (fun k => { k with mirror := match tabFind k.mirror i with
      | some _ => k.mirror
      | none => tabPut k.mirror i g })).cores }

/-- Every mirror holds the newest generation (R319). DESIGN CHOICE (log entry 14). -/
def State.spreadDone (s : State) (i : Nat) : State :=
  { s with cores := (s.allCores (fun k => { k with mirror := tabDel k.mirror i })).cores }

/-- The generation of counter `i` in core `c`'s mirror (R322): while a retirement spreads, the old or the new one, and once
the new one it stays so. DESIGN CHOICE (log entry 14). -/
def State.mirrorGen (s : State) (c i : Nat) : State × Nat :=
  match tabFind (s.core c).mirror i with
  | none => (s, s.ctrGen i)
  | some old =>
    let (s, n) := s.tick
    if Config.freeMirror n then (s.modCore c (fun k => { k with mirror := tabDel k.mirror i }), s.ctrGen i)
    else (s, old.toNat)

/-! Grant words (R321). -/

/-- Counter of a grant word. -/
def grantCtr (w : Dword) : Nat := bits w.toNat 0 10

/-- Generation of a grant word. -/
def grantGen (w : Dword) : Nat := bits w.toNat 16 16

/-- Node of a grant word. -/
def grantNode (w : Dword) : Nat := bits w.toNat 32 8

/-- Remote bit of a grant word. -/
def grantRemote (w : Dword) : Bool := bitOf w.toNat 40

/-- Whether a grant word keeps the rules of R321. -/
def grantValid (w : Dword) : Bool :=
  bits w.toNat 10 6 == 0 && bits w.toNat 41 23 == 0 && (grantRemote w || grantNode w == 0)

/-- Whether a grant is remote. -/
def remoteGrant : Option Dword → Bool
  | some w => grantRemote w
  | none => false

/-- The check of a fenced item as it leaves core `c` (R322): whether a local grant is stale; a dropped item is counted. -/
def State.itemStale (s : State) (c : Nat) (g : Option Dword) : State × Bool :=
  match g with
  | none => (s, false)
  | some w =>
    if grantRemote w then (s, false)
    else
      let (s, gen) := s.mirrorGen c (grantCtr w)
      if gen = grantGen w then (s, false) else (s.bump32 Reg.TELL_STALE 1, true)

/-! Takes and barriers. -/

/-- The operation number of a TAKE or BARRIER of core `c` that waits to be applied. -/
def HubOp.takeOf (o : HubOp) (c : Nat) : Option Nat :=
  match o with
  | .take c' i _ _ => if c' = c then some i else none
  | .barrier c' i _ _ none => if c' = c then some i else none
  | _ => none

/-- The TAKE or BARRIER of core `c` that the Teller applies next, where its operation number is `op`: packets of one core reach
it in the order in which they were sent (R16). -/
def State.takeWaiting (s : State) (c op : Nat) : Option HubOp :=
  (s.hubOps.find? (fun o => (o.takeOf c).isSome)).filter (fun o => o.takeOf c == some op)

/-- Apply a waiting TAKE, or the TAKE of a BARRIER (R304, R316). -/
def State.takeAct (s : State) (o : HubOp) : State :=
  let s := { s with hubOps := s.hubOps.erase o }
  match o with
  | .take c id i a =>
    let w := s.takeWord i
    let (s, st) := s.applyTake i a
    s.opEnd c id st (some w)
  | .barrier c id i n _ =>
    let v := s.ctrValue i
    let g := s.ctrGen i
    let (s, st) := s.applyTake i 1
    if st ≠ 0 ∨ n = 0 then s.opEnd c id st none
    else
      let s := { s with hubOps := s.hubOps ++ [HubOp.barrier c id i n (some ((v / n + 1) * n, g))] }
      s.wakeBarriers i
  | _ => s

/-- TAKE_APPLY (R316). -/
def execTakeApply (c : CoreId) (op : Nat) (s : State) : Outcome :=
  match s.takeWaiting c.val op with
  | some o => .next (s.takeAct o)
  | none => .next s

/-- A waiting BARRIER of core `c` that wakes, with its status. -/
def State.barrierReady (s : State) (c op : Nat) : Option (HubOp × Nat) :=
  s.hubOps.findSome? (fun o => match o with
    | .barrier c' i ctr _ (some (thr, g)) =>
      if c' = c ∧ i = op then (s.barrierStatus ctr thr g).map (fun st => (o, st)) else none
    | .awake c' i st => if c' = c ∧ i = op then some (o, st) else none
    | _ => none)

/-- BARRIER_WAKE (R304, R325). -/
def execBarrierWake (c : CoreId) (op : Nat) (s : State) : Outcome :=
  match s.barrierReady c.val op with
  | some (o, st) => .next ({ s with hubOps := s.hubOps.erase o }.opEnd c.val op st none)
  | none => .next s

/-! Service entries. -/

/-- TELLER_SVC ring of number `k` (R195). -/
def svcRing (k : Nat) : Nat := 25792 + k

/-- The PUSH that posted slot `x` of a ring. -/
def State.svcPusher (s : State) (ring x : Nat) : Option (Nat × Nat) :=
  s.hubOps.findSome? (fun o => match o with
    | .service c id r y => if r = ring ∧ y = x then some (c, id) else none
    | _ => none)

/-- Fields of a service entry (R318). -/
structure SvcEntry where
  op : Nat
  ctr : Nat
  remoteOk : Bool
  rsv : Bool
  value : Nat
  node : Nat
  xtag : Nat
  hi : Nat
  deriving DecidableEq, Repr

/-- Read a service entry (R318). -/
def SvcEntry.of (bs : List Byte) : SvcEntry :=
  let lo := leNat (bs.take 8)
  let hi := leNat ((bs.drop 8).take 8)
  ⟨bits lo 0 4, bits lo 4 10, bitOf lo 14, bitOf lo 15, bits lo 16 48, bits hi 0 8, bits hi 16 16, hi⟩

/-- Whether a Clerk's entry is a valid RETIRE on a ring of 16 B entries (R320). -/
def svcValid (size : Nat) (e : SvcEntry) : Bool := size == 16 && e.op == 1 && !e.rsv && e.hi == 0

/-- The entry at the head of a TELLER_SVC ring is one that a Clerk pushed. -/
def State.svcFromClerk (s : State) (ring : Nat) : Bool :=
  s.ringKind ring == 6 && !s.ringEmpty ring && s.ringSettled ring && (s.svcPusher ring (s.ringHead ring)).isSome

/-- Serve the Clerk's entry at the head of a ring: a RETIRE is applied; any other entry is consumed without effect
(R319, R320, R526). -/
def State.svcServe (s : State) (ring : Nat) : State :=
  let x := s.ringHead ring
  let p := s.svcPusher ring x
  let (s, e) := s.ringTake 0xFF ring
  let s := { s with hubOps := s.hubOps.filter (fun o => match o with
    | .service _ _ r y => !(r == ring && y == x)
    | _ => true) }
  let finish (s : State) (st : Nat) : State := match p with
    | some (c, id) => s.opEnd c id st none
    | none => s
  let s := match e with
    | .error f => match p with
      | some (c, id) => s.opFail c id { f.stop with seq := f.seq }
      | none => s
    | .ok bs =>
      let v := SvcEntry.of bs
      if svcValid (s.ringEntry ring) v then
        let s := (s.spreadGen v.ctr).retireCtr v.ctr v.value v.remoteOk
        match p with
        | some (c, id) =>
          if (s.core c).ops.any (·.id == id) then { (finish s 0) with hubOps := s.hubOps ++ [HubOp.spread c id v.ctr] }
          else s.spreadDone v.ctr
        | none => s
      else finish (s.tellerFault Code.svcInvalid v.ctr) Code.svcInvalid
  s.ringMoved ring

/-- RETIRE (R319). -/
def execRetire (svc : Fin 64) (s : State) : Outcome := act (s.svcFromClerk (svcRing svc.val)) s (s.svcServe (svcRing svc.val))

/-- TELL_RETIRE (R331): a counter is retired with value 0 while no task runs. -/
def State.tellRetire (s : State) (v : Nat) : State :=
  if s.sched.st = .idle then s.retireCtr (bits v 0 10) 0 (bitOf v 10) else s

/-- TELL_RETIRE. -/
def execTellRetire (_r : Requester) (value : Word) (s : State) : Outcome := .next (s.tellRetire value.toNat)

end Sys2Proof.Machine
end

