-- ==== Sys2Proof/Machine/SpanTx.lean ====
section
/-! DEFINITION. What this module sends on Span: headers, routes, flits and credits, requests with their tags, handles
(15_span_fabric.md R386–R393, R398–R402, R408; 12_teller_and_random_streams.md R323). -/

namespace Sys2Proof.Machine

/-- The fields of a transaction header (R398). -/
structure SpanHdr where
  op : Nat
  status : Nat
  dst : Nat
  src : Nat
  tag : Nat
  window : Nat
  gen : Nat
  len : Nat
  target : Nat
  rsv : Nat
  deriving DecidableEq, Repr, Inhabited

/-- Read a header. `rsv` holds the reserved bits [77:74] and [127:126]. -/
def SpanHdr.of (h : BitVec 128) : SpanHdr :=
  let n := h.toNat
  ⟨bits n 0 4, bits n 4 4, bits n 8 8, bits n 16 8, bits n 24 16, bits n 40 12, bits n 52 16, bits n 68 6, bits n 78 48,
    bits n 74 4 + bits n 126 2 * 16⟩

/-- The 128 bits of a header. -/
def SpanHdr.pack (h : SpanHdr) : BitVec 128 :=
  BitVec.ofNat 128 (h.op % 16 + h.status % 16 * 2 ^ 4 + h.dst % 256 * 2 ^ 8 + h.src % 256 * 2 ^ 16 + h.tag % 65536 * 2 ^ 24 +
    h.window % 4096 * 2 ^ 40 + h.gen % 65536 * 2 ^ 52 + h.len % 64 * 2 ^ 68 + h.target % 2 ^ 48 * 2 ^ 78)

/-- Operation codes (R398). -/
def opRead : Nat := 0

/-- WRITE. -/
def opWrite : Nat := 1

/-- FADD. -/
def opFadd : Nat := 2

/-- CAS. -/
def opCas : Nat := 3

/-- MSG. -/
def opMsg : Nat := 4

/-- PARTIAL. -/
def opPartial : Nat := 5

/-- TAKE. -/
def opTake : Nat := 6

/-- MGT. -/
def opMgt : Nat := 7

/-- RSP. -/
def opRsp : Nat := 8

/-- Traffic class of an operation (R389): 0 REQ, 1 BULK, 2 RSP, 3 MGT. -/
def opVcClass (op : Nat) : Nat :=
  if op = opWrite ∨ op = opPartial then 1 else if op = opRsp then 2 else if op = opMgt then 3 else 0

/-- The fault that a response status names (R401). -/
def spanStatusCode (st : Nat) : Nat :=
  match st with
  | 0 => 0
  | 1 => Code.windowStale
  | 2 => Code.windowBounds
  | 3 => Code.windowPerm
  | 4 => Code.targetRefused
  | 5 => Code.ringFull
  | 6 => Code.ringRole
  | 7 => Code.remoteDenied
  | 8 => Code.uncorrectable
  | 9 => Code.parity
  | 10 => Code.unreachable
  | 11 => Code.linkLost
  | 12 => Code.spanQuiesced
  | _ => Code.opTarget

/-! Flits (R386–R389). -/

/-- Payload in whole slots. -/
def payloadSlots : List Dword → List (BitVec 128)
  | [] => []
  | [a] => [0#64 ++ a]
  | a :: b :: r => (b ++ a) :: payloadSlots r

/-- Slots of a transaction. -/
def SpanItem.slots (i : SpanItem) : List (BitVec 128) := i.hdr :: payloadSlots i.payload

/-- The flit bodies of a transaction, begun in a fresh flit. DESIGN CHOICE (log entry 73). -/
def SpanItem.bodies (i : SpanItem) : List (List (BitVec 128)) := chunks 15 (i.slots.length) i.slots

/-- Credits of VC `v` spent (R388). -/
def PortSt.spent (p : PortSt) (v : Nat) : Nat := tabGet 0 p.credits v

/-- Whether `n` flits of VC `v` may be sent: credits and room in the replay buffer (R387, R388). -/
def PortSt.room (p : PortSt) (v n : Nat) : Bool := decide (p.replay.length + n ≤ 256) && decide (p.spent v + n ≤ 32)

/-- Send the flits of a transaction on VC `v`: each takes a sequence number, a credit and a place in the replay buffer. DESIGN CHOICE (log entry 73). -/
def PortSt.emit (p : PortSt) (v : Nat) (i : SpanItem) : List (List (BitVec 128)) → PortSt
  | [] => p
  | b :: bs =>
    PortSt.emit { p with
      txSeq := (p.txSeq + 1) % 4096
      credits := tabSet 0 p.credits v (p.spent v + 1)
      replay := p.replay ++ [⟨p.txSeq, v, 0, b, i⟩] } v i bs

/-- The VC on which what waits on VC `v` leaves a port: level 1 where the port's dateline bit is set (R389). -/
def leaveVc (dateline : Bool) (v : Nat) : Nat := if dateline then v / 2 * 2 + 1 else v

/-- The first transaction that waits on a port, is the oldest of the VC on which it leaves, and may be sent. -/
def PortSt.ready (p : PortSt) (dateline : Bool) : Option (Nat × SpanItem) :=
  p.waiting.find? (fun w => p.waiting.find? (fun x => leaveVc dateline x.1 = leaveVc dateline w.1) == some w &&
    p.room (leaveVc dateline w.1) w.2.bodies.length)

/-- Whether a port's dateline bit is set (R389). -/
def State.dateline (s : State) (q : Nat) : Bool := s.field (Reg.SPAN_PORT_CTL q) 1 1 == 1

/-- Send what waits on a port, at most `n` transactions; a port sends while ACTIVE or DRAINING (R411). -/
def State.portPump (s : State) (q : Nat) : Nat → State
  | 0 => s
  | n + 1 =>
    let p := s.port q
    if p.st ≠ 2 ∧ p.st ≠ 3 then s
    else match p.ready (s.dateline q) with
      | none => s
      | some w =>
        let s := s.setPort q (PortSt.emit { p with waiting := p.waiting.erase w } (leaveVc (s.dateline q) w.1) w.2 w.2.bodies)
        (s.bump64 (Reg.SPAN_PORT_TX_LO q) w.2.bodies.length).portPump q n

/-- Hand a transaction to a port on VC `v`; its level rises only as it leaves (R389). -/
def State.portSend (s : State) (q v : Nat) (i : SpanItem) : State :=
  let p := s.port q
  (s.setPort q { p with waiting := p.waiting ++ [(v, i)] }).portPump q (p.waiting.length + 1)

/-! Routes (R391, R411). -/

/-- Where a flit for a node goes. -/
inductive Route where
  | here
  | port (p : Nat)
  | refused (status : Nat)
  deriving DecidableEq, Repr

/-- Whether an operation is a request: it fails towards a node that the map marks absent (R391); responses and management
messages still go there, or an absent node could never be present again (R407). -/
def isRequest (op : Nat) : Bool := op != opMgt && op != opRsp

/-- The route to node `n`; `source` says whether the node map's absent bit stops a request here. An invalid entry has none; a
port that drains refuses (R391, R411, R459). -/
def State.routeTo (s : State) (source : Bool) (n : Nat) : Route :=
  let e := s.regN (Reg.SPAN_ROUTE n)
  let a := bits e 2 4
  let b := bits e 6 4
  let sa := (s.port a).st
  let sb := (s.port b).st
  if n = s.nodeId then .here
  else if !bitOf e 0 || (source && bitOf e 1) then .refused 10
  else if sa = 2 then .port a
  else if sb = 2 then .port b
  else if sa = 3 ∨ sa = 4 ∨ sb = 3 ∨ sb = 4 then .refused 12
  else .refused 10

/-- The route of an operation at its source: the node map stops a request to an absent node (R391). -/
def State.route (s : State) (op n : Nat) : Route := s.routeTo (isRequest op) n

/-- Send a transaction along a route from a VC level; answers 0, or the status that the route gives. -/
def State.sendOn (s : State) (r : Route) (i : SpanItem) (level : Nat) : State × Nat :=
  let h := SpanHdr.of i.hdr
  match r with
  | .here =>
    ({ s with span := { s.span with arrived := s.span.arrived ++ [⟨16, 2 * opVcClass h.op + level, i⟩] } }, 0)
  | .port q => (s.portSend q (2 * opVcClass h.op + level) i, 0)
  | .refused st => (s, st)

/-- Send a transaction of this module's own to its node. -/
def State.spanOut (s : State) (i : SpanItem) (level : Nat) : State × Nat :=
  s.sendOn (s.route (SpanHdr.of i.hdr).op (SpanHdr.of i.hdr).dst) i level

/-- Whether the module is FROZEN (R408). -/
def State.frozen (s : State) : Bool := s.field Reg.SPAN_STATUS 0 2 == 2

/-! Requests (R402). -/

/-- The first free tag from `t` on, of at most `n` tried (R402). -/
def SpanSt.freeTag (p : SpanSt) (t : Nat) : Nat → Option Nat
  | 0 => none
  | n + 1 =>
    if (tabFind p.reqs t).isSome || p.cooling.contains t then p.freeTag ((t + 1) % 65536) n else some t

/-- Change transfer `id` of core `c`. -/
def State.modXfer (s : State) (c id : Nat) (f : Xfer → Xfer) : State :=
  s.modCore c (fun k => { k with dma := k.dma.map (fun x => if x.id = id then f x else x) })

/-- A transfer keeps its first failure (R283). -/
def Xfer.fail (x : Xfer) (st : Stop) : Xfer := if x.status = 0 then { x with status := st.code, stop := st } else x

/-- The request with tag `t` of a transfer has ended. -/
def Xfer.spanEnd (x : Xfer) (t : Nat) : Xfer := { x with spanWait := x.spanWait.erase t }

/-- The PUSH or UPDATE that waits for a remote grant (R323). -/
def State.grantWaiter (s : State) (c id : Nat) : Option HubOp :=
  s.hubOps.find? (fun o => match o with
    | .post c' i _ _ _ (some _) => c' == c && i == id
    | .remotePost c' i _ _ _ => c' == c && i == id
    | _ => false)

/-- A request of this module with header `hdr` ends with a failure: a Span fault names the target's node and the window, and the
Span address that a windowed request had (R401, R402, R506). -/
def State.useFail (s : State) (u : SpanUse) (hdr : BitVec 128) (tag code : Nat) : State :=
  let h := SpanHdr.of hdr
  let st : Stop := if code / 256 = 0x60 then { Stop.of code with
      node := h.dst, window := h.window, addr := if h.op = opMsg ∨ h.op = opTake then none else some (h.dst * 2 ^ 48 + h.target) }
    else Stop.of code
  match u with
  | .xferRead c id _ _ => s.modXfer c id (fun x => (x.spanEnd tag).fail st)
  | .xferWrite c id => s.modXfer c id (fun x => (x.spanEnd tag).fail st)
  | .op c id => s.opFail c id st
  | .grant c id =>
    match s.grantWaiter c id with
    | some o => { s with hubOps := s.hubOps.erase o }.opFail c id st
    | none => s.modXfer c id (fun x => (x.spanEnd tag).fail st)

/-- Take a request off the list. -/
def State.dropReq (s : State) (tag : Nat) : State := { s with span := { s.span with reqs := tabDel s.span.reqs tag } }

/-- Issue the request with a tag: it is sent, or fails at its source (R391, R411). -/
def State.reqIssue (s : State) (tag : Nat) : State :=
  match tabFind s.span.reqs tag with
  | none => s
  | some r =>
    match s.spanOut r.item 0 with
    | (s, 0) => { s with span := { s.span with reqs := tabPut s.span.reqs tag { r with sent := true } } }.bump64 Reg.SPAN_REQS_LO 1
    | (s, st) => (s.dropReq tag).useFail r.use r.item.hdr tag (spanStatusCode st)

/-- The tag that the next request takes: none while every tag is outstanding or rests after a timeout (R402). -/
def State.newTag (s : State) : Option Nat := s.span.freeTag s.span.nextTag 65536

/-- A request takes a tag and goes (R402); in a FROZEN module it waits (R408). -/
def State.spanTagged (s : State) (tag : Nat) (u : SpanUse) (h : SpanHdr) (payload : List Dword) : State :=
  let item : SpanItem := ⟨SpanHdr.pack { h with tag := tag, src := s.nodeId, status := 0 }, payload⟩
  let s := { s with span := { s.span with reqs := tabPut s.span.reqs tag ⟨u, item, false⟩, nextTag := (tag + 1) % 65536 } }
  if s.frozen then s else s.reqIssue tag

/-- Send a request for a use (R402); without a free tag it waits for one. DESIGN CHOICE (log entry 112). -/
def State.spanRequest (s : State) (u : SpanUse) (h : SpanHdr) (payload : List Dword) : State :=
  match s.newTag with
  | some tag => s.spanTagged tag u h payload
  | none => { s with span := { s.span with tagWait := s.span.tagWait ++ [⟨u, ⟨h.pack, payload⟩, false⟩] } }

/-- Stands for the tag of a request that waits for one. -/
def noTag : Nat := 65536

/-- As `spanRequest`, for a transfer: the tag joins those that it waits for. -/
def State.xferRequest (s : State) (c id : Nat) (u : SpanUse) (h : SpanHdr) (payload : List Dword) : State :=
  (s.modXfer c id (fun x => { x with spanWait := x.spanWait ++ [s.newTag.getD noTag] })).spanRequest u h payload

/-- A transfer's request that waited for a tag has one. -/
def State.tagged (s : State) (u : SpanUse) (tag : Nat) : State :=
  let got (c id : Nat) : State := s.modXfer c id (fun x => { x with spanWait := x.spanWait.erase noTag ++ [tag] })
  match u with
  | .xferRead c id _ _ => got c id
  | .xferWrite c id => got c id
  | .grant c id => if (s.grantWaiter c id).isSome then s else got c id
  | .op _ _ => s

/-- Requests that wait for a tag take those that are free, oldest first, at most `n` of them. DESIGN CHOICE (log entry 112). -/
def State.tagPump (s : State) : Nat → State
  | 0 => s
  | n + 1 =>
    match s.span.tagWait, s.newTag with
    | r :: rest, some tag =>
      let s : State := { s with span := { s.span with tagWait := rest } }
      ((s.tagged r.use tag).spanTagged tag r.use (SpanHdr.of r.item.hdr) r.item.payload).tagPump n
    | _, _ => s

/-- A tag may be free again. DESIGN CHOICE (log entry 112). -/
def State.tagFreed (s : State) : State := s.tagPump s.span.tagWait.length

/-- The header of a request to a node. -/
def reqHdr (op dst window gen len target : Nat) : SpanHdr := ⟨op, 0, dst, 0, 0, window, gen, len, target, 0⟩

/-! Handles (R392, R393). -/

/-- Whether handle `h` of core `c` covers bytes [lo, hi) of a node. -/
def State.handleCovers (s : State) (c node lo hi h : Nat) : Bool :=
  let x := Reg.SPAN_HANDLE c h
  bitOf (s.regN (x + 16)) 15 && s.reg64 x / 2 ^ 48 % 256 == node && decide (s.reg64 x % 2 ^ 48 ≤ lo) &&
    decide (hi ≤ s.reg64 (x + 8) % 2 ^ 48)

/-- The handle lookup (R393). DEDUCED (log entry 109). -/
def State.handleFor (s : State) (c node lo hi : Nat) : Option WinRef :=
  ((List.range 64).find? (s.handleCovers c node lo hi)).map (fun h =>
    ⟨node, s.field (Reg.SPAN_HANDLE c h + 16) 0 12, s.field (Reg.SPAN_HANDLE c h + 16) 16 16⟩)

/-! Remote grants and remote PUSH (R307, R323). -/

/-- The check of a remote grant: a TAKE of 0 on its counter (R323). -/
def grantHdr (w : Dword) : SpanHdr := reqHdr opTake (grantNode w) 0 0 1 (grantCtr w)

/-- The MSG of a remote PUSH: ring ID and entry size in the target field (R307, R398). -/
def msgHdr (ringWord : Nat) (entry : List Byte) : SpanHdr :=
  reqHdr opMsg (bits ringWord 16 8) 0 0 (entry.length / 8) (bits ringWord 0 15 + bits ringWord 24 3 * 2 ^ 15)

/-- 64-bit words of bytes. -/
def bytesDwords (n : Nat) (bs : List Byte) : List Dword := (chunks 8 n bs).map (fun b => BitVec.ofNat 64 (leNat b))

/-- Send a remote PUSH. -/
def State.msgSend (s : State) (c id ringWord : Nat) (entry : List Byte) : State :=
  s.spanRequest (.op c id) (msgHdr ringWord entry) (bytesDwords (entry.length / 8) entry)

/-- The answer of a remote grant check (R323): the generation decides. -/
def State.grantAnswer (s : State) (c id tag : Nat) (v : Dword) : State :=
  let gen := bits v.toNat 48 16
  match s.grantWaiter c id with
  | some o =>
    let s := { s with hubOps := s.hubOps.erase o }
    match o with
    | .post _ _ ring entry update (some w) =>
      if gen = grantGen w then s.pushNow c id ring entry update
      else (s.bump32 Reg.TELL_STALE 1).opFail c id (Stop.of Code.stale)
    | .remotePost _ _ ringWord entry w =>
      if gen = grantGen w then s.msgSend c id ringWord entry
      else (s.bump32 Reg.TELL_STALE 1).opFail c id (Stop.of Code.stale)
    | _ => s
  | none =>
    s.modXfer c id (fun x =>
      let x := { x.spanEnd tag with granted := true }
      match x.grant with
      | some w => if gen = grantGen w then x else x.fail (Stop.of Code.stale)
      | none => x)

/-- List bytes from a key on, zeros included, so that what has arrived is known. -/
def putBytes (t : Tab Byte) (a : Nat) : List Byte → Tab Byte
  | [] => t
  | b :: bs => putBytes (tabPut t a b) (a + 1) bs

/-- A request of this module ends with success (R399, R402). -/
def State.useOk (s : State) (u : SpanUse) (tag : Nat) (payload : List Dword) : State :=
  match u with
  | .xferRead c id addr len =>
    let bs := (payload.flatMap (fun v => leBytes v.toNat 8)).take len
    s.modXfer c id (fun x => { x.spanEnd tag with remote := putBytes x.remote addr bs })
  | .xferWrite c id => s.modXfer c id (fun x => x.spanEnd tag)
  | .op c id => s.opEnd c id 0 payload.head?
  | .grant c id => s.grantAnswer c id tag (payload.headD 0)

/-! Answers of a target (R399, R401, R402). -/

/-- Answer a request: dst and src exchanged, the request's tag and len, and the payload. DEDUCED (log entry 75). -/
def State.spanAnswer (s : State) (hdr : BitVec 128) (status : Nat) (payload : List Dword) : State :=
  let h := SpanHdr.of hdr
  let r : SpanHdr := { h with op := opRsp, status := status, dst := h.src, src := h.dst, window := 0, gen := 0, target := 0, rsv := 0 }
  (s.spanOut ⟨r.pack, payload⟩ 0).1

end Sys2Proof.Machine
end

