-- ==== Sys2Proof/Machine/SpanWin.lean ====
section
/-! DEFINITION. Span windows, their generations, and the management messages that a node sends
(15_span_fabric.md R394–R397, R406, R408, R410). -/

namespace Sys2Proof.Machine

/-! Management messages. -/

/-- Role in force (R415): 0 worker, 1 manager, 2 standby. -/
def State.spanRole (s : State) : Nat := s.field Reg.SPAN_STATUS 2 2

/-- The node that a message to the manager goes to: itself in the manager, else the one named by the last heartbeat. -/
def State.managerNode (s : State) : Option Nat := if s.spanRole = 1 then some s.nodeId else s.span.manager

/-- Send a management message (R398, R406); one without a route is lost (R402). -/
def State.mgtSend (s : State) (dst type : Nat) (payload : List Dword) : State :=
  (s.spanOut ⟨SpanHdr.pack { reqHdr opMgt dst 0 0 payload.length type with src := s.nodeId }, payload⟩ 0).1

/-- Send a message to the manager; without one it is sent to none. -/
def State.toManager (s : State) (type : Nat) (payload : List Dword) : State :=
  match s.managerNode with
  | some n => s.mgtSend n type payload
  | none => s

/-- The word of a window record: kind, perm, persistent and group as the record's bytes 16 and 17 hold them. DEDUCED (log entry 79). -/
def State.winFlags (s : State) (w : Nat) : Nat := s.regN (Reg.SPAN_WIN w + 16)

/-- perm of a window record: bit 0 R, bit 1 W, bit 2 A. DEDUCED (log entry 79). -/
def State.winPerm (s : State) (w : Nat) : Nat := bits (s.winFlags w) 2 3

/-- persistent of a window record. -/
def State.winPersistent (s : State) (w : Nat) : Bool := bitOf (s.winFlags w) 5

/-- group of a window record. -/
def State.winGroup (s : State) (w : Nat) : Nat := bits (s.winFlags w) 8 4

/-- The current generation of window `w` (R396). -/
def State.winGeneration (s : State) (w : Nat) : Nat := tabGet 0 s.span.winGen w

/-- The registry entry of window `w` (R410). -/
def State.winEntry (s : State) (w : Nat) : Nat :=
  s.winBase w + s.winLimit w * 2 ^ 48 + s.winGeneration w * 2 ^ 96 + s.winKind w * 2 ^ 112 + s.winPerm w * 2 ^ 114 +
    s.winGroup w * 2 ^ 117 + b2n (s.winPersistent w) * 2 ^ 121 + b2n (s.winOpen w) * 2 ^ 122

/-- Send REGISTRY for window `w` (R410): the entry, then node and window; a FROZEN module's message waits (R408). -/
def State.registrySend (s : State) (w : Nat) : State :=
  let e := s.winEntry w
  let payload := [BitVec.ofNat 64 e, BitVec.ofNat 64 (e / 2 ^ 64), BitVec.ofNat 64 (s.nodeId + w * 2 ^ 8)]
  if s.frozen then
    { s with span := { s.span with heldMgt := s.span.heldMgt ++
        [⟨SpanHdr.pack { reqHdr opMgt 0 0 0 payload.length 2 with src := s.nodeId }, payload⟩] } }
  else s.toManager 2 payload

/-! WOPEN. -/

/-- A window record as WOPEN reads it (R394). -/
structure WinRec where
  base : Nat
  limit : Nat
  kind : Nat
  perm : Nat
  persistent : Bool
  group : Nat
  rsv : Bool
  deriving DecidableEq, Repr

/-- Read 32 bytes. Bytes 18 and 19 are written by WOPEN. -/
def WinRec.of (bs : List Byte) : WinRec :=
  let n := leNat bs
  ⟨bits n 0 48, bits n 64 48, bits n 128 2, bits n 130 3, bitOf n 133, bits n 136 4,
    bits n 48 16 != 0 || bits n 112 16 != 0 || bits n 134 2 != 0 || bits n 140 4 != 0 || bits n 160 96 != 0⟩

/-- Whether [lo, hi) lies within one stretch of `size` bytes at `first + i × pitch`. -/
def withinOne (first pitch size count lo hi : Nat) : Bool :=
  decide (first ≤ lo) && decide ((lo - first) / pitch < count) && decide (hi ≤ first + (lo - first) / pitch * pitch + size)

/-- Whether a record is invalid (R395). -/
def State.winBad (s : State) (r : WinRec) : Bool :=
  r.rsv || r.kind == 3 || r.base % 64 != 0 || r.limit % 64 != 0 || decide (r.limit ≤ r.base) ||
  (r.kind == 2 && (bitOf r.perm 2 || !withinOne controlBase 0x100000 0x10000 64 r.base r.limit)) ||
  (r.kind == 1 && !withinOne spadBase 0x100000 0x60000 64 r.base r.limit) ||
  (r.kind == 0 && decide (s.lpddrEnd < r.limit)) ||
  (match regionFor s.sched.regions r.base r.limit with
   | none => true
   | some g => g.space != r.kind || (bitOf r.perm 0 && !g.rd) || ((bitOf r.perm 1 || bitOf r.perm 2) && !g.wr)) ||
  (r.persistent && r.kind != 0)

/-- Open window `w` from a record (R395): the register holds the record, its generation and byte 20 bit 0. -/
def State.winOpenNow (s : State) (w : Nat) (r : WinRec) : State :=
  let x := Reg.SPAN_WIN w
  let s := (s.setReg64 x r.base).setReg64 (x + 8) r.limit
  let s := s.setRegN (x + 16) (r.kind + r.perm * 4 + b2n r.persistent * 32 + r.group * 256 + s.winGeneration w * 2 ^ 16)
  let s := s.setRegN (x + 20) 1
  let s := if r.persistent then s else { s with span := { s.span with taskWins := s.span.taskWins ++ [w] } }
  s.registrySend w

/-! WCLOSE. -/

/-- Close window `w` (R396): it refuses from now on and its generation rises. -/
def State.winCloseNow (s : State) (w : Nat) : State :=
  if s.winOpen w then
    let s := s.setRegN (Reg.SPAN_WIN w + 20) 0
    let s := { s with span := { s.span with
      winGen := tabSet 0 s.span.winGen w ((s.winGeneration w + 1) % 65536)
      taskWins := s.span.taskWins.filter (· != w) } }
    s.registrySend w
  else s

/-- Whether an accepted request of window `w` has still to take effect: a PARTIAL whose values are on their way. -/
def State.winBusy (s : State) (w : Nat) : Bool := s.span.served.any (fun v => (SpanHdr.of v.hdr).window == w)

/-- WCLOSE of window `w` by operation `id` of core `c`: it completes once the accepted requests have taken effect. -/
def State.winCloseOp (s : State) (c id w : Nat) : State :=
  let s := s.winCloseNow w
  if s.winBusy w then { s with span := { s.span with winWait := s.span.winWait ++ [(c, id, w)] } } else s.opEnd c id 0 none

/-- End the WCLOSEs that wait for a window with nothing accepted left. -/
def State.winSettle (s : State) : State :=
  let ready := s.span.winWait.filter (fun e => !s.winBusy e.2.2)
  ready.foldl (fun t e => t.opEnd e.1 e.2.1 0 none)
    { s with span := { s.span with winWait := s.span.winWait.filter (fun e => s.winBusy e.2.2) } }

/-- Close the windows that the task opened without persistent (R397). -/
def State.closeTaskWins (s : State) : State :=
  s.span.taskWins.foldl State.winCloseNow s

/-- A write to SPAN_WIN_CLOSE (R415). -/
def State.winCloseReg (s : State) (v : Nat) : State := if s.sched.st = .idle then s.winCloseNow (bits v 0 12) else s

/-- SPAN_WIN_CLOSE (R396, R415). -/
def execSpanWinClose (_r : Requester) (value : Word) (s : State) : Outcome :=
  act (spanPresent s.variant) s (s.winCloseReg value.toNat)

end Sys2Proof.Machine
end

