-- ==== Sys2Proof/Machine/DmaPlan.lean ====
section
/-! DEFINITION. What a transfer of the core DMA engine reads and writes: positions, tiles and their whey, reads and writes
on this module and on others (10_tensors_and_tiling.md R250–R252, R262–R267; 11_ngaosh_instruction_reference.md R283,
R285, R286). Reads come first; what is written is collected, then issued as requests of at most 256 B. -/

namespace Sys2Proof.Machine

/-- A side of a transfer: its view of a Scratchpad and the window that its handle names. -/
structure Side where
  view : SideView
  win : Option WinRef
  deriving DecidableEq, Repr, Inhabited

/-- A transfer under way: the state, the transfer, bytes to write by Span address, P64 values to add by Span address,
elements and tiles read as fill, dropped writes, the first failure, and remote bytes still to be asked for. -/
structure Mv where
  s : State
  core : Nat
  x : Xfer
  out : Tab Byte
  adds : List (Nat × Dword)
  fills : Nat
  oob : Nat
  fail : Option Stop
  miss : List (Side × Nat × Nat)


/-- Keep the first failure. -/
def Mv.failed (m : Mv) (st : Stop) : Mv := if m.fail.isSome then m else { m with fail := some st }

/-- Whether the transfer reads no more: it has failed, or waits for remote bytes. -/
def Mv.halted (m : Mv) : Bool := m.fail.isSome || !m.miss.isEmpty

/-- Whether every byte of [a, a + n) is listed. -/
def allListed (t : Tab Byte) (a : Nat) : Nat → Bool
  | 0 => true
  | n + 1 => (tabFind t a).isSome && allListed t (a + 1) n

/-- Read `n` bytes at Span address `a` (R285): local memory, or bytes that a Span READ has brought. -/
def Mv.get (m : Mv) (d : Side) (a n : Nat) : Mv × Option (List Byte) :=
  if m.halted then (m, none)
  else if n = 0 then (m, some [])
  else if a / 2 ^ 48 = m.s.nodeId then
    match m.s.memRead m.core d.view (localOf a) n with
    | (s, .ok bs) => ({ m with s := s }, some bs)
    | (s, .error f) => (Mv.failed { m with s := s } f.stop, none)
  else
    let lo := a / 8 * 8
    let len := ceilDiv (a + n) 8 * 8 - lo
    if allListed m.x.remote lo len then (m, some (bytesGet 0 m.x.remote a n))
    else if m.x.status ≠ 0 then (m.failed m.x.stop, none)
    else ({ m with miss := m.miss ++ [(d, lo, len)] }, none)

/-- List bytes to write. -/
def Mv.put (m : Mv) (a : Nat) (bs : List Byte) : Mv := { m with out := putBytes m.out a bs }

/-- Read bytes as the destination will hold them: what the transfer writes, over what is there (R252). -/
def Mv.getOut (m : Mv) (d : Side) (a n : Nat) : Mv × Option (List Byte) :=
  if allListed m.out a n then (m, some (bytesGet 0 m.out a n))
  else
    match m.get d a n with
    | (m, some bs) => (m, some (bs.mapIdx (fun i b => (tabFind m.out (a + i)).getD b)))
    | (m, none) => (m, none)

/-- A reader of bytes: `get` or `getOut`. -/
def Mv.read (m : Mv) (over' : Bool) (d : Side) (a n : Nat) : Mv × Option (List Byte) :=
  if over' then m.getOut d a n else m.get d a n

/-! Positions (R241, R250, R252). -/

/-- Component `k` of a position. -/
def posAt (p : List Nat) (k : Nat) : Nat := p.getD k 0

/-- A position moved by `e` along dimension `k`. -/
def posStep (p : List Nat) (k e : Nat) : List Nat := p.set k (posAt p k + e)

/-- Sum of positions (R262). -/
def posAdd (p q : List Nat) : List Nat := (List.range 6).map (fun k => posAt p k + posAt q k)

/-- Linear outer index of a position. -/
def Desc.lin (d : Desc) (p : List Nat) : Nat :=
  posAt p 2 + d.ext 2 * (posAt p 3 + d.ext 3 * (posAt p 4 + d.ext 4 * posAt p 5))

/-- Whether a position lies inside the owned extent. -/
def Desc.inOwned (d : Desc) (p : List Nat) : Bool := (List.range 6).all (fun k => decide (posAt p k < d.owned k))

/-- Whether a position is valid. -/
def Shape.inside (h : Shape) (p : List Nat) : Bool := (List.range 6).all (fun k => decide (posAt p k < h.at k))

/-- The origin word as a position on the side that it applies to (R262). -/
def Desc.originPos (d : Desc) (w : Dword) : List Nat :=
  bits w.toNat 0 24 :: bits w.toNat 24 28 :: d.outerPos (bits w.toNat 52 12)

/-- A position that PERMUTE or XPOSE gives the source (R267): source dimension π(i) takes destination dimension i. -/
def unpermute (perm q : List Nat) : List Nat :=
  (List.range 6).map (fun j => match perm.findIdx? (· == j) with
    | some i => posAt q i
    | none => posAt q j)

/-- A position that PERMUTE or XPOSE gives the destination. -/
def permute (perm q : List Nat) : List Nat := perm.map (posAt q)

/-- π of a transfer, over six dimensions: XPOSE exchanges dims 0 and 1 (R267). DEDUCED (log entry 47). -/
def Xfer.perm (x : Xfer) : List Nat :=
  match x.kind with
  | .xpose => [1, 0, 2, 3, 4, 5]
  | .permute =>
    let r := (Desc.of x.src.bits).rank
    (List.range 6).map (fun i => if i < r then bits x.cnt.toNat (3 * i) 3 else i)
  | _ => [0, 1, 2, 3, 4, 5]

/-! Rows of ROW layouts. -/

/-- A run of elements: start positions of source and destination, the dimension along which each goes, and length. -/
structure RowJob where
  sp : List Nat
  dp : List Nat
  sStep : Nat
  dStep : Nat
  n : Nat
  deriving DecidableEq, Repr, Inhabited

/-- Address of an element. -/
def Desc.posAddr (d : Desc) (p : List Nat) : Nat := d.elemAddr (posAt p 0) (posAt p 1) (d.lin p)

/-- Elements of a run that lie inside the owned extent, from its start. -/
def Desc.runInside (d : Desc) (p : List Nat) (step n : Nat) : Nat :=
  if d.inOwned p then min n (d.owned step - posAt p step) else 0

/-- Read the elements of a run one by one. -/
def Mv.eachElem (m : Mv) (d : Desc) (v : Side) (p : List Nat) (step : Nat) : Nat → Mv × Option (List (List Byte))
  | 0 => (m, some [])
  | n + 1 =>
    match m.get v (d.posAddr p) d.elem with
    | (m, some b) =>
      match m.eachElem d v (posStep p step 1) step n with
      | (m, some r) => (m, some (b :: r))
      | (m, none) => (m, none)
    | (m, none) => (m, none)

/-- Read a run of the source: inside the owned extent the stored bytes, outside it fill (R250). -/
def Mv.readRun (m : Mv) (d : Desc) (v : Side) (p : List Nat) (step n : Nat) : Mv × Option (List (List Byte)) :=
  let k := d.runInside p step n
  let (m, got) :=
    if step = 0 then
      match m.get v (d.posAddr p) (k * d.elem) with
      | (m, some bs) => (m, some (chunks d.elem k bs))
      | (m, none) => (m, none)
    else m.eachElem d v p step k
  match got with
  | some l => ({ m with fills := m.fills + (n - k) }, some (l ++ List.replicate (n - k) d.fillElem))
  | none => (m, none)

/-- Write one element to a position (R252): a value where it is valid, the fill in padding, nothing outside. -/
def Mv.writeElem (m : Mv) (d : Desc) (h : Shape) (p : List Nat) (b : List Byte) : Mv :=
  if d.inOwned p = false then { m with oob := m.oob + 1 }
  else
    let b := if h.inside p then b else d.fillElem
    if d.layout = 4 ∧ addrSpace d.local_ = 2 then
      { m with adds := m.adds ++ [(d.posAddr p, BitVec.ofNat 64 (leNat b))] }
    else m.put (d.posAddr p) b

/-- Carry out one run. -/
def Mv.rowJob (m : Mv) (S D : Desc) (h : Shape) (vs : Side) (j : RowJob) : Mv :=
  if m.halted then m
  else match m.readRun S vs j.sp j.sStep j.n with
    | (m, none) => m
    | (m, some l) => (l.mapIdx (fun i b => (i, b))).foldl (fun m e => m.writeElem D h (posStep j.dp j.dStep e.1) e.2) m

/-! Tiles of PIT layouts. -/

/-- A row of 64 codes of a tile: the planes moved of each code, the held elements, and the raw index field of an N:M row. -/
structure TileRow where
  codes : List Nat
  held : Nat
  idx : Nat
  deriving DecidableEq, Repr, Inhabited

/-- Every element held. -/
def allHeld : Nat := 2 ^ 64 - 1

/-- Bytes of an N:M row's index field (R128). -/
def Desc.nmField (d : Desc) : Nat := d.nmBytes.1 / 64

/-- The pairs a < b of positions below `m` in the order of their codes (R129). -/
def nmPairs (m : Nat) : List (Nat × Nat) :=
  (List.range m).flatMap (fun a => (List.range m).filterMap (fun b => if a < b then some (a, b) else none))

/-- Held positions of group `j` of an N:M row, from its code (R129); none for a reserved code. -/
def Desc.nmGroup (d : Desc) (field j : Nat) : Option (List Nat) :=
  if d.sparse = 2 then some [4 * j + bits field (2 * j) 2]
  else if d.sparse = 3 then ((nmPairs 4)[bits field (3 * j) 3]?).map (fun p => [4 * j + p.1, 4 * j + p.2])
  else ((nmPairs 8)[bits field (5 * j) 5]?).map (fun p => [8 * j + p.1, 8 * j + p.2])

/-- Groups of an N:M row. -/
def Desc.nmGroups (d : Desc) : Nat := if d.sparse = 4 then 8 else 16

/-- Held positions of an N:M row in element order; a group with a reserved code shows its last two positions. -/
def Desc.nmPlaces (d : Desc) (field : Nat) : List Nat :=
  (List.range d.nmGroups).flatMap (fun j =>
    (d.nmGroup field j).getD (let m := 64 / d.nmGroups; [m * j + m - 2, m * j + m - 1]))

/-- Codes of a row with those of the held places listed in order; 0 elsewhere. -/
def spreadCodes (places codes : List Nat) : List Nat :=
  (List.range 64).map (fun e => match places.findIdx? (· == e) with
    | some q => codes.getD q 0
    | none => 0)

/-- A mask of positions. -/
def maskOf (places : List Nat) : Nat := places.foldl (fun a e => a ||| 2 ^ e) 0

/-- Row `n` of an N:M tile's bytes, `pl` planes of it (R128). -/
def Desc.nmRow (d : Desc) (bs : List Byte) (n pl : Nat) : TileRow :=
  let f := leNat ((bs.drop (n * d.nmField)).take d.nmField)
  let places := d.nmPlaces f
  let run := d.nmHeld / 8
  let planes := (List.range pl).map (fun k => leNat ((bs.drop (d.nmBytes.1 + k * d.nmBytes.2 + n * run)).take run))
  ⟨spreadCodes places ((List.range d.nmHeld).map (fun q => planeCode planes q)), maskOf places, f⟩

/-- The rows of a dense tile's bytes (R32, R33). -/
def denseRows (bs : List Byte) (rows pl : Nat) : List TileRow := (tileCodes bs rows pl).map (fun c => ⟨c, allHeld, 0⟩)

/-- A tile header (R124). -/
structure TileHead where
  compressed : Bool
  size : Nat
  off : Nat
  tag : Nat
  deriving DecidableEq, Repr, Inhabited

/-- Read a header. -/
def TileHead.of (v : Nat) : TileHead := ⟨bitOf v 0, bits v 1 8 * 64, bits v 9 39 * 64, bits v 48 6⟩

/-- The 64 bits of a header. -/
def TileHead.toNat (h : TileHead) : Nat := b2n h.compressed + h.size / 64 % 256 * 2 + h.off / 64 % 2 ^ 39 * 2 ^ 9 + h.tag % 64 * 2 ^ 48

/-- Bytes of a compressed tile with `nnz` held elements (R125). -/
def compressedBytes (rows planes nnz : Nat) : Nat := 8 * rows + planes * 64 * ceilDiv nnz 512

/-- The masks of a compressed tile. -/
def bitmapMasks (bs : List Byte) (rows : Nat) : List Nat := (List.range rows).map (fun n => leNat ((bs.drop (8 * n)).take 8))

/-- Held elements of masks. -/
def heldCount (ms : List Nat) : Nat := (ms.map (fun m => popcount m 64)).foldl (· + ·) 0

/-- Positions of a mask, ascending. -/
def maskPlaces (m : Nat) : List Nat := (List.range 64).filter (bitOf m)

/-- Rows of a compressed tile, from its masks and its plane blocks (R125): `q` counts held elements before the row. -/
def bitmapRows (blocks : List Nat) : List Nat → Nat → List TileRow
  | [], _ => []
  | m :: ms, q =>
    let places := maskPlaces m
    let codes := (List.range places.length).map (fun i => planeCode blocks (q + i))
    ⟨spreadCodes places codes, m, 0⟩ :: bitmapRows blocks ms (q + places.length)

/-- The rows of a compressed tile's bytes, `pl` planes of it (R125). -/
def compressedRows (bs : List Byte) (rows pl : Nat) : List TileRow :=
  let ms := bitmapMasks bs rows
  let blk := 64 * ceilDiv (heldCount ms) 512
  bitmapRows ((List.range pl).map (fun k => leNat ((bs.drop (8 * rows + k * blk)).take blk))) ms 0

/-- A BCL entry (R131). -/
structure BclEntry where
  kb : Nat
  nb : Nat
  slot : Nat
  deriving DecidableEq, Repr, Inhabited

/-- Read an entry. -/
def BclEntry.of (v : Nat) : BclEntry := ⟨bits v 0 20, bits v 20 20, bits v 40 24⟩

/-- Whether an entry, in global coordinates, names the local tile (nb, kb) of a descriptor (R132, R133). DEDUCED (log entry 29). -/
def BclEntry.names (e : BclEntry) (d : Desc) (nb kb : Nat) : Bool :=
  e.nb == nb + d.glob0 1 / d.tileRows && e.kb == kb + d.glob0 0 / 64

/-- Whether local bytes [a, a + n) leave the region that holds the local address `base` (R248). -/
def State.leavesRegion (s : State) (base a n : Nat) : Bool :=
  match s.regionAt (localOf base) with
  | some r => !r.holds (localOf a) (localOf a + n)
  | none => true

/-- Whether a tile slot of this module at Span address `a` lies outside the region that holds addr (R248). -/
def State.slotOutside (s : State) (d : Desc) (a : Nat) : Bool := !d.staged && s.isLocal d && s.leavesRegion d.addr a d.denseTile

/-- A fault of a descriptor's place met while it is read (R248). -/
def place07 (dreg : Nat) : Stop := { Stop.of Code.descInvalid with detail := 7, dreg := dreg }

/-- Read at a place that a header or list names, which must lie in the descriptor's region (R248). -/
def Mv.getIn (m : Mv) (o : Bool) (d : Desc) (dreg : Nat) (v : Side) (base a n : Nat) : Mv × Option (List Byte) :=
  if !d.staged && m.s.isLocal d && m.s.leavesRegion base a n then (m.failed (place07 dreg), none) else m.read o v a n

/-- The list of a BCL tensor or a coordinate list of form 0: `n` entries from entry `i` on (R131). -/
def Mv.bclEntries (m : Mv) (d : Desc) (dreg : Nat) (v : Side) (i : Nat) : Nat → Mv × Option (List BclEntry)
  | 0 => (m, some [])
  | n + 1 =>
    match m.getIn false d dreg v d.listAddr (d.listAddr + 8 + 8 * i) 8 with
    | (m, some bs) =>
      match m.bclEntries d dreg v (i + 1) n with
      | (m, some r) => (m, some (BclEntry.of (leNat bs) :: r))
      | (m, none) => (m, none)
    | (m, none) => (m, none)

/-- Whether a list breaks R133: an entry that repeats or precedes its predecessor, or one that names a block outside the
global shape. -/
def Desc.listFault (d : Desc) (last : Option (Nat × Nat)) : List BclEntry → Option Nat
  | [] => none
  | e :: r =>
    if last.any (fun l => decide (e.nb < l.1) || (e.nb == l.1 && decide (e.kb ≤ l.2))) then some Code.listOrder
    else if d.ext 1 ≤ e.nb * d.tileRows ∨ d.ext 0 ≤ e.kb * 64 then some Code.listRange
    else d.listFault (some (e.nb, e.kb)) r

/-- The whole list with its header (R131). -/
def Mv.bclList (m : Mv) (d : Desc) (dreg : Nat) (v : Side) : Mv × Option (List BclEntry) :=
  match m.getIn false d dreg v d.listAddr d.listAddr 8 with
  | (m, some bs) => m.bclEntries d dreg v 0 (bits (leNat bs) 0 32)
  | (m, none) => (m, none)

/-- Where a tile lies: its address, or nothing where a BCL list does not name it; with the BCL slot. DEDUCED (log entry 48). -/
def Mv.tilePlace (m : Mv) (d : Desc) (dreg : Nat) (v : Side) (nb kb ol : Nat) : Mv × Option (Option (Nat × Nat)) :=
  if d.bcl then
    match m.bclList d dreg v with
    | (m, some l) =>
      (m, some ((l.find? (fun e => e.names d nb kb)).map (fun e => (d.slotAddr e.slot, e.slot))))
    | (m, none) => (m, none)
  else (m, some (some (d.tileAddr nb kb ol, 0)))

/-- Words of `h` rows of one plane, read from row `r` on of a dense tile at `a`. -/
def Mv.planeRows (m : Mv) (o : Bool) (v : Side) (a rows r h : Nat) : Nat → Nat → Mv × Option (List (List Nat))
  | 0, _ => (m, some [])
  | n + 1, k =>
    match m.read o v (a + rows * 8 * k + 8 * r) (8 * h) with
    | (m, some bs) =>
      match m.planeRows o v a rows r h n (k + 1) with
      | (m, some l) => (m, some ((chunks 8 h bs).map leNat :: l))
      | (m, none) => (m, none)
    | (m, none) => (m, none)

/-- Read `pl` planes of a BITMAP tile at `a` whose header is `t`: all of its bytes where it is read whole (R126), else its
bitmap and its first plane blocks (R123). -/
def Mv.readBitmap (m : Mv) (o : Bool) (d : Desc) (v : Side) (a : Nat) (t : TileHead) (pl : Nat) : Mv × Option (List TileRow) :=
  let rows := d.tileRows
  if t.compressed = false then
    match m.read o v a (if pl = d.planes then d.denseTile else rows * 8 * pl) with
    | (m, some bs) => (m, some (denseRows bs rows pl))
    | (m, none) => (m, none)
  else if pl = d.planes then
    match m.read o v a t.size with
    | (m, some bs) => (m, some (compressedRows bs rows pl))
    | (m, none) => (m, none)
  else
    match m.read o v a (min t.size (8 * rows)) with
    | (m, some ms) =>
      let n := pl * (64 * ceilDiv (heldCount (bitmapMasks ms rows)) 512)
      match m.read o v (a + 8 * rows) (min n (t.size - 8 * rows)) with
      | (m, some bs) => (m, some (compressedRows (ms ++ bs) rows pl))
      | (m, none) => (m, none)
    | (m, none) => (m, none)

/-- Read `h` rows from row `r` on of tile (nb, kb), `pl` planes (R32, R33, R125, R128, R132). A tile that a list does not
name is wholly unheld. DEDUCED (log entry 48). -/
def Mv.readRows (m : Mv) (o : Bool) (d : Desc) (dreg : Nat) (v : Side) (nb kb ol r h pl : Nat) :
    Mv × Option (List TileRow) :=
  let rows := d.tileRows
  match m.tilePlace d dreg v nb kb ol with
  | (m, none) => (m, none)
  | (m, some none) => (m, some (List.replicate h ⟨List.replicate 64 0, 0, 0⟩))
  | (m, some (some (a, _))) =>
    if d.bitmap then
      match m.read o v (d.headAddr nb kb ol) 8 with
      | (m, none) => (m, none)
      | (m, some hb) =>
        let t := TileHead.of (leNat hb)
        if !d.staged && m.s.isLocal d && m.s.leavesRegion d.addr (d.addr + t.off) (if t.compressed then t.size else d.denseTile) then
          (m.failed (place07 dreg), none)
        else match m.readBitmap o d v (d.addr + t.off) t pl with
          | (m, some l) => (m, some ((l.drop r).take h))
          | (m, none) => (m, none)
    else if d.nm then
      match m.read o v a (d.tileBytes pl) with
      | (m, some bs) => (m, some ((List.range h).map (fun i => d.nmRow bs (r + i) pl)))
      | (m, none) => (m, none)
    else if d.bcl && m.s.slotOutside d a then (m.failed (place07 dreg), none)
    else if h = rows then
      match m.read o v a (rows * 8 * pl) with
      | (m, some bs) => (m, some (denseRows bs rows pl))
      | (m, none) => (m, none)
    else
      match m.planeRows o v a rows r h pl 0 with
      | (m, some ws) =>
        (m, some ((List.range h).map (fun i =>
          ⟨(List.range 64).map (planeCode (ws.map (fun w => w.getD i 0))), allHeld, 0⟩)))
      | (m, none) => (m, none)

/-- The rows of a synthesised tile (R251); an N:M one holds the first elements of each group. -/
def Desc.fillRows (d : Desc) (h pl : Nat) : List TileRow :=
  let c := d.fillCode / 2 ^ (d.planes - pl)
  if d.nm then
    let places := d.nmPlaces 0
    List.replicate h ⟨spreadCodes places (places.map (fun _ => c)), maskOf places, 0⟩
  else List.replicate h ⟨List.replicate 64 c, allHeld, 0⟩

/-! Writing tiles. -/

/-- Put the words of rows of one plane. -/
def Mv.putPlane (m : Mv) (a rows r k : Nat) (words : List Nat) : Mv :=
  m.put (a + rows * 8 * k + 8 * r) (words.flatMap (fun w => leBytes w 8))

/-- Put rows from row `r` on into a dense tile at `a`, `pl` planes. -/
def Mv.putDense (m : Mv) (a rows r pl : Nat) (l : List TileRow) : Mv :=
  (List.range pl).foldl (fun m k => m.putPlane a rows r k (l.map (fun t => codesWord t.codes (pl - 1 - k)))) m

/-- The number that bits spell, bit 0 first. -/
def bitsNat (l : List Nat) : Nat := l.foldr (fun b a => 2 * a + b) 0

/-- Put row `n` of an N:M tile at `a`, `pl` planes. DEDUCED (log entry 48). -/
def Mv.putNm (m : Mv) (d : Desc) (a n pl : Nat) (t : TileRow) : Mv :=
  let run := d.nmHeld / 8
  let codes := (d.nmPlaces t.idx).map (fun e => t.codes.getD e 0)
  let m := m.put (a + n * d.nmField) (leBytes t.idx d.nmField)
  (List.range pl).foldl (fun m k =>
    m.put (a + d.nmBytes.1 + k * d.nmBytes.2 + n * run)
      (leBytes (bitsNat (codes.map (fun c => c / 2 ^ (pl - 1 - k) % 2))) run)) m

/-- The bytes of a compressed tile (R125). -/
def compressedTile (l : List TileRow) (b : Nat) : List Byte :=
  let codes := l.flatMap (fun t => (maskPlaces t.held).map (fun e => t.codes.getD e 0))
  let blk := 64 * ceilDiv codes.length 512
  l.flatMap (fun t => leBytes t.held 8) ++
    (List.range b).flatMap (fun k => leBytes (bitsNat (codes.map (fun c => c / 2 ^ (b - 1 - k) % 2))) blk)

/-- Put `pl` planes of a whole BITMAP tile at its slot with its header (R116, R123, R126, R264): compressed where an element
is unheld and it fits the slot, else dense. DEDUCED (log entry 48). -/
def Mv.putBitmap (m : Mv) (d : Desc) (nb kb ol pl : Nat) (l : List TileRow) : Mv :=
  let a := d.tileAddr nb kb ol
  let b := d.planes
  let full := l.all (fun t => t.held == allHeld)
  let size := compressedBytes d.tileRows b (heldCount (l.map (·.held)))
  let tag := d.tileNum nb kb 0 % 64
  if !full && decide (size ≤ d.denseTile) then
    (m.put a (compressedTile l pl)).put (d.headAddr nb kb ol) (leBytes (TileHead.toNat ⟨true, size, a - d.addr, tag⟩) 8)
  else
    (m.putDense a d.tileRows 0 pl l).put (d.headAddr nb kb ol)
      (leBytes (TileHead.toNat ⟨false, d.denseTile, a - d.addr, tag⟩) 8)

/-- Put `h` rows from row `r` on of tile (nb, kb). A BITMAP tile is remade whole; a BCL tile that the list does not name
takes nothing; a slot outside the region stops the transfer (R248). -/
def Mv.putRows (m : Mv) (d : Desc) (dreg : Nat) (v : Side) (nb kb ol r pl : Nat) (l : List TileRow) : Mv :=
  if d.bitmap && m.s.slotOutside d (d.tileAddr nb kb ol) then m.failed (place07 dreg)
  else if d.bitmap then
    if l.length = d.tileRows then m.putBitmap d nb kb ol pl l
    else match m.readRows true d dreg v nb kb ol 0 d.tileRows pl with
      | (m, some old) => m.putBitmap d nb kb ol pl (old.take r ++ l ++ old.drop (r + l.length))
      | (m, none) => m
  else if d.nm then (l.mapIdx (fun i t => (i, t))).foldl (fun m e => m.putNm d (d.tileAddr nb kb ol) (r + e.1) pl e.2) m
  else match m.tilePlace d dreg v nb kb ol with
    | (m, some (some (a, _))) =>
      if d.bcl && m.s.slotOutside d a then m.failed (place07 dreg) else m.putDense a d.tileRows r pl l
    | (m, _) => m

/-! Whey of a tile (R31, R132, R241, R269). -/

/-- Records of each row in a tile. -/
def Desc.recsPerRow (d : Desc) : Nat := max 1 (64 / d.g)

/-- Row of records and first group of tile (nb, kb), record row `i`: along dim 1 in an across descriptor. -/
def Desc.recPlace (d : Desc) (nb kb i : Nat) : Nat × Nat :=
  if d.across then (64 * kb + i, d.group (d.tileRows * nb)) else (d.tileRows * nb + i, d.group (64 * kb))

/-- Chunks of the owned reduction extent that share the group of chunk `kc`: that chunk alone where G is at most 64. -/
def Desc.groupChunks (d : Desc) (kc : Nat) : List Nat :=
  [kc - 1, kc, kc + 1].dedup.filter (fun b =>
    decide (64 * b < d.owned d.redDim) && (b == kc || d.group (64 * b) == d.group (64 * kc)))

/-- Address of record `j` of record row `i` of tile (nb, kb), in BCL slot `slot`. -/
def Desc.recAddr (d : Desc) (nb kb ol slot i j : Nat) : Nat :=
  if d.bcl then d.slotWhey slot i j else d.wheyAddr (d.recPlace nb kb i).1 ((d.recPlace nb kb i).2 + j) ol

/-- Read the records of a record row. -/
def Mv.readRecs (m : Mv) (d : Desc) (v : Side) (nb kb ol slot i : Nat) : Mv × Option (List Whey) :=
  match m.get v (d.recAddr nb kb ol slot i 0) (8 * d.recsPerRow) with
  | (m, some bs) => (m, some ((chunks 8 d.recsPerRow bs).map (fun b => Whey.ofNat (leNat b))))
  | (m, none) => (m, none)

/-- Read the records of `n` record rows from `i` on. -/
def Mv.readWhey (m : Mv) (d : Desc) (v : Side) (nb kb ol slot i : Nat) : Nat → Mv × Option (List (List Whey))
  | 0 => (m, some [])
  | n + 1 =>
    match m.readRecs d v nb kb ol slot i with
    | (m, some r) =>
      match m.readWhey d v nb kb ol slot (i + 1) n with
      | (m, some l) => (m, some (r :: l))
      | (m, none) => (m, none)
    | (m, none) => (m, none)

/-- The records of a synthesised tile's rows from `i` on (R251). -/
def Desc.fillWheyRows (d : Desc) (nb kb i n : Nat) : List (List Whey) :=
  (List.range n).map (fun k => (List.range d.recsPerRow).map (fun j =>
    d.fillRecord (d.recPlace nb kb (i + k)).1 ((d.recPlace nb kb (i + k)).2 + j)))

/-- Records of a tile that a BCL list does not name, where a NEST loop stages it dense: a zero scale, as of a group that
contributes nothing (R24, R122). -/
def Desc.emptyWheyRows (d : Desc) (nb kb i n : Nat) : List (List Whey) :=
  (List.range n).map (fun k => (List.range d.recsPerRow).map (fun j =>
    ⟨0, 0, 0, d.fmt, d.tagOf (d.recPlace nb kb (i + k)).1 ((d.recPlace nb kb (i + k)).2 + j)⟩))

/-! Jobs of a curd transfer. -/

/-- `h` rows of one chunk: tile and row of source and destination with their outer positions. -/
structure TileJob where
  snb : Nat
  skb : Nat
  sr : Nat
  so : List Nat
  dnb : Nat
  dkb : Nat
  dr : Nat
  do_ : List Nat
  h : Nat
  deriving DecidableEq, Repr, Inhabited

/-- The first element's position of a job on a side. -/
def Desc.jobPos (d : Desc) (nb kb r : Nat) (o : List Nat) : List Nat := 64 * kb :: (d.tileRows * nb + r) :: o

/-- The code that padding under a record takes (R106, R252), `b` planes, as its top `pl` planes. -/
def Desc.padCode (d : Desc) (w : Whey) (pl : Nat) : Nat :=
  (codeOf d.fmt (u16Use w.scale) w.zero none (fillVal (BitVec.ofNat 16 d.fill))).1 / 2 ^ (d.planes - pl)

/-- A row as the destination takes it (R252): padding positions hold the padding code; in a BITMAP row a padding of value
zero is unheld. DEDUCED (log entry 22). -/
def Desc.padRow (d : Desc) (h : Shape) (kb r : Nat) (outerOk : Bool) (pl : Nat) (rec_ : Nat → Whey) (t : TileRow) : TileRow :=
  let pad (e : Nat) : Bool := !(outerOk && decide (64 * kb + e < h.at 0) && decide (r < h.at 1))
  if (List.range 64).any pad then
    let zero := fillVal (BitVec.ofNat 16 d.fill) = 0
    { t with
      codes := t.codes.mapIdx (fun e c => if pad e && (d.dense || d.bcl || d.bitmap || bitOf t.held e) then d.padCode (rec_ e) pl else c)
      held := if d.bitmap && t.held != allHeld then
          maskOf ((List.range 64).filter (fun e => if pad e then !zero else bitOf t.held e))
        else t.held }
  else t

/-- The record that covers element `e` of tile row `i`, among the records of a tile's record rows. -/
def Desc.recOf (d : Desc) (recs : List (List Whey)) (i e : Nat) : Whey :=
  if d.across then (recs.getD e []).getD (i / d.g) ⟨0, 0, 0, 0, 0⟩ else (recs.getD i []).getD (e / d.g) ⟨0, 0, 0, 0, 0⟩

/-- One job's curd and whey, the destination's records still with the code_sum that travelled. Answers the records. -/
def Mv.tileJob (m : Mv) (S D : Desc) (h : Shape) (vs vd : Side) (j : TileJob) : Mv × Option (List (List Whey)) :=
  let pl := min S.keptPlanes D.keptPlanes
  let sIn := S.inOwned (S.jobPos j.snb j.skb j.sr j.so)
  let dIn := D.inOwned (D.jobPos j.dnb j.dkb j.dr j.do_)
  if m.halted then (m, none)
  else if dIn = false then ({ m with oob := m.oob + 64 * j.h, fills := m.fills + b2n (!sIn) }, none)
  else
    let n := if S.across then 64 else j.h
    let i0 := if S.across then 0 else j.sr
    let sol := S.lin (0 :: 0 :: j.so)
    let (m, got) :=
      if sIn then
        match m.tilePlace S m.x.src.dreg vs j.snb j.skb sol with
        | (m, some (some (_, slot))) =>
          match m.readRows false S m.x.src.dreg vs j.snb j.skb sol j.sr j.h pl with
          | (m, some rows) =>
            match m.readWhey S vs j.snb j.skb sol slot i0 n with
            | (m, some w) => (m, some (rows, w))
            | (m, none) => (m, none)
          | (m, none) => (m, none)
        | (m, some none) =>
          if D.bcl then (m, none)
          else (m, some (List.replicate j.h ⟨List.replicate 64 0, allHeld, 0⟩, S.emptyWheyRows j.snb j.skb i0 n))
        | (m, none) => (m, none)
      else ({ m with fills := m.fills + 1 }, some (S.fillRows j.h pl, S.fillWheyRows j.snb j.skb i0 n))
    match got with
    | none => (m, none)
    | some (rows, recs) =>
      let outerOk := (List.range 4).all (fun k => decide (posAt j.do_ k < h.at (k + 2)))
      let rows := rows.mapIdx (fun i t =>
        D.padRow h j.dkb (D.tileRows * j.dnb + j.dr + i) outerOk pl (fun e => D.recOf recs i e) t)
      (m.putRows D m.x.dst.dreg vd j.dnb j.dkb (D.lin (0 :: 0 :: j.do_)) j.dr pl rows, some recs)

/-- Sum of the held codes of a row over elements [e, e + n), scaled to the stored width. -/
def rowSum (t : TileRow) (e n shift : Nat) : Nat :=
  ((List.range n).map (fun i => if bitOf t.held (e + i) then t.codes.getD (e + i) 0 * 2 ^ shift else 0)).foldl (· + ·) 0

/-- code_sum of record `k` of record row `i` of the destination's tile (nb, kb), from the codes that it holds once the
transfer completes (R252). Where a view's storage keeps b' planes, each kept code counts at its stored weight 2^(b − b'). DESIGN CHOICE (log entry 102). -/
def Mv.codeSum (m : Mv) (D : Desc) (v : Side) (nb kb ol i k : Nat) : Mv × Option Nat :=
  let kept := D.keptPlanes
  let shift := D.planes - kept
  (D.groupChunks (if D.across then nb else kb)).foldl (fun a b =>
    match a with
    | (m, none) => (m, none)
    | (m, some t) =>
      if D.across then
        match m.readRows true D m.x.dst.dreg v b kb ol 0 64 kept with
        | (m, some rows) =>
          let part := if D.g < 64 then (rows.drop (k * D.g)).take D.g else rows
          (m, some (t + (part.map (fun r => rowSum r i 1 shift)).foldl (· + ·) 0))
        | (m, none) => (m, none)
      else
        match m.readRows true D m.x.dst.dreg v nb b ol i 1 kept with
        | (m, some rows) => (m, some (t + rowSum (rows.headD default) (k * D.g % 64) (min 64 D.g) shift))
        | (m, none) => (m, none)) (m, some 0)

/-- Write the records of a job with code_sum formed anew (R252, R264). -/
def Mv.wheyJob (m : Mv) (D : Desc) (v : Side) (j : TileJob) (recs : List (List Whey)) : Mv :=
  let ol := D.lin (0 :: 0 :: j.do_)
  let i0 := if D.across then 0 else j.dr
  match m.tilePlace D m.x.dst.dreg v j.dnb j.dkb ol with
  | (m, some (some (_, slot))) =>
    (recs.mapIdx (fun i r => (i, r))).foldl (fun m e =>
      (e.2.mapIdx (fun k w => (k, w))).foldl (fun m f =>
        match m.codeSum D v j.dnb j.dkb ol (i0 + e.1) f.1 with
        | (m, some sum) =>
          m.put (D.recAddr j.dnb j.dkb ol slot (i0 + e.1) f.1) (leBytes (Whey.toNat { f.2 with codeSum := sum }) 8)
        | (m, none) => m) m) m
  | (m, _) => m

/-- Carry out curd jobs, then form the records of what was moved. -/
def Mv.tileJobs (m : Mv) (S D : Desc) (h : Shape) (vs vd : Side) (js : List TileJob) : Mv :=
  let (m, done) := js.foldl (fun a j =>
    match a.1.tileJob S D h vs vd j with
    | (m, some recs) => (m, a.2 ++ [(j, recs)])
    | (m, none) => (m, a.2)) (m, ([] : List (TileJob × List (List Whey))))
  let fail := m.fail
  let m := done.foldl (fun m e => m.wheyJob D vd e.1 e.2) { m with fail := none }
  { m with fail := fail.or m.fail }

end Sys2Proof.Machine
end

