-- ==== Sys2Proof/Machine/DmaCheck.lean ====
section
/-! DEFINITION. What is checked of a transfer before any byte moves: descriptors, origins, pails, handles and overlap
(10_tensors_and_tiling.md R245, R262, R263, R267, R268; 11_ngaosh_instruction_reference.md R284–R287;
15_span_fabric.md R393). -/

namespace Sys2Proof.Machine

/-! Sides of a transfer. -/

/-- Source descriptor. -/
def Xfer.S (x : Xfer) : Desc := Desc.of x.src.bits

/-- Destination descriptor. -/
def Xfer.D (x : Xfer) : Desc := Desc.of x.dst.bits

/-- List descriptor. -/
def Xfer.L (x : Xfer) : Desc := Desc.of x.list.bits

/-- Whether a transfer follows a coordinate list (R265). -/
def Xfer.listed (x : Xfer) : Bool := x.kind == .gather || x.kind == .scatter

/-- Whether a transfer names descriptors. -/
def Xfer.tensor (x : Xfer) : Bool := x.kind != .fill && x.kind != .copy

/-- Whether a transfer permutes dimensions (R267). -/
def Xfer.permutes (x : Xfer) : Bool := x.kind == .xpose || x.kind == .permute

/-- The tile side, without the origin (R262). -/
def Xfer.tile (x : Xfer) : Desc := if x.side then x.S else x.D

/-- The copy of the tile side's descriptor. -/
def Xfer.tileCopy (x : Xfer) : DCopy := if x.side then x.src else x.dst

/-- Position zero. -/
def origin0 : List Nat := [0, 0, 0, 0, 0, 0]

/-- The origin as it moves the source (R262). -/
def Xfer.srcOrg (x : Xfer) : List Nat := if x.side then origin0 else x.S.originPos x.org

/-- The origin as it moves the destination (R262). -/
def Xfer.dstOrg (x : Xfer) : List Nat := if x.side then x.D.originPos x.org else origin0

/-- The source as its agent sees it (R525). -/
def Xfer.srcSide (x : Xfer) : Side := ⟨⟨x.srcPail.isSome, x.tensor && x.S.diag⟩, x.srcWin⟩

/-- The destination as its agent sees it (R525). -/
def Xfer.dstSide (x : Xfer) : Side := ⟨⟨x.dstPail.isSome, x.tensor && x.D.diag⟩, x.dstWin⟩

/-- The list as its agent sees it. -/
def Xfer.listSide (x : Xfer) : Side := ⟨⟨false, x.L.diag⟩, x.listWin⟩

/-- A transfer before it has moved anything. -/
def Mv.start (s : State) (c : Nat) (x : Xfer) : Mv := ⟨s, c, x, [], [], 0, 0, none, []⟩

/-! Boxes. -/

/-- A box of a transfer: the start on either side, and its extents along the destination's dimensions. -/
structure Box where
  sp : List Nat
  dp : List Nat
  n : List Nat
  deriving DecidableEq, Repr, Inhabited

/-- Extents of the tile side's owned extent. -/
def Desc.extents (d : Desc) : List Nat := (List.range 6).map d.owned

/-- The box of MOVE, XPOSE and PERMUTE (R262, R267). -/
def Xfer.wholeBox (x : Xfer) : Box :=
  ⟨x.srcOrg, x.dstOrg, if x.side then permute x.perm x.tile.extents else x.tile.extents⟩

/-- The start of the tile that slot `s` of a descriptor names (R265). -/
def Desc.slotPos (d : Desc) (s : Nat) : List Nat :=
  let t := max 1 d.tilesPerRow
  [64 * (s % t), d.u1 * (s / t), 0, 0, 0, 0]

/-- Rows of a block of list form 1 (R265). -/
def Desc.blockRows (d : Desc) : Nat := if d.pitW then 4 else 1

/-- Extents of a block of list form 0 (R265). -/
def Desc.blockTile (d : Desc) : List Nat := [64, d.u1, 1, 1, 1, 1]

/-- The box of a form 0 entry (R265). -/
def Xfer.tileBox (x : Xfer) (e : BclEntry) : Box :=
  let at_ (d : Desc) : List Nat := [64 * e.kb, d.u1 * e.nb, 0, 0, 0, 0]
  if x.kind = .gather then ⟨posAdd (at_ x.S) x.srcOrg, posAdd (x.D.slotPos e.slot) x.dstOrg, x.S.blockTile⟩
  else ⟨posAdd (x.S.slotPos e.slot) x.srcOrg, posAdd (at_ x.D) x.dstOrg, x.S.blockTile⟩

/-- The box of the form 1 entry `i` that names block `k` (R265). -/
def Xfer.rowBox (x : Xfer) (i k : Nat) : Box :=
  let h := x.S.blockRows
  let n := [x.tile.owned 0, h, 1, 1, 1, 1]
  if x.kind = .gather then ⟨posAdd [0, h * k, 0, 0, 0, 0] x.srcOrg, posAdd [0, h * i, 0, 0, 0, 0] x.dstOrg, n⟩
  else ⟨posAdd [0, h * i, 0, 0, 0, 0] x.srcOrg, posAdd [0, h * k, 0, 0, 0, 0] x.dstOrg, n⟩

/-- Form 1 entries: `n` blocks from entry `i` on; bit 31 is ignored (R265). -/
def Mv.blockEntries (m : Mv) (i : Nat) : Nat → Mv × Option (List Nat)
  | 0 => (m, some [])
  | n + 1 =>
    match m.getIn false m.x.L m.x.list.dreg m.x.listSide m.x.L.listAddr (m.x.L.listAddr + 4 * i) 4 with
    | (m, some bs) =>
      match m.blockEntries (i + 1) n with
      | (m, some r) => (m, some (leNat bs % 2 ^ 31 :: r))
      | (m, none) => (m, none)
    | (m, none) => (m, none)

/-- The boxes of a transfer, in list order (R262, R265). -/
def Mv.boxes (m : Mv) : Mv × Option (List Box) :=
  if m.x.listed then
    if m.x.form then
      match m.blockEntries 0 m.x.cnt.toNat with
      | (m, some l) => (m, some (l.mapIdx (fun i k => m.x.rowBox i k)))
      | (m, none) => (m, none)
    else
      match m.bclList m.x.L m.x.list.dreg m.x.listSide with
      | (m, some l) => (m, some (l.map m.x.tileBox))
      | (m, none) => (m, none)
  else (m, some [m.x.wholeBox])

/-! Byte hulls of boxes (R268). -/

/-- First and last position of a box inside a descriptor's owned extent. -/
def Desc.clip (d : Desc) (p n : List Nat) : Option (List Nat × List Nat) :=
  let hi (k : Nat) : Nat := min (posAt p k + posAt n k) (d.owned k)
  if (List.range 6).all (fun k => decide (posAt p k < hi k)) then
    some ((List.range 6).map (posAt p), (List.range 6).map (fun k => hi k - 1))
  else none

/-- Byte hulls of a side: elements or curd, whey, tile headers; each [lo, hi) in Span addresses. -/
structure Hulls where
  curd : Option (Nat × Nat)
  whey : Option (Nat × Nat)
  head : Option (Nat × Nat)
  deriving DecidableEq, Repr, Inhabited

/-- The hull of two. -/
def joinRange : Option (Nat × Nat) → Option (Nat × Nat) → Option (Nat × Nat)
  | some a, some b => some (min a.1 b.1, max a.2 b.2)
  | some a, none => some a
  | none, b => b

/-- The hull of two sets of hulls. -/
def Hulls.join (a b : Hulls) : Hulls := ⟨joinRange a.curd b.curd, joinRange a.whey b.whey, joinRange a.head b.head⟩

/-- No bytes. -/
def Hulls.none_ : Hulls := ⟨none, none, none⟩

/-- The hulls as a list. -/
def Hulls.list (h : Hulls) : List (Nat × Nat) := h.curd.toList ++ h.whey.toList ++ h.head.toList

/-- Hulls of the tiles of a BCL tensor that a list names inside [lo, hi] (R132). -/
def Desc.bclHulls (d : Desc) (es : List BclEntry) (lo hi : List Nat) : Hulls :=
  let inBox (e : BclEntry) : Bool :=
    decide ((posAt lo 0 + d.glob0 0) / 64 ≤ e.kb) && decide (e.kb ≤ (posAt hi 0 + d.glob0 0) / 64) &&
    decide ((posAt lo 1 + d.glob0 1) / d.tileRows ≤ e.nb) && decide (e.nb ≤ (posAt hi 1 + d.glob0 1) / d.tileRows)
  (es.filter inBox).foldl (fun a e =>
    a.join ⟨some (d.slotAddr e.slot, d.slotAddr e.slot + d.denseTile),
      some (d.slotWhey e.slot 0 0, d.slotWhey (e.slot + 1) 0 0), none⟩) .none_

/-- Every position below the extents, dimension 0 fastest. -/
def nested : List Nat → List (List Nat)
  | [] => [[]]
  | n :: r => (nested r).flatMap (fun p => (List.range n).map (fun i => i :: p))

/-- The tiles (nb, kb, outer index) that the positions [lo, hi] lie in. -/
def Desc.tilesOf (d : Desc) (lo hi : List Nat) : List (Nat × Nat × Nat) :=
  let size (k u : Nat) : Nat := posAt hi k / u + 1 - posAt lo k / u
  (nested (size 0 64 :: size 1 d.tileRows :: (List.range 4).map (fun k => size (k + 2) 1))).map (fun q =>
    (posAt lo 1 / d.tileRows + posAt q 1, posAt lo 0 / 64 + posAt q 0, d.lin (posAdd (0 :: 0 :: lo.drop 2) (0 :: 0 :: q.drop 2))))

/-- Hulls of the bytes of the positions [lo, hi] of a descriptor, the entries of a BCL list given (R241, R268). -/
def Desc.rangeHulls (d : Desc) (es : List BclEntry) (lo hi : List Nat) : Hulls :=
  if d.pit = false then ⟨some (d.posAddr lo, d.posAddr hi + d.elem), none, none⟩
  else if d.bcl then d.bclHulls es lo hi
  else
    let rows := d.tileRows
    let ol0 := d.lin lo
    let ol1 := d.lin hi
    let t0 := d.tileAddr (posAt lo 1 / rows) (posAt lo 0 / 64) ol0
    let t1 := d.tileAddr (posAt hi 1 / rows) (posAt hi 0 / 64) ol1
    let curd := if d.dense then (t0 + 8 * (posAt lo 1 % rows), t1 + d.pitch - 8 * (rows - 1 - posAt hi 1 % rows))
      else (t0, t1 + d.pitch)
    let recs (p : List Nat) (ol : Nat) : Nat := d.wheyAddr (posAt p (1 - d.redDim)) (d.group (posAt p d.redDim)) ol
    let whey := (recs lo ol0, recs hi ol1 + 8)
    ⟨some curd, some whey,
      if d.bitmap then some (d.headAddr (posAt lo 1 / rows) (posAt lo 0 / 64) ol0, d.headAddr (posAt hi 1 / rows) (posAt hi 0 / 64) ol1 + 8)
      else none⟩

/-- Entries of a BCL descriptor's list, where its bytes are at hand; of any other descriptor none. -/
def State.listOf (s : State) (c : Nat) (x : Xfer) (d : DCopy) (v : Side) : List BclEntry :=
  if (Desc.of d.bits).bcl then (((Mv.start s c x).bclList (Desc.of d.bits) d.dreg v).2).getD [] else []

/-- The hull of the BITMAP tiles that the positions [lo, hi] read, where their headers place them (R126, R241); a header that
is not at hand counts its slot. -/
def State.bitmapHull (s : State) (c : Nat) (x : Xfer) (d : Desc) (v : Side) (lo hi : List Nat) : Option (Nat × Nat) :=
  (d.tilesOf lo hi).foldl (fun a t =>
    let r := match ((Mv.start s c x).get v (d.headAddr t.1 t.2.1 t.2.2) 8).2 with
      | some bs =>
        let h := TileHead.of (leNat bs)
        (d.addr + h.off, d.addr + h.off + h.size)
      | none => (d.tileAddr t.1 t.2.1 t.2.2, d.tileAddr t.1 t.2.1 t.2.2 + d.denseTile)
    joinRange a (some r)) none

/-- Hulls of the bytes that the boxes read inside the source's owned extent. -/
def State.readHulls (s : State) (c : Nat) (x : Xfer) (bs : List Box) : Hulls :=
  let es := s.listOf c x x.src x.srcSide
  bs.foldl (fun a b => match x.S.clip b.sp (unpermute x.perm b.n) with
    | some (lo, hi) =>
      let h := x.S.rangeHulls es lo hi
      a.join (if x.S.bitmap then { h with curd := s.bitmapHull c x x.S x.srcSide lo hi } else h)
    | none => a) .none_

/-- Hulls of the bytes that the boxes write inside the destination's owned extent. -/
def State.writeHulls (s : State) (c : Nat) (x : Xfer) (bs : List Box) : Hulls :=
  let es := s.listOf c x x.dst x.dstSide
  bs.foldl (fun a b => match x.D.clip b.dp b.n with
    | some (lo, hi) => a.join (x.D.rangeHulls es lo hi)
    | none => a) .none_

/-! What a hull reaches (R268, R525). -/

/-- Bank words of a Scratchpad by plain number, or a range of Span addresses in whole atoms. -/
inductive Reach where
  | words (core : Nat) (l : List Nat)
  | atoms (lo hi : Nat)
  deriving DecidableEq, Repr

/-- What bytes [lo, hi) of a side reach. -/
def State.reach (s : State) (v : SideView) (h : Nat × Nat) : Reach :=
  match if h.1 / 2 ^ 48 = s.nodeId then spadPlace (localOf h.1) else none with
  | some (t, o) =>
    .words t ((List.range ((o + (h.2 - h.1) - 1) / 64 + 1 - o / 64)).filterMap (fun i =>
      ((s.core t).viewPlain v (64 * (o / 64 + i))).map (· / 64)))
  | none => .atoms (h.1 / 32 * 32) (ceilDiv h.2 32 * 32)

/-- Whether two reaches meet. -/
def Reach.meets : Reach → Reach → Bool
  | .words a l, .words b r => a == b && l.any r.contains
  | .atoms a b, .atoms c d => decide (a < d) && decide (c < b)
  | _, _ => false

/-- The exact in-place square transpose that R268 allows. -/
def Xfer.squareInPlace (x : Xfer) (c : Nat) : Bool :=
  let d := x.S
  x.kind == .xpose && x.src.bits == x.dst.bits && d.layout == 2 && (d.dim 0).s == 0 && (d.dim 1).s == 0 && d.diag &&
  d.spadCore == some c && d.stride1 == 1024 && d.owned 0 == d.owned 1 && d.owned 0 % 16 == 0 && decide (0 < d.owned 0) &&
  decide (d.owned 0 ≤ 256) && (d.local_ - spadBase) % 0x4000 == 0

/-- DMA.OVERLAP (R268). -/
def State.overlaps (s : State) (c : Nat) (x : Xfer) (bs : List Box) : Bool :=
  !x.squareInPlace c &&
  (s.readHulls c x bs).list.any (fun r => (s.writeHulls c x bs).list.any (fun w =>
    (s.reach x.srcSide.view r).meets (s.reach x.dstSide.view w)))

/-! Pails (R284). -/

/-- SPAD.PAIL_ROLE at the first row of a pail. -/
def State.pailRoleStop (s : State) (c i : Nat) : Stop := { Stop.of Code.pailRole with row := (s.pailCfg c i).first, port := 2 }

/-- Whether a pail does not have the core DMA engine in a role. -/
def State.pailNotDma (s : State) (c i : Nat) (consumer : Bool) : Bool :=
  let p := s.pailCfg c i
  !p.valid || (if consumer then p.consumer else p.producer) != 2

/-- Whether bytes [lo, hi) lie in a pail's storage, in the wide view (R184, R525). -/
def State.inPail (s : State) (c i : Nat) (h : Nat × Nat) : Bool :=
  let p := s.pailCfg c i
  let w := 64 * (s.core c).bm
  match if h.1 / 2 ^ 48 = s.nodeId then spadPlace (localOf h.1) else none with
  | some (t, o) => t == c && decide (p.first * w ≤ o) && decide (o + (h.2 - h.1) ≤ (p.first + p.rows) * w)
  | none => false

/-- The fault of a side that names a pail and addresses other storage. -/
def State.sideOutside (s : State) (c : Nat) (pail : Option Nat) (hs : List (Nat × Nat)) : Option Stop :=
  match pail with
  | some i => if hs.all (s.inPail c i) then none else some (s.pailRoleStop c i)
  | none => none

/-- The faults of a transfer's boxes: storage outside a named pail, and overlap. -/
def State.boxFault (s : State) (c : Nat) (x : Xfer) (bs : List Box) : Option Stop :=
  ((s.sideOutside c x.srcPail (s.readHulls c x bs).list).or (s.sideOutside c x.dstPail (s.writeHulls c x bs).list)).or
    (if s.overlaps c x bs then some (Stop.of Code.dmaOverlap) else none)

/-- The faults of the pails' roles. -/
def State.roleFault (s : State) (c : Nat) (x : Xfer) : Option Stop :=
  let bad (p : Option Nat) (consumer : Bool) : Option Stop :=
    p.bind (fun i => if s.pailNotDma c i consumer then some (s.pailRoleStop c i) else none)
  (bad x.srcPail true).or (bad x.dstPail false)

/-! Descriptors and origins. -/

/-- A use of a d-register that holds no valid descriptor (R245). -/
def DCopy.unset (d : DCopy) : Option Stop :=
  if (Desc.of d.bits).valid then none else some { Stop.of Code.descInvalid with detail := 1, dreg := d.dreg }

/-- R263: the fields in which source and destination agree. -/
def Desc.agrees (a b : Desc) : Bool :=
  a.layout == b.layout && a.fmt == b.fmt && a.view == b.view && a.gsize == b.gsize && a.sparse == b.sparse

/-- Whether a position is whole tiles (R262). -/
def Desc.wholeTiles (d : Desc) (p : List Nat) : Bool := posAt p 0 % 64 == 0 && posAt p 1 % d.u1 == 0

/-- Whether the first `r` of a permutation are each of 0 to r − 1 (R267). DEDUCED (log entry 47). -/
def permOk (r : Nat) (p : List Nat) : Bool := (List.range r).all (fun j => (p.take r).contains j)

/-- Whether a side lies in the issuing core's Scratchpad with diag set (R267). -/
def Desc.diagHere (d : Desc) (c : Nat) : Bool := d.diag && d.spadCore == some c

/-- The faults of R262, R263 and R267. DEDUCED (log entry 47). DESIGN CHOICE (log entry 144). -/
def Xfer.formFault (x : Xfer) (c : Nat) : Option Nat :=
  let S := x.S
  let D := x.D
  if x.permutes && (S.pit || D.pit) then some Code.boxAlign
  else if S.agrees D = false then some Code.formatMismatch
  else if x.permutes && S.rank != D.rank then some Code.formatMismatch
  else if x.kind == .permute && !permOk S.rank x.perm then some Code.permInvalid
  else if S.pit && !(S.wholeTiles x.srcOrg && D.wholeTiles x.dstOrg && x.tile.wholeTiles x.tile.extents) then some Code.boxAlign
  else if posAt x.perm 0 ≠ 0 && !(S.diagHere c || D.diagHere c) then some Code.formatMismatch
  else none

/-- The byte hull of a descriptor that names another node, as its handle must hold it (R393). -/
def Desc.byteHull (d : Desc) : Nat × Nat :=
  d.hulls.foldl (fun a h => (min a.1 h.lo, max a.2 h.hi)) (d.local_, d.local_ + 1)

/-- The local bytes that a side of a transfer reaches, as its handle must hold them: those of its boxes, where they are known
at pass, else of the whole descriptor (R393). DEDUCED (log entry 109). -/
def Desc.sideHull (d : Desc) (hs : Option Hulls) : Nat × Nat :=
  match hs.bind (fun h => joinRange h.curd (joinRange h.whey h.head)) with
  | some (lo, hi) => (localOf lo, localOf lo + (hi - lo))
  | none => d.byteHull

/-- The handle of a side that reaches given bytes: none needed, found, or absent. -/
def State.sideWin (s : State) (c : Nat) (d : Desc) (h : Nat × Nat) : Option (Option WinRef) :=
  if s.isLocal d then some none
  else (s.handleFor c d.node h.1 h.2).map some

/-- The boxes of a transfer, where the list that places them is at hand. -/
def State.boxesAtPass (s : State) (c : Nat) (x : Xfer) : Option (List Box) := ((Mv.start s c x).boxes).2

/-- Whether a side's tiles lie where headers or a list say, which stand only when the transfer starts (R123, R131). A
BITMAP destination takes each tile at its own slot (R126). DEDUCED (log entry 109). -/
def Desc.placed (d : Desc) (write : Bool) : Bool := d.bcl || (d.bitmap && !write)

/-- Whether every place that a transfer reaches is known as it passes: no list names its boxes, and no metadata its tiles. -/
def Xfer.placesKnown (x : Xfer) : Bool := !x.listed && !x.S.placed false && !x.D.placed true

/-- The bytes that a transfer's source side reaches (R393). -/
def State.srcHull (s : State) (c : Nat) (x : Xfer) : Nat × Nat :=
  x.S.sideHull (if x.S.placed false then none else (s.boxesAtPass c x).map (s.readHulls c x))

/-- The bytes that a transfer's destination side reaches (R393). -/
def State.dstHull (s : State) (c : Nat) (x : Xfer) : Nat × Nat :=
  x.D.sideHull (if x.D.placed true then none else (s.boxesAtPass c x).map (s.writeHulls c x))

/-- The bytes that a transfer reads of its coordinate list: `cnt` words of 4 bytes in form 1, and in form 0 the descriptor's
whole extent, since the list itself holds its length (R265, R393). DEDUCED (log entry 109). -/
def Xfer.listHull (x : Xfer) : Nat × Nat :=
  if x.form then (localOf x.L.listAddr, localOf x.L.listAddr + 4 * x.cnt.toNat) else x.L.byteHull

/-- FILL and COPY: the faults of R286. Core `c`'s own MINT tables, which no region entry can hold, are a destination in their own
right (R120). DEDUCED (log entry 46). DEDUCED (log entry 98). -/
def State.rawFault (s : State) (c : Nat) (x : Xfer) : Option Stop :=
  let bad (d : Nat) : Stop := { Stop.of Code.descInvalid with detail := d }
  let range (a : Nat) (rd wr : Bool) : Option Stop := (s.rangeBad a (a + x.len) rd wr).map bad
  let ledger (a : Nat) : Option Stop := match regionFor s.sched.regions a (a + x.len) with
    | some r => if r.space = 2 then some (bad 7) else none
    | none => none
  let oneSpad := match spadPlace x.srcAddr, spadPlace x.dstAddr with
    | some (a, o), some (b, p) => a == b && decide (o + x.len ≤ 0x60000) && decide (p + x.len ≤ 0x60000)
    | _, _ => false
  if x.dstAddr % 8 ≠ 0 ∨ x.len % 8 ≠ 0 ∨ (x.kind = .copy ∧ x.srcAddr % 8 ≠ 0) then some (bad 4)
  else if x.len = 0 then none
  else (if mintTable c x.dstAddr (x.dstAddr + x.len) then none else (range x.dstAddr false true).or (ledger x.dstAddr)).or
    (if x.kind = .copy then
      ((range x.srcAddr true false).or (ledger x.srcAddr)).or
        (if !oneSpad && decide (x.srcAddr < x.dstAddr + x.len) && decide (x.dstAddr < x.srcAddr + x.len) then
          some (Stop.of Code.dmaOverlap) else none)
     else none)

/-- The pail storage that FILL and COPY address (R284). -/
def State.rawOutside (s : State) (c : Nat) (x : Xfer) : Option Stop :=
  let h (a : Nat) : List (Nat × Nat) := if x.len = 0 then [] else [(a + s.nodeId * 2 ^ 48, a + s.nodeId * 2 ^ 48 + x.len)]
  (if x.kind = .copy then s.sideOutside c x.srcPail (h x.srcAddr) else none).or (s.sideOutside c x.dstPail (h x.dstAddr))

/-- The faults of a transfer when it passes, but for those of its epoch and its handles. DEDUCED (log entry 40). -/
def State.xferFault (s : State) (c : Nat) (x : Xfer) : Option Stop :=
  if x.tensor then
    ((x.src.unset.or x.dst.unset).or (if x.listed then x.list.unset else none)).or
      (((x.formFault c).map Stop.of).or
        ((s.roleFault c x).or (if x.placesKnown then s.boxFault c x [x.wholeBox] else none)))
  else ((s.rawFault c x).or (s.roleFault c x)).or (s.rawOutside c x)

end Sys2Proof.Machine
end

