-- ==== Sys2Proof/Machine/Dma.lean ====
section
/-! DEFINITION. The core DMA engine: how a transfer starts, moves and completes, and the adds that it sends to ledgers
(11_ngaosh_instruction_reference.md R282–R286; 08_scratchpad_pails_and_rings.md R187–R190; 10_tensors_and_tiling.md
R253–R256, R265, R266; 12_teller_and_random_streams.md R322, R323; 04_ledgers.md R86). -/

namespace Sys2Proof.Machine

/-! What a transfer reads. -/

/-- The runs of a box of a ROW transfer (R250, R267). -/
def Xfer.rowJobs (x : Xfer) (b : Box) : List RowJob :=
  (nested (b.n.drop 1)).map (fun p =>
    let q := 0 :: p
    ⟨posAdd b.sp (unpermute x.perm q), posAdd b.dp q, posAt x.perm 0, 0, posAt b.n 0⟩)

/-- The row pieces of a box along dimension 1: whole tiles, or the rows of one block. -/
def Desc.rowPieces (d : Desc) (n : Nat) : List (Nat × Nat) :=
  if n % d.tileRows = 0 then (List.range (n / d.tileRows)).map (fun i => (d.tileRows * i, d.tileRows)) else [(0, n)]

/-- The tile pieces of a box of a PIT transfer (R262, R265). -/
def Xfer.boxTiles (x : Xfer) (b : Box) : List TileJob :=
  let rows := x.S.tileRows
  (nested (b.n.drop 2)).flatMap (fun o =>
    (x.S.rowPieces (posAt b.n 1)).flatMap (fun r =>
      (List.range (ceilDiv (posAt b.n 0) 64)).map (fun k =>
        let s := posAdd b.sp (64 * k :: r.1 :: o)
        let d := posAdd b.dp (64 * k :: r.1 :: o)
        ⟨posAt s 1 / rows, posAt s 0 / 64, posAt s 1 % rows, s.drop 2,
         posAt d 1 / rows, posAt d 0 / 64, posAt d 1 % rows, d.drop 2, r.2⟩)))

/-- Carry out boxes in list order (R266). -/
def Mv.moveBoxes (m : Mv) (bs : List Box) : Mv :=
  let h := m.x.dst.shape
  if m.x.S.pit then m.tileJobs m.x.S m.x.D h m.x.srcSide m.x.dstSide (bs.flatMap m.x.boxTiles)
  else (bs.flatMap m.x.rowJobs).foldl (fun m j => m.rowJob m.x.S m.x.D h m.x.srcSide j) m

/-- Copy `len` bytes from `a` to `b` in requests of at most 256 B, at most `n` of them (R286). -/
def Mv.copyBytes (m : Mv) (a b len : Nat) : Nat → Mv
  | 0 => m
  | n + 1 =>
    if len = 0 then m
    else
      let k := min len (256 - a % 256)
      match m.get m.x.srcSide a k with
      | (m, some bs) => (m.put b bs).copyBytes (a + k) (b + k) (len - k) n
      | (m, none) => m

/-- Everything that a transfer reads, with what it writes collected. DESIGN CHOICE (log entry 45). -/
def Mv.run (m : Mv) : Mv :=
  let base := m.s.nodeId * 2 ^ 48
  match m.x.kind with
  | .fill => m.put (base + m.x.dstAddr) ((List.range (m.x.len / 8)).flatMap (fun _ => leBytes m.x.org.toNat 8))
  | .copy => m.copyBytes (base + m.x.srcAddr) (base + m.x.dstAddr) m.x.len (m.x.len / 8 + 1)
  | _ =>
    match m.boxes with
    | (m, none) => m
    | (m, some bs) =>
      match if m.x.placesKnown then none else m.s.boxFault m.core m.x bs with
      | some st => Mv.failed { m with s := m.s.countRefusal m.core st.code } st
      | none => m.moveBoxes bs

/-! Requests (R283, R285, R399). -/

/-- Runs of consecutive bytes that do not cross a 256 B boundary. -/
def outRuns : Tab Byte → List (Nat × List Byte)
  | [] => []
  | (a, b) :: r =>
    match outRuns r with
    | (a', bs) :: t => if a + 1 = a' ∧ a' % 256 ≠ 0 then (a, b :: bs) :: t else (a, [b]) :: (a', bs) :: t
    | [] => [(a, [b])]

/-- Runs of P64 values for consecutive words that do not cross a 256 B boundary, in order. -/
def addRuns : List (Nat × Dword) → List (Nat × List Dword)
  | [] => []
  | (a, v) :: r =>
    match addRuns r with
    | (a', vs) :: t => if a + 8 = a' ∧ a' % 256 ≠ 0 then (a, v :: vs) :: t else (a, [v]) :: (a', vs) :: t
    | [] => [(a, [v])]

/-- Whether a Span address lies on this module. -/
def State.here (s : State) (a : Nat) : Bool := a / 2 ^ 48 == s.nodeId

/-- Ask for the words that a remote write fills in part (R285). DESIGN CHOICE (log entry 145). -/
def Mv.askEnds (m : Mv) : Mv :=
  (outRuns m.out).foldl (fun m r =>
    if m.s.here r.1 then m
    else
      let m := if r.1 % 8 ≠ 0 then (m.get m.x.dstSide (r.1 / 8 * 8) 8).1 else m
      let e := r.1 + r.2.length
      if e % 8 ≠ 0 ∧ e / 8 * 8 ≠ r.1 / 8 * 8 then (m.get m.x.dstSide (e / 8 * 8) 8).1 else m) m

/-- The window that a side's requests carry (R393). -/
def Side.ref (d : Side) : WinRef := d.win.getD ⟨0, 0, 0⟩

/-- Issue the Span READs of missing bytes: requests of at most 256 B that do not cross a 256 B boundary. -/
def State.askRead (s : State) (c id : Nat) (d : Side) (a len : Nat) : Nat → State
  | 0 => s
  | n + 1 =>
    if len = 0 then s
    else
      let k := min len (256 - a % 256)
      (s.xferRequest c id (.xferRead c id a k)
        (reqHdr opRead (a / 2 ^ 48) d.ref.window d.ref.generation (k / 8) (localOf a)) []).askRead c id d (a + k) (len - k) n

/-- A transfer under way as writes go out: the state, and whether a write failed. -/
structure Flush where
  s : State
  halted : Bool

/-- Transfer `id` fails. -/
def State.xferFail (s : State) (c id : Nat) (st : Stop) : State := s.modXfer c id (·.fail st)

/-- Whether every fenced item of a transfer is dropped: a remote grant that is stale, or that the counter denied (R323). -/
def Xfer.denied (x : Xfer) : Bool := remoteGrant x.grant && (!x.granted || x.status == Code.stale)

/-- The grant check of one write request (R322, R323): whether it goes on. -/
def Flush.check (f : Flush) (c : Nat) (x : Xfer) : Flush × Bool :=
  if f.halted || x.discard then (f, false)
  else if x.denied then
    (if x.status = Code.stale then { f with s := f.s.bump32 Reg.TELL_STALE 1 } else f, false)
  else
    let (s, stale) := f.s.itemStale c x.grant
    if stale then ({ f with s := s.xferFail c x.id (Stop.of Code.stale) }, false) else ({ f with s := s }, true)

/-- The bytes of a remote write over whole words (R399). -/
def Xfer.wholeWords (x : Xfer) (out : Tab Byte) (a n : Nat) : List Byte :=
  (List.range (ceilDiv (a + n) 8 * 8 - a / 8 * 8)).map (fun i =>
    let k := a / 8 * 8 + i
    match tabFind out k with
    | some b => b
    | none => tabGet 0 x.remote k)

/-- Issue one write request. -/
def Flush.write (f : Flush) (c : Nat) (x : Xfer) (out : Tab Byte) (r : Nat × List Byte) : Flush :=
  match f.check c x with
  | (f, false) => f
  | (f, true) =>
    if f.s.here r.1 then
      match f.s.memWrite c x.dstSide.view (localOf r.1) r.2 with
      | (s, none) => { f with s := s }
      | (s, some e) => ⟨s.xferFail c x.id e.stop, true⟩
    else
      let bs := x.wholeWords out r.1 r.2.length
      let w := x.dstSide.ref
      ⟨f.s.xferRequest c x.id (.xferWrite c x.id)
          (reqHdr opWrite (r.1 / 2 ^ 48) w.window w.generation (bs.length / 8) (localOf r.1 / 8 * 8))
          (bytesDwords (bs.length / 8) bs), f.halted⟩

/-- Entries of an add-port buffer (R89). -/
def addPortSize : Nat := 64

/-- The first `n` adds for core `t` of those held, and the rest. -/
def feedAdds (t : Nat) : Nat → List (Nat × LedgAdd) → List LedgAdd × List (Nat × LedgAdd)
  | _, [] => ([], [])
  | 0, l => ([], l)
  | n + 1, e :: r =>
    if e.1 = t then (e.2 :: (feedAdds t n r).1, (feedAdds t n r).2)
    else ((feedAdds t (n + 1) r).1, e :: (feedAdds t (n + 1) r).2)

/-- Adds that transfer `id` of core `c` holds enter the buffer of core `t` while it has room (R89). DESIGN CHOICE (log entry 113). -/
def State.addFeed (s : State) (t c id : Nat) : State :=
  match (s.core c).dma.find? (·.id == id) with
  | some x =>
    let z := feedAdds t (addPortSize - (s.core t).adds.length) x.addHold
    (s.modCore t (fun k => { k with adds := k.adds ++ z.1 })).modXfer c id (fun y => { y with addHold := z.2 })
  | none => s

/-- Every add held for core `t` that has room enters its buffer, core by core and transfer by transfer. DESIGN CHOICE (log entry 113). -/
def State.addPump (s : State) (t : Nat) : State :=
  coreList.foldl (fun s c => (s.core c).dma.foldl (fun s x => s.addFeed t c x.id) s) s

/-- Send one run of P64 adds: to a ledger of this module, or as PARTIAL (R86, R285). -/
def Flush.add (f : Flush) (c : Nat) (x : Xfer) (r : Nat × List Dword) : Flush :=
  match f.check c x with
  | (f, false) => f
  | (f, true) =>
    if f.s.here r.1 then
      let s := (r.2.mapIdx (fun i v => (localOf r.1 + 8 * i, v))).foldl (fun s e =>
        match addViewPlace e.1 with
        | some (t, l, w) =>
          s.modXfer c x.id (fun y => { y with addWait := y.addWait + 1, addHold := y.addHold ++ [(t, ⟨.xfer c x.id, l, w, e.2⟩)] })
        | none => s) f.s
      { f with s := s }
    else
      let w := x.dstSide.ref
      ⟨f.s.xferRequest c x.id (.xferWrite c x.id)
          (reqHdr opPartial (r.1 / 2 ^ 48) w.window w.generation r.2.length (localOf r.1)) r.2, f.halted⟩

/-! The transfer's life. -/

/-- Transfer `id` of core `c`. -/
def State.xfer (s : State) (c id : Nat) : Option Xfer := (s.core c).dma.find? (·.id == id)

/-- The consumer's end event of a transfer's source pail, at its last read (R187). -/
def State.drainEnd (s : State) (c : Nat) (x : Xfer) : State :=
  match x.srcPail with
  | some i => s.modCore c (fun k => k.setPail i (k.pail i).emptied)
  | none => s

/-- The producer's end event of a transfer's destination pail (R187, R189); a squashed fill sets no tag (R190). -/
def State.fillEnd (s : State) (c : Nat) (x : Xfer) : State :=
  match x.dstPail with
  | some i => if x.discard then s else s.modCore c (fun k => k.setPail i ((k.pail i).filled x.status))
  | none => s

/-- Take a transfer off the queue and hand its status to the Clerk (R219, R283). The output of a NEST loop has no
operation of its own: its failure stops the core. -/
def State.xferDone (s : State) (c : Nat) (x : Xfer) : State :=
  let s := s.modCore c (fun k => { k with dma := k.dma.filter (fun y => y.id != x.id) })
  if x.nest then (if x.status ≠ 0 ∧ x.dstPail = none then s.opStop c { x.stop with pc := some x.pc } else s)
  else if x.status = 0 then s.opEnd c x.id 0 none
  else s.opFail c x.id x.stop

/-- Count what the moving of a transfer met (R250, R252). -/
def State.countMv (s : State) (c : Nat) (m : Mv) : State :=
  (s.bump64 (Reg.CORE_DESC_FILL_READS_LO c) m.fills).bump64 (Reg.CORE_DESC_OOB_WRITES_LO c) m.oob

/-- The whey base of a transfer's destination, where it writes whey. -/
def Xfer.wheyPlace (x : Xfer) : Option Nat := if x.tensor && x.D.pit then some x.D.wheyBase.toNat else none

/-- Keep the blocks that a GATHER of form 1 put at a whey base of the own Scratchpad; any other transfer there removes them
(R150). DEDUCED (log entry 28). -/
def State.notePacked (s : State) (c : Nat) (x : Xfer) : State :=
  match x.wheyPlace with
  | none => s
  | some b =>
    let l := if x.kind = .gather ∧ x.form ∧ x.D.pitW ∧ x.D.spadCore = some c then
        match (Mv.start s c x).blockEntries 0 x.cnt.toNat with
        | (_, some l) => [(b, l)]
        | (_, none) => []
      else []
    s.modCore c (fun k => { k with packed := k.packed.filter (fun e => e.1 != b) ++ l })

/-- The first staging of a NEST operand whose list has not been read gives the list to the loop (R138, R260). DEDUCED (log entry 125). -/
def State.noteList (s : State) (c : Nat) (x : Xfer) (m : Mv) : State :=
  if x.nest && x.dstPail.isSome && x.S.bcl then
    match (m.bclList x.S x.src.dreg x.srcSide).2 with
    | some l =>
      let add (p : Part) : Part :=
        if p.nest.isEmpty ∨ (p.lists.lookup x.src.dreg).isSome then p
        else { p with lists := p.lists ++ [(x.src.dreg, l.map (fun e => (e.nb, e.kb, e.slot)))] }
      s.modCore c (fun k => { k with seq := k.seq.map (fun o => { o with plan := o.plan.map (fun p => ⟨p.parts.map add⟩) }) })
    | none => s
  else s

/-- Move a started transfer: its reads, then its write requests; after a failed read it issues none (R283). Where bytes of
another module are missing, only their Span READs are issued. DESIGN CHOICE (log entry 45). -/
def State.xferMove (s : State) (c : Nat) (x : Xfer) : State :=
  let m := ((Mv.start s c x).run).askEnds
  if m.miss.isEmpty = false then
    m.miss.foldl (fun t q => t.askRead c x.id q.1 q.2.1 q.2.2 (q.2.2 / 8 + 1)) s
  else
    let s := ((m.s.noteList c x m).countMv c m).modXfer c x.id (fun y => { y with moved := true })
    let s := match m.fail with
      | some st => s.xferFail c x.id st
      | none => s
    let s := (s.notePacked c x).drainEnd c x
    let f : Flush := (outRuns m.out).foldl (fun (f : Flush) r => f.write c x m.out r) ⟨s, m.fail.isSome⟩
    let s := ((addRuns m.adds).foldl (fun (f : Flush) r => f.add c x r) f).s
    ((m.adds.filterMap (fun e => (addViewPlace (localOf e.1)).map (·.1))).dedup).foldl State.addPump s

/-- A transfer whose source pail holds a failed fill moves nothing and ends with the kept status (R189). -/
def State.xferErr (s : State) (c : Nat) (x : Xfer) (kept : Nat) : State :=
  ((s.xferFail c x.id (Stop.of kept)).modXfer c x.id (fun y => { y with moved := true })).drainEnd c x

/-- The kept status of a transfer's source pail, 0 without one. -/
def State.srcKept (s : State) (c : Nat) (x : Xfer) : Nat :=
  match x.srcPail with
  | some i => if ((s.core c).pail i).err then ((s.core c).pail i).kept else 0
  | none => 0

/-- Whether a transfer's descriptors have no valid position in a row or outer dimension of the tile side (R254). -/
def Xfer.noop (x : Xfer) : Bool :=
  let h := x.tileCopy.shape
  x.tensor && (List.range 5).any (fun k => h.at (k + 1) == 0)

/-- Whether the pails of a transfer let it start (R185, R188, R190, R256); a transfer of a NEST loop takes its pails in
rotation, each FULL or EMPTY (R260). -/
def Core.xferReady (k : Core) (x : Xfer) : Bool :=
  (match x.srcPail with
   | some i => (k.pail i).readable x.epoch && (!(x.noop || x.nest) || (k.pail i).st == .full)
   | none => true) &&
  (match x.dstPail with
   | some i =>
     let p := k.pail i
     if x.epoch = 0 then p.writable 0 && (!(x.noop || x.nest) || p.st == .empty)
     else p.st == .empty && (p.epoch == 0 || p.epoch == x.epoch)
   | none => true)

/-- Whether the transfers before `id` have started or wait on a pail (R188, R225). -/
def Core.xferFirst (k : Core) (id : Nat) : Bool :=
  (k.dma.takeWhile (fun y => y.id != id)).all (fun y => y.started || !k.xferReady y)

/-- The faults that stop a transfer as it starts (R249, R253). -/
def State.startFault (s : State) (x : Xfer) : Option Stop :=
  let denied (d : DCopy) (write : Bool) : Option Stop :=
    if s.descDenied (Desc.of d.bits) write then some { Stop.of Code.descInvalid with detail := 8, dreg := d.dreg } else none
  let big (d : DCopy) : Option Stop := if d.shape.excess then some { Stop.of Code.shapeOver with dreg := d.dreg } else none
  let list (f : DCopy → Option Stop) : Option Stop := if x.listed then f x.list else none
  if x.tensor then
    ((denied x.src false).or ((denied x.dst true).or (list (denied · false)))).or ((big x.src).or ((big x.dst).or (list big)))
  else none

/-- First accesses of a transfer's pails (R185, R190). -/
def Core.claimPails (k : Core) (x : Xfer) : Core :=
  let k := match x.srcPail with
    | some i => k.setPail i (k.pail i).firstRead
    | none => k
  match x.dstPail with
  | some i => k.setPail i ((k.pail i).firstWrite x.epoch)
  | none => k

/-- Send the check of a remote grant (R323). -/
def State.askGrant (s : State) (c : Nat) (x : Xfer) (w : Dword) : State :=
  s.xferRequest c x.id (.grant c x.id) (grantHdr w) [0]

/-- Go on with a started transfer that waits for nothing: its grant first, then its bytes. -/
def State.xferGo (s : State) (c : Nat) (x : Xfer) : State :=
  match x.grant with
  | some w =>
    if grantRemote w ∧ x.granted = false then
      (if x.status = 0 then s.askGrant c x w else (s.modXfer c x.id (fun y => { y with moved := true })).drainEnd c x)
    else s.xferMove c x
  | none => s.xferMove c x

/-- A transfer starts (R188). -/
def State.xferStart (s : State) (c : Nat) (x : Xfer) (waited : Nat) : State :=
  let s := if x.srcPail.isSome ∨ x.dstPail.isSome then s.bump64 (Reg.SPAD_PAIL_WAIT_LO c) waited else s
  match s.startFault x with
  | some st => s.xferDone c { x with status := st.code, stop := st }
  | none =>
    let dropped := if x.tensor && !x.nest then
        x.src.shape.dropped + x.dst.shape.dropped + (if x.listed then x.list.shape.dropped else 0) else 0
    let s := s.bump64 (Reg.CORE_DESC_DROPPED_LO c) dropped
    let kept := s.srcKept c x
    let x := { x with started := true }
    let s := (s.modCore c (·.claimPails x)).modXfer c x.id (fun _ => x)
    if kept ≠ 0 then s.xferErr c x kept
    else if x.noop then
      let x := { x with moved := true }
      let s := ((s.bump32 (Reg.CORE_DESC_NOOPS c) 1).drainEnd c x).fillEnd c x
      s.modXfer c x.id (fun _ => { x with srcPail := none, dstPail := none })
    else s.xferGo c x

/-- Whether a transfer may start. -/
def Core.mayStart (k : Core) (x : Xfer) : Bool :=
  !x.started && k.ownerReq.isNone && k.xferReady x && k.xferFirst x.id

/-- TRANSFER_START (R188). -/
def execTransferStart (c : CoreId) (op waited : Nat) (s : State) : Outcome :=
  match s.xfer c.val op with
  | some x => act ((s.core c.val).mayStart x) s (s.xferStart c.val x waited)
  | none => .next s

/-- A started transfer with nothing in flight goes on, or completes (R283); a squashed one ends without effect or error
(R232). DESIGN CHOICE (log entry 45). -/
def State.xferStep (s : State) (c : Nat) (x : Xfer) : State :=
  if x.discard then (if x.moved then s else s.drainEnd c x).xferDone c { x with status := 0 }
  else if x.moved then (s.fillEnd c x).xferDone c x
  else s.xferGo c x

/-- Whether a started transfer waits for no response and no add (R86, R402). -/
def Xfer.quiet (x : Xfer) : Bool := x.started && x.spanWait.isEmpty && x.addWait == 0

/-- TRANSFER_COMPLETE (R283). -/
def execTransferComplete (c : CoreId) (op : Nat) (s : State) : Outcome :=
  match s.xfer c.val op with
  | some x => act x.quiet s (s.xferStep c.val x)
  | none => .next s

/-! Adds at the ledger (R86). -/

/-- The sender of an add learns whether it was added (R83, R86, R402). DEDUCED (log entry 39). -/
def State.addLanded (s : State) (a : AddFrom) (tile : Nat) (added : Bool) : State :=
  match a with
  | .xfer c id => s.modXfer c id (fun x =>
      let x := { x with addWait := x.addWait - 1 }
      if added then x else x.fail { Stop.of Code.addRefused with tile := some tile })
  | .partials n => { s with span := { s.span with served := s.span.served.map (fun v =>
      if v.id = n then { v with left := v.left - 1, dropped := v.dropped || !added } else v) } }
  | .host => s

/-- Answer the PARTIALs all of whose values have been added or dropped (R402); one with a dropped value counts as refused
(R401). -/
def State.servedDone (s : State) : State :=
  let done := s.span.served.filter (fun v => v.left == 0)
  let s := { s with span := { s.span with served := s.span.served.filter (fun v => v.left != 0) } }
  (done.foldl (fun s v =>
    (if v.dropped then s.bump32 Reg.SPAN_NACKS 1 else s.bump64 Reg.SPAN_SERVED_LO 1).spanAnswer v.hdr (if v.dropped then 4 else 0) [])
    s).winSettle

/-- The oldest add of core `c` reaches its tile. -/
def State.addStep (s : State) (c : Nat) : State :=
  match (s.core c).adds with
  | [] => s
  | a :: rest =>
    let s := s.modCore c (fun k => { k with adds := rest })
    let (s, added) := s.p64Add c a.tile a.word a.value
    (s.addLanded a.src a.tile added).servedDone.addPump c

/-- The ledger tiles that a store under way reads: its source and fused tiles (R86, R97, R292). -/
def SeqOp.storeTiles (o : SeqOp) : List Nat :=
  match o.kind with
  | .tstore _ => o.tilesOf
  | .tmul2 f =>
    halfTiles f.q.toNat ++ (if (StoreWord.of (o.gvals.getD 3 0).toNat).fused then halfTiles (1 - f.q.toNat) else [])
  | _ => []

/-- Whether an add waits for the end of a store that has begun on its tile (R86). DESIGN CHOICE (log entry 113). -/
def Core.addHeld (k : Core) (a : LedgAdd) : Bool :=
  k.issuing.any (fun o => o.begun && o.storing && o.storeTiles.contains a.tile)
end Sys2Proof.Machine
end

