-- ==== Sys2Proof/Machine/ClerkDma.lean ====
section
/-! DEFINITION. Transfers and atomics as the Clerk passes them (11_ngaosh_instruction_reference.md R282–R287, R312;
09_programming_model.md R217, R229; 15_span_fabric.md R393; 12_teller_and_random_streams.md R323). -/

namespace Sys2Proof.Machine

/-- An operation that completes at once with a status (R312). -/
def State.opNow (s : State) (c : Nat) (cls : OpClass) (gd gs code : Nat) (value : Option Dword) : State :=
  let (s, id) := s.newOp c cls gd gs true
  if code = 0 then s.opEnd c id 0 value else s.opFail c id (Stop.of code)

/-- A pail field (R275): bit 6 says whether it names a pail. -/
def pailField (v : BitVec 7) : Option Nat := if bitOf v.toNat 6 then some (v.toNat % 64) else none

/-- Whether an instruction may name an epoch: a fault of R229, if any. -/
def Core.epochFault (k : Core) (e : Nat) (kindOk : Bool) : Option Nat :=
  if e = 0 then none
  else if kindOk = false then some Code.epochKind
  else if k.epoch e ≠ .opened then some Code.epochClosed
  else none

/-- Whether a transfer reaches another module (R285). -/
def State.xferRemote (s : State) (x : Xfer) : Bool :=
  x.tensor && (!s.isLocal x.S || !s.isLocal x.D || (x.listed && !s.isLocal x.L))

/-- The windows of a transfer's remote sides (R393); none where a handle is missing. -/
def State.xferWins (s : State) (c : Nat) (x : Xfer) : Option Xfer :=
  if x.tensor = false then some x
  else match s.sideWin c x.S (s.srcHull c x), s.sideWin c x.D (s.dstHull c x),
      (if x.listed then s.sideWin c x.L x.listHull else some none) with
    | some a, some b, some l => some { x with srcWin := a, dstWin := b, listWin := l }
    | _, _, _ => none

/-- The node of the first side of a transfer that has no handle (R393, R506). -/
def State.unreached (s : State) (c : Nat) (x : Xfer) : Nat :=
  if (s.sideWin c x.S (s.srcHull c x)).isNone then x.S.node
  else if (s.sideWin c x.D (s.dstHull c x)).isNone then x.D.node
  else x.L.node

/-- Operations that stand in the core DMA engine's queue: its transfers, and atomics that wait for their answer (R217, R225). -/
def Core.dmaQueued (k : Core) : Nat :=
  k.dma.length + (k.ops.filter (fun o => o.cls == .dma && o.result.isNone && k.dma.all (·.id != o.id))).length

/-- Whether an atomic starts now: the queue has room, and the transfers that passed before it have started or wait on a pail
(R217, R225). DESIGN CHOICE (log entry 45). -/
def Core.atomicStarts (k : Core) : Bool := decide (k.dmaQueued < 64) && k.dma.all (fun y => y.started || !k.xferReady y)

/-- A transfer passes (R217, R283): its epoch, its faults, absent units, its handles, and its place in the queue. A FILL
or COPY of length zero completes with no effect (R286). -/
def State.passXfer (s : State) (c gs : Nat) (x : Xfer) : Passed :=
  let k := s.core c
  if 64 ≤ k.dmaQueued then .wait s
  else match k.epochFault x.epoch x.dstPail.isSome with
  | some code => .fault s code
  | none =>
    match s.xferFault c x with
    | some st => .stop (s.countRefusal c st.code) st 0
    | none =>
      if spanPresent s.variant = false && (remoteGrant x.grant || s.xferRemote x) then
        .pass (s.opNow c .dma 0 gs Code.unitAbsent none)
      else match s.xferWins c x with
        | none => .stop s { Stop.of Code.noHandle with node := s.unreached c x } 0
        | some x =>
          if x.tensor = false ∧ x.len = 0 then .pass (s.opNow c .dma 0 gs 0 none)
          else .pass ((s.newOp c .dma 0 gs true).1.modCore c (fun k => { k with dma := k.dma ++ [x] }))

/-- A transfer that core `c` begins to pass: nothing named yet. -/
def Core.blankXfer (k : Core) (kind : XferKind) (epoch : Nat) : Xfer where
  id := k.nextOp
  pc := k.pc
  kind := kind
  side := false
  src := ⟨0, 0, 0⟩
  dst := ⟨0, 0, 0⟩
  list := ⟨0, 0, 0⟩
  org := 0
  form := false
  cnt := 0
  dstAddr := 0
  srcAddr := 0
  len := 0
  srcPail := none
  dstPail := none
  epoch := epoch
  grant := k.grant
  granted := false
  srcWin := none
  dstWin := none
  listWin := none
  nest := false
  started := false
  moved := false
  discard := false
  status := 0
  stop := Stop.of 0
  remote := []
  spanWait := []
  addWait := 0
  addHold := []

/-- Format T (R282): MOVE, GATHER, SCATTER, XPOSE and PERMUTE. -/
def bodyT (c : CoreId) (kind : XferKind) (side : Bool) (f : FmtT) (s : State) : Passed :=
  let k := s.core c.val
  s.passXfer c.val f.gs.toNat { k.blankXfer kind f.epoch.toNat with
    side := side
    src := k.copyD f.ds.toNat
    dst := k.copyD f.dd.toNat
    list := k.copyD f.dl.toNat
    org := k.greg f.go.toNat
    form := f.form == 1
    cnt := k.greg f.gc.toNat
    srcPail := pailField f.srcPail
    dstPail := pailField f.dstPail }

/-- FILL (R286): gb bytes from address ga take the value gc. DEDUCED (log entry 46). -/
def bodyFill (c : CoreId) (f : FmtF) (s : State) : Passed :=
  let k := s.core c.val
  let n := (k.greg f.gb.toNat).toNat
  s.passXfer c.val f.gs.toNat { k.blankXfer .fill f.epoch.toNat with
    org := k.greg f.gc.toNat
    dstAddr := (k.greg f.ga.toNat).toNat
    len := n
    srcPail := pailField f.srcPail
    dstPail := pailField f.dstPail }

/-- COPY (R286): gc bytes from address gb to address ga. DEDUCED (log entry 46). -/
def bodyCopy (c : CoreId) (f : FmtF) (s : State) : Passed :=
  let k := s.core c.val
  s.passXfer c.val f.gs.toNat { k.blankXfer .copy f.epoch.toNat with
    dstAddr := (k.greg f.ga.toNat).toNat
    srcAddr := (k.greg f.gb.toNat).toNat
    len := (k.greg f.gc.toNat).toNat
    srcPail := pailField f.srcPail
    dstPail := pailField f.dstPail }

/-! Atomics (R287). -/

/-- The 8 bytes at a local LPDDR address, which lie in one atom, take what `f` makes of them in one access of the atom; nothing
is written where it gives none (R342, R345, R347). Answers the old value. -/
def State.atomic8 (s : State) (a core : Nat) (f : Dword → Option Dword) : State × Dword × AccStatus :=
  let old (d : List Byte) : Dword := BitVec.ofNat 64 (leNat ((d.drop (a % 32)).take 8))
  if a + 8 > s.lpddrEnd then (s, 0, ⟨Code.lpddrRange, 0⟩)
  else match s.atomUpdate (a / 32) (a % 32) core (fun d => (f (old d)).map (fun v => leBytes v.toNat 8)) with
    | (s, d, st) => (s, old d, st)

/-- What FADD and AADD make of the old value. -/
def addsTo (addend old : Dword) : Option Dword := some (old + addend)

/-- What CAS and ACAS make of the old value. -/
def swapsTo (compare swap old : Dword) : Option Dword := if old = compare then some swap else none

/-- AADD or ACAS at Span address `a` (R287, R393): `op` and `payload` are the Span request's. DESIGN CHOICE (log entry 45). -/
def State.atomicPass (s : State) (c gd gs : Nat) (a : Dword) (f : Dword → Option Dword) (op : Nat) (payload : List Dword) : Passed :=
  let x := a.toNat
  let lo := localOf x
  if x % 8 ≠ 0 ∨ 2 ^ 56 ≤ x then .fault s Code.addrRange
  else if (s.core c).atomicStarts = false then .wait s
  else if x / 2 ^ 48 = s.nodeId then
    match regionFor s.sched.regions lo (lo + 8) with
    | none => .stop s { Stop.of Code.descInvalid with detail := 7 } 0
    | some r =>
      if r.space ≠ 0 then .stop s { Stop.of Code.descInvalid with detail := 7 } 0
      else if r.rd = false ∨ r.wr = false then .stop s { Stop.of Code.descInvalid with detail := 8 } 0
      else
        let (s, id) := s.newOp c .dma gd gs true
        match s.atomic8 lo c f with
        | (s, old, st) => .pass (if st.code = 0 then s.opEnd c id 0 (some old) else s.opFail c id (st.fail lo).stop)
  else if spanPresent s.variant = false then .pass (s.opNow c .dma gd gs Code.unitAbsent none)
  else match s.handleFor c (x / 2 ^ 48) lo (lo + 8) with
    | none => .stop s { Stop.of Code.noHandle with node := x / 2 ^ 48, addr := some x } 0
    | some w =>
      let (s, id) := s.newOp c .dma gd gs true
      .pass (s.spanRequest (.op c id) (reqHdr op w.node w.window w.generation payload.length lo) payload)

/-- AADD: gd := old; memory := old + gb. -/
def bodyAadd (c : CoreId) (f : FmtA) (s : State) : Passed :=
  let k := s.core c.val
  let v := k.greg f.gb.toNat
  s.atomicPass c.val f.gd.toNat f.gs.toNat (k.greg f.ga.toNat) (addsTo v) opFadd [v, 0]

/-- ACAS: gd := old; if old = gc, memory := gb. -/
def bodyAcas (c : CoreId) (f : FmtA) (s : State) : Passed :=
  let k := s.core c.val
  let cmp := k.greg f.gc.toNat
  let v := k.greg f.gb.toNat
  s.atomicPass c.val f.gd.toNat f.gs.toNat (k.greg f.ga.toNat) (swapsTo cmp v) opCas [cmp, v]

end Sys2Proof.Machine
end

