-- ==== Sys2Proof/Machine/ClerkUnits.lean ====
section
/-! DEFINITION. Tensor, sparse, synchronisation, ring, precision, speculation, stream and window instructions as the Clerk
passes them (11_ngaosh_instruction_reference.md R290–R312; 09_programming_model.md R222, R226–R232). -/

namespace Sys2Proof.Machine

/-! The Sequencer queue (R222, R225). -/

/-- The Mint's tables as a store copies them, by block offset (R118). -/
def State.mintTables (s : State) (c : Nat) : Tab Word :=
  let x := Reg.MINT_ID c
  (s.regs.filter (fun e => decide (x + 0x200 ≤ e.1) && decide (e.1 < x + 0x800))).map (fun e => (e.1 - x, e.2))

/-- An entry of the Sequencer queue that core `c` passes now (R222). -/
def Core.seqEntry (k : Core) (kind : SeqKind) (epoch slip : Nat) (descs gs : List Nat) (tables : Tab Word) : SeqOp where
  id := k.nextOp
  pc := k.pc
  epoch := epoch
  slip := slip
  kind := kind
  descs := descs.map k.copyD
  gvals := gs.map k.greg
  prec := k.precPass
  tables := tables
  plan := none
  started := false
  begun := false
  group := 0
  checked := 0
  drawn := 0
  overlay := []
  reads := []
  writes := []

/-- Hand an operation to the Sequencer; `gd` receives its count. -/
def State.passSeq (s : State) (c : Nat) (cls : OpClass) (gd : Nat) (o : SeqOp) : Passed :=
  let k := s.core c
  if 32 ≤ k.seq.length then .wait s
  else match k.epochFault o.epoch true with
  | some code => .fault s code
  | none => .pass ((s.newOp c cls gd 0 false).1.modCore c (fun k => { k with seq := k.seq ++ [o] }))

/-- TMUL (R291). The store word's register is read under NEST alone. -/
def bodyTmul (c : CoreId) (f : FmtX) (s : State) : Passed :=
  let k := s.core c.val
  let gr := f.gr.toNat
  let nest := bitOf (k.greg (gr + 1)).toNat 0
  if (nest && decide (29 < gr)) || (!nest && (f.dd != 0 || f.df != 0)) then .fault s Code.illegalOp
  else if nest && k.pendingG (gr + 2) then .wait s
  else s.passSeq c.val .tensor 0
    (k.seqEntry (.tmul f) f.epoch.toNat f.slip.toNat [f.dw.toNat, f.da.toNat, f.dd.toNat, f.df.toNat]
      [gr, gr + 1, if nest then gr + 2 else 0] (s.mintTables c.val))

/-- TMUL2 (R292). -/
def bodyTmul2 (c : CoreId) (f : FmtY) (s : State) : Passed :=
  let k := s.core c.val
  let gr := f.gr.toNat
  s.passSeq c.val .tensor 0
    (k.seqEntry (.tmul2 f) f.epoch.toNat f.slip.toNat [f.dw1.toNat, f.da.toNat, f.dw2.toNat, f.di.toNat]
      [gr, gr + 1, gr + 2, gr + 3] (s.mintTables c.val))

/-- Fields of a store word that an epoch excludes: topk, stats, rowstat (R229). -/
def sideOutputs (w : Dword) : Bool := bits w.toNat 27 6 != 0 || bitOf w.toNat 14 || bitOf w.toNat 15

/-- Whether a store word names no fused tensor or vector, so that df must be zero (R296). DEDUCED (log entry 24). -/
def noFusedDesc (w : Dword) : Bool := bits w.toNat 20 2 == 0 || (bits w.toNat 20 2 != 3 && bits w.toNat 22 2 == 0)

/-- Whether a descriptor's destination is a pail of core `c`: its address lies in a valid pail (R184, R229). A write that
leaves the pail faults later (R190). DEDUCED (log entry 117). -/
def State.destPail (s : State) (c : Nat) (d : Desc) : Bool :=
  match spadPlace (localOf d.addr) with
  | some (t, o) =>
    s.isLocal d && t == c &&
      (if d.diag then some (diagPlain o) else (s.core c).wide o).any (fun p => (s.pailAt c p).isSome)
  | none => false

/-- TSTORE (R229, R296). DEDUCED (log entry 24). DEDUCED (log entry 117). -/
def bodyTstore (c : CoreId) (f : FmtS) (s : State) : Passed :=
  let k := s.core c.val
  if f.df ≠ 0 ∧ noFusedDesc (k.greg f.gw.toNat) then .fault s Code.illegalOp
  else if f.epoch ≠ 0 ∧ (sideOutputs (k.greg f.gw.toNat) ∨ s.destPail c.val (Desc.of (k.copyD f.dd.toNat).bits) = false) then
    .fault s Code.epochKind
  else s.passSeq c.val .tensor 0
    (k.seqEntry (.tstore f) f.epoch.toNat f.slip.toNat [f.dd.toNat, f.df.toNat] [f.gw.toNat, f.go.toNat] (s.mintTables c.val))

/-- TCLEAR (R297). -/
def bodyTclear (c : CoreId) (f : FmtE) (s : State) : Passed :=
  s.passSeq c.val .tensor 0 ((s.core c.val).seqEntry (.tclear (f.imm.toNat % 256)) 0 0 [] [] [])

/-- TINGEST (R229, R298). -/
def bodyTingest (c : CoreId) (f : FmtS) (s : State) : Passed :=
  if f.epoch ≠ 0 then .fault s Code.epochKind
  else s.passSeq c.val .tensor 0 ((s.core c.val).seqEntry (.tingest f) 0 f.slip.toNat [f.dd.toNat] [f.go.toNat] [])

/-- MATCH and MERGE (R229, R299): functions 0 and 1; the count lands in gr. -/
def bodySintKeys (c : CoreId) (fn : Nat) (f : FmtN) (s : State) : Passed :=
  if f.epoch ≠ 0 then .fault s Code.epochKind
  else s.passSeq c.val .tensor f.gr.toNat
    ((s.core c.val).seqEntry (.sint fn f) 0 0 [f.da.toNat, f.db.toNat, f.dd.toNat] [] [])

/-- PAIRS (R299): function 2. -/
def bodySintPairs (c : CoreId) (f : FmtN) (s : State) : Passed :=
  s.passSeq c.val .tensor 0
    ((s.core c.val).seqEntry (.sint 2 f) f.epoch.toNat f.slip.toNat [f.da.toNat, f.db.toNat, f.dc.toNat]
      [f.gr.toNat, f.gr.toNat + 1] [])

/-- SELECT (R229, R299): function 3. -/
def bodySintSelect (c : CoreId) (f : FmtN) (s : State) : Passed :=
  if f.epoch ≠ 0 then .fault s Code.epochKind
  else s.passSeq c.val .tensor f.gr.toNat ((s.core c.val).seqEntry (.sint 3 f) 0 0 [f.da.toNat, f.dd.toNat] [] [])

/-- SETPREC (R226, R308): in force for what passes after it. -/
def bodySetprec (c : CoreId) (f : FmtE) (s : State) : Passed :=
  let p := Prec.ofNat f.imm.toNat
  match s.passSeq c.val .other 0 ((s.core c.val).seqEntry (.setprec p) 0 0 [] [] []) with
  | .pass s => .pass (s.modCore c.val (fun k => { k with precPass := some p }))
  | x => x

/-- SETCLASS (R227, R308). -/
def bodySetclass (c : CoreId) (f : FmtE) (s : State) : Passed :=
  s.passSeq c.val .setclass 0
    ((s.core c.val).seqEntry (.setclass (bits f.imm.toNat 0 2) (bits f.imm.toNat 2 4)) 0 0 [] [] [])

/-! Synchronisation (R301–R305). -/

/-- The condition of PWAIT (R301). The Clerk is no speculative consumer: it sees no pail of an epoch as FULL or DRAINING
(R190). DEDUCED (log entry 131). -/
def pwaitHolds (cond : Nat) (t : Pail) : Bool :=
  match cond with
  | 0 => t.st == .empty
  | 1 => t.readable 0
  | _ => t.st == .empty || t.st == .filling

/-- PWAIT. -/
def bodyPwait (c : CoreId) (f : FmtE) (s : State) : Passed :=
  if pwaitHolds (bits f.imm.toNat 6 2) ((s.core c.val).pail (f.imm.toNat % 64)) then .pass s else .wait s

/-- PSIG: it acts once earlier narrow stores have completed. -/
def bodyPsig (c : CoreId) (f : FmtE) (s : State) : Passed :=
  let (s, id) := s.newOp c.val .other 0 0 false
  .pass (s.modCore c.val (fun k => { k with psigs := k.psigs ++ [(f.imm.toNat % 64, id)] }))

/-- The bit of a FENCE mask that selects a class (R302). -/
def OpClass.fenceBit : OpClass → Option Nat
  | .narrow => some 0
  | .dma => some 1
  | .tensor => some 2
  | .sync => some 3
  | .barrier => some 3
  | .setclass => some 4
  | .other => none

/-- Whether an incomplete operation is selected by a mask. -/
def Op.fenced (o : Op) (mask : Nat) : Bool := o.cls.fenceBit.any (bitOf mask)

/-- FENCE (R302). -/
def bodyFence (c : CoreId) (f : FmtE) (s : State) : Passed :=
  if (s.core c.val).ops.any (·.fenced f.imm.toNat) then .wait s else .pass s

/-- GRANT (R303). -/
def bodyGrant (c : CoreId) (f : FmtG) (s : State) : Passed :=
  let w := (s.core c.val).greg f.ga.toNat
  if f.ga = 0 then .pass (s.modCore c.val (fun k => { k with grant := none }))
  else if grantValid w then .pass (s.modCore c.val (fun k => { k with grant := some w }))
  else .fault s Code.addrRange

/-- BARRIER (R304). -/
def bodyBarrier (c : CoreId) (f : FmtG) (s : State) : Passed :=
  let n := ((s.core c.val).greg f.ga.toNat).toNat
  let (s, id) := s.newOp c.val .barrier 0 f.gs.toNat true
  .pass { s with hubOps := s.hubOps ++ [.barrier c.val id f.imm.toNat n none] }

/-- Whether a counter word is legal (R305). -/
def counterWordOk (w : Nat) : Bool := bits w 10 6 == 0 && bits w 25 39 == 0 && (bitOf w 24 || bits w 16 8 == 0)

/-- TAKE (R305, R317). -/
def bodyTake (c : CoreId) (f : FmtG) (s : State) : Passed :=
  let k := s.core c.val
  let w := (k.greg f.ga.toNat).toNat
  let a := k.greg f.gb.toNat
  if counterWordOk w = false then .fault s Code.addrRange
  else if bitOf w 24 then
    if spanPresent s.variant = false then .pass (s.opNow c.val .sync f.gd.toNat f.gs.toNat Code.unitAbsent none)
    else
      let (s, id) := s.newOp c.val .sync f.gd.toNat f.gs.toNat true
      .pass (s.spanRequest (.op c.val id) (reqHdr opTake (bits w 16 8) 0 0 1 (bits w 0 10)) [a])
  else
    let (s, id) := s.newOp c.val .sync f.gd.toNat f.gs.toNat true
    .pass { s with hubOps := s.hubOps ++ [.take c.val id (bits w 0 10) a.toNat] }

/-! Rings (R306, R307, R311). -/

/-- Whether the reserved bits of a ring word are zero (R306). DEDUCED (log entry 52). -/
def ringWordOk (w : Nat) : Bool := bits w 27 37 == 0 && (bitOf w 15 || bits w 16 11 == 0)

/-- An operation that completes at once with a ring fault (R195, R219). -/
def State.roleNow (s : State) (c gs ring : Nat) : State :=
  let (s, id) := s.newOp c .sync 0 gs true
  s.opFail c id (ringRoleStop ring)

/-- Entry size of the ring that a word names: the local record's, or the word's own. -/
def State.wordEntry (s : State) (w : Nat) : Nat := if bitOf w 15 then 2 ^ (3 + bits w 24 3) else s.ringEntry (bits w 0 15)

/-- A local entry leaves the core once its grant is checked (R322, R323). -/
def State.pushLocal (s : State) (c gs ring : Nat) (entry : List Byte) (update : Bool) : State :=
  let k := s.core c
  let (s, stale) := s.itemStale c k.grant
  if stale then s.opNow c .sync 0 gs Code.stale none
  else
    let (s, id) := s.newOp c .sync 0 gs true
    match k.grant with
    | some g =>
      if grantRemote g then
        { s with hubOps := s.hubOps ++ [HubOp.post c id ring entry update (some g)] }.spanRequest (.grant c id) (grantHdr g) [0]
      else s.pushNow c id ring entry update
    | none => s.pushNow c id ring entry update

/-- A remote entry leaves the core (R307, R322, R323). -/
def State.pushRemote (s : State) (c gs w : Nat) (entry : List Byte) : State :=
  let k := s.core c
  let (s, stale) := s.itemStale c k.grant
  if stale then s.opNow c .sync 0 gs Code.stale none
  else
    let (s, id) := s.newOp c .sync 0 gs true
    match k.grant with
    | some g =>
      if grantRemote g then
        { s with hubOps := s.hubOps ++ [HubOp.remotePost c id w entry g] }.spanRequest (.grant c id) (grantHdr g) [0]
      else s.msgSend c id w entry
    | none => s.msgSend c id w entry

/-- What stops the core at the Scratchpad address of an entry of `n` bytes (R307, R313), or its offset. DESIGN CHOICE (log entry 148). -/
def entryPlace (c a n : Nat) : Except Stop Nat :=
  match ownSpad c a with
  | none => .error (Stop.of Code.addrRange)
  | some o => if o % n ≠ 0 ∨ 0x60000 < o + n then .error (spadStop Code.spadRange o 1) else .ok o

/-- Copy an entry of `n` bytes out of the Scratchpad and send it; a refused read stops the core (R176, R219). -/
def State.entryOut (s : State) (c a n : Nat) (send : State → List Byte → State) : Passed :=
  match entryPlace c a n with
  | .error st => .stop s st 0
  | .ok o =>
    match s.spadReadN c .clerk o n (n / 64 + 2) with
    | (s, .done e) => .pass (send s e)
    | (_, .wait) => .wait s
    | (s, .refused st seq) => .stop s st seq

/-- PUSH (R307). DEDUCED (log entry 52). -/
def bodyPush (c : CoreId) (f : FmtG) (s : State) : Passed :=
  let k := s.core c.val
  let w := (k.greg f.ga.toNat).toNat
  let ring := bits w 0 15
  let gs := f.gs.toNat
  let remote := bitOf w 15
  let n := s.wordEntry w
  if k.ownerReq.isSome then .wait s
  else if ringWordOk w = false ∨ 256 < n then .pass (s.roleNow c.val gs ring)
  else if (remote || remoteGrant k.grant) && !spanPresent s.variant then .pass (s.opNow c.val .sync 0 gs Code.unitAbsent none)
  else if remote then s.entryOut c.val (k.greg f.gb.toNat).toNat n (fun s e => s.pushRemote c.val gs w e)
  else if ringAbsent s.variant ring then .pass (s.opNow c.val .sync 0 gs Code.unitAbsent none)
  else if (ringKindOf ring ≠ 1 ∧ ringKindOf ring ≠ 6) ∨ s.ringKind ring ≠ ringKindOf ring then .pass (s.roleNow c.val gs ring)
  else if s.ringIsFull ring then .wait s
  else s.entryOut c.val (k.greg f.gb.toNat).toNat n (fun s e => s.pushLocal c.val gs ring e false)

/-- Whether core `c`'s Clerk may pop a ring (R195, R307). -/
def State.mayPop (s : State) (c w : Nat) : Bool :=
  let ring := bits w 0 15
  ringWordOk w && !bitOf w 15 && !ringAbsent s.variant ring && s.ringKind ring == ringKindOf ring &&
  ((ringKindOf ring == 1 && ring / 256 == c) || ringKindOf ring == 4)

/-- POP (R200, R307, R312, R526): a ring of an absent unit gives UNIT.ABSENT. DEDUCED (log entry 52). DESIGN CHOICE (log entry 114). -/
def bodyPop (c : CoreId) (f : FmtG) (s : State) : Passed :=
  let k := s.core c.val
  let w := (k.greg f.ga.toNat).toNat
  let ring := bits w 0 15
  if k.ownerReq.isSome then .wait s
  else if ringWordOk w ∧ bitOf w 15 = false ∧ ringAbsent s.variant ring then .pass (s.opNow c.val .sync 0 0 Code.unitAbsent none)
  else if s.mayPop c.val w = false then .stop s (ringRoleStop ring) 0
  else match entryPlace c.val (k.greg f.gb.toNat).toNat (s.ringEntry ring) with
  | .error st => .stop s st 0
  | .ok o =>
    if s.ringEmpty ring || !s.ringSettled ring then .wait s
    else match s.ringTake c.val ring with
      | (s, .error e) => .stop (s.ringMoved ring) e.stop e.seq
      | (t, .ok e) =>
        match t.spadWriteN c.val .clerk o e (e.length / 64 + 2) with
        | (t, .done _) => .pass (t.ringMoved ring)
        | (_, .wait) => .wait s
        | (_, .refused st seq) => .stop (s.countRefusal c.val st.code) st seq

/-- UPDATE (R311). A ring word that names no CHURN_CMD ring gives SPAD.RING_ROLE also where the configuration has no
Churn (R6). DESIGN CHOICE (log entry 114). -/
def bodyUpdate (c : CoreId) (f : FmtG) (s : State) : Passed :=
  let k := s.core c.val
  let w := (k.greg f.ga.toNat).toNat
  let ring := bits w 0 15
  let gs := f.gs.toNat
  if k.ownerReq.isSome then .wait s
  else if ringWordOk w = false ∨ bitOf w 15 ∨ ringKindOf ring ≠ 5 then .stop s (ringRoleStop ring) 0
  else if ringAbsent s.variant ring ∨ (remoteGrant k.grant ∧ spanPresent s.variant = false) then
    .pass (s.opNow c.val .sync 0 gs Code.unitAbsent none)
  else if s.ringKind ring ≠ 5 then .pass (s.roleNow c.val gs ring)
  else if s.ringIsFull ring then .wait s
  else s.entryOut c.val (k.greg f.gb.toNat).toNat (s.ringEntry ring) (fun s e => s.pushLocal c.val gs ring e true)

/-! Random streams (R309, R329). -/

/-- A stop of the generator block, with the stream. -/
def rngStop (code stream : Nat) : Stop := { Stop.of code with row := stream }

/-- SOPEN. -/
def bodySopen (c : CoreId) (f : FmtE) (s : State) : Passed :=
  let k := s.core c.val
  let st := f.imm.toNat % 65536
  if (k.streamOpen st).isSome ∨ (st = 0xFFFF ∧ s.sampledTask) then .stop s (rngStop Code.streamBusy st) 0
  else match k.freeStream with
    | none => .stop s (rngStop Code.streamLimit st) 0
    | some i => .pass (s.modCore c.val (fun k => { k with streams := tabPut k.streams i (st, bitOf f.imm.toNat 16) }))

/-- SCLOSE: it takes effect once earlier Sequencer operations have completed. -/
def bodySclose (c : CoreId) (f : FmtE) (s : State) : Passed :=
  let (s, id) := s.newOp c.val .other 0 0 false
  .pass (s.modCore c.val (fun k => { k with scloses := k.scloses ++ [(f.imm.toNat % 65536, id)] }))

/-! Windows (R310, R394–R396). -/

/-- Read the record, check it and open the window. DESIGN CHOICE (log entry 149). -/
def State.winOpenOp (s : State) (c gs w a : Nat) : Passed :=
  match ownSpad c a with
  | none => .fault s Code.addrRange
  | some o =>
    if (s.core c).ownerReq.isSome then .wait s
    else if 0x60000 < o + 32 then .stop s (spadStop Code.spadRange o 1) 0
    else match s.spadReadN c .clerk o 32 3 with
    | (_, .wait) => .wait s
    | (s, .refused st seq) => .stop s st seq
    | (s, .done bs) =>
      if s.winBad (WinRec.of bs) then .stop s { Stop.of Code.windowInvalid with window := w } 0
      else if s.winOpen w then .stop s { Stop.of Code.windowBusy with window := w } 0
      else match s.spadWriteN c .clerk (o + 18) (leBytes (s.winGeneration w) 2) 3 with
        | (_, .wait) => .wait s
        | (s, .refused st seq) => .stop s st seq
        | (s, .done _) => .pass ((s.winOpenNow w (WinRec.of bs)).opNow c .sync 0 gs 0 none)

/-- WOPEN. An index above 4,095 gives CLERK.ADDR_RANGE also where the configuration has no Span (R5). DESIGN CHOICE (log entry 114). -/
def bodyWopen (c : CoreId) (f : FmtG) (s : State) : Passed :=
  let k := s.core c.val
  let w := (k.greg f.ga.toNat).toNat
  if 4095 < w then .fault s Code.addrRange
  else if spanPresent s.variant = false then .pass (s.opNow c.val .sync 0 f.gs.toNat Code.unitAbsent none)
  else s.winOpenOp c.val f.gs.toNat w (k.greg f.gb.toNat).toNat

/-- WCLOSE, with the same order of its checks as WOPEN. DESIGN CHOICE (log entry 114). -/
def bodyWclose (c : CoreId) (f : FmtG) (s : State) : Passed :=
  let w := ((s.core c.val).greg f.ga.toNat).toNat
  if 4095 < w then .fault s Code.addrRange
  else if spanPresent s.variant = false then .pass (s.opNow c.val .sync 0 f.gs.toNat Code.unitAbsent none)
  else
    let (s, id) := s.newOp c.val .sync 0 f.gs.toNat true
    .pass (s.winCloseOp c.val id w)

/-! Speculation (R228–R232). -/

/-- Set epoch `e`'s state. -/
def Core.setEpoch (k : Core) (e : Nat) (v : EpochSt) : Core := { k with epochs := tabSet .free k.epochs e v }

/-- Change every pail of epoch `e`. -/
def Core.epochPails (k : Core) (e : Nat) (f : Pail → Pail) : Core :=
  (List.range 64).foldl (fun k i => if (k.pail i).epoch = e then k.setPail i (f (k.pail i)) else k) k

/-- Change every shadow tile of epoch `e`. -/
def Core.epochTiles (k : Core) (e : Nat) (f : Tile → Tile) : Core :=
  (List.range 8).foldl (fun k l =>
    if (k.tile l).st = .shadow ∧ (k.tile l).epoch = e then k.setTile l (f (k.tile l)) else k) k

/-- SPEC (R230). -/
def bodySpec (c : CoreId) (f : FmtE) (s : State) : Passed :=
  let e := f.imm.toNat % 16
  match (s.core c.val).epoch e with
  | .free => .pass ((s.modCore c.val (·.setEpoch e .opened)).bump32 (Reg.CORE_SPEC_OPENED c.val) 1)
  | .opened => .fault s Code.epochOpen
  | _ => .wait s

/-- VERIFY at pass (R231): pails take epoch 0, and transfers of the epoch go on as non-speculative. DEDUCED (log entry 44). -/
def State.verifyPass (s : State) (c e : Nat) : State :=
  (s.modCore c (fun k =>
    let k := (k.epochPails e (fun p => { p with epoch := 0 })).setEpoch e .endingVerify
    { k with dma := k.dma.map (fun x => if x.epoch = e then { x with epoch := 0 } else x) })).bump32
      (Reg.CORE_SPEC_VERIFIED c) 1

/-- VERIFY. -/
def bodyVerify (c : CoreId) (f : FmtE) (s : State) : Passed :=
  let e := f.imm.toNat % 16
  if (s.core c.val).epoch e = .opened then .pass (s.verifyPass c.val e) else .fault s Code.epochClosed

/-- SQUASH at pass (R232): what has not started is discarded, what runs is cut, and a freeze on a pail of the epoch, or of
an operation of it, ends. A slip's reads and adds end as it issues, so the epoch's pails are EMPTY and its shadow tiles CLEAR at
once. DEDUCED (log entry 115). -/
def State.squash (s : State) (c e : Nat) : State :=
  let k := s.core c
  let goneX := k.dma.filter (fun x => x.epoch == e && !x.started)
  let goneO := k.seq.filter (fun o => o.epoch == e && !o.started)
  let cut := k.seq.filter (fun o => o.epoch == e && o.started)
  let ends := goneX.map (·.id) ++ goneO.map (·.id) ++ cut.map (·.id)
  let froze := k.freeze.any (fun f => (k.pail f.pail).epoch == e) || (match k.seq with
    | o :: _ => o.epoch == e
    | [] => false)
  let s := (if froze then s.freezeCut c else s).modCore c (fun k =>
    ends.foldl (fun k id => k.opDone id ⟨0, none, Stop.of 0⟩)
      { (k.epochPails e (fun _ => Pail.reset)).epochTiles e Tile.squash with
        dma := (k.dma.filter (fun x => !(x.epoch == e && !x.started))).map (fun x =>
          if x.epoch = e then { x with discard := true, srcPail := x.srcPail.filter (fun i => (k.pail i).epoch != e) } else x)
        seq := k.seq.filter (fun o => o.epoch != e)
        epochs := tabSet .free k.epochs e .endingSquash })
  ((s.bump32 (Reg.CORE_SPEC_SQUASHED c) 1).bump32 (Reg.CORE_SPEC_DISCARDED c) (goneX.length + goneO.length)).bump32
    (Reg.CORE_SPEC_CUT c) cut.length

/-- SQUASH. -/
def bodySquash (c : CoreId) (f : FmtE) (s : State) : Passed :=
  let e := f.imm.toNat % 16
  if (s.core c.val).epoch e = .opened then .pass (s.squash c.val e) else .fault s Code.epochClosed

/-! END (R213). -/

/-- Squash every epoch still OPEN. -/
def State.squashOpen (s : State) (c : Nat) : State :=
  (List.range 16).foldl (fun s e => if (s.core c).epoch e = .opened then s.squash c e else s) s

/-- END: the Clerk passes no further instructions. -/
def bodyEnd (c : CoreId) (s : State) : Passed := .ended ((s.squashOpen c.val).modCore c.val (fun k => { k with ending := true }))

end Sys2Proof.Machine
end

