-- ==== Sys2Proof/Machine/Completion.lean ====
section
/-! DEFINITION. How operations complete, and the steps of a core that follow completions: PSIG, SCLOSE, the ends of epochs
(09_programming_model.md R218, R219, R231, R232; 11_ngaosh_instruction_reference.md R301, R309; 20_fault_index.md R504,
R505, R507). -/

namespace Sys2Proof.Machine

/-! Statuses (R219, R504, R505). -/

/-- Whether a status register may take a fault: one of kind Op. A Scratchpad fault is of that kind where a ring's slot
gives it (R195, R197, R199); any other stops the core (R176). DEDUCED (log entry 116). -/
def takeable (cls : OpClass) (code : Nat) : Bool :=
  let u := code / 256
  if u = 0x26 then cls == .sync && (code == Code.bankPort || code == Code.bankOff || code == Code.ringRole)
  else if code = Code.addRefused then true
  else if u = 0x21 ∨ u = 0x22 ∨ u = 0x23 ∨ u = 0x24 ∨ u = 0x27 ∨ u = 0x28 ∨ u = 0x29 ∨ u = 0x2A ∨ u = 0x31 then false
  else !(code == Code.noHandle || code == Code.windowInvalid || code == Code.windowBusy)

/-- The operation of core `c` with number `op` that has ended, and its result. -/
def Core.ended? (k : Core) (op : Nat) : Option (Op × OpResult) :=
  k.ops.findSome? (fun o => if o.id = op then o.result.map (fun r => (o, r)) else none)

/-- The generation of a retired counter has reached every core (R319). -/
def State.spreadEnd (s : State) (c op : Nat) : State :=
  s.hubOps.foldl (fun s o => match o with
    | .spread c' i ctr => if c' = c ∧ i = op then { s with hubOps := s.hubOps.erase o }.spreadDone ctr else s
    | _ => s) s

/-- What lands in gd: the value, or, where the operation gives none, a value that the manual leaves open. DESIGN CHOICE (log entry 50). -/
def State.landValue (s : State) (c gd : Nat) (v : Option Dword) : State :=
  if gd = 0 then s
  else match v with
    | some v => s.putG c gd v
    | none =>
      let (s, n) := s.tick
      s.putG c gd (Config.freeValue n)

/-- An ended operation completes: its results land (R218), or its fault stops the core (R219). A Scratchpad or ring fault
is recorded also where a status register takes it (R176, R527). An exhausted TAKE lands its
counter's value and generation even so (R316). -/
def State.complete (s : State) (c : Nat) (o : Op) (r : OpResult) : State :=
  let s := (s.spreadEnd c o.id).modCore c (fun k => { k with ops := k.ops.filter (fun x => x.id != o.id) })
  let s := s.bump64 (Reg.CORE_CLERK_INSTR_LO c) 1
  if r.status = 0 then
    let s := if o.gd = 0 then s else s.landValue c o.gd r.value
    if o.named then s.putG c o.gs 0 else s
  else if o.named && o.gs != 0 && takeable o.cls r.status then
    let s := if r.status / 256 = 0x26 then s.recordFault c r.stop else s
    (s.landValue c o.gd r.value).putG c o.gs (BitVec.ofNat 64 r.status)
  else
    let s := if r.status = Code.exhausted then s.landValue c o.gd r.value else s
    s.opStop c { r.stop with pc := some o.pc }

/-- OP_COMPLETION (R219). -/
def execOpCompletion (c : CoreId) (op : Nat) (s : State) : Outcome :=
  match (s.core c.val).ended? op with
  | some (o, r) => .next (s.complete c.val o r)
  | none => .next s

/-! PSIG (R301). -/

/-- A PSIG moves the tag of pail `i`, or its role stops the core. -/
def State.psigAct (s : State) (c i id : Nat) : State :=
  let p := s.pailCfg c i
  let t := (s.core c).pail i
  let fills := t.st == .empty || t.st == .filling
  let role := if fills then p.producer else p.consumer
  let s := s.modCore c (fun k => { k with psigs := k.psigs.filter (fun e => e.2 != id) })
  if p.valid && (role == 1 || role == 3) then
    (s.modCore c (·.setPail i (if fills then t.filled 0 else t.emptied))).opEnd c id 0 none
  else (s.countRefusal c Code.pailRole).opFail c id { Stop.of Code.pailRole with row := p.first, port := 1 }

/-- PSIG_ACT (R301): narrow stores complete as they pass. DEDUCED (log entry 63). -/
def execPsigAct (c : CoreId) (s : State) : Outcome :=
  match (s.core c.val).psigs with
  | (i, id) :: _ => .next (s.psigAct c.val i id)
  | [] => .next s

/-! SCLOSE (R309). -/

/-- Close a stream. -/
def Core.closeStream (k : Core) (st : Nat) : Core := { k with streams := k.streams.filter (fun e => e.2.1 != st) }

/-- SCLOSE_ACT (R309): once every Sequencer operation that passed before it has completed. DEDUCED (log entry 63). -/
def execScloseAct (c : CoreId) (s : State) : Outcome :=
  match (s.core c.val).scloses with
  | (st, id) :: rest =>
    act ((s.core c.val).seq.all (fun o => decide (id < o.id))) s
      ((s.modCore c.val (fun k => { k.closeStream st with scloses := rest })).opEnd c.val id 0 none)
  | [] => .next s

/-! The ends of epochs (R231, R232, R153). -/

/-- EPOCH_COMMIT (R231). -/
def execEpochCommit (c : CoreId) (e : BitVec 4) (s : State) : Outcome :=
  let k := s.core c.val
  act (k.epoch e.toNat == .endingVerify && k.seq.all (fun o => o.epoch != e.toNat)) s
    (s.modCore c.val (fun k => (k.epochTiles e.toNat Tile.commit).setEpoch e.toNat .free))

/-- EPOCH_FREE (R232): once nothing of the epoch is in flight. DEDUCED (log entry 115). -/
def execEpochFree (c : CoreId) (e : BitVec 4) (s : State) : Outcome :=
  let k := s.core c.val
  act (k.epoch e.toNat == .endingSquash && k.dma.all (fun x => x.epoch != e.toNat)) s
    (s.modCore c.val (fun k => ((k.epochPails e.toNat (fun _ => Pail.reset)).epochTiles e.toNat Tile.squash).setEpoch e.toNat .free))

end Sys2Proof.Machine
end

