-- ==== Sys2Proof/Machine/Submit.lean ====
section
/-! DEFINITION. Host rings: doorbells, submission entries, host copies, completions and MSI-X
(16_host_attachment.md R424–R435; 08_scratchpad_pails_and_rings.md R526). -/

namespace Sys2Proof.Machine

/-! Doorbells (R426, R427). -/

/-- A doorbell write that takes no effect. DEDUCED (log entry 54). -/
def State.bellRefused (s : State) (p ring : Nat) : State :=
  if s.ringKind ring = 0 then s.bump32 (Reg.HOST_DB_RANGE p) 1
  else if s.ringPort ring ≠ p then s.wrongPort p ring
  else s.bump32 (Reg.HOST_DB_RANGE p) 1

/-- a − b over counters. -/
def cntSub (a b : Nat) : Nat := (a + 2 ^ 32 - b) % 2 ^ 32

/-- Whether a tail may be set (R427). -/
def State.tailOk (s : State) (ring t : Nat) : Bool :=
  decide (cntSub t (s.ringHead ring) ≤ 2 ^ s.ringCountLog ring) &&
  decide (cntSub t (s.ringTail ring) ≤ cntSub t (s.ringHead ring))

/-- Whether a head may be set (R427). -/
def State.headOk (s : State) (ring h : Nat) : Bool :=
  decide (cntSub (s.ringTail ring) h ≤ cntSub (s.ringTail ring) (s.ringHead ring))

/-- Whether host ring `ring` is enabled and bound to port `p`. -/
def State.bound (s : State) (p ring : Nat) : Bool := s.ringKind ring != 0 && s.ringPort ring == p

/-- A host's port as a number. -/
def hostNum : HostPort → Nat
  | .A => 0
  | .B => 1

/-- HOST_SUB_DOORBELL (R426, R427). -/
def execHostSubDoorbell (port : HostPort) (ring : RingId) (value : Dword) (s : State) : Outcome :=
  let p := hostNum port
  let t := value.toNat % 2 ^ 32
  act (ringKindOf ring.val == 2) s
    (if s.bound p ring.val && s.tailOk ring.val t then (s.setRegN (ringReg ring.val 4) t).bump64 (Reg.HOST_DB_LO p) 1
     else s.bellRefused p ring.val)

/-- HOST_CPL_DOORBELL (R426, R427). -/
def execHostCplDoorbell (port : HostPort) (ring : RingId) (value : Dword) (s : State) : Outcome :=
  let p := hostNum port
  let h := value.toNat % 2 ^ 32
  act (ringKindOf ring.val == 3) s
    (if s.bound p ring.val && s.headOk ring.val h then (s.setRegN (ringReg ring.val 3) h).bump64 (Reg.HOST_DB_LO p) 1
     else s.bellRefused p ring.val)

/-! Submission entries (R428, R429). -/

/-- The 64 bytes of the oldest entry of a HOST_SUB ring as a number. -/
def State.subRaw (s : State) (ring : Nat) : Nat :=
  leNat (s.hostRead (s.ringPort ring) (s.ringSlot ring (s.ringHead ring)) 64)

/-- The entry that its bytes spell, with the head after it. -/
def State.subOf (s : State) (ring raw : Nat) : SubEntry :=
  ⟨ring, s.ringPort ring, BitVec.ofNat 64 (bits raw 64 64), bits raw 0 4, bits raw 128 64, bits raw 192 64, bits raw 32 32, (s.ringHead ring + 1) % 2 ^ 32⟩

/-- Whether an entry is invalid (R428, R429): a reserved op or byte, or a field that breaks the table. DEDUCED (log entry 55). -/
def subBad (raw : Nat) : Bool :=
  let op := bits raw 0 4
  let len := bits raw 32 32
  let loc := bits raw 128 64
  let host := bits raw 192 64
  decide (3 < op) || bits raw 4 28 != 0 || raw / 2 ^ 256 != 0 ||
  (if op = 1 ∨ op = 2 then len == 0 || len % 64 != 0 || loc % 64 != 0 || host % 64 != 0
   else len != 0 || host != 0 || (op == 0 && loc % 64 != 0))

/-- Whether a completion that found its ring full waits still: until it is written no task and no copy is taken (R432). DEDUCED (log entry 56). -/
def State.cplBlocked (s : State) : Bool := s.hosts.cplWait.any (·.full)

/-- Whether the entry before a ring's oldest has completed (R429). DEDUCED (log entry 56). -/
def State.subFree (s : State) (ring : Nat) : Bool :=
  s.hosts.cplWait.all (fun e => e.ring != ring + 512) && s.hosts.copies.all (fun c => c.entry.ring != ring) &&
  !(s.sched.st != .idle && s.sched.entry.ring == ring)

/-- Whether the oldest entry of a ring may be taken. DEDUCED (log entry 56). -/
def State.subReady (s : State) (ring : Nat) : Bool :=
  ringKindOf ring == 2 && s.ringKind ring == 2 && !s.ringEmpty ring && s.portReady (s.ringPort ring) && s.subFree ring

/-- The oldest entry is taken: head advances, and it is counted. -/
def State.subTake (s : State) (ring : Nat) : State := (s.ringAdvHead ring).bump64 (Reg.HOST_ENTRIES_LO (s.ringPort ring)) 1

/-- An error record of a fault that concerns no core: its seq (R506, R507). -/
def State.hostRecord (s : State) (unit inst : Nat) (primary : Bool) (st : Stop) (reg : Word) : State × Nat :=
  let (s, t) := s.recordTime
  s.report (dbEvent 2 0 unit inst st.code 0 (errDetail 0xFF primary false st reg t))

/-- An entry completes with a fault of kind Entry (R429, R504, R507). -/
def State.subFail (s : State) (e : SubEntry) (code : Nat) : State :=
  let (s, seq) := s.hostRecord 0x70 e.port false { Stop.of code with addr := some e.addr } 0
  s.queueCpl e code 0 0 seq

/-- NOP_ENTRY (R429). -/
def execNopEntry (ring : RingId) (s : State) : Outcome :=
  let raw := s.subRaw ring.val
  act (s.subReady ring.val && !subBad raw && bits raw 0 4 == 3) s
    ((s.subTake ring.val).queueCpl (s.subOf ring.val raw) 0 0 0 0)

/-- INVALID_SUBMISSION_ENTRY (R429, R526): the entry breaks a rule, or its read ends in an error. -/
def execInvalidSubmissionEntry (ring : RingId) (readFails : Bool) (s : State) : Outcome :=
  let raw := s.subRaw ring.val
  let e := s.subOf ring.val raw
  act (s.subReady ring.val && (readFails || subBad raw)) s
    (if readFails then (s.subTake ring.val).subFail ⟨ring.val, e.port, 0, 0, 0, 0, 0, e.subHead⟩ Code.hostAbort
     else (s.subTake ring.val).subFail e Code.subInvalid)

/-! Copies (R429, R430). -/

/-- The start-up pool's first local address and its length (R201). -/
def poolBase : Nat := 0xF40000000000

/-- Bytes of the pool. -/
def poolLen : Nat := 0x2400000

/-- Whether a copy's local range is one that it may have (R430). -/
def State.copyRangeOk (s : State) (a len : Nat) : Bool :=
  decide (a + len ≤ s.lpddrEnd) || (s.poolMode && decide (poolBase ≤ a) && decide (a + len ≤ poolBase + poolLen))

/-- Core and offset of a pool offset (R202). -/
def poolPlace (p : Nat) : Nat × Nat := (p / 589824, p % 589824)

/-- Byte `b` of a 192-bit word. -/
def wordByte (w : BitVec 192) (b : Nat) : Byte := w.extractLsb' (8 * b) 8

/-- A 192-bit word with byte `b` replaced. -/
def setWordByte (w : BitVec 192) (b : Nat) (v : Byte) : BitVec 192 :=
  BitVec.ofNat 192 (w.toNat - (wordByte w b).toNat * 2 ^ (8 * b) + v.toNat * 2 ^ (8 * b))

/-- A byte of the pool (R202); a byte of an INVALID tile is a free value (R83). DESIGN CHOICE (log entry 13). -/
def State.poolByte (s : State) (p : Nat) : State × Byte :=
  let (c, o) := poolPlace p
  if o < 393216 then (s, tabGet 0 (s.core c).mem o)
  else
    let q := o - 393216
    let t := (s.core c).tile (q / 24576)
    if t.st = .invalid then
      let (s, n) := s.tick
      (s, wordByte (Config.freeLedgerWord n) (q % 24))
    else (s, wordByte (tabGet 0 t.words (q % 24576 / 24)) (q % 24))

/-- `n` bytes of the pool. -/
def State.poolBytes (s : State) (p : Nat) : Nat → State × List Byte
  | 0 => (s, [])
  | n + 1 =>
    let (s, b) := s.poolByte p
    let (s, r) := s.poolBytes (p + 1) n
    (s, b :: r)

/-- Write a byte of the pool. -/
def State.poolPut (s : State) (p : Nat) (v : Byte) : State :=
  let (c, o) := poolPlace p
  if o < 393216 then s.modCore c (·.spadPut o [v])
  else
    let q := o - 393216
    let l := q / 24576
    let i := q % 24576 / 24
    s.modCore c (fun k =>
      let t := k.tile l
      k.setTile l { t with words := tabSet 0 t.words i (setWordByte (tabGet 0 t.words i) (q % 24) v) })

/-- The first of `n` pool bytes that fails its parity: its core and offset (R181, R201). -/
def State.poolParity (s : State) (p : Nat) : Nat → Option (Nat × Nat)
  | 0 => none
  | n + 1 =>
    let (c, o) := poolPlace p
    if decide (o < 393216) && (s.core c).parityBad o 1 then some (c, o) else s.poolParity (p + 1) n

/-- Read `n` bytes of the pool: bytes, or the failure of a parity error (R182). -/
def State.poolRead (s : State) (p n : Nat) : State × Except Fail (List Byte) :=
  match s.poolParity p n with
  | some (c, o) =>
    let (s, seq) := s.parityError c o 3 false
    (s, .error ⟨{ spadStop Code.parity o 3 with seq := seq }, seq⟩)
  | none =>
    let (s, bs) := s.poolBytes p n
    (s, .ok bs)

/-- Write bytes of the pool. -/
def State.poolWrite (s : State) (p : Nat) (bs : List Byte) : State :=
  bs.zipIdx.foldl (fun s e => s.poolPut (p + e.2) e.1) s

/-- Whether the 8 bytes at pool offset `p` have power: their quad's domain is on, and their bank is On and at rest (R192,
R444). DEDUCED (log entry 59). -/
def State.poolUsable (s : State) (p : Nat) : Bool :=
  let (c, o) := poolPlace p
  s.domainOn (c / 4) && (decide (393216 ≤ o) || ((s.core c).bank (bankOf o)).usable)

/-- An access to a bank that is not On is refused: it is counted in SPAD_OFF_DROPS, and has a record that concerns no core
(R176, R192, R507). -/
def State.poolRefuse (s : State) (p : Nat) : State × Fail :=
  let (c, o) := poolPlace p
  let st := { Stop.of Code.bankOff with addr := some (poolBase + p), row := rowOf o, bank := bankOf o }
  let (s, seq) := (s.countRefusal c Code.bankOff).hostRecord 0x26 c false st 0
  (s, ⟨{ st with seq := seq }, seq⟩)

/-- Read 32 local bytes of a copy. -/
def State.copyRead (s : State) (a : Nat) : State × Except Fail (List Byte) :=
  if poolBase ≤ a then
    (if s.poolUsable (a - poolBase) then s.poolRead (a - poolBase) 32
     else match s.poolRefuse (a - poolBase) with
      | (s, f) => (s, .error f))
  else match s.lpddrRead a 32 0xFF with
    | (s, bs, st) => if st.code = 0 then (s, .ok bs) else (s, .error (st.fail a))

/-- Write 32 local bytes of a copy. -/
def State.copyWrite (s : State) (a : Nat) (bs : List Byte) : State × Option Fail :=
  if poolBase ≤ a then
    (if s.poolUsable (a - poolBase) then (s.poolWrite (a - poolBase) bs, none)
     else match s.poolRefuse (a - poolBase) with
      | (s, f) => (s, some f))
  else match s.lpddrWrite a bs 0xFF with
    | (s, st) => if st.code = 0 then (s, none) else (s, some (st.fail a))

/-- A copy's progress: bytes moved, and the failure that stopped it. -/
structure CopyRun where
  s : State
  moved : Nat
  fail : Option Fail

/-- Move 32 bytes from byte `i` of the copy on; `stops` is where the host's side ends in an error. -/
def CopyRun.step (e : SubEntry) (p : Nat) (stops : Option Nat) (r : CopyRun) (i : Nat) : CopyRun :=
  if r.fail.isSome then r
  else if stops.any (fun n => decide (n < i + 32)) then { r with fail := some (Fail.of Code.hostAbort) }
  else if e.op = 1 then
    match r.s.copyWrite (e.addr + i) (r.s.hostRead p (e.host + i) 32) with
    | (s, none) => ⟨s, i + 32, none⟩
    | (s, some f) => ⟨s, r.moved, some f⟩
  else
    match r.s.copyRead (e.addr + i) with
    | (s, .ok bs) => ⟨s.hostWrite p (e.host + i) bs, i + 32, none⟩
    | (s, .error f) => ⟨s, r.moved, some f⟩

/-- The seq of the first daybook record since the one that `first` would have been, 0 where there is none (R431). DEDUCED (log entry 57). -/
def State.recordSince (s : State) (first : Nat) : Nat := if s.dbNext = first then 0 else first

/-- Run a copy; its completion names the first record that it causes, an MEM_WARN (R350) or that of its failure (R431). DEDUCED (log entry 57). -/
def State.copyRun (s : State) (e : SubEntry) (stops : Option Nat) : State :=
  let first := s.dbNext
  let r := ((List.range (e.len / 32)).map (· * 32)).foldl (CopyRun.step e e.port stops) ⟨s, 0, none⟩
  let s := r.s.bump64 (Reg.HOST_COPY_BYTES_LO e.port) r.moved
  let status := (r.fail.map (·.stop.code)).getD 0
  let s := if status = Code.hostAbort then (s.hostRecord 0x70 e.port false { Stop.of Code.hostAbort with addr := some e.addr } 0).1
    else s
  { s with hosts := { s.hosts with
      copies := s.hosts.copies ++ [⟨e, r.moved, r.fail.isSome, status, s.recordSince first⟩], lastCopy := e.ring } }

/-- The rings of R210's order after ring `last`. -/
def subOrder (last : Nat) : List Nat := (List.range 512).map (fun i => 16384 + (last - 16384 + 1 + i) % 512)

/-- Whether a ring's oldest entry is a COPY that may be taken. -/
def State.copyReady (s : State) (ring : Nat) : Bool :=
  let raw := s.subRaw ring
  s.subReady ring && !subBad raw && (bits raw 0 4 == 1 || bits raw 0 4 == 2)

/-- Whether the host DMA engine takes the COPY of `ring` next: fewer than four run, and no ring before it in the order has
one (R429, R432). -/
def State.copyNext (s : State) (ring : Nat) : Bool :=
  !s.cplBlocked && decide (s.hosts.copies.length < 4) && (subOrder s.hosts.lastCopy).find? s.copyReady == some ring

/-- Take a COPY of op `op` from a ring. -/
def State.copyTake (s : State) (ring op : Nat) (stops : Option Nat) : Outcome :=
  let raw := s.subRaw ring
  let e := s.subOf ring raw
  act (s.copyNext ring && bits raw 0 4 == op) s
    (if s.copyRangeOk e.addr e.len then (s.subTake ring).apart (·.copyRun e stops)
     else { s.subTake ring with hosts := { s.hosts with lastCopy := ring } }.subFail e Code.copyRange)

/-- COPY_IN (R430): `hostStops` is the byte at which a host read ends in an error. -/
def execCopyIn (ring : RingId) (hostStops : Option Nat) (s : State) : Outcome := s.copyTake ring.val 1 hostStops

/-- COPY_OUT (R430). -/
def execCopyOut (ring : RingId) (hostStops : Option Nat) (s : State) : Outcome := s.copyTake ring.val 2 hostStops

/-- COPY_DONE (R430): the copy's completion is queued. -/
def execCopyDone (ring : RingId) (s : State) : Outcome :=
  match s.hosts.copies.find? (fun c => c.entry.ring == ring.val) with
  | some c =>
    let s := { s with hosts := { s.hosts with copies := s.hosts.copies.filter (fun d => d.entry.ring != ring.val) } }
    .next (s.queueCpl c.entry c.status 0 0 c.seq)
  | none => .next s

/-! Completions and MSI-X (R432, R433). -/

/-- COMPLETION_WRITE (R432): the oldest completion that waits for a HOST_CPL ring is written once there is room. DESIGN CHOICE (log entry 60). -/
def execCompletionWrite (ring : RingId) (s : State) : Outcome :=
  match s.hosts.cplWait.find? (fun e => e.ring == ring.val) with
  | some e =>
    act (!s.ringIsFull ring.val && s.portReady (s.ringPort ring.val)) s
      ({ s with hosts := { s.hosts with cplWait := s.hosts.cplWait.erase e } }.cplPush ring.val e.bytes)
  | none => .next s

/-- Configuration space of port `p` (R419, R420). -/
def State.cfg (s : State) (p : Nat) : PcieCfg := if p = 0 then s.hosts.cfgA else s.hosts.cfgB

/-- Change the configuration space of port `p`. -/
def State.modCfg (s : State) (p : Nat) (f : PcieCfg → PcieCfg) : State :=
  if p = 0 then { s with hosts := { s.hosts with cfgA := f s.hosts.cfgA } }
  else { s with hosts := { s.hosts with cfgB := f s.hosts.cfgB } }

/-- What byte `o` of BAR4 reads as after a reset: the mask bit of every vector of the MSI-X table is 1 (R420, R433). DESIGN CHOICE (log entry 96). PRESUMED (log entry 100). -/
def bar4Reset (o : Nat) : Byte := if o < 0x8000 ∧ o % 16 = 12 then 1 else 0

/-- Byte `o` of port `p`'s BAR4: a stored byte is held as its difference from the byte after reset. -/
def State.bar4Byte (s : State) (p o : Nat) : Byte := tabGet 0 s.hosts.bar4 (p * 2 ^ 16 + o) ^^^ bar4Reset o

/-- Set byte `o` of port `p`'s BAR4. -/
def State.setBar4 (s : State) (p o : Nat) (b : Byte) : State :=
  { s with hosts := { s.hosts with bar4 := tabSet 0 s.hosts.bar4 (p * 2 ^ 16 + o) (b ^^^ bar4Reset o) } }

/-- `n` bytes of port `p`'s BAR4 as a number. -/
def State.bar4Nat (s : State) (p o n : Nat) : Nat := leNat ((List.range n).map (fun i => s.bar4Byte p (o + i)))

/-- A byte that a host writes to BAR4: the bytes of the MSI-X table, but for the reserved bits of a vector's control; the
pending-bit array is read-only, and nothing else lies there (R420). -/
def State.bar4Store (s : State) (p o : Nat) (b : Byte) : State :=
  if 0x8000 ≤ o then s
  else if o % 16 < 12 then s.setBar4 p o b
  else if o % 16 = 12 then s.setBar4 p o (b &&& 1)
  else s

/-- Whether a vector is masked: by its mask bit in the MSI-X table, or by Function Mask (R420, R433). DESIGN CHOICE (log entry 96). -/
def State.vectorMasked (s : State) (p v : Nat) : Bool := (s.cfg p).functionMask || (s.bar4Byte p (16 * v + 12)).getLsbD 0

/-- Set a vector's bit of the pending-bit array (R420, R433). DESIGN CHOICE (log entry 96). -/
def State.pendVector (s : State) (p v : Nat) (on : Bool) : State :=
  let a := 0x8000 + v / 8
  let b := (s.bar4Byte p a).toNat
  s.setBar4 p a (BitVec.ofNat 8 (b - b2n (bitOf b (v % 8)) * 2 ^ (v % 8) + b2n on * 2 ^ (v % 8)))

/-- The message that port `p` sends for a vector: the address and the data of its table entry (R433). DESIGN CHOICE (log entry 96). -/
def State.msixMsg (s : State) (p v : Nat) : MsixMsg := ⟨p, v, s.bar4Nat p (16 * v) 8, s.bar4Nat p (16 * v + 8) 4⟩

/-- MSIX_SEND (R433): the holdoff of a vector with entries to report is over; while MSI-X is enabled its message is sent, or
the vector stays pending where it is masked. DESIGN CHOICE (log entry 96). -/
def execMsixSend (port : HostPort) (vector : BitVec 11) (s : State) : Outcome :=
  let p := hostNum port
  let v := vector.toNat
  act (s.hosts.msixWait.contains (p, v) && s.portReady p && (s.cfg p).msixEnable) s
    (if s.vectorMasked p v then s.pendVector p v true
     else
       let s := s.pendVector p v false
       { s with hosts := { s.hosts with
           msixWait := s.hosts.msixWait.filter (fun e => !(e.1 == p && e.2 == v))
           msixSent := s.hosts.msixSent ++ [s.msixMsg p v] } })

end Sys2Proof.Machine
end

