-- ==== Sys2Proof/Machine/RegWrite.lean ====
section
/-! DEFINITION. Register accesses over the whole map: reads that latch (03_the_tally.md R70), plain writes (00_scope.md R9,
R11), and registers whose writes have a behaviour of their own that no other file holds (R201, R335, R351, R380, R415, R422,
R436). -/

namespace Sys2Proof.Machine

/-! Reads (R70, R331, R353). -/

/-- A read of the register at `x`, answered to its requester. -/
def State.readAnswer (s : State) (r : Requester) (x : Nat) : State :=
  let (s, v) := s.regRead r x
  s.answer r (v.setWidth 64)

/-- COUNTER_LO_READ (R70). -/
def execCounterLoRead (r : Requester) (offset : BitVec 28) (s : State) : Outcome :=
  act (latchPair offset.toNat) s (s.readAnswer r offset.toNat)

/-- TELL_CTR_VAL_READ (R331). -/
def execTellCtrValRead (r : Requester) (counter : BitVec 10) (s : State) : Outcome :=
  .next (s.readAnswer r (Reg.TELL_CTR_VAL counter.toNat))

/-- MEMC_ERR_IDX_READ (R353). -/
def execMemcErrIdxRead (r : Requester) (m : ChanId) (s : State) : Outcome :=
  .next (s.readAnswer r (Reg.PWR_MEMC_ERR_IDX_LO m.val))

/-! Plain writes. -/

/-- Bits of a register whose writes are commands of their own, by block kind and offset; 0xFFFFFFFF for all of them. -/
def ownBits (k : BlockKind) (o : Nat) : Nat :=
  match k with
  | .ledg => if 0x10 ≤ o ∧ o < 0x50 then 0xFFFFFFFF else 0
  | .spad => if o = 4 ∨ o = 0x10 ∨ (0x100 ≤ o ∧ o < 0x300) then 0xFFFFFFFF else 0
  | .hub => if o = 4 ∨ 0x100000 ≤ o then 0xFFFFFFFF else 0
  | .memc => if o = 0x38 then 1 else 0
  | .memmap => if o = 4 then 0x3F else 0
  | .churn => if o = 0xC ∨ o = 0x10 ∨ o = 0x14 then 0xFFFFFFFF else 0
  | .spanPort => if o = 0xC then 5 else 0
  | .span => if o = 0xC then 0xFFFFFFFF else 0
  | .sisyn => if o = 0x28 ∨ o = 0x2C then 0xFFFFFFFF else 0
  | .lc => if o = 0x1C then 0xFFFFFFFF else 0
  | .claim => 0xFFFFFFFF
  | _ => 0

/-- Whether requester `r` reaches the block at `b`: a core reaches its own blocks alone (R280). -/
def reaches (r : Requester) (b : BlockAt) : Bool :=
  match r with
  | .core c => coreBlock b.kind && b.inst == c.val
  | _ => true

/-- A 4-byte write to the register at `x` in block place `b`: its fields without a behaviour of their own take the value
under their access codes; the owner of the banks waits for the accesses before it (R175). -/
def State.plainWrite (s : State) (b : BlockAt) (x : Nat) (v : Word) : State :=
  if s.blockAbsent b.kind b.inst then s
  else if b.kind = .spad ∧ b.off = 0xC then s.ownerWrite b.inst v
  else match b.rows.find? (·.covers b.off) with
    | none => s
    | some row =>
      let own := ownBits b.kind b.off
      s.maskedWrite x { row with rw := row.rw &&& (0xFFFFFFFF - own), w1c := row.w1c &&& (0xFFFFFFFF - own) } v

/-- A 4-byte write by requester `r`. -/
def State.regWrite (s : State) (r : Requester) (x : Nat) (v : Word) : State :=
  match blockAt x with
  | some b => if reaches r b && x % 4 == 0 then s.plainWrite b x v else s
  | none => s

/-- Key of a requester's replies: the two ports and Sisyn. PRESUMED (log entry 95). -/
def replyKey (r : Requester) : Nat := reqNum r

/-- Give requester `k` a reply. -/
def State.reply (s : State) (k kind status : Nat) (bytes : List Byte) : State :=
  { s with replies := tabSet default s.replies k ⟨kind, status, bytes⟩ }

/-- Whether the device address map assigns BAR0 offset `x` (R422, R423). DESIGN CHOICE (log entry 80). -/
def mapAssigns (x : Nat) : Bool :=
  (blockAt x).isSome || (decide (x < 0x4000000) && decide (x % 0x100000 < 0x50000)) ||
    (decide (0x0C000000 ≤ x) && decide (x < 0x0E002000))

/-- A write in control space (R9, R11): an 8-byte write takes effect inside one register alone, and a host's write to an
offset that the map assigns to nothing is ignored and counted (R422). -/
def State.controlWrite (s : State) (r : Requester) (x : Nat) (wide : Bool) (v : Dword) : State :=
  match r, mapAssigns x with
  | .host port, false => s.bump32 (Reg.HOST_UNMAPPED (hostNum port)) 1
  | _, _ =>
    if wide then
      (if x % 8 = 0 ∧ wideInside x then (s.regWrite r x (v.setWidth 32)).regWrite r (x + 4) ((v >>> 32).setWidth 32) else s)
    else s.regWrite r x (v.setWidth 32)

/-- A host's write of bytes to its port's BAR4 (R420). -/
def State.bar4Write (s : State) (p o : Nat) (bs : List Byte) : State :=
  bs.zipIdx.foldl (fun s e => s.bar4Store p (o + e.2) e.1) s

/-- A configuration request: until the port is ready it is answered with Configuration Request Retry Status (R438). -/
def State.configWrite (s : State) (p : Nat) (f : PcieCfg → PcieCfg) : State :=
  if s.portReady p then (s.modCfg p f).reply p 0 0 [] else s.reply p 4 0 []

/-! Configuration space (R419, R420). -/

/-- A 64-bit base with its low word, or its high word, replaced. -/
def setHalf (base : Dword) (high : Bool) (v : Word) : Dword :=
  if high then BitVec.ofNat 64 (base.toNat % 2 ^ 32 + v.toNat * 2 ^ 32)
  else BitVec.ofNat 64 (base.toNat / 2 ^ 32 * 2 ^ 32 + v.toNat)

/-- A write of base address word `k`, of six: two for each of BAR0, BAR2 and BAR4. PRESUMED (log entry 100). -/
def PcieCfg.writeBar (c : PcieCfg) (k : Nat) (v : Word) : PcieCfg :=
  let high := k % 2 == 1
  if k < 2 then { c with base0 := setHalf c.base0 high v }
  else if k < 4 then { c with base2 := setHalf c.base2 high v }
  else if k < 6 then { c with base4 := setHalf c.base4 high v }
  else c

/-- A write of Device Control: payloads of 128 B to 512 B are supported, and read requests of 128 B to 4,096 B (R419); another size is
not taken. PRESUMED (log entry 100). -/
def PcieCfg.writeDevice (c : PcieCfg) (v : Half) : PcieCfg :=
  let p := v.extractLsb' 5 3
  let r := v.extractLsb' 12 3
  { c with payload := if p.toNat ≤ 2 then p else c.payload, readSize := if r.toNat ≤ 5 then r else c.readSize }

/-- A write in the error reporting capability, by offset: a 1 clears a status bit, and masks and severity take the value. PRESUMED (log entry 100). -/
def PcieCfg.writeAer (c : PcieCfg) (o : Nat) (v : Word) : PcieCfg :=
  let a := c.aer
  { c with aer :=
      if o = 0x4 then { a with uncStatus := a.uncStatus &&& ~~~v }
      else if o = 0x8 then { a with uncMask := v }
      else if o = 0xC then { a with uncSeverity := v }
      else if o = 0x10 then { a with corStatus := a.corStatus &&& ~~~v }
      else if o = 0x14 then { a with corMask := v }
      else a }

/-- REGISTER_WRITE (R9, R11): a write in control space, or from a host to its port's BAR4 (R420), command register, MSI-X
Message Control, whose bits 15 and 14 are MSI-X Enable and Function Mask (R419, R433), base address registers (R420), Device Control or
error reporting (R419). DESIGN CHOICE (log entry 80). PRESUMED (log entry 100). -/
def execRegisterWrite (r : Requester) (place : RegPlace) (wide : Bool) (value : Dword) (s : State) : Outcome :=
  let x := place.offset.toNat
  .next (match place.space, r with
    | .control, _ => s.controlWrite r x wide value
    | .bar4, .host port => if x < 2 ^ 16 then s.bar4Write (hostNum port) x (leBytes value.toNat (if wide then 8 else 4)) else s
    | .pciCommand, .host port => s.configWrite (hostNum port) (fun c => { c with command := value.setWidth 16 })
    | .msixControl, .host port => s.configWrite (hostNum port) (fun c =>
        { c with msixEnable := value.getLsbD 15, functionMask := value.getLsbD 14 })
    | .pciBar, .host port => s.configWrite (hostNum port) (·.writeBar (x / 4) (value.setWidth 32))
    | .deviceControl, .host port => s.configWrite (hostNum port) (·.writeDevice (value.setWidth 16))
    | .aer, .host port => s.configWrite (hostNum port) (·.writeAer x (value.setWidth 32))
    | _, _ => s)

/-! Pool mode (R201). -/

/-- Enter pool mode: every bank of every core is asked to be On. -/
def State.enterPool (s : State) : State :=
  let s := { s with cores := (s.allCores (fun k => (List.range 16).foldl (fun k b => k.bankRequest b .on) k)).cores }
  s.setRegN Reg.SPAD_POOL_CTL 1

/-- POOL_MODE_WRITE. -/
def execPoolModeWrite (_r : Requester) (value : Word) (s : State) : Outcome :=
  .next (if value.getLsbD 0 then (if s.sched.st = .idle then s.enterPool else s) else s.setRegN Reg.SPAD_POOL_CTL 0)

/-- An access to the pool range that faults SPAD.RANGE: error status and a record that concerns no core (R201, R507). DEDUCED (log entry 59). -/
def State.poolRange (s : State) (r : Requester) (p : Nat) : State :=
  let st := { Stop.of Code.spadRange with addr := some (poolBase + p) }
  let (s, _) := s.hostRecord 0x26 0 false st 0
  (s.answer r 0).reply (replyKey r) 3 Code.spadRange []

/-- An access to a bank that is not On ends with error status (R176, R192). DEDUCED (log entry 59). -/
def State.poolOff (s : State) (r : Requester) (p : Nat) : State :=
  let (s, _) := s.poolRefuse p
  (s.answer r 0).reply (replyKey r) 3 Code.bankOff []

/-- POOL_ACCESS (R201, R202). DEDUCED (log entry 59). -/
def execPoolAccess (r : Requester) (offset : Nat) (write : Option Dword) (s : State) : Outcome :=
  if s.poolMode = false ∨ offset % 8 ≠ 0 ∨ poolLen ≤ offset then .next (s.poolRange r offset)
  else if s.poolUsable offset = false then .next (s.poolOff r offset)
  else match write with
    | some v => .next ((s.poolWrite offset (leBytes v.toNat 8)).reply (replyKey r) 0 0 [])
    | none =>
      match s.poolRead offset 8 with
      | (s, .ok bs) => .next ((s.answer r (BitVec.ofNat 64 (leNat bs))).reply (replyKey r) 0 0 bs)
      | (s, .error f) => .next ((s.answer r 0).reply (replyKey r) 3 f.stop.code [])

/-! Memory controllers, map and Churns. -/

/-- MEMC_ERR_CLEAR (R351): a 1 clears the record's valid bit. -/
def execMemcErrClear (_r : Requester) (m : ChanId) (value : Word) (s : State) : Outcome :=
  act (value.getLsbD 0 && blockPresent s.variant .memc m.val) s (s.setField (Reg.PWR_MEMC_ERR m.val) 0 1 0)

/-- PWR_MEMMAP_SPLIT_WRITE (R335): only while the scheduler is IDLE. -/
def execPwrMemmapSplitWrite (_r : Requester) (value : Word) (s : State) : Outcome :=
  act (s.sched.st == .idle) s (s.setField Reg.PWR_MEMMAP_SPLIT 0 6 (value.toNat % 64))

/-- CHURN_PBT_WRITE (R380): registers 0 COUNT, 1 BASE_LO and 2 BASE_HI; ignored while a command runs or is parked. -/
def execChurnPbtWrite (_r : Requester) (n : ChurnId) (reg : Fin 3) (value : Word) (s : State) : Outcome :=
  act (churnPresent s.variant n.val && (s.churn n.val).running.isNone && (s.churn n.val).parked.isEmpty) s
    (match reg.val with
      | 0 => s.setRegN (Reg.CHURN_PBT_COUNT n.val) (value.toNat % 2 ^ 15)
      | 1 => s.setReg (Reg.CHURN_PBT_BASE_LO n.val) value
      | _ => s.setRegN (Reg.CHURN_PBT_BASE_HI n.val) (value.toNat % 2 ^ 16))

/-! Host registers. -/

/-- HOST_CLAIM_WRITE (R436). -/
def execHostClaimWrite (_r : Requester) (k : Fin 16) (value : Word) (s : State) : Outcome :=
  act (value == 0 || s.reg (Reg.HOST_CLAIM k.val) == 0) s (s.setReg (Reg.HOST_CLAIM k.val) value)

end Sys2Proof.Machine
end

