-- ==== Sys2Proof/Machine/HostPorts.lean ====
section
/-! DEFINITION. The two PCIe ports: apertures, unassigned offsets, ledger add views, port resets and start-up
(16_host_attachment.md R419–R423, R433, R435, R437–R439; 21_module_electrical_and_mechanical.md R515; 04_ledgers.md R92). -/

namespace Sys2Proof.Machine

/-! Apertures (R420, R421). -/

/-- log2 of the size in GiB of port `p`'s BAR2. -/
def State.barLog (s : State) (p : Nat) : Nat := (s.cfg p).bar

/-- Local address of BAR2 offset `o` on port `p`: base bits below the BAR's size are treated as zero. -/
def State.aperture (s : State) (p o : Nat) : Nat :=
  let z := 2 ^ s.barLog p
  s.field (Reg.HOST_APT_BASE p) 0 12 / z * z * 2 ^ 30 + o

/-- Whether an access lies inside port `p`'s BAR2. -/
def State.inBar (s : State) (p o len : Nat) : Bool := decide (0 < len) && decide (o + len ≤ 2 ^ s.barLog p * 2 ^ 30)

/-- Whether an aperture access reaches beyond the LPDDR range. -/
def State.beyond (s : State) (p o len : Nat) : Bool := decide (s.lpddrEnd < s.aperture p o + len)

/-- Note an uncorrectable error in a port's error reporting: its bit (R419). PRESUMED (log entry 100). -/
def State.noteAer (s : State) (p bit : Nat) : State :=
  s.modCfg p (fun c => { c with aer := { c.aer with uncStatus := c.aer.uncStatus ||| 1#32 <<< bit } })

/-- A read through port `p`'s aperture: Unsupported Request beyond LPDDR, Completer Abort where the memory fails it. -/
def State.bar2Read (s : State) (p o len : Nat) : State :=
  if s.beyond p o len then ((s.bump32 (Reg.HOST_APT_RANGE p) 1).noteAer p 20).reply p 1 0 []
  else
    let (s, bs, st) := s.lpddrRead (s.aperture p o) len 0xFF
    if st.code = 0 then s.reply p 0 0 bs else (s.noteAer p 15).reply p 2 0 []

/-- BAR2_READ (R421). DESIGN CHOICE (log entry 80). -/
def execBar2Read (port : HostPort) (offset : BitVec 48) (len : Nat) (s : State) : Outcome :=
  let p := hostNum port
  act (s.inBar p offset.toNat len) s (s.apart (·.bar2Read p offset.toNat len))

/-- A write through port `p`'s aperture: dropped beyond LPDDR, and where a merge read fails. -/
def State.bar2Write (s : State) (p o : Nat) (bs : List Byte) : State :=
  if s.beyond p o bs.length then s.bump32 (Reg.HOST_APT_RANGE p) 1
  else (s.lpddrWrite (s.aperture p o) bs 0xFF).1

/-- BAR2_WRITE (R421). DESIGN CHOICE (log entry 80). -/
def execBar2Write (port : HostPort) (offset : BitVec 48) (bytes : List Byte) (s : State) : Outcome :=
  let p := hostNum port
  act (s.inBar p offset.toNat bytes.length) s (s.apart (·.bar2Write p offset.toNat bytes))

/-- Whether memory space is enabled in a command register: bit 1 of it. PRESUMED (log entry 100). -/
def PcieCfg.memory (c : PcieCfg) : Bool := c.command.getLsbD 1

/-- A size written to the Resizable BAR capability takes effect only while memory space is disabled (R420). PRESUMED (log entry 100). -/
def PcieCfg.resize (c : PcieCfg) (v : Nat) : PcieCfg := if c.memory then c else { c with bar := v }

/-- RESIZABLE_BAR_WRITE (R420): a configuration request (R438); sizes run from 1 GiB to 4 TiB. DESIGN CHOICE (log entry 80). -/
def execResizableBarWrite (port : HostPort) (log2GiB : BitVec 6) (s : State) : Outcome :=
  act (log2GiB.toNat ≤ 12) s (s.configWrite (hostNum port) (·.resize log2GiB.toNat))

/-! The configuration header (R419, R438). -/

/-- A capability of the function (R419). -/
inductive PcieCap where
  | msix
  | resizableBar
  | dataLinkFeature
  | deviceSerialNumber
  | advancedErrorReporting
  deriving DecidableEq, Repr

/-- A base address register as it reads (R420): its size in bytes as a power of two, whether it is prefetchable, and its base, whose
bits below the size are zero. All are 64-bit memory BARs. -/
structure BarView where
  size : Nat
  prefetchable : Bool
  base : Nat
  deriving DecidableEq, Repr

/-- The two words of a base address register: type 64-bit memory is 0b10 in bits 2:1, and bit 3 says that it is prefetchable. PRESUMED (log entry 100). -/
def BarView.words (b : BarView) : Nat × Nat := ((b.base + 4 + 8 * b2n b.prefetchable) % 2 ^ 32, b.base / 2 ^ 32)

/-- The base address registers BAR0, BAR2 and BAR4 (R420). -/
def PcieCfg.bars (c : PcieCfg) : List BarView :=
  let at_ (k : Nat) (pre : Bool) (base : Dword) : BarView := ⟨k, pre, base.toNat / 2 ^ k * 2 ^ k⟩
  [at_ 28 false c.base0, at_ (30 + c.bar) true c.base2, at_ 16 false c.base4]

/-- What a port's configuration space shows of the function: vendor and device ID, class code, Device Serial Number, its capabilities,
whether the Data Link Feature capability offers scaled flow control, the rates and widths of its link, its base address registers, and what
its other registers hold. -/
structure ConfigView where
  vendor : Half
  device : Nat
  classCode : Nat
  serial : Dword
  capabilities : List PcieCap
  scaledFlowControl : Bool
  rates : List Nat
  widths : List Nat
  bars : List BarView
  regs : PcieCfg
  deriving DecidableEq, Repr

/-- Codes of the rates that a port supports, 2.5 to 64.0 GT/s (R419, R439). -/
def linkRates : List Nat := [1, 2, 3, 4, 5, 6]

/-- The widths that a port supports (R419). -/
def linkWidths : List Nat := [8, 4, 2, 1]

/-- The capabilities of the function (R419). -/
def capabilities : List PcieCap := [.msix, .resizableBar, .dataLinkFeature, .deviceSerialNumber, .advancedErrorReporting]

/-- A configuration read of port `p`: none stands for Configuration Request Retry Status (R438). PRESUMED (log entry 100). -/
def State.configRead (s : State) (p : Nat) : Option ConfigView :=
  if s.portReady p then
    some ⟨Config.vendorId, 0x0A90 + p, 0x120000, s.serial, capabilities, true, linkRates, linkWidths, (s.cfg p).bars, s.cfg p⟩
  else none

/-! Reads of BAR0 that no register answers (R92, R422). -/

/-- An aligned 8-byte read of a host at BAR0 offset `x`: the ledger views (R92), or control space. -/
def State.bar0Read (s : State) (x : Nat) : State × Dword :=
  let c := x / 0x100000
  let o := x % 0x100000
  if c < 64 ∧ o < 0x10000 then s.addViewRead c (o / 0x2000) (o % 0x2000 / 8)
  else if c < 64 ∧ o < 0x50000 then
    let q := o - 0x10000
    s.rawViewRead c (q / 0x8000) (q % 0x8000 / 32) (q % 32)
  else (s, s.regRead8 x)

/-! Unassigned offsets (R422, R423). -/

/-- UNMAPPED_ACCESS (R422): a read gives zero, a write is ignored; both are counted. -/
def execUnmappedAccess (port : HostPort) (offset : BitVec 28) (isWrite : Bool) (s : State) : Outcome :=
  let t := s.bump32 (Reg.HOST_UNMAPPED (hostNum port)) 1
  act (!mapAssigns offset.toNat) s (if isWrite then t else t.answer (.host port) 0)

/-! Ledger add views (R92). -/

/-- An aligned 8-byte P64 enters the add-port buffer of its core. DEDUCED (log entry 81). -/
def State.hostAdd (s : State) (c o : Nat) (v : Dword) : State :=
  s.modCore c (fun k => { k with adds := k.adds ++ [LedgAdd.mk .host (o / 0x2000) (o % 0x2000 / 8) v] })

/-- ADD_VIEW_WRITE (R92, R422): it waits while the add-port buffer is full; any other write completes with error status. DEDUCED (log entry 81). -/
def execAddViewWrite (port : HostPort) (c : CoreId) (offset : BitVec 16) (wide : Bool) (value : Dword) (s : State) : Outcome :=
  let o := offset.toNat
  if wide ∧ o % 8 = 0 then act ((s.core c.val).adds.length < 64) s (s.hostAdd c.val o value)
  else .next (s.reply (hostNum port) 3 Code.addRefused [])

/-! Port resets (R437). -/

/-- Disable a host ring that is bound to port `p`; its entries are discarded. -/
def State.unbindRing (s : State) (p ring : Nat) : State :=
  if s.ringKind ring ≠ 0 ∧ s.ringPort ring = p then
    ((s.setField (ringReg ring 2) 9 4 0).setRegN (ringReg ring 3) 0).setRegN (ringReg ring 4) 0
  else s

/-- Disable every host ring that is bound to port `p`. -/
def State.unbindRings (s : State) (p : Nat) : State := (List.range 1024).foldl (fun t i => t.unbindRing p (16384 + i)) s

/-- Whether the running task was taken from port `p`. -/
def State.taskFrom (s : State) (p : Nat) : Bool := s.sched.st != .idle && s.sched.entry.port == p

/-- The port's side of host state after a reset: configuration space, MSI-X table and vectors, copies and completions are gone. -/
def State.portHosts (s : State) (p : Nat) : HostState :=
  { s.hosts with
    cfgA := if p = 0 then PcieCfg.reset else s.hosts.cfgA
    cfgB := if p = 0 then s.hosts.cfgB else PcieCfg.reset
    bar4 := tabDrop (fun k => k / 2 ^ 16 == p) s.hosts.bar4
    msixWait := s.hosts.msixWait.filter (fun e => e.1 != p)
    cplWait := s.hosts.cplWait.filter (fun e => s.ringPort e.ring != p)
    copies := s.hosts.copies.filter (fun e => e.entry.port != p)
    discardTask := s.hosts.discardTask || s.taskFrom p }

/-- Registers of port `p` that a port reset clears. -/
def portResetRegs (p : Nat) : List Nat := [Reg.HOST_APT_BASE p, Reg.HOST_EVENT_RING p, Reg.HOST_IRQ_HOLDOFF p]

/-- PERST# of a port. -/
def State.setPerst (s : State) (p : Nat) (v : Bool) : State :=
  if p = 0 then { s with power := { s.power with perstA := v } } else { s with power := { s.power with perstB := v } }

/-- The reference clock of a port. -/
def State.setRefclk (s : State) (p : Nat) (v : Bool) : State :=
  if p = 0 then { s with power := { s.power with refclkA := v } } else { s with power := { s.power with refclkB := v } }

/-- Whether port `p`'s PERST# is asserted. -/
def State.perst (s : State) (p : Nat) : Bool := if p = 0 then s.power.perstA else s.power.perstB

/-- Whether port `p`'s reference clock runs. -/
def State.refclk (s : State) (p : Nat) : Bool := if p = 0 then s.power.refclkA else s.power.refclkB

/-- A reset of port `p`. A Function Level Reset keeps the link up and ends in the same step. DEDUCED (log entry 82). -/
def State.portReset (s : State) (p : Nat) (kind : PortResetKind) : State :=
  let s : State := { s with hosts := s.portHosts p }
  let s := (s.unbindRings p).clearRegs (portResetRegs p)
  let s := if kind = .functionLevel then s else s.setRegN (Reg.HOST_STATUS p) 0
  let s := if kind = .perst then s.setPerst p true else s
  let s := s.bump32 (Reg.HOST_RESETS p) 1
  (s.report (dbEvent 0 2 0x70 p 0 0 [])).1

/-- PORT_RESET (R437). -/
def execPortReset (port : HostPort) (kind : PortResetKind) (s : State) : Outcome := .next (s.portReset (hostNum port) kind)

/-! Start-up (R438, R515). -/

/-- Whether a port may train: PERST# is released, its reference clock runs, its domain is on, and its link is down. -/
def State.linkTrains (s : State) (p : Nat) : Bool :=
  !s.perst p && s.refclk p && s.domainOn 26 && s.field (Reg.HOST_STATUS p) 1 1 == 0

/-- Port `p`'s link is up; the port is ready at the later of the end of step 6 and its link training (R447). DEDUCED (log entry 82). -/
def State.linkUp (s : State) (p : Nat) (l : LinkInfo) : State :=
  s.setRegN (Reg.HOST_STATUS p)
    (packBits [(b2n s.power.loaded, 0), (1, 1), (b2n l.flit, 2), (l.speed.toNat, 3), (l.width.toNat, 6)])

/-- Whether a port supports a link (R419): a rate of 2.5 to 64.0 GT/s, a width of 1, 2, 4 or 8 lanes, and FLIT mode at 64.0 GT/s
alone. -/
def linkValid (l : LinkInfo) : Bool :=
  linkRates.contains l.speed.toNat && linkWidths.contains l.width.toNat && (l.flit == (l.speed.toNat == 6))

/-- PCIE_LINK_UP (R438): a port trains no link but one that it supports. -/
def execPcieLinkUp (port : HostPort) (link : LinkInfo) (s : State) : Outcome :=
  act (s.linkTrains (hostNum port) && linkValid link) s (s.linkUp (hostNum port) link)

/-- PERST_RELEASE (R438, R515): training begins, once the reference clock runs; PCIE_LINK_UP ends it. DEDUCED (log entry 82). -/
def execPerstRelease (port : HostPort) (refclk : Bool) (s : State) : Outcome :=
  act (s.perst (hostNum port)) s ((s.setPerst (hostNum port) false).setRefclk (hostNum port) refclk)

/-- REFCLK_ARRIVAL (R515): training begins. DEDUCED (log entry 82). -/
def execRefclkArrival (port : HostPort) (s : State) : Outcome := .next (s.setRefclk (hostNum port) true)

end Sys2Proof.Machine
end

