-- ==== Sys2Proof/Machine/KeyEngine.lean ====
section
/-! DEFINITION. What the key engine computes by public standards (19_lifecycle_and_attestation.md R490, R496): SHA-384, and the
verification of an ECDSA signature on brainpoolP384r1. -/

namespace Sys2Proof.Machine

/-! SHA-384. -/

/-- Round constants 0 to 15. -/
def shaK0 : List Dword := [
  0x428A2F98D728AE22#64, 0x7137449123EF65CD#64, 0xB5C0FBCFEC4D3B2F#64, 0xE9B5DBA58189DBBC#64,
  0x3956C25BF348B538#64, 0x59F111F1B605D019#64, 0x923F82A4AF194F9B#64, 0xAB1C5ED5DA6D8118#64,
  0xD807AA98A3030242#64, 0x12835B0145706FBE#64, 0x243185BE4EE4B28C#64, 0x550C7DC3D5FFB4E2#64,
  0x72BE5D74F27B896F#64, 0x80DEB1FE3B1696B1#64, 0x9BDC06A725C71235#64, 0xC19BF174CF692694#64]

/-- Round constants 16 to 31. -/
def shaK1 : List Dword := [
  0xE49B69C19EF14AD2#64, 0xEFBE4786384F25E3#64, 0x0FC19DC68B8CD5B5#64, 0x240CA1CC77AC9C65#64,
  0x2DE92C6F592B0275#64, 0x4A7484AA6EA6E483#64, 0x5CB0A9DCBD41FBD4#64, 0x76F988DA831153B5#64,
  0x983E5152EE66DFAB#64, 0xA831C66D2DB43210#64, 0xB00327C898FB213F#64, 0xBF597FC7BEEF0EE4#64,
  0xC6E00BF33DA88FC2#64, 0xD5A79147930AA725#64, 0x06CA6351E003826F#64, 0x142929670A0E6E70#64]

/-- Round constants 32 to 47. -/
def shaK2 : List Dword := [
  0x27B70A8546D22FFC#64, 0x2E1B21385C26C926#64, 0x4D2C6DFC5AC42AED#64, 0x53380D139D95B3DF#64,
  0x650A73548BAF63DE#64, 0x766A0ABB3C77B2A8#64, 0x81C2C92E47EDAEE6#64, 0x92722C851482353B#64,
  0xA2BFE8A14CF10364#64, 0xA81A664BBC423001#64, 0xC24B8B70D0F89791#64, 0xC76C51A30654BE30#64,
  0xD192E819D6EF5218#64, 0xD69906245565A910#64, 0xF40E35855771202A#64, 0x106AA07032BBD1B8#64]

/-- Round constants 48 to 63. -/
def shaK3 : List Dword := [
  0x19A4C116B8D2D0C8#64, 0x1E376C085141AB53#64, 0x2748774CDF8EEB99#64, 0x34B0BCB5E19B48A8#64,
  0x391C0CB3C5C95A63#64, 0x4ED8AA4AE3418ACB#64, 0x5B9CCA4F7763E373#64, 0x682E6FF3D6B2B8A3#64,
  0x748F82EE5DEFB2FC#64, 0x78A5636F43172F60#64, 0x84C87814A1F0AB72#64, 0x8CC702081A6439EC#64,
  0x90BEFFFA23631E28#64, 0xA4506CEBDE82BDE9#64, 0xBEF9A3F7B2C67915#64, 0xC67178F2E372532B#64]

/-- Round constants 64 to 79. -/
def shaK4 : List Dword := [
  0xCA273ECEEA26619C#64, 0xD186B8C721C0C207#64, 0xEADA7DD6CDE0EB1E#64, 0xF57D4F7FEE6ED178#64,
  0x06F067AA72176FBA#64, 0x0A637DC5A2C898A6#64, 0x113F9804BEF90DAE#64, 0x1B710B35131C471B#64,
  0x28DB77F523047D84#64, 0x32CAAB7B40C72493#64, 0x3C9EBE0A15C9BEBC#64, 0x431D67C49C100D4C#64,
  0x4CC5D4BECB3E42B6#64, 0x597F299CFC657E2A#64, 0x5FCB6FAB3AD6FAEC#64, 0x6C44198C4A475817#64]

/-- The round constants. -/
def shaK : List Dword := shaK0 ++ shaK1 ++ shaK2 ++ shaK3 ++ shaK4

/-- The eight working words. -/
structure ShaSt where
  a : Dword
  b : Dword
  c : Dword
  d : Dword
  e : Dword
  f : Dword
  g : Dword
  h : Dword
  deriving DecidableEq, Repr

/-- The working words before the first block. -/
def ShaSt.start : ShaSt :=
  ⟨0xCBBB9D5DC1059ED8#64, 0x629A292A367CD507#64, 0x9159015A3070DD17#64, 0x152FECD8F70E5939#64,
    0x67332667FFC00B31#64, 0x8EB44A8768581511#64, 0xDB0C2E0D64F98FA7#64, 0x47B5481DBEFA4FA4#64⟩

/-- One round with constant `k` and message word `w`. -/
def ShaSt.round (s : ShaSt) (k w : Dword) : ShaSt :=
  let t := s.h + (s.e.rotateRight 14 ^^^ s.e.rotateRight 18 ^^^ s.e.rotateRight 41) + ((s.e &&& s.f) ^^^ (~~~s.e &&& s.g)) + k + w
  let u := (s.a.rotateRight 28 ^^^ s.a.rotateRight 34 ^^^ s.a.rotateRight 39) + ((s.a &&& s.b) ^^^ (s.a &&& s.c) ^^^ (s.b &&& s.c))
  ⟨t + u, s.a, s.b, s.c, s.d + t, s.e, s.f, s.g⟩

/-- The message word that follows sixteen. -/
def shaNext (w : List Dword) : Dword :=
  let x := w.getD 14 0
  let y := w.getD 1 0
  (x.rotateRight 19 ^^^ x.rotateRight 61 ^^^ x >>> 6) + w.getD 9 0 + (y.rotateRight 1 ^^^ y.rotateRight 8 ^^^ y >>> 7) + w.getD 0 0

/-- The rounds of a list of constants, over a window of sixteen message words. -/
def shaRounds : List Dword → List Dword → ShaSt → ShaSt
  | [], _, s => s
  | k :: ks, w, s => shaRounds ks (w.drop 1 ++ [shaNext w]) (s.round k (w.headD 0))

/-- One block of 128 bytes. -/
def ShaSt.block (s : ShaSt) (bs : List Byte) : ShaSt :=
  let w := (List.range 16).map (fun i => BitVec.ofNat 64 (leNat ((bs.drop (8 * i)).take 8).reverse))
  let t := shaRounds shaK w s
  ⟨s.a + t.a, s.b + t.b, s.c + t.c, s.d + t.d, s.e + t.e, s.f + t.f, s.g + t.g, s.h + t.h⟩

/-- `n` blocks. -/
def shaBlocks : Nat → List Byte → ShaSt → ShaSt
  | 0, _, s => s
  | n + 1, bs, s => shaBlocks n (bs.drop 128) (s.block (bs.take 128))

/-- A message with its padding: a one bit, zeros, and its length in bits in 16 bytes. -/
def shaPad (bs : List Byte) : List Byte :=
  let n := bs.length
  bs ++ [0x80] ++ List.replicate ((239 - n % 128) % 128) 0 ++ (leBytes (8 * n) 16).reverse

/-- SHA-384 of a byte string (R496): its value as one number, most significant byte first. PRESUMED (log entry 137). -/
def sha384 (bs : List Byte) : BitVec 384 :=
  let m := shaPad bs
  let s := shaBlocks (m.length / 128) m ShaSt.start
  s.a ++ s.b ++ s.c ++ s.d ++ s.e ++ s.f

/-! ECDSA on brainpoolP384r1. -/

/-- The prime of the field. -/
def curveP : Nat := 0x8CB91E82A3386D280F5D6F7E50E641DF152F7109ED5456B412B1DA197FB71123ACD3A729901D1A71874700133107EC53

/-- The coefficient of x. -/
def curveA : Nat := 0x7BC382C63D8C150C3C72080ACE05AFA0C2BEA28E4FB22787139165EFBA91F90F8AA5814A503AD4EB04A8C7DD22CE2826

/-- The constant term. -/
def curveB : Nat := 0x04A8C7DD22CE28268B39B55416F0447C2FB77DE107DCD2A62E880EA53EEB62D57CB4390295DBC9943AB78696FA504C11

/-- The generator's x. -/
def curveGx : Nat := 0x1D1C64F068CF45FFA2A63A81B7C13F6B8847A3E77EF14FE3DB7FCAFE0CBD10E8E826E03436D646AAEF87B2E247D4AF1E

/-- The generator's y. -/
def curveGy : Nat := 0x8ABE1D7520F9C2A45CB1EB8E95CFD55262B70B29FEEC5864E19C054FF99129280E4646217791811142820341263C5315

/-- The order of the generator. -/
def curveN : Nat := 0x8CB91E82A3386D280F5D6F7E50E641DF152F7109ED5456B31F166E6CAC0425A7CF3AB6AF6B7FC3103B883202E9046565

/-- b to the e modulo m, for an e of at most as many bits as the first operand says. -/
def powMod (m : Nat) : Nat → Nat → Nat → Nat
  | 0, _, _ => 1
  | n + 1, b, e =>
    let r := powMod m n (b * b % m) (e / 2)
    if e % 2 = 1 then r * b % m else r

/-- The inverse of x modulo a prime m. -/
def invMod (m x : Nat) : Nat := powMod m 384 (x % m) (m - 2)

/-- A difference in the field. -/
def fieldSub (a b : Nat) : Nat := (a + curveP - b) % curveP

/-- A point of the curve: x is `x / z^2` and y is `y / z^3`; z is 0 at the point at infinity. -/
structure CurvePoint where
  x : Nat
  y : Nat
  z : Nat
  deriving DecidableEq, Repr

/-- Twice a point. -/
def CurvePoint.double (p : CurvePoint) : CurvePoint :=
  let b := p.y * p.y % curveP
  let s := 4 * p.x * b % curveP
  let m := (3 * p.x * p.x + curveA * (p.z * p.z % curveP) * (p.z * p.z % curveP)) % curveP
  let u := fieldSub (m * m % curveP) (2 * s % curveP)
  ⟨u, fieldSub (m * fieldSub s u % curveP) (8 * b * b % curveP), 2 * p.y * p.z % curveP⟩

/-- The sum of two points. -/
def CurvePoint.add (p q : CurvePoint) : CurvePoint :=
  if p.z = 0 then q
  else if q.z = 0 then p
  else
    let c := p.z * p.z % curveP
    let d := q.z * q.z % curveP
    let u := p.x * d % curveP
    let h := fieldSub (q.x * c % curveP) u
    let v := p.y * d * q.z % curveP
    let r := fieldSub (q.y * c * p.z % curveP) v
    if h = 0 then (if r = 0 then p.double else ⟨1, 1, 0⟩)
    else
      let g := h * h % curveP
      let i := u * g % curveP
      let j := h * g % curveP
      let k := fieldSub (fieldSub (r * r % curveP) j) (2 * i % curveP)
      ⟨k, fieldSub (r * fieldSub i k % curveP) (v * j % curveP), h * p.z * q.z % curveP⟩

/-- A multiple of a point, for a factor of at most as many bits as the first operand says. -/
def CurvePoint.times (p : CurvePoint) : Nat → Nat → CurvePoint
  | 0, _ => ⟨1, 1, 0⟩
  | n + 1, k =>
    let r := (p.times n (k / 2)).double
    if k % 2 = 1 then r.add p else r

/-- The x of a point that is not at infinity. -/
def CurvePoint.affineX (p : CurvePoint) : Nat :=
  let i := invMod curveP p.z
  p.x * (i * i % curveP) % curveP

/-- Whether a point lies on the curve. -/
def onCurve (x y : Nat) : Bool :=
  decide (x < curveP) && decide (y < curveP) && y * y % curveP == (x * x * x + curveA * x + curveB) % curveP

/-- A number from big-endian bytes. -/
def beNat (bs : List Byte) : Nat := leNat bs.reverse

/-- Whether a signature, r then s, verifies over a message by a public key, X then Y, each of 48 bytes, big-endian (R490, R496). PRESUMED (log entry 137). -/
def ecdsaVerify (pubkey msg sig : List Byte) : Bool :=
  let x := beNat (pubkey.take 48)
  let y := beNat (pubkey.drop 48)
  let r := beNat (sig.take 48)
  let s := beNat (sig.drop 48)
  let w := invMod curveN s
  let u := (sha384 msg).toNat * w % curveN
  let v := r * w % curveN
  let p := (CurvePoint.times ⟨curveGx, curveGy, 1⟩ 384 u).add (CurvePoint.times ⟨x, y, 1⟩ 384 v)
  onCurve x y && decide (0 < r) && decide (r < curveN) && decide (0 < s) && decide (s < curveN) &&
    decide (p.z ≠ 0) && p.affineX % curveN == r

end Sys2Proof.Machine
end

