-- ==== Sys2Proof/Machine/Quiesce.lean ====
section
/-! DEFINITION. Quiescible units: their numbers, states and events (17_power_clocks_and_reset.md R458–R460). -/

namespace Sys2Proof.Machine

/-- The place of a quiescible unit in PWR_QSTATE (R460). -/
def qIndex : QUnit → Nat
  | .churn n => n.val
  | .root i => 48 + i.val
  | .chan m => 52 + m.val
  | .port p => 244 + p.val

/-- unit_kind of the unit at a place. -/
def qKind (k : Nat) : Nat := if k < 48 then 0x50 else if k < 52 then 0x51 else if k < 244 then 0x40 else 0x61

/-- Instance of the unit at a place. -/
def qInst (k : Nat) : Nat := if k < 48 then k else if k < 52 then k - 48 else if k < 244 then k - 52 else k - 244

/-- Whether the configuration has the unit at a place (R3). -/
def qPresent (v : Variant) (k : Nat) : Bool :=
  if k < 48 then churnPresent v k
  else if k < 52 then rootPresent v
  else if k < 244 then pkgPresent v ((k - 52) / 4)
  else decide (k < 260) && spanPresent v

/-- Quiesce state of the unit at a place: 0 ABSENT, 1 ENABLED, 2 QUIESCING, 3 QUIESCED (R458). -/
def State.qst (s : State) (k : Nat) : Nat := s.field (Reg.PWR_QSTATE k) 0 2

/-- Set a quiesce state. -/
def State.setQst (s : State) (k v : Nat) : State := s.setField (Reg.PWR_QSTATE k) 0 2 v

/-- Sisyn notes the state of what has a number in its record (R481). -/
def State.noteRecord (s : State) (n v : Nat) : State :=
  { s with sisyn := { s.sisyn with record := tabSet 0 s.sisyn.record n v } }

/-- A unit enters QUIESCED: DISABLED is posted (R459). -/
def State.qDisabled (s : State) (k : Nat) : State :=
  ((s.setQst k 3).noteRecord k 3).postEvent 0 0 (qKind k) (qInst k) 1 []

/-- A unit returns to ENABLED: ENABLED is posted (R459). -/
def State.qEnabled (s : State) (k : Nat) : State :=
  let s : State := { s with power := { s.power with enableWait := s.power.enableWait.filter (· != k) } }
  ((s.setQst k 1).noteRecord k 1).postEvent 0 0 (qKind k) (qInst k) 2 []

/-- An enable request to a QUIESCING unit waits (R459). -/
def State.qWait (s : State) (k : Nat) : State :=
  if s.power.enableWait.contains k then s else { s with power := { s.power with enableWait := s.power.enableWait ++ [k] } }

end Sys2Proof.Machine
end

