-- ==== Sys2Proof/Machine/Passbook.lean ====
section
/-! DEFINITION. The passbook: its records, their chain of signatures and its space (19_lifecycle_and_attestation.md R496,
R499, R500). -/

namespace Sys2Proof.Machine

/-- Records that the passbook's area holds (R499). -/
def pbCapacity : Nat := 26214

/-- Kinds of passbook records (R499). -/
inductive PbKind where
  | provision
  | state
  | zeroiseBegin
  | zeroiseDone
  | keyAdd
  | keyRevoke
  | debugEnd
  | fuseCommit
  deriving DecidableEq, Repr

/-- The code of a kind. -/
def PbKind.code : PbKind → Nat
  | .provision => 1
  | .state => 2
  | .zeroiseBegin => 3
  | .zeroiseDone => 4
  | .keyAdd => 5
  | .keyRevoke => 6
  | .debugEnd => 7
  | .fuseCommit => 8

/-- The name of the device identity key that is derived from an identity seed (R496). DEDUCED (log entry 132). -/
def identityKey (seed : BitVec 384) : Nat := seed.toNat

/-- Bytes of a signature: r then s, most significant byte first (R490). -/
def sigBytes (v : BitVec 768) : List Byte := (leBytes v.toNat 96).reverse

/-- The signature that the next record chains to; the first record chains to 96 zero bytes (R499). -/
def LcSt.lastSig (l : LcSt) : List Byte :=
  match l.passbook.getLast? with
  | some r => sigBytes r.sig
  | none => List.replicate 96 0

/-- A record without its signature. DEDUCED (log entry 94). -/
def LcSt.draft (l : LcSt) (boot : Nat) (k : PbKind) (from_ to_ slot : Nat) (digest : BitVec 384) : PbRecord :=
  ⟨l.passbook.length + 1, boot % 2 ^ 16, k.code, from_, to_, slot, 0, digest, 0⟩

/-- Sign a record: the identity key signs bytes 0–63 followed by the previous record's signature. -/
def LcSt.signed (l : LcSt) (r : PbRecord) : PbRecord :=
  { r with sig := Config.sign l.idKey (r.bytes.take 64 ++ l.lastSig) }

/-- Where the SPI NOR holds the passbook (R463). -/
def pbPlace : Nat := 0x3100000

/-- Append a record; raw bytes in its place are written over. -/
def State.pbAppend (s : State) (k : PbKind) (from_ to_ slot : Nat) (digest : BitVec 384) : State :=
  let a := pbPlace + 160 * s.lc.passbook.length
  { s with sisyn := { s.sisyn with nor := tabDrop (fun x => decide (a ≤ x) && decide (x < a + 160)) s.sisyn.nor }
           lc := { s.lc with passbook := s.lc.passbook ++ [s.lc.signed (s.lc.draft s.dbBoot k from_ to_ slot digest)] } }

/-- Free records. -/
def State.pbFree (s : State) : Nat := pbCapacity - s.lc.passbook.length

/-- Whether an action that appends `n` records has space: 16 records stay free, except for RETURN and SCRAP (R500). -/
def State.pbRoom (s : State) (n : Nat) (reserve : Bool) : Bool := decide (n + (if reserve then 0 else 16) ≤ s.pbFree)

/-- No owner slot is concerned. -/
def noSlot : Nat := 0xFF

end Sys2Proof.Machine
end

