-- ==== Sys2Proof/Machine/Measure.lean ====
section
/-! DEFINITION. What the fuses and the SPI NOR show of firmware, daybook and passbook, and the measurements made of it
(18_sisyn_and_the_faceplate.md R463, R470; 19_lifecycle_and_attestation.md R495, R498). -/

namespace Sys2Proof.Machine

/-! Firmware slots (R470–R472). -/

/-- F, the anti-rollback fuse counter. -/
def State.fuseF (s : State) : Nat := s.field Reg.SISYN_STATUS 3 7

/-- The running slot: 0 A, 1 B; the one active last where no firmware runs. -/
def State.slotActive (s : State) : Nat := s.field Reg.SISYN_STATUS 0 1

/-- The image in a slot, 0 for none that can boot. -/
def State.slotImage (s : State) (k : Nat) : Nat := if k = 0 then s.sisyn.imageA else s.sisyn.imageB

/-- Security version of the image in a slot. -/
def State.slotSvn (s : State) (k : Nat) : Nat := s.field Reg.SISYN_FW_SVN (8 * k) 7

/-- Failure count of a slot. -/
def State.slotCount (s : State) (k : Nat) : Nat := s.field Reg.SISYN_BOOT (2 * k) 2

/-- The slot that the boot record names as active: the running one, unless a raw write to the SPI NOR has changed the record's
first byte since (R463, R488). -/
def State.bootActive (s : State) : Nat :=
  match tabFind s.sisyn.nor 0 with
  | some b => b.toNat % 2
  | none => s.slotActive

/-! The SPI NOR in bytes (R463, R465, R499). An erased byte is 0xFF. -/

/-- Byte `i` of a daybook slot. -/
def State.norDaybook (s : State) (o : Nat) : Byte :=
  match tabFind s.dbArea (o / 64) with
  | some e => e.bytes.getD (o % 64) 0
  | none => 0xFF

/-- Byte of the passbook's area. -/
def State.norPassbook (s : State) (o : Nat) : Byte :=
  match s.lc.passbook[o / 160]? with
  | some r => r.bytes.getD (o % 160) 0
  | none => 0xFF

/-- A byte of the boot record: the active slot, then the failure count of each slot (R463). DESIGN CHOICE (log entry 90). -/
def State.norBoot (s : State) (a : Nat) : Byte :=
  if a = 0 then BitVec.ofNat 8 s.bootActive else if a = 1 ∨ a = 2 then BitVec.ofNat 8 (s.slotCount (a - 1)) else 0xFF

/-- A byte of the SPI NOR: a raw write that stands, the boot record, the daybook, the passbook, or an erased byte; the
calibration area of a part holds zero before it is written. -/
def State.norByte (s : State) (a : Nat) : Byte :=
  match tabFind s.sisyn.nor a with
  | some b => b
  | none =>
    if a < 0x100000 then s.norBoot a
    else if dbPlace ≤ a ∧ a < pbPlace then s.norDaybook (a - dbPlace)
    else if pbPlace ≤ a ∧ a < 0x3500000 then s.norPassbook (a - pbPlace)
    else if 0x3500000 ≤ a ∧ a < 0x3600000 then 0
    else 0xFF

/-! Measurements (R498). -/

/-- Bytes of a digest, most significant first. DESIGN CHOICE (log entry 11). -/
def digestBytes (d : BitVec 384) : List Byte := (leBytes d.toNat 48).reverse

/-- Measurement 5 (R498): state, owner slots, debug_seen and FIELD_DEBUG entries. -/
def State.measure5 (s : State) : List Byte :=
  leBytes (s.lc.state.code) 1 ++ leBytes (packBits ((List.range 4).map (fun k => ((s.lc.slot k).st, 2 * k)))) 1 ++
    leBytes (b2n s.lc.debugSeen) 2 ++ leBytes s.lc.debugEntries 4

/-- The ordering code of the configuration (R1, R498). -/
def Variant.code : Variant → Nat
  | .m2304fu => 0
  | .m2304u => 1
  | .m2304f => 2
  | .m1152u => 3

/-- Measurement 6: configuration fuses. -/
def State.measure6 (s : State) : List Byte := leBytes s.variant.code 1 ++ leBytes s.fuseF 7

/-- The calibration area (R463): 1 MiB. DEDUCED (log entry 99). -/
def State.calBytes (s : State) : List Byte := (List.range 0x100000).map (fun i => s.norByte (0x3500000 + i))

/-- Bytes of the newest passbook record. -/
def State.newestRecord (s : State) : List Byte :=
  match s.lc.passbook.getLast? with
  | some r => r.bytes
  | none => []

/-- Content of measurement `index` from what the part holds now (R498). Images of microcode are part of the slot's image: digests
of the ROM, of the image, and of the two microcodes are named apart. DESIGN CHOICE (log entry 11). DEDUCED (log entry 99). -/
def State.measureNow (s : State) (index : Nat) : List Byte :=
  match index with
  | 1 => digestBytes (Config.imageDigest 0)
  | 2 => digestBytes (Config.imageDigest (4 * s.slotImage s.slotActive))
  | 3 => digestBytes (Config.imageDigest (4 * s.sisyn.microcode + 1))
  | 4 => digestBytes (Config.imageDigest (4 * s.sisyn.microcode + 2))
  | 5 => s.measure5
  | 6 => s.measure6
  | 7 => digestBytes (sha384 s.calBytes)
  | _ => digestBytes (sha384 s.newestRecord)

/-- The measurements are computed afresh: at each power-on and after each transition (R498). DEDUCED (log entry 99). -/
def State.takeMeasures (s : State) : State :=
  { s with lc := { s.lc with measured := (List.range 8).map (fun i => s.measureNow (i + 1)) } }

/-- A measurement by its index, as it was computed last (R498). DEDUCED (log entry 99). -/
def State.measure (s : State) (index : Nat) : Option (List Byte) :=
  if 1 ≤ index ∧ index ≤ 8 then some (s.lc.measured.getD (index - 1) []) else none

/-! Keys (R496). -/

/-- The name of the alias key: it comes from the identity seed and the digest of the running image. -/
def State.aliasName (s : State) : Nat :=
  2 ^ 384 * (1 + (Config.imageDigest (4 * s.slotImage s.slotActive)).toNat) + s.lc.seedFuse.toNat

/-- The identity key and the alias key are derived at a power-on, and stand until the next (R496). DEDUCED (log entry 132). -/
def State.deriveKeys (s : State) : State :=
  { s with lc := { s.lc with idKey := identityKey s.lc.seedFuse, alKey := s.aliasName } }

/-! The end of a debug session (R495). -/

/-- FIELD_DEBUG ends: what it opened closes, and DEBUG_END is appended, with the slot and the digest of the token that ends it, if
one does; it is a transition (R489, R499). DEDUCED (log entry 94). -/
def State.debugOver (s : State) (slot : Nat) (digest : BitVec 384) : State :=
  let s := s.pbAppend .debugEnd LcState.fieldDebug.code LcState.field.code slot digest
  let s : State := { s with lc := { s.lc with state := .field, scope := 0 } }
  (s.setRegN Reg.SISYN_LC_DEBUG_LEFT 0).takeMeasures

end Sys2Proof.Machine
end

