-- ==== Sys2Proof/Machine/SpanServe.lean ====
section
/-! DEFINITION. Span requests at their target, and responses at their source (15_span_fabric.md R398–R404;
12_teller_and_random_streams.md R316–R318, R526). -/

namespace Sys2Proof.Machine

/-! Arrivals. -/

/-- Take the first arrival that satisfies `p` off the list; none where an earlier arrival of its port and VC is before it
(R403). DEDUCED (log entry 76). -/
def takeArrival (p : SpanItem → Bool) : List Arrived → List (Nat × Nat) → Option (List Arrived)
  | [], _ => none
  | a :: r, seen =>
    if p a.item then (if seen.contains (a.port, a.vc) then none else some r)
    else (takeArrival p r ((a.port, a.vc) :: seen)).map (a :: ·)

/-- The state once a transaction that satisfies `p` has left its receive buffer: it is the oldest of its port and VC, or it
comes straight from outside. -/
def State.arrival (s : State) (p : SpanItem → Bool) : Option State :=
  if s.span.arrived.any (fun a => p a.item) then
    (takeArrival p s.span.arrived []).map (fun l => { s with span := { s.span with arrived := l } })
  else some s

/-- Payload words of a request, as its header gives them (R398, R399). -/
def SpanHdr.words (h : SpanHdr) : Nat := if h.op = opRead then 0 else h.len

/-- Whether a request's effect waits: new owners of the banks of the Scratchpad that it reaches are to take effect (R175), or an
earlier PARTIAL of its source has values that are still to be added (R403). -/
def State.reqHeld (s : State) (h : SpanHdr) : Bool :=
  let spad (a : Nat) : Bool := (spadPlace a).any (fun p => (s.core p.1).ownerReq.isSome)
  if h.op = opMsg then !s.ringSettled (bits h.target 0 15)
  else if h.op = opTake then !s.ringSettled (svcRing (h.src % 64))
  else if h.op = opPartial then s.span.served.any (fun v => (SpanHdr.of v.hdr).src == h.src && some v.core != (addViewPlace h.target).map (·.1))
  else spad h.target || (h.op == opWrite && s.span.served.any (fun v => (SpanHdr.of v.hdr).src == h.src))

/-- A request of operation `op` for this module leaves its receive buffer. DEDUCED (log entry 76). -/
def State.reqArrival (s : State) (op : Nat) (hdr : BitVec 128) (payload : List Dword) : Option State :=
  let h := SpanHdr.of hdr
  if spanPresent s.variant && h.op == op && h.dst == s.nodeId && payload.length == h.words && !s.reqHeld h then
    s.arrival (· == ⟨hdr, payload⟩)
  else none

/-! Checks (R400). -/

/-- Whether node `n` is in group `g` (R415). -/
def State.inGroup (s : State) (g n : Nat) : Bool := bitOf (s.regN (Reg.SPAN_GROUP g (n / 32))) (n % 32)

/-- The permission bit that an operation needs (R399): 0 R, 1 W, 2 A. -/
def opPerm (op : Nat) : Nat := if op = opRead then 0 else if op = opWrite ∨ op = opPartial then 1 else 2

/-- Whether an operation is allowed on a kind of window (R399): 0 LPDDR, 1 SCRATCHPAD, 2 LEDGER. -/
def kindAllows (kind op : Nat) : Bool :=
  if kind = 2 then op == opRead || op == opPartial else op == opRead || op == opWrite || op == opFadd || op == opCas

/-- Whether a request has the payload that its operation takes (R399). DEDUCED (log entry 75). -/
def SpanHdr.formed (h : SpanHdr) : Bool :=
  if h.op = opFadd ∨ h.op = opCas then h.len == 2
  else if h.op = opTake then h.len == 1
  else decide (1 ≤ h.len) && decide (h.len ≤ 32)

/-- Whether an operation is an atomic. -/
def isAtomic (op : Nat) : Bool := op == opFadd || op == opCas

/-- Bytes of its target range. -/
def SpanHdr.bytes (h : SpanHdr) : Nat := if isAtomic h.op then 8 else 8 * h.len

/-- The first of checks 1 to 4 that a windowed request fails, as its status; 0 for none (R400, R401). -/
def State.winCheck (s : State) (h : SpanHdr) : Nat :=
  let w := h.window
  if s.winOpen w = false ∨ h.gen ≠ s.winGeneration w then 1
  else if h.target < s.winBase w ∨ s.winLimit w < h.target + h.bytes then 2
  else if s.inGroup (s.winGroup w) h.src = false ∨ bitOf (s.winPerm w) (opPerm h.op) = false then 3
  else if kindAllows (s.winKind w) h.op = false ∨ (isAtomic h.op ∧ h.target % 8 ≠ 0) ∨ h.formed = false then 13
  else 0

/-- What check 5 answers for an access of an agent at a Scratchpad's remote port (R174, R186, R188): the state with the
refusal counted, and whether it is refused. -/
def State.remoteRefused (s : State) (t : Nat) (write : Bool) (a : Nat) : State × Bool :=
  match s.spadCheck t .remote write a with
  | .ok => (s, false)
  | .wait => (s.bump32 (Reg.SPAD_PAIL_NACKS t) 1, true)
  | .refused st => (s.countRefusal t st.code, true)

/-- Check 5 over every bank word of a Scratchpad range. -/
def State.remoteRange (s : State) (t o len : Nat) (write : Bool) : State × Bool :=
  ((List.range (len / 64 + 2)).map (fun i => o / 64 * 64 + 64 * i)).foldl (fun (r : State × Bool) a =>
    if r.2 || decide (o + len ≤ a) then r else r.1.remoteRefused t write a) (s, decide (0x60000 < o + len))

/-- The response status of an access to a target's memory (R401). -/
def accessStatus (code : Nat) : Nat :=
  if code = 0 then 0
  else if code = Code.uncorrectable then 8
  else if code = Code.parity then 9
  else if code = Code.quiesceRefused then 12
  else if code = Code.lpddrRange then 2
  else 4

/-- Read a target range of a window of kind LPDDR, SCRATCHPAD or LEDGER: the bytes, and the response status. -/
def State.targetRead (s : State) (kind a len : Nat) : State × List Byte × Nat :=
  if kind = 2 then
    let (s, bs) := s.addViewBytes (a / 8 * 8) (len / 8 + 1)
    (s, (bs.drop (a % 8)).take len, 0)
  else match spadPlace a with
    | some (t, o) =>
      match s.remoteRange t o len false with
      | (s, true) => (s, [], 4)
      | (s, false) =>
        match s.spadReadN t .remote o len (len / 64 + 2) with
        | (s, .done bs) => (s, bs, 0)
        | (s, .refused st _) => (s, [], accessStatus st.code)
        | (s, .wait) => (s, [], 4)
    | none =>
      let (s, bs, st) := s.lpddrRead a len fromNode
      (s, bs, accessStatus st.code)

/-- Write a target range: the response status. -/
def State.targetWrite (s : State) (a : Nat) (bs : List Byte) : State × Nat :=
  match spadPlace a with
  | some (t, o) =>
    match s.remoteRange t o bs.length true with
    | (s, true) => (s, 4)
    | (s, false) =>
      match s.spadWriteN t .remote o bs (bs.length / 64 + 2) with
      | (s, .done _) => (s, 0)
      | (s, .refused st _) => (s, accessStatus st.code)
      | (s, .wait) => (s, 4)
  | none =>
    let (s, st) := s.lpddrWrite a bs fromNode
    (s, accessStatus st.code)

/-! Answers. -/

/-- Whether a request with a response status was accepted: it passed every check of R400. -/
def statusAccepted (status : Nat) : Bool := status == 0 || status == 8 || status == 9

/-- Count a request as served or refused (R401, R415). DEDUCED (log entry 75). -/
def State.spanCount (s : State) (status : Nat) : State :=
  if statusAccepted status then s.bump64 Reg.SPAN_SERVED_LO 1 else s.bump32 Reg.SPAN_NACKS 1

/-- Answer a request at its target. -/
def State.spanFinish (s : State) (hdr : BitVec 128) (status : Nat) (payload : List Dword) : State :=
  (s.spanCount status).spanAnswer hdr status payload

/-! Windowed requests. -/

/-- READ at its target. -/
def State.serveRead (s : State) (hdr : BitVec 128) : State :=
  let h := SpanHdr.of hdr
  match s.winCheck h with
  | 0 =>
    let (s, bs, st) := s.targetRead (s.winKind h.window) h.target h.bytes
    s.spanFinish hdr st (if st = 0 then bytesDwords h.len bs else [])
  | st => s.spanFinish hdr st []

/-- WRITE at its target. -/
def State.serveWrite (s : State) (hdr : BitVec 128) (payload : List Dword) : State :=
  let h := SpanHdr.of hdr
  match s.winCheck h with
  | 0 =>
    let (s, st) := s.targetWrite h.target (payload.flatMap (fun v => leBytes v.toNat 8))
    s.spanFinish hdr st []
  | st => s.spanFinish hdr st []

/-- The 8 bytes at a target address take what `f` makes of them (R287): the old value, and the response status. -/
def State.targetAtomic (s : State) (a : Nat) (f : Dword → Option Dword) : State × Dword × Nat :=
  match spadPlace a with
  | none =>
    let (s, old, st) := s.atomic8 a fromNode f
    (s, old, accessStatus st.code)
  | some (t, o) =>
    match s.remoteRange t o 8 true with
    | (s, true) => (s, 0, 4)
    | (s, false) =>
      let (s, bs, st) := s.targetRead 1 a 8
      let old : Dword := BitVec.ofNat 64 (leNat bs)
      if st ≠ 0 then (s, old, st)
      else match f old with
        | none => (s, old, 0)
        | some v =>
          let (s, st) := s.targetWrite a (leBytes v.toNat 8)
          (s, old, st)

/-- FADD or CAS at its target. -/
def State.serveAtomic (s : State) (hdr : BitVec 128) (f : Dword → Option Dword) : State :=
  let h := SpanHdr.of hdr
  match s.winCheck h with
  | 0 =>
    let (s, old, st) := s.targetAtomic h.target f
    s.spanFinish hdr st (if st = 0 then [old] else [])
  | st => s.spanFinish hdr st []

/-! PARTIAL. -/

/-- The values of a PARTIAL enter the add-port buffer of their core (R89, R404). -/
def State.partialAccept (s : State) (hdr : BitVec 128) (payload : List Dword) (c : Nat) : State :=
  let h := SpanHdr.of hdr
  let n := s.span.nextServed
  let adds := payload.mapIdx (fun i v =>
    match addViewPlace (h.target + 8 * i) with
    | some (_, l, w) => LedgAdd.mk (.partials n) l w v
    | none => LedgAdd.mk (.partials n) 0 0 v)
  let s := s.modCore c (fun k => { k with adds := k.adds ++ adds })
  let v : Served := ⟨n, hdr, c, payload.length, false⟩
  { s with span := { s.span with served := s.span.served ++ [v], nextServed := n + 1 } }

/-- Whether the add-port buffer of a core has room for all the words of a PARTIAL (R89, R404). -/
def State.addRoom (s : State) (c n : Nat) : Bool := decide ((s.core c).adds.length + n ≤ addPortSize)

/-- PARTIAL at its target: none while it keeps its receive buffer. A target that is no word's address is refused (R92). DEDUCED (log entry 75). -/
def State.servePartial (s : State) (hdr : BitVec 128) (payload : List Dword) : Option State :=
  let h := SpanHdr.of hdr
  match s.winCheck h with
  | 0 =>
    match addViewPlace h.target with
    | some (c, _, _) =>
      if h.target % 8 ≠ 0 then some (s.spanFinish hdr 4 [])
      else if s.addRoom c payload.length then some (s.partialAccept hdr payload c) else none
    | none => some (s.spanFinish hdr 4 [])
  | st => some (s.spanFinish hdr st [])

/-! MSG. -/

/-- Whether a ring takes a MSG (R195). -/
def State.ringTakesMsg (s : State) (ring : Nat) : Bool :=
  (ringKindOf ring == 1 || ringKindOf ring == 4) && s.ringKind ring == ringKindOf ring

/-- MSG at its target: the state, and the response status (R199, R400). -/
def State.msgPost (s : State) (h : SpanHdr) (payload : List Dword) : State × Nat :=
  let ring := bits h.target 0 15
  let size := 2 ^ (bits h.target 15 3 + 3)
  if s.inGroup (s.field Reg.SPAN_MSG_GROUP 0 4) h.src = false then (s, 3)
  else if size ≠ s.ringEntry ring ∨ 8 * h.len ≠ size then (s, 13)
  else if s.ringTakesMsg ring = false then (s, 6)
  else match s.ringPost 0xFF ring (ringKindOf ring) (payload.flatMap (fun v => leBytes v.toNat 8)) with
    | (s, .slot _) => (s, 0)
    | (s, .full) => (s.ringRefuse ring, 5)
    | (s, .failed f) => (s, accessStatus f.stop.code)
    | (s, .lost _ f) => (s, accessStatus f.stop.code)

/-- MSG at its target. -/
def State.serveMsg (s : State) (hdr : BitVec 128) (payload : List Dword) : State :=
  let (s, st) := s.msgPost (SpanHdr.of hdr) payload
  s.spanFinish hdr st []

/-! TAKE (R317, R318). -/

/-- The bytes of a take entry. -/
def takeEntryBytes (ctr addend node tag : Nat) : List Byte :=
  leBytes (ctr * 2 ^ 4 + addend % 2 ^ 48 * 2 ^ 16) 8 ++ leBytes (node + tag * 2 ^ 16) 8

/-- A remote take is denied. -/
def State.takeDenied (s : State) (ctr : Nat) : State :=
  (s.bump32 Reg.TELL_REMOTE_DENIED 1).tellerFault Code.remoteDenied ctr

/-- TAKE at its target: an entry on the ring of its source node, or the status that refuses it; 0 where the Teller has
still to answer. DEDUCED (log entry 62). DEDUCED (log entry 75). -/
def State.takePost (s : State) (h : SpanHdr) (payload : List Dword) : State × Nat :=
  let ctr := bits h.target 0 10
  let ring := svcRing (h.src % 64)
  if h.formed = false then (s, 13)
  else if s.ctrRemote ctr = false then (s.takeDenied ctr, 7)
  else if s.ringKind ring ≠ 6 then (s, 6)
  else if s.ringEntry ring ≠ 16 then (s.takeDenied ctr, 7)
  else match s.ringPost 0xFF ring 6 (takeEntryBytes ctr (payload.headD 0).toNat h.src h.tag) with
    | (s, .slot _) => (s, 0)
    | (s, .full) => ((s.ringRefuse ring).takeDenied ctr, 7)
    | (s, .failed f) => (s, accessStatus f.stop.code)
    | (s, .lost _ f) => (s, accessStatus f.stop.code)

/-- TAKE at its target: one that the Teller has still to check is counted as it answers. -/
def State.serveTake (s : State) (hdr : BitVec 128) (payload : List Dword) : State :=
  match s.takePost (SpanHdr.of hdr) payload with
  | (s, 0) => s
  | (s, st) => s.spanFinish hdr st []

/-- The header of the request that a take entry stands for. -/
def State.takeReqHdr (s : State) (e : SvcEntry) : BitVec 128 :=
  SpanHdr.pack { reqHdr opTake s.nodeId 0 0 1 e.ctr with src := e.node, tag := e.xtag }

/-- The Teller applies a take entry: the answer is the value and the generation before the add, also where the add would
carry the counter too far and is left undone (R316, R399). DEDUCED (log entry 62). DEDUCED (log entry 75). -/
def State.takeServe (s : State) (e : SvcEntry) : State :=
  if s.ctrRemote e.ctr = false then (s.takeDenied e.ctr).spanFinish (s.takeReqHdr e) 7 []
  else
    let w := s.takeWord e.ctr
    let (s, st) := s.applyTake e.ctr e.value
    (if st = 0 then s.bump64 Reg.TELL_REMOTE_TAKES_LO 1 else s).spanFinish (s.takeReqHdr e) 0 [w]

/-- The entry at the head of a TELLER_SVC ring is one that no Clerk pushed. -/
def State.svcFromRim (s : State) (ring : Nat) : Bool :=
  s.ringKind ring == 6 && !s.ringEmpty ring && s.ringSettled ring && (s.svcPusher ring (s.ringHead ring)).isNone

/-- Take the rim's entry at the head of a ring; one that cannot be read, or is no take, is consumed without effect (R526). -/
def State.takeNext (s : State) (ring : Nat) : State :=
  let (s, e) := s.ringTake 0xFF ring
  let s := match e with
    | .error _ => s
    | .ok bs => if (SvcEntry.of bs).op = 0 then s.takeServe (SvcEntry.of bs) else s
  s.ringMoved ring

/-- TAKE_ENTRY (R317). -/
def execTakeEntry (svc : Fin 64) (s : State) : Outcome := act (s.svcFromRim (svcRing svc.val)) s (s.takeNext (svcRing svc.val))

/-! The commands. -/

/-- A request that arrives takes effect; one that does not arrive changes nothing. DEDUCED (log entry 76). -/
def served (s : State) (a : Option State) (f : State → State) : Outcome :=
  match a with
  | some t => .next (f t)
  | none => .next s

/-- Serve a request: what another node's causes here is no record of this module's task (R467). DEDUCED (log entry 57). -/
def State.forNode (s : State) (hdr : BitVec 128) (f : State → State) : State :=
  if (SpanHdr.of hdr).src = s.nodeId then f s else s.apart f

/-- SPAN_READ (R399, R400). -/
def execSpanRead (hdr : BitVec 128) (s : State) : Outcome :=
  served s (s.reqArrival opRead hdr []) (·.forNode hdr (·.serveRead hdr))

/-- SPAN_WRITE. -/
def execSpanWrite (hdr : BitVec 128) (payload : List Dword) (s : State) : Outcome :=
  served s (s.reqArrival opWrite hdr payload) (·.forNode hdr (·.serveWrite hdr payload))

/-- SPAN_FADD: the payload's first word is the addend. -/
def execSpanFadd (hdr : BitVec 128) (payload : List Dword) (s : State) : Outcome :=
  served s (s.reqArrival opFadd hdr payload) (·.forNode hdr (·.serveAtomic hdr (addsTo (payload.headD 0))))

/-- SPAN_CAS: the payload is the value to compare and the value to swap in. -/
def execSpanCas (hdr : BitVec 128) (payload : List Dword) (s : State) : Outcome :=
  served s (s.reqArrival opCas hdr payload) (·.forNode hdr (·.serveAtomic hdr (swapsTo (payload.headD 0) ((payload.drop 1).headD 0))))

/-- SPAN_MSG. -/
def execSpanMsg (hdr : BitVec 128) (payload : List Dword) (s : State) : Outcome :=
  served s (s.reqArrival opMsg hdr payload) (·.forNode hdr (·.serveMsg hdr payload))

/-- SPAN_PARTIAL (R404): it keeps its receive buffer while the add-port buffer has no room. -/
def execSpanPartial (hdr : BitVec 128) (payload : List Dword) (s : State) : Outcome :=
  served s ((s.reqArrival opPartial hdr payload).bind (·.servePartial hdr payload)) id

/-- SPAN_TAKE. -/
def execSpanTake (hdr : BitVec 128) (payload : List Dword) (s : State) : Outcome :=
  served s (s.reqArrival opTake hdr payload) (·.forNode hdr (·.serveTake hdr payload))

/-! Responses (R401, R402). -/

/-- The request that a response header answers: its tag is outstanding. -/
def State.outstanding (s : State) (h : SpanHdr) : Option SpanReq :=
  match tabFind s.span.reqs h.tag with
  | some r => if r.sent then some r else none
  | none => none

/-- Payload words of a response (R399): none with an error. -/
def answerWords (req : SpanHdr) (status : Nat) : Nat :=
  if status ≠ 0 then 0
  else if req.op = opRead then req.len
  else if isAtomic req.op ∨ req.op = opTake then 1
  else 0

/-- Whether a response's payload is what its request gets. -/
def State.answerFits (s : State) (h : SpanHdr) (payload : List Dword) : Bool :=
  match s.outstanding h with
  | some r => payload.length == answerWords (SpanHdr.of r.item.hdr) h.status
  | none => true

/-- A response completes its request; one whose tag is not outstanding is discarded. -/
def State.rspIn (s : State) (hdr : BitVec 128) (payload : List Dword) : State :=
  let h := SpanHdr.of hdr
  match s.outstanding h with
  | none => s
  | some r =>
    let s := s.dropReq h.tag
    (if h.status = 0 then s.useOk r.use h.tag payload else s.useFail r.use r.item.hdr h.tag (spanStatusCode h.status)).tagFreed

/-- A response for this module leaves its receive buffer. -/
def State.rspArrival (s : State) (hdr : BitVec 128) (payload : List Dword) : Option State :=
  let h := SpanHdr.of hdr
  if spanPresent s.variant && h.op == opRsp && h.dst == s.nodeId && s.answerFits h payload then s.arrival (· == ⟨hdr, payload⟩)
  else none

/-- RSP (R402). -/
def execRsp (hdr : BitVec 128) (payload : List Dword) (s : State) : Outcome :=
  served s (s.rspArrival hdr payload) (·.rspIn hdr payload)

/-- A request ends by timeout: its tag cools (R402). -/
def State.reqTimeout (s : State) (tag : Nat) (r : SpanReq) : State :=
  let s := (s.dropReq tag).bump32 Reg.SPAN_TIMEOUTS 1
  let s : State := { s with span := { s.span with cooling := s.span.cooling ++ [tag] } }
  s.useFail r.use r.item.hdr tag Code.spanTimeout

/-- SPAN_TIMEOUT (R402): a request that waits in a FROZEN module has not been issued and does not time out (R408). -/
def execSpanTimeout (tag : Half) (s : State) : Outcome :=
  match tabFind s.span.reqs tag.toNat with
  | some r => act r.sent s (s.reqTimeout tag.toNat r)
  | none => .next s

/-- TAG_REUSE (R402). -/
def execTagReuse (tag : Half) (s : State) : Outcome :=
  let s : State := { s with span := { s.span with cooling := s.span.cooling.filter (· != tag.toNat) } }
  .next s.tagFreed

end Sys2Proof.Machine
end

