-- ==== Sys2Proof/Machine/SpanMgt.lean ====
section
/-! DEFINITION. Domain roles: heartbeats, the map, FROZEN, takeover, the registry and the link table
(15_span_fabric.md R405–R410). -/

namespace Sys2Proof.Machine

/-! Messages. -/

/-- 64-bit words of a number, lowest first. -/
def numDwords (v : Nat) : Nat → List Dword
  | 0 => []
  | n + 1 => BitVec.ofNat 64 v :: numDwords (v / 2 ^ 64) n

/-- A management message of a type from a node for this module leaves its receive buffer. -/
def State.mgtArrival (s : State) (type src : Nat) (payload : List Dword) : Option State :=
  if spanPresent s.variant then
    s.arrival (fun i =>
      let h := SpanHdr.of i.hdr
      h.op == opMgt && bits h.target 0 4 == type && h.src == src && i.payload == payload)
  else none

/-- The fields of a HEARTBEAT (R406): term, manager node, standby node, map version, present mask. -/
structure Heartbeat where
  term : Nat
  manager : Nat
  standby : Nat
  version : Nat
  mask : BitVec 256
  deriving DecidableEq, Repr

/-- Read a HEARTBEAT. PRESUMED (log entry 77). -/
def Heartbeat.of (m : BitVec 512) : Heartbeat :=
  let n := m.toNat
  ⟨bits n 0 16, bits n 16 8, bits n 24 8, bits n 32 32, BitVec.ofNat 256 (n / 2 ^ 64)⟩

/-- The 64 bytes of a HEARTBEAT as a number. PRESUMED (log entry 77). -/
def Heartbeat.pack (h : Heartbeat) : Nat :=
  h.term % 2 ^ 16 + h.manager % 2 ^ 8 * 2 ^ 16 + h.standby % 2 ^ 8 * 2 ^ 24 + h.version % 2 ^ 32 * 2 ^ 32 + h.mask.toNat * 2 ^ 64

/-! State. -/

/-- Highest term accepted (R415). -/
def State.term (s : State) : Nat := s.field Reg.SPAN_STATUS 4 16

/-- State of the domain: 0 ALONE, 1 JOINED, 2 FROZEN. -/
def State.domainSt (s : State) : Nat := s.field Reg.SPAN_STATUS 0 2

/-- Set the state of the domain. -/
def State.setDomainSt (s : State) (v : Nat) : State := s.setField Reg.SPAN_STATUS 0 2 v

/-- Set the role in force. -/
def State.setRole (s : State) (v : Nat) : State := s.setField Reg.SPAN_STATUS 2 2 v

/-- Set the term. -/
def State.setTerm (s : State) (v : Nat) : State := s.setField Reg.SPAN_STATUS 4 16 v

/-- The standby that the driver named (R405). -/
def State.standbyNode (s : State) : Nat := s.field Reg.SPAN_NODE_CTL 10 8

/-- Nodes 0 to 255. -/
def nodeList : List Nat := List.range 256

/-- The absent bit of every route from the present mask (R407). -/
def State.applyMask (s : State) : State :=
  nodeList.foldl (fun t n => t.setField (Reg.SPAN_ROUTE n) 1 1 (b2n (!t.span.present.getLsbD n))) s

/-- Whether the entry of node `n` is valid. -/
def State.routeValid (s : State) (n : Nat) : Bool := s.field (Reg.SPAN_ROUTE n) 0 1 == 1

/-- Other nodes with a valid entry (R406). -/
def State.domainNodes (s : State) : List Nat := nodeList.filter (fun n => n != s.nodeId && s.routeValid n)

/-- Change the present mask: each change adds one to the map version (R407). -/
def State.setPresent (s : State) (m : BitVec 256) : State :=
  if m = s.span.present then s
  else
    let s : State := { s with span := { s.span with present := m } }
    (s.setRegN Reg.SPAN_MAP_VERSION (s.regN Reg.SPAN_MAP_VERSION + 1)).applyMask

/-- Tags of requests that wait, in the order in which they took their tags. -/
def SpanSt.unsent (p : SpanSt) : List Nat :=
  let ts := (p.reqs.filter (fun e => !e.2.sent)).map (·.1)
  ts.filter (p.nextTag ≤ ·) ++ ts.filter (· < p.nextTag)

/-- Leave FROZEN: waiting requests issue, and waiting REGISTRY messages go (R408). -/
def State.leaveFrozen (s : State) : State :=
  if s.frozen then
    let s := s.setDomainSt 1
    let held := s.span.heldMgt
    let s := (s.span.unsent.foldl State.reqIssue s).tagFreed
    let s : State := { s with span := { s.span with heldMgt := [] } }
    held.foldl (fun t i => t.toManager (bits (SpanHdr.of i.hdr).target 0 4) i.payload) s
  else s

/-! HEARTBEAT. -/

/-- Send a HEARTBEAT to every other node with a valid entry. DESIGN CHOICE (log entry 110). -/
def State.heartbeatOut (s : State) : State :=
  let p := numDwords (Heartbeat.pack ⟨s.term, s.nodeId, s.standbyNode, s.regN Reg.SPAN_MAP_VERSION, s.span.present⟩) 8
  let ns := s.domainNodes
  let s : State := { s with span := { s.span with missed := ns.foldl (fun m n => tabSet 0 m n (tabGet 0 m n + 1)) s.span.missed } }
  ns.foldl (fun t n => t.mgtSend n 0 p) s

/-- The present mask without the nodes whose ECHO is missing for three consecutive heartbeats, and with the manager. -/
def State.livingMask (s : State) : BitVec 256 :=
  nodeList.foldl (fun m n =>
    if n = s.nodeId then m ||| 1#256 <<< n
    else if 3 ≤ tabGet 0 s.span.missed n then m &&& ~~~(1#256 <<< n) else m) s.span.present

/-- The manager's heartbeat. -/
def State.heartbeatSend (s : State) : State := ((s.setPresent s.livingMask).setDomainSt 1).heartbeatOut

/-- HEARTBEAT_SEND (R407). -/
def execHeartbeatSend (s : State) : Outcome := act (spanPresent s.variant && s.spanRole == 1) s s.heartbeatSend

/-- A manager that meets a higher term becomes a worker (R409). -/
def State.deposed (s : State) (term : Nat) : State :=
  if s.spanRole = 1 ∧ s.term < term then (s.setRole 0).report (dbEvent 1 0 0x60 0 0 0 (leBytes term 2)) |>.1 else s

/-- The ECHO word (R406): term and map version received. PRESUMED (log entry 77). -/
def echoWord (term version : Nat) : Dword := BitVec.ofNat 64 (term % 2 ^ 16 + version % 2 ^ 32 * 2 ^ 16)

/-- A HEARTBEAT of an accepted term (R407–R409). -/
def State.heartbeatIn (s : State) (src : Nat) (h : Heartbeat) : State :=
  let s := ((s.deposed h.term).setTerm h.term).setRegN Reg.SPAN_MAP_VERSION h.version
  let s : State := { s with span := { s.span with present := h.mask, manager := some h.manager } }
  let s := if s.frozen then s.applyMask.leaveFrozen else s.applyMask.setDomainSt 1
  s.mgtSend src 1 [echoWord h.term h.version]

/-- HEARTBEAT (R407–R409): one of a term below the highest accepted is refused. -/
def execHeartbeat (src : Byte) (msg : BitVec 512) (s : State) : Outcome :=
  let h := Heartbeat.of msg
  served s (s.mgtArrival 0 src.toNat (numDwords msg.toNat 8)) (fun t => if h.term < t.term then t else t.heartbeatIn src.toNat h)

/-- The manager marks a node present (R407). -/
def State.echoIn (s : State) (src : Nat) : State :=
  if s.spanRole = 1 then
    let s : State := { s with span := { s.span with missed := tabSet 0 s.span.missed src 0 } }
    s.setPresent (s.span.present ||| 1#256 <<< src)
  else s

/-- ECHO (R407): one of another term says nothing of this manager's heartbeats. DEDUCED (log entry 78). -/
def execEcho (src : Byte) (msg : Dword) (s : State) : Outcome :=
  served s (s.mgtArrival 1 src.toNat [msg]) (fun t => if bits msg.toNat 0 16 = t.term then t.echoIn src.toNat else t)

/-! Registry (R410). -/

/-- Registry base. -/
def State.registryBase (s : State) : Nat := s.reg64 Reg.SPAN_REGISTRY_BASE_LO % 2 ^ 48 / 64 * 64

/-- The manager writes bytes of its registry. -/
def State.registryWrite (s : State) (off : Nat) (bs : List Byte) : State :=
  if s.spanRole = 1 then (s.lpddrWrite (s.registryBase + off) bs 0xFF).1 else s

/-- REGISTRY (R410): the entry for window `w` of node `n` lies at base + (4,096n + w) × 16. -/
def execRegistry (src : Byte) (window : BitVec 12) (entry : BitVec 128) (s : State) : Outcome :=
  served s (s.mgtArrival 2 src.toNat (numDwords entry.toNat 2 ++ [BitVec.ofNat 64 (src.toNat + window.toNat * 2 ^ 8)]))
    (·.registryWrite ((4096 * src.toNat + window.toNat) * 16) (leBytes entry.toNat 16))

/-- RESYNC (R406, R409): REGISTRY for every open window. -/
def execResync (src : Byte) (s : State) : Outcome :=
  served s (s.mgtArrival 3 src.toNat []) (fun t => ((List.range 4096).filter t.winOpen).foldl State.registrySend t)

/-- A LINK word (R406): peer node, peer port, up, own port. PRESUMED (log entry 77). -/
def linkWord (peerNode peerPort : Nat) (up : Bool) (port : Nat) : Dword :=
  BitVec.ofNat 64 (peerNode % 2 ^ 8 + peerPort % 2 ^ 4 * 2 ^ 8 + b2n up * 2 ^ 12 + port % 2 ^ 4 * 2 ^ 16)

/-- Send LINK for port `q`. -/
def State.linkSend (s : State) (q : Nat) (up : Bool) : State :=
  s.toManager 4 [linkWord (s.field (Reg.SPAN_PORT_STATUS q) 4 8) (s.field (Reg.SPAN_PORT_STATUS q) 12 4) up q]

/-- LINK (R410): the 4-byte entry for port `p` of node `n` lies at base + 0x100_0000 + (16n + p) × 4. -/
def execLink (src : Byte) (msg : Dword) (s : State) : Outcome :=
  served s (s.mgtArrival 4 src.toNat [msg])
    (·.registryWrite (0x1000000 + (16 * src.toNat + bits msg.toNat 16 4) * 4) (leBytes (msg.toNat % 2 ^ 13) 4))

/-! Losing the manager (R408, R409). -/

/-- MANAGER_LOST (R408): a worker or standby that is not FROZEN already, JOINED or ALONE. -/
def execManagerLost (s : State) : Outcome :=
  act (spanPresent s.variant && s.spanRole != 1 && s.domainSt != 2) s (s.setDomainSt 2)

/-- The mask with which a standby takes over: the last map without the manager that was lost (R409). DEDUCED (log entry 78). -/
def State.takeoverMask (s : State) : BitVec 256 :=
  let m := s.span.present ||| 1#256 <<< s.nodeId
  match s.span.manager with
  | some n => if n = s.nodeId then m else m &&& ~~~(1#256 <<< n)
  | none => m

/-- A standby becomes manager (R409): it has no standby, shown as 0, and RESYNC goes to every node that its mask holds, itself
answered at once (R406). DESIGN CHOICE (log entry 110). -/
def State.takeover (s : State) : State :=
  let m := s.takeoverMask
  let s := ((s.setRole 1).setTerm (s.term + 1)).setField Reg.SPAN_NODE_CTL 10 8 0
  let s : State := { s with span := { s.span with missed := [], manager := some s.nodeId } }
  let s := ((s.setPresent m).leaveFrozen).heartbeatOut
  let s := ((List.range 4096).filter s.winOpen).foldl State.registrySend s
  (s.domainNodes.filter (s.span.present.getLsbD ·)).foldl (fun t n => t.mgtSend n 3 []) s

/-- TAKEOVER (R409). -/
def execTakeover (s : State) : Outcome := act (spanPresent s.variant && s.spanRole == 2 && s.frozen) s s.takeover

/-! SPAN_NODE_CTL (R405). -/

/-- Whether any port is ACTIVE. -/
def State.anyActive (s : State) : Bool := (List.range 16).any (fun q => (s.port q).st == 2)

/-- Put a role in force; a reserved role changes nothing, and a manager that the driver sets leaves FROZEN (R409). DEDUCED (log entry 78). -/
def State.roleWrite (s : State) (role : Nat) : State :=
  if role = 3 then s
  else if role = 1 then
    let s : State := { (s.setRole 1) with span := { s.span with manager := some s.nodeId } }
    s.leaveFrozen
  else s.setRole role

/-- A write of node, role and standby. -/
def State.nodeCtlWrite (s : State) (v : Nat) : State :=
  let s := if s.anyActive then s else s.setField Reg.SPAN_NODE_CTL 0 8 (bits v 0 8)
  let s := (s.setField Reg.SPAN_NODE_CTL 8 2 (bits v 8 2)).setField Reg.SPAN_NODE_CTL 10 8 (bits v 10 8)
  s.roleWrite (bits v 8 2)

/-- SPAN_NODE_CTL_WRITE (R405). -/
def execSpanNodeCtlWrite (_r : Requester) (value : Word) (s : State) : Outcome :=
  act (spanPresent s.variant) s (s.nodeCtlWrite value.toNat)

end Sys2Proof.Machine
end

