-- ==== Sys2Proof/Machine/SpanPorts.lean ====
section
/-! DEFINITION. Span ports: flits received, acknowledgements, credits and replay; drains, links that fail, modules in the
cages (15_span_fabric.md R385–R389, R391, R411–R414; 18_sisyn_and_the_faceplate.md R478). -/

namespace Sys2Proof.Machine

/-! Bring-up (R414). -/

/-- Place of port `q` in PWR_QSTATE. -/
def portQ (q : Nat) : Nat := 244 + q

/-- The F domain of port `q` (R443). -/
def portDomain (q : Nat) : Nat := 24 + q / 8

/-- Whether a port may train: it is ENABLED and enabled, its module was accepted and its domain is on. -/
def State.portTrains (s : State) (q : Nat) : Bool :=
  s.qst (portQ q) == 1 && s.field (Reg.SPAN_PORT_CTL q) 2 1 == 1 && s.field (Reg.SPAN_PORT_MODULE q) 16 1 == 1 &&
    s.domainOn (portDomain q)

/-- A port out of service in state `st`: nothing sent, nothing waiting. -/
def PortSt.stopped (p : PortSt) (st : Nat) : PortSt := { PortSt.reset with st := st, txSeq := p.txSeq }

/-- Bring a port up as far as TRAINING, where it sends INIT; one that cannot train is DOWN. -/
def State.portTrain (s : State) (q : Nat) : State :=
  let p := s.port q
  s.setPort q (if s.portTrains q then { p.stopped 1 with initSent := true } else p.stopped 0)

/-- A port returns to ENABLED and retrains (R411, R459); its drain is clear. DEDUCED (log entry 78). -/
def State.portEnable (s : State) (q : Nat) : State :=
  ((s.setField (Reg.SPAN_PORT_CTL q) 0 1 0).qEnabled (portQ q)).portTrain q

/-- A port enters QUIESCED; an enable that waits then takes effect (R459). -/
def State.portQuiesced (s : State) (q : Nat) : State :=
  let s := s.qDisabled (portQ q)
  if s.power.enableWait.contains (portQ q) then s.portEnable q else s

/-- An enable request to a port (R459). -/
def State.portEnableReq (s : State) (q : Nat) : State :=
  let k := s.qst (portQ q)
  if k = 2 then s.qWait (portQ q) else if k = 3 then s.portEnable q else s

/-! Forwarding (R391). -/

/-- Answer a request that cannot go on; a response or a management message is discarded (R391). -/
def State.refuseItem (s : State) (i : SpanItem) (status : Nat) : State :=
  if isRequest (SpanHdr.of i.hdr).op then s.spanAnswer i.hdr status [] else s

/-- Send a transaction of another node on towards its node, its VC level kept or raised: the node map stops none here. -/
def State.forward (s : State) (i : SpanItem) (vc : Nat) : State :=
  match s.sendOn (s.routeTo false (SpanHdr.of i.hdr).dst) i (vc % 2) with
  | (s, 0) => s
  | (s, st) => s.refuseItem i st

/-! Leaving ACTIVE (R412, R413). -/

/-- Whether an operation's transactions are sent again (R413). -/
def isResent (op : Nat) : Bool := op == opRead || op == opWrite || op == opRsp

/-- Transactions of unacknowledged flits with their VCs, each once. -/
def carried : List TxFlit → List (Nat × SpanItem)
  | [] => []
  | f :: r =>
    match carried r with
    | (v, i) :: t => if v = f.vc ∧ i = f.item then (v, i) :: t else (f.vc, f.item) :: (v, i) :: t
    | [] => [(f.vc, f.item)]

/-- What becomes of a transaction carried by an unacknowledged flit: sent again, answered with `status`, or lost. -/
def State.carriedItem (s : State) (status : Nat) (w : Nat × SpanItem) : State :=
  let op := (SpanHdr.of w.2.hdr).op
  if isResent op then
    match s.sendOn (s.routeTo false (SpanHdr.of w.2.hdr).dst) w.2 (w.1 % 2) with
    | (s, 0) => s.bump32 Reg.SPAN_REROUTED 1
    | (s, st) => s.refuseItem w.2 st
  else if op = opMgt then s
  else (s.bump32 Reg.SPAN_LINK_LOST 1).spanAnswer w.2.hdr status []

/-- A port stops sending and enters state `st`: its unacknowledged transactions are handled, and those that waited for
credit take another route. -/
def State.portLeave (s : State) (q st status : Nat) : State :=
  let p := s.port q
  let s := s.setPort q (p.stopped st)
  let s := (carried p.replay).foldl (fun t w => t.carriedItem status w) s
  p.waiting.foldl (fun t w => t.forward w.2 w.1) s

/-- A port leaves ACTIVE, TRAINING or DRAINING for DOWN (R412). -/
def State.portFail (s : State) (q : Nat) : State :=
  let s := if (s.port q).st = 2 then s.bump32 (Reg.SPAN_PORT_DOWNS q) 1 else s
  (s.portLeave q 0 11).linkSend q false

/-- PORT_DOWN (R412). -/
def execPortDown (port : SpanPort) (s : State) : Outcome :=
  let q := port.val
  act ((s.port q).st == 1 || (s.port q).st == 2) s (s.portFail q)

/-! Draining (R411). -/

/-- A draining port that has sent and received everything enters DRAINED. -/
def State.drainCheck (s : State) (q : Nat) : State :=
  let p := s.port q
  if p.st = 3 ∧ p.drainSeen = true ∧ p.replay = [] ∧ p.waiting = [] then (s.setPort q (p.stopped 4)).portQuiesced q else s

/-- A port begins to drain: it enters DRAINING and sends DRAIN and LINK. -/
def State.drainStart (s : State) (q : Nat) : State :=
  let p := s.port q
  if p.st = 3 ∨ p.st = 4 ∨ s.qst (portQ q) ≠ 1 then s
  else
    let s := (s.setPort q { p with st := 3, drainSent := true, drainSeen := false }).setQst (portQ q) 2
    s.linkSend q false

/-- SPAN_PORT_DRAIN (R411). -/
def execSpanPortDrain (_r : Requester) (port : SpanPort) (s : State) : Outcome :=
  act (spanPresent s.variant) s ((s.setField (Reg.SPAN_PORT_CTL port.val) 0 1 1).drainStart port.val)

/-- Clear a cage's gesture_drain (R478). -/
def State.clearGesture (s : State) (k : Nat) : State := s.setField (Reg.SISYN_FP_CAGE k) 3 1 0

/-- Clear drain of port `q` (R411, R478). -/
def State.undrain (s : State) (q : Nat) : State :=
  ((s.setField (Reg.SPAN_PORT_CTL q) 0 1 0).clearGesture (q / 2)).portEnableReq q

/-- SPAN_PORT_UNDRAIN (R411). -/
def execSpanPortUndrain (_r : Requester) (port : SpanPort) (s : State) : Outcome :=
  act (spanPresent s.variant) s (s.undrain port.val)

/-- A write of SPAN_PORT_CTL.enable: 0 holds the port DOWN (R416). -/
def State.portEnableWrite (s : State) (q : Nat) (on : Bool) : State :=
  let s := s.setField (Reg.SPAN_PORT_CTL q) 2 1 (b2n on)
  let st := (s.port q).st
  if on then (if st = 0 then s.portTrain q else s)
  else if st = 1 ∨ st = 2 then s.portFail q
  else if st = 3 then (s.portFail q).portQuiesced q
  else if st = 4 then s.setPort q ((s.port q).stopped 0)
  else s

/-- SPAN_PORT_ENABLE (R416). -/
def execSpanPortEnable (_r : Requester) (port : SpanPort) (on : Bool) (s : State) : Outcome :=
  act (spanPresent s.variant) s (s.portEnableWrite port.val on)

/-- A DRAIN arrives: the port drains too, or its drain ends. -/
def State.drainIn (s : State) (q : Nat) : State :=
  let s := s.drainStart q
  (s.setPort q { s.port q with drainSeen := true }).drainCheck q

/-- DRAIN (R411). -/
def execDrain (port : SpanPort) (s : State) : Outcome :=
  let st := (s.port port.val).st
  act (st == 2 || st == 3) s (s.drainIn port.val)

/-- DRAIN_TIMEOUT (R411). -/
def execDrainTimeout (port : SpanPort) (s : State) : Outcome :=
  act ((s.port port.val).st == 3) s ((s.portLeave port.val 4 12).portQuiesced port.val)

/-! INIT and retries (R414). -/

/-- INIT has passed both ways: the port is ACTIVE with full credits. -/
def State.initIn (s : State) (q node peer seq : Nat) : State :=
  let s := (s.setField (Reg.SPAN_PORT_STATUS q) 4 8 node).setField (Reg.SPAN_PORT_STATUS q) 12 4 peer
  let p := s.port q
  let s := s.setPort q { p with st := 2, initSeen := true, rxSeq := (seq + 4095) % 4096, credits := [] }
  s.linkSend q true

/-- INIT (R414). -/
def execInit (port : SpanPort) (node : Byte) (peerPort : BitVec 4) (seq : BitVec 12) (s : State) : Outcome :=
  let p := s.port port.val
  act (p.st == 1 && p.initSent) s (s.initIn port.val node.toNat peerPort.toNat seq.toNat)

/-- TRAIN_RETRY (R414): `trains` says whether the lanes train this time. -/
def execTrainRetry (port : SpanPort) (trains : Bool) (s : State) : Outcome :=
  act ((s.port port.val).st == 0 && trains) s (s.portTrain port.val)

/-! Cages (R385, R414, R478). -/

/-- Whether R385 accepts a module: its host interface, and at most 5.0 W in units of 0.1 W. -/
def moduleAccepted (power : Nat) (lanesOk : Bool) : Bool := lanesOk && decide (power ≤ 50)

/-- A cage event: the faceplate's, with the cage in its detail. DEDUCED (log entry 78). -/
def State.cageEvent (s : State) (severity k code : Nat) : State := s.postEvent severity 1 0x91 0 code (leBytes k 1)

/-- Show a module in port `q`'s registers. -/
def State.portModule (s : State) (q id power : Nat) (ok : Bool) : State :=
  (s.setRegN (Reg.SPAN_PORT_MODULE q) (id + power * 2 ^ 8 + b2n ok * 2 ^ 16)).setField (Reg.SPAN_PORT_STATUS q) 3 1 1

/-- Clear drain on both ports of a cage and its gesture_drain. -/
def State.undrainCage (s : State) (k : Nat) : State := (s.undrain (2 * k)).undrain (2 * k + 1)

/-- A port whose module was accepted trains, if it is DOWN. -/
def State.portBegin (s : State) (q : Nat) : State := if (s.port q).st = 0 then s.portTrain q else s

/-- A module is detected in cage `k`. -/
def State.plug (s : State) (k id power : Nat) (lanesOk : Bool) : State :=
  let ok := moduleAccepted power lanesOk
  let s := (s.portModule (2 * k) id power ok).portModule (2 * k + 1) id power ok
  let s := s.setField (Reg.SISYN_FP_CAGE k) 4 1 1
  let s := if s.gestureDrain k then s.undrainCage k else s
  let s := s.cageEvent 0 k 0x010
  if ok then (s.portBegin (2 * k)).portBegin (2 * k + 1) else s.cageEvent 1 k 0x012

/-- MODULE_PLUGGED (R385, R414, R478). -/
def execModulePlugged (cage : CageId) (identifier power : Byte) (lanesOk : Bool) (s : State) : Outcome :=
  act (spanPresent s.variant && !s.cageModule cage.val) s (s.plug cage.val identifier.toNat power.toNat lanesOk)

/-- Port `q` loses its module: one that is not DRAINED goes DOWN, and a drain under way ends (R412, R478). DEDUCED (log entry 78). -/
def State.portUnplugged (s : State) (q : Nat) : State :=
  let s := (s.setRegN (Reg.SPAN_PORT_MODULE q) 0).setField (Reg.SPAN_PORT_STATUS q) 3 1 0
  let st := (s.port q).st
  if st = 1 ∨ st = 2 then s.portFail q
  else if st = 3 then (s.portFail q).portQuiesced q
  else s

/-- MODULE_UNPLUGGED (R478). -/
def execModuleUnplugged (cage : CageId) (s : State) : Outcome :=
  let k := cage.val
  act (spanPresent s.variant && s.cageModule k) s
    ((((s.setField (Reg.SISYN_FP_CAGE k) 4 1 0).portUnplugged (2 * k)).portUnplugged (2 * k + 1)).cageEvent 0 k 0x011)

/-! Flits received (R386–R389). -/

/-- The fields of a flit (R386). -/
structure Flit where
  seq : Nat
  ack : Nat
  vc : Nat
  kind : Nat
  retry : Bool
  credits : List Nat
  slots : List (BitVec 128)
  good : Bool
  deriving DecidableEq, Repr

/-- Read a flit: its slots in use, and whether its CRC holds. -/
def Flit.of (f : BitVec 2048) : Flit :=
  let n := f.toNat
  ⟨bits n 0 12, bits n 12 12, bits n 24 3, bits n 27 2, bitOf n 29, (List.range 8).map (fun v => bits n (32 + 4 * v) 4),
    (List.range (bits n 64 4)).map (fun i => BitVec.ofNat 128 (n / 2 ^ (96 + 128 * i))),
    decide ((crc32 (leBytes (n % 2 ^ 2016) 252)).toNat = n / 2 ^ 2016)⟩

/-- Drop the flits up to an acknowledged sequence number (R387). -/
def dropAcked (ack : Nat) (l : List TxFlit) : List TxFlit :=
  if l.any (fun f => f.seq == ack) then (l.dropWhile (fun f => f.seq != ack)).drop 1 else l

/-- Credits returned (R388). -/
def returnCredits (t : Tab Nat) (cs : List Nat) : Tab Nat :=
  (cs.mapIdx (fun v n => (v, n))).foldl (fun (t : Tab Nat) e => tabSet 0 t e.1 (tabGet 0 t e.1 - e.2)) t

/-- A flit's acknowledgement and credits. -/
def PortSt.acked (p : PortSt) (f : Flit) : PortSt :=
  { p with replay := dropAcked f.ack p.replay, credits := returnCredits p.credits f.credits }

/-- Replay every unacknowledged flit (R387): one replayed 8 times without acceptance makes the port leave ACTIVE and retrain. A
port that drains has left ACTIVE already, and stays for R411's timeout. DEDUCED (log entry 74). -/
def State.replay (s : State) (q : Nat) : State :=
  let p := s.port q
  let l := p.replay.map (fun f => { f with replays := f.replays + 1 })
  if p.st = 2 ∧ l.any (fun f => 8 < f.replays) then (s.portFail q).portTrain q
  else (s.setPort q { p with replay := l }).bump64 (Reg.SPAN_PORT_TX_LO q) l.length

/-- Ask for a replay: this flit and every later one are discarded (R387). -/
def State.askReplay (s : State) (q : Nat) : State :=
  (s.setPort q { s.port q with discarding := true }).bump32 (Reg.SPAN_PORT_RETRIES q) 1

/-- Payload words and slots of the transaction that begins with header `h`, whose slot ends its flit or does not. A
response on its way to another node has a payload exactly where its header does not end its flit. DEDUCED (log entry 74). -/
def State.itemWords (s : State) (h : SpanHdr) (ends : Bool) : Nat :=
  if h.op = opRead ∨ opRsp < h.op then 0
  else if h.op = opRsp then
    if h.status ≠ 0 then 0
    else match (if h.dst = s.nodeId then s.outstanding h else none) with
      | some r => answerWords (SpanHdr.of r.item.hdr) h.status
      | none => if ends then 0 else h.len
  else h.len

/-- The 64-bit words of slots. -/
def slotWords (l : List (BitVec 128)) : List Dword := l.flatMap (fun (x : BitVec 128) => [x.setWidth 64, (x >>> 64).setWidth 64])

/-- The first whole transaction among received slots, and the slots after it. -/
def State.itemParse (s : State) (l : List (BitVec 128 × Bool)) : Option (SpanItem × List (BitVec 128 × Bool)) :=
  match l with
  | [] => none
  | (x, ends) :: r =>
    let n := s.itemWords (SpanHdr.of x) ends
    let k := ceilDiv n 2
    if r.length < k then none else some (⟨x, (slotWords ((r.take k).map (·.1))).take n⟩, r.drop k)

/-- A whole transaction of VC `v`: it waits here for its target, or travels on; a reserved operation is dropped (R391). DEDUCED (log entry 74). -/
def State.itemIn (s : State) (q v : Nat) (i : SpanItem) : State :=
  let h := SpanHdr.of i.hdr
  if opRsp < h.op then s
  else if h.dst = s.nodeId then { s with span := { s.span with arrived := s.span.arrived ++ [⟨q, v, i⟩] } }
  else s.forward i v

/-- Take whole transactions from the slots of VC `v`, at most `n` of them. -/
def State.itemsIn (s : State) (q v : Nat) : Nat → State
  | 0 => s
  | n + 1 =>
    match s.itemParse (tabGet [] (s.port q).rx v) with
    | none => s
    | some (i, rest) =>
      let p := s.port q
      ((s.setPort q { p with rx := tabSet [] p.rx v rest }).itemIn q v i).itemsIn q v n

/-- The slots of a flit, the last one marked. -/
def markSlots : List (BitVec 128) → List (BitVec 128 × Bool)
  | [] => []
  | [x] => [(x, true)]
  | x :: r => (x, false) :: markSlots r

/-- A DATA flit is accepted (R387). -/
def State.dataIn (s : State) (q : Nat) (f : Flit) : State :=
  let p := s.port q
  let l := tabGet [] p.rx f.vc ++ markSlots f.slots
  let s := s.setPort q { p with rxSeq := f.seq, discarding := false, rx := tabSet [] p.rx f.vc l }
  (s.bump64 (Reg.SPAN_PORT_RX_LO q) 1).itemsIn q f.vc l.length

/-- A DATA flit: accepted in order, else discarded with one request to replay (R387). DEDUCED (log entry 74). -/
def State.dataFlit (s : State) (q : Nat) (f : Flit) : State :=
  let p := s.port q
  if f.kind ≠ 0 then s
  else if f.seq = (p.rxSeq + 1) % 4096 then s.dataIn q f
  else if p.discarding then s
  else s.askReplay q

/-- After acknowledgements and credits: what waits is sent, and a drain may end. -/
def State.portSettle (s : State) (q : Nat) : State := (s.portPump q ((s.port q).waiting.length + 1)).drainCheck q

/-- Whether the oldest transaction that waits on some VC waits for credits (R388). -/
def PortSt.starved (p : PortSt) (dateline : Bool) : Bool :=
  p.waiting.any (fun w => p.waiting.find? (fun x => leaveVc dateline x.1 = leaveVc dateline w.1) == some w &&
    decide (32 < p.spent (leaveVc dateline w.1) + w.2.bodies.length))

/-- Link cycles in which a flit waited for a credit, up to this flit (R416). DESIGN CHOICE (log entry 111). -/
def State.creditWait (s : State) (q : Nat) : State :=
  if (s.port q).starved (s.dateline q) then
    let (s, n) := s.tick
    s.bump32 (Reg.SPAN_PORT_CREDIT_WAIT q) (Config.freeCycles n)
  else s

/-- A flit with a correct CRC; one of a reserved kind is discarded. -/
def State.goodFlit (s : State) (q : Nat) (f : Flit) : State :=
  if f.kind = 3 then s
  else
    let s := s.creditWait q
    let s := s.setPort q ((s.port q).acked f)
    let s := if f.retry then s.replay q else s
    if (s.port q).st ≠ 2 ∧ (s.port q).st ≠ 3 then s else (s.dataFlit q f).portSettle q

/-- A flit arrives, with the FEC codewords that held it: an uncorrectable one damages the flit. DESIGN CHOICE (log entry 73). -/
def State.flitIn (s : State) (q : Nat) (f : Flit) (corr unc : Nat) : State :=
  let s := (s.bump32 (Reg.SPAN_PORT_FEC_CORR q) corr).bump32 (Reg.SPAN_PORT_FEC_UNCORR q) unc
  if f.good && unc == 0 then s.goodFlit q f else (s.bump32 (Reg.SPAN_PORT_CRC_ERRS q) 1).askReplay q

/-- FLIT_RECEIVE (R386, R387): a port receives while ACTIVE or DRAINING. -/
def execFlitReceive (port : SpanPort) (flit : BitVec 2048) (fecCorrected fecUncorrectable : Nat) (s : State) : Outcome :=
  let st := (s.port port.val).st
  act (st == 2 || st == 3) s (s.flitIn port.val (Flit.of flit) fecCorrected fecUncorrectable)

end Sys2Proof.Machine
end

