-- ==== Sys2Proof/Machine/Reset.lean ====
section
/-! DEFINITION. What each reset reaches, and the power-up sequence (17_power_clocks_and_reset.md R442–R448, R455–R456, R461;
13_lpddr6_memory.md R349, R524; 18_sisyn_and_the_faceplate.md R470–R472; 19_lifecycle_and_attestation.md R493, R494). -/

namespace Sys2Proof.Machine

/-! What a module reset reaches (R455). -/

/-- Whether the register at `x` lies at a place that satisfies a condition. -/
def regAt (p : BlockAt → Bool) (x : Nat) : Bool := (blockAt x).any p

/-- Keep the registers whose place satisfies a condition, with their latches (R70); every other one is at its reset value. -/
def State.keepRegs (s : State) (p : BlockAt → Bool) : State :=
  { s with regs := s.regs.filter (fun e => regAt p e.1), latches := s.latches.filter (fun e => regAt p (e.1 % 2 ^ 28)) }

/-- Registers that a module reset keeps: Sisyn's, the faceplate's and the lifecycle's, the power block's but for the domains,
the quiesce states and the fault (R441, R455, R461), and what a cage's module says of itself. DEDUCED (log entry 84). -/
def moduleKeeps (b : BlockAt) : Bool :=
  let o := b.off
  match b.kind with
  | .sisyn | .fp | .lc => true
  | .pwr => o != 0x10 && o != 0x3C && decide (o < 0x200)
  | .spanPort => o == 0x38
  | _ => false

/-- Show in each port whether its cage holds a module. DEDUCED (log entry 78). -/
def State.showModules (s : State) : State :=
  (List.range 16).foldl (fun t q => t.setField (Reg.SPAN_PORT_STATUS q) 3 1 (b2n (t.cageModule (q / 2)))) s

/-- Every unit that a module reset reaches, at reset (R455). -/
def State.resetUnits (s : State) : State :=
  { s with
    latches := []
    cores := []
    sched := Sched.reset
    hubOps := []
    dram := []
    zeroed := []
    writeBacks := []
    pkgCe := []
    skimOff := []
    scrubAt := []
    churns := []
    roots := []
    span := SpanSt.reset
    hosts := { State.reset.hosts with mem := s.hosts.mem, msixSent := s.hosts.msixSent }
    power := { s.power with
      loaded := false, stretched := [], droopPosted := [], domReqs := [], enableWait := [], trainFailed := 0 } }

/-- Domains A and X alone are on. -/
def alwaysOn : Nat := 2 ^ 28 + 2 ^ 29

/-- A module reset up to step 3 of the power-up sequence: everything off but A and X (R455, R456). DEDUCED (log entry 84). -/
def State.moduleReset (s : State) (cause : Nat) : State :=
  let s := ((s.resetUnits).keepRegs moduleKeeps).showModules
  let s := (s.setRegN Reg.PWR_DOMAIN_STATE alwaysOn).setRegN Reg.PWR_RESET_CAUSE cause
  (s.setField Reg.PWR_STATUS 0 3 3).setField Reg.PWR_STATUS 4 1 0

/-! What losing AUX leaves: the SPI NOR and fuses (R455, R517). -/

/-- Registers that show what the SPI NOR and the fuses hold (R463, R470). DEDUCED (log entry 84). -/
def norKeeps (b : BlockAt) : Bool :=
  let o := b.off
  match b.kind with
  | .sisyn => o == 4 || (decide (0xC ≤ o) && decide (o ≤ 0x1C))
  | _ => false

/-- The part without power. DEDUCED (log entry 84). -/
def State.bare (s : State) : State :=
  let t : State := { State.reset with
    pending := s.pending
    variant := s.variant
    regs := s.regs
    answers := s.answers
    free := s.free
    dbArea := s.dbArea
    dbBoot := s.dbBoot
    replies := s.replies
    hosts := { State.reset.hosts with mem := s.hosts.mem, msixSent := s.hosts.msixSent }
    power := { PowerSt.reset with perstA := s.power.perstA, perstB := s.power.perstB, refclkA := s.power.refclkA, refclkB := s.power.refclkB }
    sisyn := { SisynSt.reset with
      nor := s.sisyn.nor, imageA := s.sisyn.imageA, imageB := s.sisyn.imageB, nextImage := s.sisyn.nextImage
      dbSlot := s.sisyn.dbSlot, staged := s.sisyn.staged }
    lc := { s.lc with debugSeen := false, nonce := none } }
  (t.keepRegs norKeeps).setField Reg.SISYN_STATUS 1 2 0

/-! Firmware slots (R470–R472). -/

/-- Slot `k` runs, and the boot record names it as active. -/
def State.setActive (s : State) (k : Nat) : State :=
  { s with sisyn := { s.sisyn with nor := tabDel s.sisyn.nor 0 } }.setField Reg.SISYN_STATUS 0 1 k

/-- Set a slot's failure count. -/
def State.setCount (s : State) (k n : Nat) : State := s.setField Reg.SISYN_BOOT (2 * k) 2 n

/-- Verifications of a slot that fail: a slot without an image, or with one below F, fails every one (R470). -/
def State.slotFails (s : State) (k found : Nat) : Nat :=
  if s.slotImage k = 0 ∨ s.slotSvn k < s.fuseF then 3 else found

/-- Sisyn's firmware runs from slot `k`: step 2 of a power-up sequence ends (R447, R471). -/
def State.fwRuns (s : State) (k : Nat) : State :=
  let s : State := { s with sisyn := { s.sisyn with noFw := false } }
  let s := if s.field Reg.PWR_STATUS 0 3 = 2 then s.setField Reg.PWR_STATUS 0 3 3 else s
  ((s.setCount k 0).setActive k).setField Reg.SISYN_STATUS 1 2 2

/-- Neither slot verifies: Sisyn stays in the ROM. -/
def State.fwNone (s : State) (k : Nat) : State :=
  let s : State := { s with sisyn := { s.sisyn with noFw := true } }
  ((s.setCount k 3).setActive k).setField Reg.SISYN_STATUS 1 2 0

/-- Step 2: the ROM verifies the active slot, again up to its third failure, then the other one (R471). DESIGN CHOICE (log entry 90). -/
def State.bootRom (s : State) (failsA failsB : Nat) : State :=
  let found (k : Nat) : Nat := if k = 0 then failsA else failsB
  let a := s.bootActive
  let b := 1 - a
  if s.slotFails a (found a) = 0 ∨ s.slotCount a + s.slotFails a (found a) < 3 then (s.setField Reg.SISYN_BOOT 4 1 0).fwRuns a
  else
    let s := ((s.setCount a 0).setCount b 0).setField Reg.SISYN_BOOT 4 1 1
    if s.slotFails b (found b) < 3 then (s.fwRuns b).postEvent 1 1 0x90 0 0x041 [] else s.fwNone b

/-- The daybook goes on after the newest entry found, in the slot after it (R466). -/
def State.dbResume (s : State) : State :=
  match s.dbNewest with
  | some e => { s with dbNext := seqNext e.2.seq, dbQueue := [], sisyn := { s.sisyn with dbSlot := (e.1 + 1) % dbSlots } }
  | none => { s with dbNext := 1, dbQueue := [] }

/-! Sisyn's record of the hardware (R481). It numbers units by their place in PWR_QSTATE, then domains, Span ports and skim
rails. -/

/-- The number of what Sisyn watches. DESIGN CHOICE (log entry 89). -/
def watchNum : Watched → Nat
  | .unit u => qIndex u
  | .domain d => 260 + d.val
  | .spanPort p => 290 + p.val
  | .skim q => 306 + q.val

/-- The hardware state of what has a number. -/
def State.watchHw (s : State) (n : Nat) : Nat :=
  if n < 260 then s.qst n
  else if n < 290 then b2n (s.domainOn (n - 260))
  else if n < 306 then (s.port (n - 290)).st
  else s.skimOffset (n - 306)

/-- Every number that Sisyn watches. -/
def watchAll : List Nat := List.range 322

/-- Build the record from the hardware (R482). -/
def State.recordAll (s : State) : State :=
  { s with sisyn := { s.sisyn with
      record := watchAll.foldl (fun (t : Tab Nat) n => tabSet 0 t n (s.watchHw n)) [], recheck := [] } }

/-! Power-up steps 3 to 7 (R447). -/

/-- Whether the configuration has a domain (R3, R5, R6). -/
def domainPresent (v : Variant) (d : Nat) : Bool :=
  if 20 ≤ d ∧ d < 24 then rootPresent v else if d = 24 ∨ d = 25 then spanPresent v else decide (d < 30)

/-- Domains that step 3 turns on, with A and X. -/
def bootDomains (v : Variant) : Nat := packBits ((List.range 30).map (fun d => (b2n (domainPresent v d), d)))

/-- Every present unit is ENABLED. -/
def State.enableAll (s : State) : State :=
  (List.range 260).foldl (fun t k => t.setQst k (b2n (qPresent t.variant k))) s

/-- Training ends on the channels of a list: READY or FAILED (R349, R351). -/
def State.trainChans (s : State) (ms : List Nat) (failed : BitVec 192) : State :=
  ms.foldl (fun t m =>
    if pkgPresent t.variant (m / 4) = false then t.setField (Reg.PWR_MEMC_STATUS m) 0 2 0
    else if failed.getLsbD m then
      let p := m / 4
      let t : State := { t with power := { t.power with trainFailed := t.power.trainFailed ||| 1#192 <<< m } }
      (t.setField (Reg.PWR_MEMC_STATUS m) 0 2 3).setField
        (if p < 32 then Reg.PWR_MEMMAP_FAILED_LO else Reg.PWR_MEMMAP_FAILED_HI) (p % 32) 1 1
    else t.setField (Reg.PWR_MEMC_STATUS m) 0 2 2) s

/-- Training, with one daybook entry where channels fail: it names the lowest of them (R349, R506). DEDUCED (log entry 103). -/
def State.trainAll (s : State) (ms : List Nat) (failed : BitVec 192) : State :=
  let s := s.trainChans ms failed
  match ms.find? (fun m => pkgPresent s.variant (m / 4) && failed.getLsbD m) with
  | some m => (s.report (dbError 0 0x40 m Code.training 0)).1
  | none => s

/-- The self-test of the start-up pool (R448). DEDUCED (log entry 103). -/
def State.selftest (s : State) (fails : Bool) : State :=
  if fails then
    let s := (s.setField Reg.PWR_STATUS 4 1 1).firstFault Reg.PWR_FAULT 1
    (s.report (dbError 0 0x80 0 Code.selftestFail (s.reg Reg.PWR_FAULT))).1
  else s

/-- Where the calibration area holds quad `q`'s bound_off; floor_off follows it (R463). DESIGN CHOICE (log entry 88). -/
def calPlace (q : Nat) : Nat := 0x3500000 + 2 * q

/-- PWR_SKIM_CAL from the two calibration bytes: Sisyn writes bound_off no larger than floor_off (R162). DESIGN CHOICE (log entry 88). -/
def skimCal (bound floor : Byte) : Nat := min bound.toNat floor.toNat + floor.toNat * 2 ^ 8

/-- Sisyn writes skim calibration (R162). DESIGN CHOICE (log entry 88). -/
def State.loadCal (s : State) : State :=
  (List.range 16).foldl (fun t q =>
    t.setRegN (Reg.PWR_SKIM_CAL q) (skimCal (tabGet 0 t.sisyn.nor (calPlace q)) (tabGet 0 t.sisyn.nor (calPlace q + 1)))) s

/-- A zeroising transition takes its last steps: memory is zero, slots and seed are fused, and the new state takes effect
(R493, R494). An interrupted FIELD_DEBUG entry ends in FIELD. DEDUCED (log entry 94). -/
def State.zeroiseDone (s : State) (z : Zeroise) : State :=
  let revoke := z.to_ == .returned || z.to_ == .scrap
  let was := s.lc.state
  let s : State := { s with
    dram := []
    zeroed := ((List.range 192).filter (fun m => pkgPresent s.variant (m / 4))).map (fun m => (m, s.split))
    writeBacks := []
    lc := { s.lc with
      zeroise := none
      seedFuse := if z.to_ = .scrap then BitVec.allOnes 384 else s.lc.seedFuse
      slots := if revoke then s.lc.slots.map (fun e => (e.1, if e.2.st = 1 then { e.2 with st := 2 } else e.2)) else s.lc.slots } }
  let s := s.pbAppend .zeroiseDone was.code z.to_.code z.slot z.digest
  if z.to_ = was then s
  else
    let s := s.pbAppend .state was.code z.to_.code z.slot z.digest
    let s : State := { s with lc := { s.lc with state := z.to_ } }
    if z.to_ = .fieldDebug then
      let s : State := { s with lc := { s.lc with scope := z.scope, debugSeen := true, debugEntries := (s.lc.debugEntries + 1) % 2 ^ 32 } }
      s.setRegN Reg.SISYN_LC_DEBUG_LEFT z.duration
    else s

/-- Steps 4 and 5 of a zeroisation that has begun. -/
def State.zeroiseRest (s : State) : State :=
  match s.lc.zeroise with
  | some z => s.zeroiseDone z
  | none => s

/-- Step 6: microcode and calibration are loaded, and pool mode ends (R447). -/
def State.loadFirmware (s : State) : State :=
  let s : State := { s with
    power := { s.power with loaded := true }
    sisyn := { s.sisyn with microcode := s.slotImage s.slotActive } }
  ((s.loadCal).setRegN Reg.SPAD_POOL_CTL 0).setField Reg.PWR_STATUS 0 3 7

/-- The link that a port trained during the sequence: one that it supports (R419). -/
def State.bootLink (s : State) (p : Nat) (l : Option LinkInfo) : State :=
  match l with
  | some i => if linkValid i then (((s.setPerst p false).setRefclk p true)).linkUp p i else s
  | none => s

/-- Steps 3 to 7 of the power-up sequence (R447, R448). DESIGN CHOICE (log entry 83). -/
def State.bootRest (s : State) (f : BootFindings) : State :=
  let s := (s.setRegN Reg.PWR_DOMAIN_STATE (bootDomains s.variant)).enableAll
  let s := (s.trainAll (List.range 192) f.trainFailed).selftest f.selftestFail
  let changes := s.lc.zeroise.isSome
  let s := (s.zeroiseRest).loadFirmware
  let s := if changes then s.takeMeasures else s
  let s := if spanPresent s.variant then (List.range 16).foldl State.portTrain s else s
  ((s.bootLink 0 f.linkA).bootLink 1 f.linkB).recordAll

/-- Steps 3 to 7 run once V_IN stands at 44.0 V or more and Sisyn's firmware runs, where no trip holds the module and it is not
ready for removal (R453, R455, R471, R479). DESIGN CHOICE (log entry 83). -/
def State.bootOn (s : State) (f : BootFindings) : State :=
  if s.power.vin && !s.sisyn.noFw && !s.power.tripped && !s.power.removed then s.bootRest f else s

/-! The commands. -/

/-- Step 1 samples ADDR[1:0] (R514). -/
def State.sampleAddr (s : State) (v : BitVec 2) : State := { s with sisyn := { s.sisyn with addr := v } }

/-- The bus owner of each binding assigns Sisyn its endpoint ID (R468). DEDUCED (log entry 134). -/
def State.assignEids (s : State) (e : MctpEids) : State := { s with sisyn := { s.sisyn with eids := e } }

/-- Sisyn's 7-bit address on the SMBus (R468, R514). -/
def State.smbusAddr (s : State) : Nat := 0x60 + s.sisyn.addr.toNat

/-- A power-on reset: everything but the SPI NOR, then the whole sequence (R447, R455). A debug session ends (R489). DESIGN CHOICE (log entry 83). -/
def State.powerOn (s : State) (f : BootFindings) : State :=
  let t := s.bare
  let t : State := { t with dbBoot := (t.dbBoot + 1) % 65536, power := { t.power with aux := true, vin := true } }
  let t := (((t.sampleAddr f.addr).assignEids f.eids).setRegN Reg.PWR_DOMAIN_STATE alwaysOn).setField Reg.PWR_STATUS 0 3 2
  let t := ((t.dbResume).bootRom f.slotAFails.toNat f.slotBFails.toNat).deriveKeys
  let t := if t.lc.state = .fieldDebug then t.debugOver noSlot 0 else t
  (t.bootOn f).takeMeasures

/-- POWER_ON (R447). -/
def execPowerOn (find : BootFindings) (s : State) : Outcome := act (!s.power.aux) s (s.powerOn find)

/-- An interrupted FIELD_DEBUG entry will end in FIELD (R494). DEDUCED (log entry 94). -/
def LcSt.interrupted (l : LcSt) : LcSt :=
  { l with zeroise := l.zeroise.map (fun z => if z.to_ = .fieldDebug then { z with to_ := .field } else z) }

/-- AUX_LOSS (R517): every regulator is off, and what the SPI NOR does not hold is lost. DEDUCED (log entry 84). -/
def execAuxLoss (s : State) : Outcome :=
  let t := s.bare
  act s.power.aux s { t with lc := t.lc.interrupted }

/-- Whether the module waits for the power-up sequence to run on from step 3 with V_IN good: no trip holds it, it is not
ready for removal, and Sisyn's firmware runs (R449, R453, R455, R479). DESIGN CHOICE (log entry 83). -/
def State.waitsVin (s : State) : Bool :=
  s.power.aux && !s.domainOn 27 && !s.power.tripped && !s.power.removed && !s.sisyn.noFw

/-- VIN_RESTORED (R455). DESIGN CHOICE (log entry 83). -/
def execVinRestored (find : BootFindings) (s : State) : Outcome :=
  let t : State := { s with power := { s.power with vin := true, brown := false } }
  act s.waitsVin s (t.bootRest find)

/-- MODULE_RESET (R455, R456): a write of another value is ignored. Steps 3 to 7 follow as VIN_RESTORED. -/
def execModuleReset (r : Requester) (value : Word) (s : State) : Outcome :=
  act (s.power.aux && bits value.toNat 0 16 == 0xA5C3) s (s.moduleReset (if r = .sisyn then 4 else 2))

/-- BROWN_OUT (R449): V_IN falls below 40.0 V, in a warning or not; every domain of a module that is ready for removal is off
already (R479). -/
def execBrownOut (s : State) : Outcome :=
  let t : State := { s with power := { s.power with vin := false, brown := true, offReq := false }, lc := s.lc.interrupted }
  act (s.power.aux && !s.power.brown) s (if s.power.removed then t else t.moduleReset 1)

/-- THERMAL_TRIP (R453): a module reset whose domains stay off. -/
def execThermalTrip (s : State) : Outcome :=
  let t := s.moduleReset 3
  act (s.power.aux && s.domainOn 27) s { t with power := { t.power with tripped := true } }

/-- TRIP_RESUME (R453): a module that is ready for removal stays off (R479, R518). -/
def execTripResume (find : BootFindings) (s : State) : Outcome :=
  let t : State := { s with power := { s.power with tripped := false } }
  act (s.power.aux && s.power.tripped && !s.power.removed && s.power.vin && !s.sisyn.noFw) s (t.bootRest find)

/-! Management resets (R455). -/

/-- Faceplate registers that domain X loses: all but whether a cage holds a module, and the counters (R485). -/
def State.resetFaceplate (s : State) : State :=
  let s := s.setRegN Reg.SISYN_FP_CTL 0
  (List.range 8).foldl (fun t k => t.clearGesture k) s

/-- What a management reset reaches: Sisyn's processor and SRAM, and domain X; a power-off that is ready stays (R479). DEDUCED (log entry 84). -/
def State.mgmtReset (s : State) : State :=
  let s : State := { s with
    sisyn := { s.sisyn with
      sram := [], debugRegs := [], eids := ⟨0, 0, 0⟩, strip := ⟨0, 0, 0, 0, 0, 0⟩, attnPressed := false, attn := if s.sisyn.attn = 3 then 3 else 0 }
    lc := { s.lc with nonce := none } }
  (s.resetFaceplate).dbResume

/-- Steps 1 and 2 run again, and Sisyn reads the hardware (R455, R482, R514). -/
def State.mgmtBoot (s : State) (f : BootFindings) : State :=
  ((((s.mgmtReset).sampleAddr f.addr).assignEids f.eids).bootRom f.slotAFails.toNat f.slotBFails.toNat).recordAll

/-- AUX_SAG (R449). -/
def execAuxSag (find : BootFindings) (s : State) : Outcome := act s.power.aux s (s.mgmtBoot find)

/-- WATCHDOG (R462). -/
def execWatchdog (find : BootFindings) (s : State) : Outcome :=
  act s.power.aux s ((s.bump32 Reg.SISYN_WDOG 1).mgmtBoot find)

end Sys2Proof.Machine
end

