-- ==== Sys2Proof/Machine/Roots.lean ====
section
/-! DEFINITION. Root engines: ROOT commands, their jobs, and how a job ends (14_the_churn.md R377, R378, R381). -/

namespace Sys2Proof.Machine

/-- Change a root engine. -/
def State.modRoot (s : State) (i : Nat) (f : RootSt → RootSt) : State := s.setRoot i (f (s.root i))

/-- Whether a root engine takes jobs: it is ENABLED (R458). -/
def State.rootEnabled (s : State) (i : Nat) : Bool := s.field (Reg.PWR_QSTATE (48 + i)) 0 2 == 1

/-- The command of a ROOT's slot as it completes. -/
def rootCmdOf (s : State) (r : RootCmd) : ChurnCmd := s.churnCmd r.ring r.slot []

/-- A job ends within its command: the first failure stays (R378). -/
def RootCmd.jobOver (r : RootCmd) (j : RootJob) (f : Option Fail) (accepted : Bool) : RootCmd :=
  let r := { r with left := r.left - 1, accepted := if accepted then r.accepted ++ [j.entry] else r.accepted }
  match r.status, f with
  | 0, some f => { r with status := f.stop.code, entry := j.entry, seq := f.seq }
  | _, _ => r

/-- The failure of a command whose jobs have all ended. -/
def RootCmd.fail (r : RootCmd) : Option Fail :=
  if r.status = 0 then none else some ⟨{ Stop.of r.status with row := r.entry, seq := r.seq }, r.seq⟩

/-- One job of a ROOT command has ended, with its failure. The command completes when none is left (R378). -/
def State.rootJobOver (s : State) (i : Nat) (j : RootJob) (f : Option Fail) (accepted : Bool) : State :=
  let cmds := (s.root i).cmds.map (fun r => if r.ring = j.ring ∧ r.slot = j.slot then r.jobOver j f accepted else r)
  let ended := cmds.filter (fun r => r.left == 0)
  let s := s.modRoot i (fun r => { r with cmds := cmds.filter (fun r => r.left != 0) })
  ended.foldl (fun s r => s.churnEnd ((r.ring - 25600) / 4) (rootCmdOf s r) r.fail) s

/-- The jobs of a ROOT command, in entry order, L before R (R377). -/
def ChurnCmd.jobs (c : ChurnCmd) (n : Nat) : List RootJob :=
  c.entries.flatMap (fun e => [⟨n, e, false, c.eps, c.ring, c.slot⟩, ⟨n, e, true, c.eps, c.ring, c.slot⟩])

/-- Jobs that wait in the engine's Churns move into its queue of 16, in the order in which they came (R378). -/
def State.rootFill (s : State) (i : Nat) : Nat → State
  | 0 => s
  | k + 1 =>
    match (s.root i).waiting with
    | [] => s
    | n :: more =>
      if (s.root i).queue.length ≥ 16 then s
      else match (s.churn n).rootWait with
        | [] => (s.modRoot i (fun r => { r with waiting := more })).rootFill i k
        | j :: rest =>
          ((s.setChurn n { s.churn n with rootWait := rest }).modRoot i (fun r =>
            { r with queue := r.queue ++ [j], waiting := more })).rootFill i k

/-- Queue a ROOT command's jobs; an engine that is not ENABLED refuses them (R378, R459). -/
def State.rootPost (s : State) (n : Nat) (c : ChurnCmd) : State :=
  let i := n / 12
  if s.rootEnabled i = false then s.churnEnd n c (some (Fail.of Code.quiesceRefused))
  else
    let jobs := c.jobs n
    let s := s.modRoot i (fun r => { r with
      cmds := r.cmds ++ [⟨c.ring, c.slot, jobs.length, [], 0, 0, 0⟩], waiting := r.waiting ++ jobs.map (fun _ => n) })
    let s := s.setChurn n { s.churn n with rootWait := (s.churn n).rootWait ++ jobs }
    s.rootFill i 16

/-- A ROOT command as it is taken: every entry is valid and of the rule KRONECKER (R377). -/
def State.churnRoot (s : State) (n : Nat) (c : ChurnCmd) : State :=
  match (chEntries n c).run s with
  | (.error f, s) => s.churnEnd n c (some f)
  | (.ok es, s) =>
    match es.find? (fun e => !e.2.1.kron) with
    | some e => s.churnEnd n c (entryFail Code.entryInvalid e.1)
    | none => s.rootPost n c

/-- CHURN_ROOT (R377). -/
def execChurnRoot (n : ChurnId) (ring : Fin 4) (s : State) : Outcome :=
  act (s.churnTakes n.val ring.val 3) s (s.churnTake n.val ring.val (fun s c => s.churnRoot n.val c))

/-- Start the oldest job. -/
def State.rootStart (s : State) (i : Nat) : State :=
  match (s.root i).queue with
  | [] => s
  | j :: rest => (s.modRoot i (fun r => { r with queue := rest, running := some j })).rootFill i 16

/-- Whether the oldest job of an engine's queue may start: it waits while the command that its Churn runs holds its entry (R363). -/
def State.rootReady (s : State) (i : Nat) : Bool := (s.root i).queue.head?.any (fun j => !s.churnHolds j.churn j.entry)

/-- ROOT_JOB (R363, R377, R378). DESIGN CHOICE (log entry 70). -/
def execRootJob (i : RimId) (s : State) : Outcome :=
  act (rootPresent s.variant && s.rootEnabled i.val && (s.root i.val).running.isNone && s.rootReady i.val) s
    (s.rootStart i.val)

/-- Set or clear root_stale of entry `e` of Churn `n`. -/
def chStale (n e : Nat) (on : Bool) : Ch Unit :=
  chOf (fun s => match s.churnWrite (s.pbAddr n e + 106) [BitVec.ofNat 8 (b2n on)] with
    | (s, none) => (s, .ok ())
    | (s, some f) => (s, .error f))

/-- Record the iterations and the residual of a job (R381). -/
def State.rootCount (s : State) (i : Nat) (e : RootEnd) : State :=
  let s := s.maxReg (Reg.CHURN_ROOT_ITER_MAX i) e.iters
  let s := match e.res with
    | some r => s.setReg (Reg.CHURN_ROOT_LAST_RES i) (f32Up r)
    | none => s
  if e.root.isSome then s
  else ((s.bump32 (Reg.CHURN_ROOT_STALE i) 1).report (dbEvent 1 0 0x51 i 0 0 [])).1

/-- Compute a job's root and write it, or keep the old one and set root_stale; `both` says that the entry's other job was
accepted (R378). Answers whether the job was accepted. -/
def chJob (i : Nat) (j : RootJob) (both : Bool) : Ch Bool := chAt j.entry do
  let e ← chOf (fun s => s.pbRead j.churn j.entry)
  let m := if j.right then e.cols else e.rows
  let a ← chMat (e.matAt j.right false) m m
  let r := rootOf a m (f32Val j.eps)
  chDo (fun s => s.rootCount i r)
  match r.root with
  | some x => do
    chWrite [matBytes (e.matAt j.right true) x]
    if both then chStale j.churn j.entry false
    return true
  | none => do
    chStale j.churn j.entry true
    return false

/-- The running job ends (R378). -/
def State.rootEnd (s : State) (i : Nat) (j : RootJob) : State :=
  let both := (s.root i).cmds.any (fun r => r.ring == j.ring && r.slot == j.slot && r.accepted.contains j.entry)
  let s := (s.modRoot i (fun r => { r with running := none })).bump64 (Reg.CHURN_ROOT_JOBS_LO i) 1
  match (chJob i j both).run s with
  | (.ok ok, s) => s.rootJobOver i j none ok
  | (.error f, s) => s.rootJobOver i j (some f) false

/-- ROOT_JOB_END. DESIGN CHOICE (log entry 70). -/
def execRootJobEnd (i : RimId) (s : State) : Outcome :=
  match (s.root i.val).running with
  | some j => .next (s.rootEnd i.val j)
  | none => .next s

end Sys2Proof.Machine
end

