-- ==== Sys2Proof/Machine/DataPath.lean ====
section
/-! DEFINITION. The data path's accesses to its Scratchpad on the matrix port: operand reads, and the writes that a store
collects before any of them lands (08_scratchpad_pails_and_rings.md R172–R190, R525). -/

namespace Sys2Proof.Machine

/-- Why the data path does not go on: a pail whose tag it waits for (R65, R118); an earlier operation or add that it waits
for (R85, R86, R153); the status that a pail keeps of a failed fill (R67); what stops the core, with the ledger tiles that it
marks INVALID; or any of these met after the state has moved on to `t` by what issued before it (R68). -/
inductive DpErr where
  | wait (pail : Nat)
  | hold
  | kept (code : Nat)
  | stop (st : Stop) (inv : List Nat)
  | after (t : State) (e : DpErr)
  deriving DecidableEq, Repr

/-- A stop that marks no tile. -/
def DpErr.of (st : Stop) : DpErr := .stop st []

/-- What the data path reads from: the state, its core, its epoch, and the bytes that its READ slips hold. -/
structure DpCtx where
  s : State
  c : Nat
  epoch : Nat
  overlay : Tab Byte

/-- A read of the data path: it collects the pails that it reads for the first time. -/
abbrev Dp (α : Type) := StateT (List Nat) (Except DpErr) α

/-- The core of a context. -/
def DpCtx.k (x : DpCtx) : Core := x.s.core x.c

/-- Plain offset of an offset in the wide or the diagonal view (R177, R179). -/
def DpCtx.plain (x : DpCtx) (diag : Bool) (w : Nat) : Except DpErr Nat :=
  if diag then
    if x.k.bm ≠ 16 then .error (.of (spadStop Code.bankPort (diagPlain w) 0))
    else if 0x60000 ≤ w then .error (.of (spadStop Code.spadRange w 0))
    else .ok (diagPlain w)
  else if x.k.bm = 0 then .error (.of (spadStop Code.bankPort w 0))
  else match x.k.wide w with
    | some p => .ok p
    | none => .error (.of (spadStop Code.spadRange w 0))

/-- A bank that gives no access (R192). -/
def DpCtx.power (x : DpCtx) (p : Nat) : Except DpErr Unit :=
  if (x.k.bank (bankOf p)).usable then .ok () else .error (.of (spadStop Code.bankOff p 0))

/-- The checks of an operand read at a plain offset, and the pail that it lies in (R65, R67, R186, R189, R190). DEDUCED (log entry 32). -/
def DpCtx.checkRead (x : DpCtx) (p : Nat) : Except DpErr (Option Nat) :=
  match x.s.pailAt x.c p with
  | some i =>
    let t := x.k.pail i
    if (x.s.pailCfg x.c i).consumer ≠ 0 then .error (.of (spadStop Code.pailRole p 0))
    else if t.readable x.epoch = false then .error (.wait i)
    else if t.err then .error (.kept t.kept)
    else (x.power p).map (fun _ => some i)
  | none => (x.power p).map (fun _ => none)

/-- The checks of a write at a plain offset, and the pail that it lies in (R118, R186, R190). DEDUCED (log entry 32). -/
def DpCtx.checkWrite (x : DpCtx) (p : Nat) : Except DpErr (Option Nat) :=
  match x.s.pailAt x.c p with
  | some i =>
    if (x.s.pailCfg x.c i).producer ≠ 0 then .error (.of (spadStop Code.pailRole p 0))
    else if (x.k.pail i).writable x.epoch = false then .error (.wait i)
    else (x.power p).map (fun _ => some i)
  | none =>
    if x.epoch ≠ 0 then .error (.of (spadStop Code.specOutside p 0)) else (x.power p).map (fun _ => none)

/-- Read `n` bytes that lie in one 64 B word of a view. -/
def DpCtx.word (x : DpCtx) (diag : Bool) (w n : Nat) : Dp (List Byte) := do
  let p ← (x.plain diag w : Except DpErr Nat)
  if allListed x.overlay p n then return bytesGet 0 x.overlay p n
  let i ← (x.checkRead p : Except DpErr (Option Nat))
  if x.k.parityBad p n then throw (.of (spadStop Code.parity p 0))
  modify (fun l => match i with
    | some i => if l.contains i then l else l ++ [i]
    | none => l)
  return x.k.spadBytes p n

/-- Read `len` bytes from an offset of a view, at most `n` words of it. -/
def DpCtx.read (x : DpCtx) (diag : Bool) (w len : Nat) : Nat → Dp (List Byte)
  | 0 => pure []
  | n + 1 =>
    if len = 0 then pure []
    else do
      let k := min len (64 - w % 64)
      let a ← x.word diag w k
      let b ← x.read diag (w + k) (len - k) n
      return a ++ b

/-- An operand in a place that the data path cannot read (R528). -/
def place07of (dreg : Nat) : DpErr := .of (place07 dreg)

/-- Offset in the own Scratchpad of a byte of a descriptor. -/
def DpCtx.own (x : DpCtx) (dreg a : Nat) : Except DpErr Nat :=
  match spadPlace (localOf a) with
  | some (t, o) => if t = x.c then .ok o else .error (place07of dreg)
  | none => .error (place07of dreg)

/-- Read `n` bytes at address `a` of a descriptor. -/
def DpCtx.get (x : DpCtx) (d : Desc) (dreg a n : Nat) : Dp (List Byte) := do
  let o ← (x.own dreg a : Except DpErr Nat)
  x.read d.diag o n (n / 64 + 2)

/-- Read at a place that a header or list names, which must lie in the descriptor's region (R248). -/
def DpCtx.getIn (x : DpCtx) (d : Desc) (dreg base a n : Nat) : Dp (List Byte) :=
  if !d.staged && x.s.leavesRegion base a n then throw (place07of dreg) else x.get d dreg a n

/-- A read's stop at slip `row` for array `a` of tile `l`: the tile becomes INVALID (R29, R176). -/
def Dp.forTile {α : Type} (l a : Nat) (r : Dp α) : Dp α := fun st =>
  match r st with
  | .error (.stop e inv) => .error (.stop { e with tile := some l, array := a } (l :: inv))
  | z => z

/-! Writes. -/

/-- Put bytes at an offset of a view into a collection by plain offset, at most `n` words of it. -/
def DpCtx.place (x : DpCtx) (diag : Bool) (out : Tab Byte) (w : Nat) (bs : List Byte) : Nat → Except DpErr (Tab Byte)
  | 0 => .ok out
  | n + 1 =>
    if bs.isEmpty then .ok out
    else
      let k := 64 - w % 64
      match x.plain diag w with
      | .ok p => x.place diag (putBytes out p (bs.take k)) (w + k) (bs.drop k) n
      | .error e => .error e

/-- Put bytes at address `a` of a descriptor. -/
def DpCtx.put (x : DpCtx) (d : Desc) (dreg a : Nat) (bs : List Byte) (out : Tab Byte) : Except DpErr (Tab Byte) :=
  match x.own dreg a with
  | .ok o => x.place d.diag out o bs (bs.length / 64 + 2)
  | .error e => .error e

/-- Numbers of the 64 B words that a collection touches, rising. -/
def outWords : Tab Byte → List Nat
  | [] => []
  | (a, _) :: r => match outWords r with
    | w :: t => if a / 64 = w then w :: t else a / 64 :: w :: t
    | [] => [a / 64]

/-- The checks of every word of a collection, and the pails written (R118). -/
def DpCtx.checkOut (x : DpCtx) (out : Tab Byte) : Except DpErr (List Nat) :=
  (outWords out).foldl (fun (r : Except DpErr (List Nat)) w =>
    match r with
    | .ok l => match x.checkWrite (64 * w) with
      | .ok (some i) => .ok (if l.contains i then l else l ++ [i])
      | .ok none => .ok l
      | .error e => .error e
    | .error e => .error e) (.ok [])

/-- The data path's first reads of pails (R185). -/
def Core.readPails (k : Core) (l : List Nat) : Core := l.foldl (fun k i => k.setPail i (k.pail i).firstRead) k

/-- The data path's first writes of pails, of epoch `e` (R185). -/
def Core.writePails (k : Core) (e : Nat) (l : List Nat) : Core := l.foldl (fun k i => k.setPail i ((k.pail i).firstWrite e)) k

/-- Write a checked collection. -/
def Core.writeOut (k : Core) (e : Nat) (out : Tab Byte) (pails : List Nat) : Core :=
  ((outRuns out).foldl (fun (k : Core) r => k.spadPut r.1 r.2) k).writePails e pails

/-! Reading tiles (R32, R33, R125, R128, R131, R132). -/

/-- A stop of the Strainer. -/
def strainStop (code : Nat) : DpErr := .of (Stop.of code)

/-- A BCL list: its entries up to the first that breaks R133, and the fault of that one. -/
structure BclList where
  entries : List BclEntry
  bad : Option Nat
  deriving DecidableEq, Repr, Inhabited

/-- A list of entries as far as R133 holds. -/
def Desc.parseList (d : Desc) (last : Option (Nat × Nat)) : List BclEntry → BclList
  | [] => default
  | e :: r =>
    match d.listFault last [e] with
    | some c => ⟨[], some c⟩
    | none => let l := d.parseList (some (e.nb, e.kb)) r; ⟨e :: l.entries, l.bad⟩

/-- A BCL list, from entry `i` on: strictly ascending, inside the global shape (R133). -/
def DpCtx.entries (x : DpCtx) (d : Desc) (dreg : Nat) (last : Option (Nat × Nat)) (i : Nat) : Nat → Dp BclList
  | 0 => pure default
  | n + 1 => do
    let bs ← x.getIn d dreg d.listAddr (d.listAddr + 8 + 8 * i) 8
    let e := BclEntry.of (leNat bs)
    match d.listFault last [e] with
    | some c => return ⟨[], some c⟩
    | none =>
      let r ← x.entries d dreg (some (e.nb, e.kb)) (i + 1) n
      return ⟨e :: r.entries, r.bad⟩

/-- A whole BCL list. -/
def DpCtx.list (x : DpCtx) (d : Desc) (dreg : Nat) : Dp BclList := do
  let h ← x.getIn d dreg d.listAddr d.listAddr 8
  x.entries d dreg none 0 (bits (leNat h) 0 32)

/-- The slot of tile (nb, kb) in a BCL list. -/
def BclList.slot (l : BclList) (d : Desc) (nb kb : Nat) : Option Nat :=
  (l.entries.find? (fun e => e.names d nb kb)).map (·.slot)

/-- The fault of the entry that a walk of the list to tile (nb, kb) consumes, if it breaks R133: no entry before it is, or
comes after, the tile's. DEDUCED (log entry 118). -/
def BclList.fault (l : BclList) (d : Desc) (nb kb : Nat) : Option Nat :=
  let n := nb + d.glob0 1 / d.tileRows
  let k := kb + d.glob0 0 / 64
  if l.entries.any (fun e => decide (n < e.nb) || (e.nb == n && decide (k ≤ e.kb))) then none else l.bad

/-- The slot of tile (nb, kb), as the slip that consumes its entry finds it (R133). -/
def BclList.consume (l : BclList) (d : Desc) (nb kb : Nat) : Dp (Option Nat) :=
  match l.fault d nb kb with
  | some c => throw (strainStop c)
  | none => pure (l.slot d nb kb)

/-- The rows of a BITMAP tile, with the checks of R127. -/
def DpCtx.bitmapTile (x : DpCtx) (d : Desc) (dreg nb kb ol : Nat) : Dp (List TileRow) := do
  let hb ← x.get d dreg (d.headAddr nb kb ol) 8
  let h := TileHead.of (leNat hb)
  if h.tag ≠ d.tileNum nb kb 0 % 64 then throw (strainStop Code.headerSkew)
  if h.compressed then do
    let ms ← x.getIn d dreg d.addr (d.addr + h.off) (8 * d.tileRows)
    if h.size ≠ compressedBytes d.tileRows d.planes (heldCount (bitmapMasks ms d.tileRows)) then
      throw (strainStop Code.tileSize)
    let bs ← x.getIn d dreg d.addr (d.addr + h.off) h.size
    return compressedRows bs d.tileRows d.viewPlanes
  else do
    if h.size ≠ d.denseTile then throw (strainStop Code.tileSize)
    let bs ← x.getIn d dreg d.addr (d.addr + h.off) h.size
    return denseRows bs d.tileRows d.viewPlanes

/-- Whether an N:M row holds a reserved code (R129). -/
def Desc.nmBad (d : Desc) (field : Nat) : Bool := (List.range d.nmGroups).any (fun j => (d.nmGroup field j).isNone)

/-- Columns of an M × M block held by N rows each (R130). -/
def Desc.columnsOk (d : Desc) (rows : List TileRow) : Bool :=
  let m := 64 / d.nmGroups
  let n := if d.sparse = 2 then 1 else 2
  (List.range (d.tileRows / m)).all (fun b =>
    (List.range 64).all (fun e => (((rows.drop (m * b)).take m).filter (fun r => bitOf r.held e)).length == n))

/-- Read the rows of tile (nb, kb) at the planes of the view; a tile that a list does not name is wholly unheld. -/
def DpCtx.tile (x : DpCtx) (d : Desc) (dreg : Nat) (bl : BclList) (nb kb ol : Nat) : Dp (List TileRow) :=
  if d.bitmap then x.bitmapTile d dreg nb kb ol
  else if d.bcl then do
    match ← bl.consume d nb kb with
    | some s => do
      let bs ← x.getIn d dreg d.addr (d.slotAddr s) d.denseTile
      return denseRows bs d.tileRows d.viewPlanes
    | none => pure (List.replicate d.tileRows ⟨List.replicate 64 0, 0, 0⟩)
  else do
    let bs ← x.get d dreg (d.tileAddr nb kb ol) (d.tileBytes d.viewPlanes)
    if d.nm then do
      let rows := (List.range 64).map (fun i => d.nmRow bs i d.viewPlanes)
      if rows.any (fun r => d.nmBad r.idx) then throw (strainStop Code.metaReserved)
      if d.across && d.transposable && !d.columnsOk rows then throw (strainStop Code.notTransposable)
      return rows
    else return denseRows bs d.tileRows d.viewPlanes

/-- Read the whey record at an address. -/
def DpCtx.whey (x : DpCtx) (d : Desc) (dreg a : Nat) : Dp Whey := do
  let bs ← x.get d dreg a 8
  return Whey.ofNat (leNat bs)

end Sys2Proof.Machine
end

