-- ==== Sys2Proof/Machine/Slips.lean ====
section
/-! DEFINITION. Slip templates: their checks and their expansion into the slips of an operation
(09_programming_model.md R220, R221, R224). -/

namespace Sys2Proof.Machine

/-- A slip row (R220). -/
structure SlipRow where
  row : Nat
  kind : Nat
  ends : Bool
  pail : Nat
  last : Bool
  rowOff : Nat
  rows : Nat
  planeW : Nat
  planeA : Nat
  arrays : Nat
  tile : Nat
  delay : Nat
  times : Nat
  loopTo : Nat
  countSrc : Nat
  rsv : Nat
  deriving DecidableEq, Repr, Inhabited

/-- Row `r` of the slip table. -/
def Core.slipAt (k : Core) (r : Nat) : SlipRow :=
  let v := k.slipRow r
  { row := r
    kind := bits v 0 3
    ends := bitOf v 3
    pail := bits v 4 6
    last := bitOf v 10
    rowOff := bits v 11 6
    rows := bits v 17 6 + 1
    planeW := bits v 23 4
    planeA := bits v 27 4
    arrays := bits v 31 4
    tile := bits v 35 3
    delay := bits v 38 16
    times := bits v 54 16
    loopTo := bits v 70 12
    countSrc := bits v 82 3
    rsv := v / 2 ^ 85 }

/-- What breaks a row of a template that begins at row `first` (R224). -/
def SlipRow.bad (x : SlipRow) (first : Nat) : Bool :=
  x.kind == 7 || decide (4 < x.countSrc) || x.rsv != 0 ||
  (x.kind == 6 && (decide (x.loopTo < first) || decide (x.row < x.loopTo) || x.delay != 0))

/-- A stop of the Sequencer at a template row. -/
def slipStop (code row : Nat) : Stop := { Stop.of code with slip := some row }

/-- The faults of the template that begins at row `r` (R224, R290). -/
def Core.templateFault (k : Core) (r : Nat) : Option Stop :=
  let t := (k.template r 4096).map k.slipAt
  match t.getLast? with
  | none => some (slipStop Code.slipRange r)
  | some l =>
    if l.ends = false then some (slipStop Code.slipRange r)
    else (t.find? (·.bad r)).map (fun x => slipStop Code.slipReserved x.row)

/-- The faults of an operation's templates. -/
def Core.partsFault (k : Core) (three : Bool) (r : Nat) : Option Stop :=
  if three && (k.template r 4096).all (fun i => k.rowKind i != 4) then
    let r1 := k.afterTemplate r
    ((k.templateFault r).or (k.templateFault r1)).or (k.templateFault (k.afterTemplate r1))
  else k.templateFault r

/-- The counts that a LOOP row may name for an operation (R220): chunks, row blocks, product groups, plane pairs; and the
planes of a product, first to last. -/
structure SlipCounts where
  chunks : Nat
  blocks : Nat
  groups : Nat
  pairs : Nat
  dw : Nat
  da : Nat
  deriving DecidableEq, Repr, Inhabited

/-- Times that the body of a LOOP row runs. -/
def SlipCounts.of (n : SlipCounts) (x : SlipRow) : Nat :=
  match x.countSrc with
  | 0 => n.chunks
  | 1 => n.blocks
  | 2 => n.groups
  | 3 => n.pairs
  | _ => x.times

/-- A slip of a row. -/
def SlipRow.slip (x : SlipRow) : Slip :=
  ⟨x.row, x.kind, x.pail, x.last, x.rowOff, x.rows, x.planeW, x.planeA, x.arrays, x.tile⟩

/-- The slips of a row that is no LOOP (R221). DESIGN CHOICE (log entry 143). -/
def SlipCounts.slips (n : SlipCounts) (x : SlipRow) : List Slip :=
  if x.kind = 2 ∧ x.countSrc = 3 then
    (List.range (x.planeW + 1 - n.dw)).flatMap (fun i => (List.range (x.planeA + 1 - n.da)).map (fun j =>
      { x.slip with planeW := x.planeW - i, planeA := x.planeA - j }))
  else List.replicate (1 + x.times) x.slip

/-- A list repeated `n` times. -/
def repeatList {α : Type} (l : List α) : Nat → List α
  | 0 => []
  | n + 1 => l ++ repeatList l n

/-- The slips of the rows numbered [a, b) of a list, walked from `a`; `first` is the table row of its first (R221). -/
def expandRows (n : SlipCounts) (t : List SlipRow) (first : Nat) : Nat → Nat → Nat → List Slip
  | 0, _, _ => []
  | fuel + 1, a, b =>
    if b ≤ a then []
    else match t[b - 1]? with
      | none => []
      | some x =>
        if x.kind = 6 then
          let to_ := x.loopTo - first
          let body := expandRows n t first fuel to_ (b - 1)
          if a ≤ to_ then expandRows n t first fuel a to_ ++ repeatList body (n.of x)
          else expandRows n t first fuel a (b - 1) ++ repeatList body (n.of x - 1)
        else expandRows n t first fuel a (b - 1) ++ n.slips x

/-- The slips of a part's rows. -/
def Core.expand (k : Core) (n : SlipCounts) (rows : List Nat) : List Slip :=
  let t := rows.map k.slipAt
  expandRows n t (rows.headD 0) (t.length + 1) 0 t.length

end Sys2Proof.Machine
end

