-- ==== Sys2Proof/Machine/Product.lean ====
section
/-! DEFINITION. Products: operands, group terms, sparse operands, the counts that planning fixes, and the Sampled checker
(03_the_tally.md R48–R64; 06_sparse_operands_and_the_strainer.md R121–R145; 07_skim_classes.md R156–R166). -/

namespace Sys2Proof.Machine

/-! Operands. -/

/-- An operand of a product: its copy and run-time shape, the linear outer index, the first local row, where its rows were gathered
by block, the blocks (R150), and whether a store before the product makes it, so that planning finds none of its tiles (R292). -/
structure Operand where
  copy : DCopy
  d : Desc
  sh : Shape
  ol : Nat
  row0 : Nat
  packed : Option (List Nat)
  fresh : Bool
  deriving DecidableEq, Repr

/-- Dimension of the reduction (R269). -/
def Operand.redDim (o : Operand) : Nat := o.d.redDim

/-- Dimension of the rows: channels or tokens. -/
def Operand.rowDim (o : Operand) : Nat := if o.d.across then 0 else 1

/-- Valid reduction extent. -/
def Operand.red (o : Operand) : Nat := o.sh.at o.redDim

/-- Valid row extent. -/
def Operand.rows (o : Operand) : Nat := o.sh.at o.rowDim

/-- Rows of a block that one array takes. -/
def Operand.unit (o : Operand) : Nat := if o.d.across then 64 else o.d.tileRows

/-- Whether the outer position is valid. -/
def Operand.outerOk (o : Operand) : Bool :=
  let p := o.d.outerPos o.ol
  (List.range 4).all (fun k => decide (posAt p k < o.sh.at (k + 2)))

/-- Planes dropped by the view (R37). -/
def Operand.drop (o : Operand) : Nat := o.d.fmt - o.d.view

/-- Fraction width of the zero point in use (R57). -/
def Operand.fx (o : Operand) : Nat :=
  if o.d.fmt = 0 then 1 else if fmtWide o.d.fmt then (if o.d.view < o.d.fmt then 1 else 0) else 4

/-- The zero point in use, in units of 2^−fx (R37, R57). -/
def Operand.zeroOf (o : Operand) (z : Half) : Int :=
  if o.d.fmt = 0 then 1
  else if fmtWide o.d.fmt then
    if o.d.view < o.d.fmt then 2 * (z.toNat : Int) - ((2 ^ o.drop - 1 : Nat) : Int) else (z.toNat : Int)
  else (z.toNat : Int) - 8 * ((2 ^ o.drop - 1 : Nat) : Int)

/-- A row over part of the reduction: the codes' contributions 2^d × c′, none for an element that is not held, and the whey
record of the group. -/
structure RowData where
  vals : List (Option Nat)
  whey : Option Whey
  deriving DecidableEq, Repr, Inhabited

/-- Columns of rows: element `e` of each. -/
def columnVals (rows : List TileRow) (shift e : Nat) : List (Option Nat) :=
  rows.map (fun r => if bitOf r.held e then some (r.codes.getD e 0 * 2 ^ shift) else none)

/-- Elements of a row. -/
def rowVals (shift : Nat) (r : TileRow) : List (Option Nat) :=
  r.codes.mapIdx (fun e c => if bitOf r.held e then some (c * 2 ^ shift) else none)

/-- The rows of block `blk` over chunk `kc` of the reduction, 64 elements each (R269). -/
def Operand.chunk (o : Operand) (x : DpCtx) (bl : BclList) (blk kc : Nat) : Dp (List (List (Option Nat))) :=
  if o.d.across then do
    let t ← x.tile o.d o.copy.dreg bl kc blk o.ol
    return (List.range 64).map (columnVals t o.drop)
  else do
    let t ← x.tile o.d o.copy.dreg bl blk kc o.ol
    return t.map (rowVals o.drop)

/-- Whether a chunk of a row block is listed (R138); a chunk whose entry breaks R133 issues, and its slip stops. DEDUCED (log entry 29). -/
def Operand.lists (o : Operand) (bl : BclList) (blk kc : Nat) : Bool :=
  let nb := if o.d.across then kc else blk
  let kb := if o.d.across then blk else kc
  if o.d.bcl && !o.fresh then (bl.slot o.d nb kb).isSome || (bl.fault o.d nb kb).isSome else true

/-- Join rows of two chunks. -/
def joinRows (a b : List (List (Option Nat))) : List (List (Option Nat)) := a.zipWith (· ++ ·) b

/-- The rows of block `blk` over elements [lo, hi), the chunks not issued left unheld. -/
def Operand.span (o : Operand) (x : DpCtx) (bl : BclList) (blk lo hi : Nat) (issued : Nat → Bool) : Nat → Nat → Dp (List (List (Option Nat)))
  | 0, _ => pure (List.replicate o.unit [])
  | n + 1, kc =>
    if hi ≤ 64 * kc then pure (List.replicate o.unit [])
    else do
      let a := max lo (64 * kc)
      let b := min hi (64 * kc + 64)
      let rows ← if issued kc then
          (do let l ← o.chunk x bl blk kc; return l.map (fun r => (r.drop (a - 64 * kc)).take (b - a)))
        else pure (List.replicate o.unit (List.replicate (b - a) none))
      let rest ← o.span x bl blk lo hi issued n (kc + 1)
      return joinRows rows rest

/-- Address of the record of row `r` at local reduction element `k` (R132, R241); across, the rows run along dimension 0
(R269). -/
def Operand.wheyAt (o : Operand) (bl : BclList) (r k : Nat) : Option Nat :=
  if o.d.bcl then
    (if o.d.across then bl.slot o.d (k / 64) (r / 64) else bl.slot o.d (r / o.d.tileRows) (k / 64)).map (fun s =>
      o.d.slotWhey s (r % o.unit) (k % 64 / o.d.g))
  else some (o.d.wheyAddr r (o.d.group k) o.ol)

/-- The tag that a record should carry (R28, R150). DEDUCED (log entry 28). -/
def Operand.tag (o : Operand) (r k : Nat) : Nat :=
  match o.packed with
  | some l => wheyTag (4 * l.getD (r / 4) 0 + r % 4) (groupsPerRow (o.d.ext 0) o.d.g) (o.d.red0 / o.d.g + o.d.group k)
  | none => o.d.tagOf r (o.d.group k)

/-- Read and check the record of row `r` at element `k` (R29). -/
def Operand.record (o : Operand) (x : DpCtx) (bl : BclList) (r k : Nat) : Dp (Option Whey) :=
  match o.wheyAt bl r k with
  | none => pure none
  | some a => do
    let w ← x.whey o.d o.copy.dreg a
    if w.tag ≠ o.tag r k ∨ w.planesM1 ≠ o.d.fmt then throw (.of (Stop.of Code.scaleSkew))
    if u16Exp w.scale = 255 then throw (.of (Stop.of Code.wheyReserved))
    return some w

/-- The in-bounds rows of block `blk` over the product group [lo, hi). -/
def Operand.block (o : Operand) (x : DpCtx) (bl : BclList) (blk lo hi : Nat) (issued : Nat → Bool) : Dp (List RowData) := do
  let vs ← o.span x bl blk lo hi issued 3 (lo / 64)
  (vs.take (o.rows - o.unit * blk)).zipIdx.mapM (fun v => do
    let w ← o.record x bl (o.unit * blk + v.2) lo
    return ⟨v.1, w⟩)

/-- Read what a slip is the first to consume: the tiles of blocks of rows in chunks, and the records of rows at elements (R29,
R68, R127). -/
def Operand.consume (o : Operand) (x : DpCtx) (bl : BclList) (rows kcs los : List Nat) : Dp Unit := do
  let _ ← ((rows.map (· / o.unit)).dedup.flatMap (fun b => kcs.map (fun kc => (b, kc)))).mapM (fun e => o.chunk x bl e.1 e.2)
  let _ ← (los.flatMap (fun lo => rows.map (fun r => (r, lo)))).mapM (fun e => o.record x bl e.1 e.2)

/-- The in-bounds rows of block `blk`. -/
def Operand.blockRows (o : Operand) (blk : Nat) : List Nat :=
  ((List.range o.unit).map (· + o.unit * blk)).filter (fun r => decide (r < o.rows))

/-- One row over a product group, for PAIRS (R144). -/
def Operand.row (o : Operand) (x : DpCtx) (r lo hi : Nat) : Dp RowData := do
  let vs ← o.span x default (r / o.unit) lo hi (fun _ => true) 3 (lo / 64)
  let w ← o.record x default r lo
  return ⟨vs.getD (r % o.unit) [], w⟩

/-! Products. -/

/-- A product: weight, activation, first ledger tile, array layout, whether the activation leads, the reduction range
[k0, stop), and the (array, chunk) pairs that an intersection of lists has dropped already (R138, R260). -/
structure Product where
  w : Operand
  a : Operand
  tile : Nat
  layout : Nat
  actLead : Bool
  k0 : Nat
  stop : Nat
  skips : List (Nat × Nat)
  deriving DecidableEq, Repr

/-- G_t (R54). -/
def Product.gt (p : Product) : Nat := min p.w.d.g p.a.d.g

/-- Elements of the first product group that lie before the range: product groups start at multiples of G_t of the reduction index
in the global shape, which the weight's shard gives (R54). -/
def Product.lead (p : Product) : Nat := (p.w.d.red0 + p.k0) % p.gt

/-- Product groups. -/
def Product.groups (p : Product) : Nat := if p.stop ≤ p.k0 then 0 else ceilDiv (p.lead + (p.stop - p.k0)) p.gt

/-- Range of product group `i`. -/
def Product.range (p : Product) (i : Nat) : Nat × Nat :=
  (max p.k0 (p.k0 + i * p.gt - p.lead), min (p.k0 + (i + 1) * p.gt - p.lead) p.stop)

/-- Chunks of the reduction range. -/
def Product.chunks (p : Product) : List Nat :=
  if p.stop ≤ p.k0 then [] else (List.range (ceilDiv p.stop 64 - p.k0 / 64)).map (· + p.k0 / 64)

/-- Channel offset of array `a` (R61). -/
def arrayChan (layout a : Nat) : Nat := if layout = 0 then 64 * a else if layout = 1 then 64 * (a % 2) else 0

/-- Token offset of array `a` (R61). -/
def arrayTok (layout a : Nat) : Nat := if layout = 0 then 0 else if layout = 1 then 16 * (a / 2) else 16 * a

/-- Weight block of array `a`. -/
def Product.wBlk (p : Product) (a : Nat) : Nat := (p.w.row0 + arrayChan p.layout a) / 64

/-- Activation block of array `a`. -/
def Product.aBlk (p : Product) (a : Nat) : Nat := (p.a.row0 + arrayTok p.layout a) / 16

/-- Arrays whose block does not lie wholly outside the bounds (R62). -/
def Product.active (p : Product) : List Nat :=
  (List.range 4).filter (fun a => decide (64 * p.wBlk a < p.w.rows) && decide (16 * p.aBlk a < p.a.rows))

/-- No valid output position (R254). -/
def Product.empty (p : Product) : Bool :=
  decide (p.w.rows ≤ p.w.row0) || decide (p.a.rows ≤ p.a.row0) || !p.w.outerOk || !p.a.outerOk

/-- Plane pairs of a chunk (R64). -/
def Product.pairs (p : Product) : Nat := p.w.d.viewPlanes * p.a.d.viewPlanes

/-- Whether product group `i` reaches into chunk `kc`. -/
def Product.reaches (p : Product) (i kc : Nat) : Bool := decide (64 * kc < (p.range i).2) && decide ((p.range i).1 < 64 * kc + 64)

/-- Both lists of a product. -/
structure Lists where
  w : BclList
  a : BclList

/-- Read the lists of BCL operands (R138). -/
def Product.lists (p : Product) (x : DpCtx) : Dp Lists := do
  let w ← if p.w.d.bcl then x.list p.w.d p.w.copy.dreg else pure default
  let a ← if p.a.d.bcl && !p.a.fresh then x.list p.a.d p.a.copy.dreg else pure default
  return ⟨w, a⟩

/-- Whether array `a` issues chunk `kc` (R138). DEDUCED (log entry 29). -/
def Product.issues (p : Product) (l : Lists) (a kc : Nat) : Bool :=
  p.w.lists l.w (p.wBlk a) kc && p.a.lists l.a (p.aBlk a) kc && !p.skips.contains (a, kc)

/-! The group term (R55–R58). -/

/-- Popsum, code sums and count of a lane. -/
structure Sums where
  p : Nat
  sw : Nat
  sa : Nat
  g : Nat
  deriving DecidableEq, Repr, Inhabited

/-- The sums over the elements that both rows hold (R55, R122). -/
def laneSums (w a : List (Option Nat)) : Sums :=
  (w.zip a).foldl (fun (s : Sums) e => match e with
    | (some x, some y) => ⟨s.p + x * y, s.sw + x, s.sa + y, s.g + 1⟩
    | _ => s) ⟨0, 0, 0, 0⟩

/-- The group term of a lane with popsum `pop`, or none (R56–R58). -/
def Product.term (p : Product) (w a : RowData) (m : Sums) (pop : Nat) : Option (Int × Int) :=
  match w.whey, a.whey with
  | some rw, some ra =>
    let usable := p.gt == p.w.d.g && m.g == p.gt && p.w.d.view == p.w.d.fmt
    let sw := if usable then rw.codeSum else m.sw
    let zw := p.w.zeroOf rw.zero
    let za := p.a.zeroOf ra.zero
    let f := p.w.fx + p.a.fx
    let t : Int := (pop : Int) * 2 ^ f - za * 2 ^ p.w.fx * (sw : Int) - zw * 2 ^ p.a.fx * (m.sa : Int) + (m.g : Int) * zw * za
    if m.g = 0 ∨ u16Exp rw.scale = 0 ∨ u16Exp ra.scale = 0 ∨ t = 0 then none
    else
      let ew := u16Exp rw.scale + if p.w.d.fmt = 0 then 1 else 0
      let ea := u16Exp ra.scale + if p.a.d.fmt = 0 then 1 else 0
      some (t * (256 + u16Frac rw.scale : Nat) * (256 + u16Frac ra.scale : Nat), (ew : Int) + (ea : Int) - 254 - 16 - (f : Int))
  | _, _ => none

/-! The Sampled checker (R163–R166). -/

/-- One check of a quad's window, and what a window's end does (R165, R166). DEDUCED (log entry 66). -/
def State.skimCheck (s : State) (c : Nat) (miss : Bool) : State :=
  let q := c / 4
  let s := (s.bump64 (Reg.PWR_SKIM_CHECKS_LO q) 1).bump64 (Reg.PWR_SKIM_MISMATCH_LO q) (b2n miss)
  let checks := s.field (Reg.PWR_SKIM_WINDOW q) 0 11 + 1
  let bad := s.field (Reg.PWR_SKIM_WINDOW q) 11 11 + b2n miss
  if bits s.sched.cls.toNat 11 10 < bad then
    let s := s.setRegN (Reg.PWR_SKIM_WINDOW q) 0
    if tabGet 0 s.skimOff q = 0 then
      ((s.bump32 (Reg.PWR_SKIM_SATURATED q) 1).report (dbEvent 1 0 0x25 q 0 0 [])).1
    else { s.bump32 (Reg.PWR_SKIM_RAISES q) 1 with skimOff := tabSet 0 s.skimOff q (tabGet 0 s.skimOff q - 1) }
  else if checks = 1024 then s.setRegN (Reg.PWR_SKIM_WINDOW q) 0
  else s.setRegN (Reg.PWR_SKIM_WINDOW q) (checks + bad * 2 ^ 11)

/-- The draw of array `a`'s next product group: the state, with the group counted, and the lane to check (R163, R164, R330).
`drawn` is one above the last index drawn by the operation. DEDUCED (log entry 27). -/
def State.sampleDraw (s : State) (c a drawn : Nat) : State × Nat × Option Nat :=
  let j := tabGet 0 (s.core c).sampleGroups a
  let s := s.modCore c (fun k => { k with sampleGroups := tabSet 0 k.sampleGroups a (j + 1) })
  if (s.core c).classHead.1 = 2 then
    let i := 4 * j + a
    let s := if drawn = i ∧ i % 5 ≠ 0 then s else s.countBlocks c 1
    (s, i + 1, if draw s.sched.seed c 0xFFFF false i < 2 ^ (24 - bits s.sched.cls.toNat 6 5) then some (j % 1024) else none)
  else (s, drawn, none)

/-! Lanes. -/

/-- A lane's work in one product group: its number in the array, its ledger word, and its rows. -/
structure Lane where
  lane : Nat
  word : Nat
  w : RowData
  a : RowData
  deriving DecidableEq, Repr, Inhabited

/-- Terms that lanes emit: words with terms, and whether an in-bounds lane emits none. -/
structure Emitted where
  s : State
  terms : List (Nat × Int × Int)
  none_ : Bool

/-- One lane ends a product group (R58, R156, R157, R163). DESIGN CHOICE (log entry 10). DEDUCED (log entry 27). -/
def Product.lane (p : Product) (c : Nat) (check : Option Nat) (m : Emitted) (l : Lane) : Emitted :=
  let z := laneSums l.w.vals l.a.vals
  let k := (m.s.core c).classHead.2
  let (s, pop) := if k = 0 then (m.s, z.p)
    else
      let (s, n) := m.s.tick
      (s, z.p - z.p % 2 ^ k + Config.freeSkim n % 2 ^ k)
  let (s, pop) := if check = some l.lane then (s.skimCheck c (pop != z.p), z.p) else (s, pop)
  match p.term l.w l.a z pop with
  | some t => { m with s := s, terms := m.terms ++ [(l.word, t)] }
  | none => { m with s := s, none_ := true }

/-- Give tile `l` to a term of an operation: a CLEAR tile adopts its precision (R81, R151). DEDUCED (log entry 43). -/
def Tile.adopt (t : Tile) (p : Prec) (e : Nat) (rows : List Nat) : Tile :=
  let t := if t.st = .clear then (if e = 0 then t.openWith p else t.shadowWith p e) else t
  if rows.isEmpty then t else { t with rows := rows }

/-- Add terms to a tile of core `c` (R74, R93). DEDUCED (log entry 43). -/
def State.addTerms (s : State) (c l : Nat) (p : Prec) (e : Nat) (rows : List Nat) (terms : List (Nat × Int × Int)) : State :=
  if terms.isEmpty then s
  else
    let t := ((s.core c).tile l).adopt p e rows
    let (t, n) := terms.foldl (fun (a : Tile × AddCount) x =>
      let (t, n) := a.1.addTerm x.1 x.2.1 x.2.2 true
      (t, a.2.add n)) (t, ⟨0, 0, 0⟩)
    ((s.setTile c l t).countAdds c n).bump64 (Reg.CORE_TALLY_TERMS_LO c) terms.length

/-- An array ends a product group with lanes given: terms into its tile, and the drawn index (R60, R163). -/
def Product.emit (p : Product) (s : State) (c a e : Nat) (prec : Prec) (rows : List Nat) (drawn : Nat) (lanes : List Lane) : State × Nat :=
  let (s, drawn, check) := s.sampleDraw c a drawn
  let m : Emitted := lanes.foldl (p.lane c check) ⟨s, [], false⟩
  let s := m.s.bump32 (Reg.CORE_TALLY_NO_TERM c) (b2n m.none_)
  (s.addTerms c (p.tile + a) prec e rows m.terms, drawn)

/-- An array's rows of one product group. -/
structure ArrayRows where
  a : Nat
  w : List RowData
  t : List RowData
  deriving Repr, Inhabited

/-- Whether array `a` issues any chunk of product group `i` (R138). -/
def Product.issuesGroup (p : Product) (l : Lists) (a i : Nat) : Bool := p.chunks.any (fun kc => p.issues l a kc && p.reaches i kc)

/-- Read what an array needs for product group `i`; an array that issues none of its chunks reads nothing (R138). Where several
arrays share an operand that stops the core, only the tile of the first of them becomes INVALID (R29). DESIGN CHOICE (log entry 119). -/
def Product.readArray (p : Product) (x : DpCtx) (l : Lists) (i a : Nat) : Dp (Option ArrayRows) :=
  let (lo, hi) := p.range i
  let on := p.issues l a
  if p.issuesGroup l a i then
    Dp.forTile (p.tile + a) a (do
      let w ← p.w.block x l.w (p.wBlk a) lo hi on
      let t ← p.a.block x l.a (p.aBlk a) lo hi on
      return some ⟨a, w, t⟩)
  else pure none

/-- Global rows of an array's channels where the weight was gathered by block (R150). DEDUCED (log entry 28). -/
def Product.globalRows (p : Product) (a : Nat) : List Nat :=
  match p.w.packed with
  | some l => (List.range 64).map (fun n => 4 * l.getD ((64 * p.wBlk a + n) / 4) 0 + n % 4)
  | none => []

/-- The lanes of an array: lane 16n + t is word (n, t). DEDUCED (log entry 27). -/
def ArrayRows.lanes (r : ArrayRows) : List Lane :=
  r.w.zipIdx.flatMap (fun w => r.t.zipIdx.map (fun t => ⟨16 * w.2 + t.2, 16 * w.2 + t.2, w.1, t.1⟩))

/-- Read everything of product group `i`. -/
def Product.readGroup (p : Product) (x : DpCtx) (i : Nat) : Dp (List ArrayRows) := do
  let l ← p.lists x
  let rs ← p.active.mapM (p.readArray x l i)
  return rs.filterMap id

/-- What the slips of one chunk consume first on array `a`: its tiles in the chunk, and the records of the groups that begin
there (R29, R68). DEDUCED (log entry 118). DESIGN CHOICE (log entry 119). -/
def Product.consumeArray (p : Product) (x : DpCtx) (l : Lists) (u : ChunkUse) (a : Nat) : Dp Unit :=
  let kcs := u.raws.filter (p.issues l a)
  let los := (u.groups.filter (p.issuesGroup l a)).map (fun i => (p.range i).1)
  Dp.forTile (p.tile + a) a (do
    p.w.consume x l.w (p.w.blockRows (p.wBlk a)) kcs los
    p.a.consume x l.a (p.a.blockRows (p.aBlk a)) kcs los)

/-- What the slips of one chunk of a product consume first. -/
def Product.consume (p : Product) (x : DpCtx) (u : ChunkUse) : Dp Unit := do
  let l ← p.lists x
  let _ ← p.active.mapM (p.consumeArray x l u)

/-- Product group `i` ends on every array that issues it. DEDUCED (log entry 27). -/
def Product.endGroup (p : Product) (s : State) (c e : Nat) (prec : Prec) (drawn : Nat) (rs : List ArrayRows) : State × Nat :=
  rs.foldl (fun (z : State × Nat) r => p.emit z.1 c r.a e prec (p.globalRows r.a) z.2 r.lanes) (s, drawn)

/-! Compaction (R134–R139). -/

/-- Quarters of each lead row, in neighbourhoods of four rows, for one product group. -/
abbrev Quarters := List (List Nat)

/-- Sum of a list. -/
def sumOf (l : List Nat) : Nat := l.foldl (· + ·) 0

/-- half_fits (R137). -/
def halfFits (q : Quarters) : Bool := q.all (fun n => decide (sumOf n ≤ 8) && n.all (fun r => decide (r ≤ 3)))

/-- pair_fits (R137). -/
def pairFits (q r : Quarters) : Bool :=
  halfFits q && halfFits r && (q.flatten.zip r.flatten).all (fun e => !(e.1 == 3 && e.2 == 3))

/-- whole_fits (R137). -/
def wholeFits (k : Nat) (q : Quarters) : Bool :=
  q.all (fun n => decide (sumOf n ≤ 16 * k) && n.all (fun r => decide (r ≤ 5 * k)))

/-- Chunks of a group that fits no half: the least k. -/
def wholeChunks (q : Quarters) : Nat := ((List.range 64).map (· + 1)).find? (fun k => wholeFits k q) |>.getD 64

/-- Quarters borrowed where every row has `own` of its own (R136). -/
def borrowed (own : Nat) (q : Quarters) : Nat := sumOf (q.flatten.map (· - own))

/-- One product group alone: a half of a chunk, or whole chunks, the first of which consumes it and counts its borrowed quarters. -/
def placeAlone (g : Nat × Quarters) : List (List Nat × Nat) :=
  if halfFits g.2 then [([g.1], borrowed 2 g.2)]
  else ([g.1], borrowed (4 * wholeChunks g.2) g.2) :: List.replicate (wholeChunks g.2 - 1) ([], 0)

/-- The placement of numbered product groups: of each compacted chunk the groups that it is the first to consume, and its borrowed
quarters (R137). -/
def placement : List (Nat × Quarters) → List (List Nat × Nat)
  | [] => []
  | [g] => placeAlone g
  | g :: h :: r =>
    if pairFits g.2 h.2 then ([g.1, h.1], borrowed 2 g.2 + borrowed 2 h.2) :: placement r
    else placeAlone g ++ placement (h :: r)

/-- What planning fixes of a product (R64, R139, R145): what the slips of each chunk consume, in order of issue, and its
counts. -/
structure ProductPlan where
  uses : List ChunkUse
  skipped : Nat
  cycles : Nat
  deriving DecidableEq, Repr, Inhabited

/-- Chunks n_k. -/
def ProductPlan.chunks (z : ProductPlan) : Nat := z.uses.length

/-- The uses of raw chunks in order: each is the first to consume the groups of `gs` that reach into no chunk before it. -/
def Product.rawUses (p : Product) (gs : List Nat) : List Nat → List Nat → List ChunkUse
  | _, [] => []
  | seen, kc :: r =>
    ⟨[kc], gs.filter (fun i => p.reaches i kc && !seen.any (p.reaches i)), []⟩ :: p.rawUses gs (kc :: seen) r

/-- The uses of compacted chunks in order, with their counts: a compacted chunk, the raw chunks that no chunk before it took, and its
borrowed quarters (R136, R154). -/
def Product.packedUses (p : Product) (c : Nat) (live : List Nat) : List Nat → List (List Nat × Nat) → List ChunkUse
  | _, [] => []
  | seen, g :: r =>
    let raws := live.filter (fun kc => g.1.any (fun i => p.reaches i kc))
    ⟨raws, g.1, [(0, Reg.CORE_STRAIN_COMPACT_LO c, 1), (0, Reg.CORE_STRAIN_RAW_LO c, (raws.filter (fun kc => !seen.contains kc)).length),
      (1, Reg.CORE_STRAIN_STEALS c, g.2)]⟩ :: p.packedUses c live (raws ++ seen) r

/-- The plan of a product whose data a slip will refuse: that of dense data (log entry 37). -/
def Product.densePlan (p : Product) : ProductPlan :=
  ⟨p.rawUses (List.range p.groups) [] p.chunks, 0, p.chunks.length * p.pairs⟩

/-- The lead operand (R134). DEDUCED (log entry 26). -/
def Product.leadOp (p : Product) : Operand := if p.actLead then p.a else p.w

/-- Lead blocks of the active arrays. -/
def Product.leadBlocks (p : Product) : List Nat := (p.active.map (fun a => if p.actLead then p.aBlk a else p.wBlk a)).dedup

/-- Whether a product compacts (R134). -/
def Product.compacts (p : Product) : Bool :=
  !(p.w.d.dense && p.a.d.dense) && (p.leadOp.d.bitmap || p.leadOp.d.nm)

/-- Held counts of the lead rows of a block in group `i`, as quarters. -/
def Product.blockQuarters (p : Product) (x : DpCtx) (l : Lists) (i blk : Nat) : Dp (List Nat) := do
  let (lo, hi) := p.range i
  let on (kc : Nat) : Bool := p.active.any (fun a => p.issues l a kc)
  let vs ← p.leadOp.span x (if p.actLead then l.a else l.w) blk lo hi on 3 (lo / 64)
  return vs.zipIdx.map (fun v =>
    if p.leadOp.unit * blk + v.2 < p.leadOp.rows then ceilDiv (v.1.filter Option.isSome).length 16 else 0)

/-- Quarters of every lead row in group `i`. -/
def Product.quarters (p : Product) (x : DpCtx) (l : Lists) (i : Nat) : Dp Quarters := do
  let bs ← p.leadBlocks.mapM (p.blockQuarters x l i)
  return bs.flatMap (fun b => Machine.chunks 4 b.length b)

/-- Bytes of tile (blk, kc) of an operand that the wide port fetches, with its header (R64, R139). -/
def Operand.tileFetch (o : Operand) (x : DpCtx) (blk kc : Nat) : Dp Nat :=
  let nb := if o.d.across then kc else blk
  let kb := if o.d.across then blk else kc
  if o.d.bitmap && o.fresh then pure (o.d.denseTile / o.d.planes * o.d.viewPlanes + 8)
  else if o.d.bitmap then do
    let hb ← x.get o.d o.copy.dreg (o.d.headAddr nb kb o.ol) 8
    let h := TileHead.of (leNat hb)
    let base := if h.compressed then 8 * o.d.tileRows else 0
    return base + (h.size - base) / o.d.planes * o.d.viewPlanes + 8
  else if o.d.bcl then pure (o.d.denseTile / o.d.planes * o.d.viewPlanes)
  else pure (o.d.tileBytes o.d.viewPlanes)

/-- Bytes that the wide port fetches of one operand: tiles of issued chunks, whey of issued groups, list entries. -/
def Operand.fetch (o : Operand) (x : DpCtx) (bl : BclList) (blks : List Nat) (issued : Nat → Nat → Bool) (cs : List Nat)
    (lo hi : Nat) : Dp Nat := do
  let ts ← (blks.flatMap (fun b => (cs.filter (issued b)).map (fun kc => (b, kc)))).mapM (fun e => o.tileFetch x e.1 e.2)
  let gs := o.d.groupsOf lo hi
  let meets (g kc : Nat) : Bool := decide (64 * kc < (o.d.groupSpan g).2) && decide ((o.d.groupSpan g).1 < 64 * kc + 64)
  let whey := sumOf (blks.map (fun b =>
    min o.unit (o.rows - o.unit * b) * 8 *
      (gs.filter (fun g => cs.any (fun kc => issued b kc && meets g kc))).length))
  return sumOf ts + whey + (if o.d.bcl then 8 + 8 * bl.entries.length else 0)

/-- The schedule of a product (R64, R137–R139). -/
def Product.plan (p : Product) (x : DpCtx) : Dp ProductPlan := do
  let l ← p.lists x
  let cs := p.chunks
  let any (kc : Nat) : Bool := p.active.any (fun a => p.issues l a kc)
  let live := cs.filter any
  let gs := (List.range p.groups).filter (fun i => live.any (p.reaches i))
  let qs ← if p.compacts then gs.mapM (p.quarters x l) else pure []
  let uses := if p.compacts then p.packedUses x.c live [] (placement (gs.zip qs)) else p.rawUses gs [] live
  let nk := uses.length
  let wf ← p.w.fetch x l.w (p.active.map p.wBlk).dedup (fun b kc => p.active.any (fun a => p.wBlk a == b && p.issues l a kc)) cs p.k0 p.stop
  let af ← p.a.fetch x l.a (p.active.map p.aBlk).dedup (fun b kc => p.active.any (fun a => p.aBlk a == b && p.issues l a kc)) cs p.k0 p.stop
  let sparse := p.compacts || p.w.d.bcl || p.a.d.bcl
  let c := max (max (nk * p.pairs) (ceilDiv (wf + af) (64 * x.k.bm)))
    (max gs.length (if sparse then nk * (p.w.d.viewPlanes + p.a.d.viewPlanes) else 0))
  return { uses := uses
           skipped := sumOf (p.active.map (fun a => (cs.filter (fun kc => !p.issues l a kc)).length))
           cycles := c }

/-- The counts that a LOOP row may name (R220). -/
def Product.slipCounts (p : Product) (chunks : Nat) : SlipCounts :=
  ⟨chunks, (p.active.map p.wBlk).dedup.length, p.groups, p.pairs, p.w.drop, p.a.drop⟩

/-! Pair lists (R144, R145). -/

/-- A PAIRS record. -/
structure PairRec where
  q : Nat
  row : Nat
  token : Nat
  n : Nat
  t : Nat
  deriving DecidableEq, Repr, Inhabited

/-- Record `q` from its 64 bits. -/
def PairRec.of (q v : Nat) : PairRec := ⟨q, bits v 0 20, bits v 20 20, bits v 40 6, bits v 46 4⟩

/-- The array that a record goes to. -/
def PairRec.array (r : PairRec) : Nat := r.q / 1024 % 4

/-- Local row of a global row, where it is valid. -/
def Operand.localRow (o : Operand) (g : Nat) : Option Nat :=
  let g0 := o.d.glob0 o.rowDim
  if g0 ≤ g ∧ g - g0 < o.rows then some (g - g0) else none

/-- Read the records of a ROW P64 descriptor (R299). -/
def DpCtx.pairRecs (x : DpCtx) (d : Desc) (dreg : Nat) (q : Nat) : Nat → Dp (List PairRec)
  | 0 => pure []
  | n + 1 => do
    let bs ← x.get d dreg (d.elemAddr q 0 0) 8
    let r ← x.pairRecs d dreg (q + 1) n
    return PairRec.of q (leNat bs) :: r

/-- Read the rows of one record over group `i`; a record outside the bounds has none. -/
def Product.readPair (p : Product) (x : DpCtx) (i : Nat) (r : PairRec) : Dp (Option (Nat × Lane)) :=
  match p.w.localRow r.row, p.a.localRow r.token with
  | some wr, some ar =>
    let (lo, hi) := p.range i
    Dp.forTile (p.tile + r.array) r.array (do
      let w ← p.w.row x wr lo hi
      let a ← p.a.row x ar lo hi
      return some (r.array, ⟨r.q % 1024, 16 * r.n + r.t, w, a⟩))
  | _, _ => pure none

/-- Read the rows of every record over group `i`. -/
def Product.readPairs (p : Product) (x : DpCtx) (i : Nat) (rs : List PairRec) : Dp (List (Nat × Lane)) := do
  let l ← rs.mapM (p.readPair x i)
  return l.filterMap id

/-- What the slips of one chunk of a PAIRS consume first. -/
def Product.consumePair (p : Product) (x : DpCtx) (u : ChunkUse) (r : PairRec) : Dp Unit :=
  let los := u.groups.map (fun i => (p.range i).1)
  match p.w.localRow r.row, p.a.localRow r.token with
  | some wr, some ar => Dp.forTile (p.tile + r.array) r.array (do
      p.w.consume x default [wr] u.raws los
      p.a.consume x default [ar] u.raws los)
  | _, _ => pure ()

/-- Product group `i` of a PAIRS ends: each array scatters its lanes' terms. -/
def Product.endPairs (p : Product) (s : State) (c e : Nat) (prec : Prec) (drawn : Nat) (ls : List (Nat × Lane)) : State × Nat :=
  ((List.range 4).filter (fun a => ls.any (fun l => l.1 == a))).foldl (fun (z : State × Nat) a =>
    p.emit z.1 c a e prec [] z.2 ((ls.filter (fun l => l.1 == a)).map (·.2))) (s, drawn)

/-- Bank of a ledger word (R87). -/
def wordBank (n t : Nat) : Nat := (n + t) % 16

/-- One core cycle of the scatter port (R88): what waits, the queues' fills, and what issues. -/
structure Scatter where
  queues : List Nat
  waiting : List Nat
  issued : Nat
  top : Nat
  deriving DecidableEq, Repr, Inhabited

/-- Let one partial into its bank's queue if the cycle allows it; `free` counts the entries free at the start. -/
def Scatter.offer (free : List Nat) (z : Scatter × List Nat) (b : Nat) : Scatter × List Nat :=
  let s := z.1
  if s.issued < 16 ∧ z.2.count b < free.getD b 0 then
    ({ s with queues := s.queues.set b (s.queues.getD b 0 + 1), issued := s.issued + 1 }, b :: z.2)
  else ({ s with waiting := s.waiting ++ [b] }, z.2)

/-- A core cycle: what may issue, then each queue drains one (R88). -/
def Scatter.cycle (s : Scatter) : Scatter :=
  let free := s.queues.map (8 - ·)
  let z := s.waiting.foldl (Scatter.offer free) ({ s with waiting := [], issued := 0 }, [])
  { z.1 with top := z.1.queues.foldl max s.top, queues := z.1.queues.map (· - 1) }

/-- Core cycles until every array's burst has issued, at most `n`: the cycles, and the queues after them. -/
def scatterBurst (l : List Scatter) : Nat → Nat × List Scatter
  | 0 => (0, l)
  | n + 1 =>
    if l.all (fun s => s.waiting.isEmpty) then (0, l)
    else
      let z := scatterBurst (l.map Scatter.cycle) n
      (z.1 + 1, z.2)

/-- Idle cycles of bursts of up to 16 words an array, the arrays in step (R88): `n` bursts from burst `i` on; and the queues
after them. -/
def scatterIdle (bursts : List (List (List Nat))) (l : List Scatter) (i : Nat) : Nat → Nat × List Scatter
  | 0 => (0, l)
  | n + 1 =>
    let z := scatterBurst (l.zipWith (fun s b => { s with waiting := b.getD i [] }) bursts) 64
    let y := scatterIdle bursts z.2 (i + 1) n
    (y.1 + (z.1 - 1), y.2)

/-- The queues drain for `n` core cycles in which nothing issues. -/
def Scatter.drain (n : Nat) (s : Scatter) : Scatter := { s with queues := s.queues.map (· - n) }

/-- Idle cycles and the longest queue of each of `n` product groups, whose scatters follow each other with what the queues still
hold (R88, R145). A group's scatter takes its 64 core cycles and its idle ones, or the `span` of its plane pairs where that is
longer. DEDUCED (log entry 120). -/
def scatterGroups (bursts : List (List (List Nat))) (span : Nat) (l : List Scatter) : Nat → List (Nat × Nat)
  | 0 => []
  | n + 1 =>
    let b := (bursts.map List.length).foldl max 0
    let z := scatterIdle bursts l 0 b
    (z.1, (z.2.map (·.top)).foldl max 0) :: scatterGroups bursts span (z.2.map (Scatter.drain (max (64 + z.1) span - b - z.1))) n

/-- Idle cycles of each product group of a PAIRS and the longest queue so far. -/
def pairsIdle (rs : List PairRec) (groups span : Nat) : List (Nat × Nat) :=
  let bursts := (List.range 4).map (fun a =>
    let l := (rs.filter (fun r => r.array == a)).map (fun r => wordBank r.n r.t)
    chunks 16 l.length l)
  scatterGroups bursts span (List.replicate 4 ⟨List.replicate 16 0, [], 0, 0⟩) groups

/-- The cycles of a PAIRS (R145), and each group's idle cycles and longest queue. -/
def Product.pairsPlan (p : Product) (x : DpCtx) (rs : List PairRec) : Dp (Nat × List (Nat × Nat)) := do
  let cs := p.chunks
  let wr := rs.filterMap (fun r => p.w.localRow r.row)
  let ar := rs.filterMap (fun r => p.a.localRow r.token)
  let wf ← p.w.fetch x default (wr.map (· / p.w.unit)).dedup (fun _ _ => true) cs p.k0 p.stop
  let af ← p.a.fetch x default (ar.map (· / p.a.unit)).dedup (fun _ _ => true) cs p.k0 p.stop
  let l := pairsIdle rs p.groups (p.gt * p.pairs / 64)
  return (max (max (cs.length * p.pairs) (ceilDiv (wf + af) (64 * x.k.bm))) (p.groups * 64 + sumOf (l.map (·.1))), l)

end Sys2Proof.Machine
end

