-- ==== Sys2Proof/Machine/MintWord.lean ====
section
/-! DEFINITION. What a store word forbids, the extent of a store, and the checks that planning makes of it
(05_the_mint.md R95–R101, R114, R115; 11_ngaosh_instruction_reference.md R293, R296, R528). -/

namespace Sys2Proof.Machine

/-- Reserved values, and combinations that are reserved whatever tiles the store names (R95, R96). -/
def StoreWord.reserved (w : StoreWord) : Bool :=
  w.span == 3 || decide (5 < w.func) || w.fuseOp == 3 || decide (32 < w.topk) || decide (384 ≤ w.sideRow) || w.rsv != 0 ||
  (w.form == 0 && w.layout == 3) || (w.form != 0 && w.layout != 3) ||
  (w.form != 0 && (w.dynamic || w.retry || w.stochastic || w.compress)) ||
  (w.dynamic && w.retry) ||
  (w.fused && w.fuseSrc == 0 && w.span == 2) ||
  (w.span != 0 && w.arr == 3)

/-- Reserved words, and sets of tiles that no span has (R95, R96, R296). -/
def StoreWord.bad (w : StoreWord) (tile : Nat) : Bool :=
  w.reserved || (w.fused && w.fuseSrc == 0 && w.span == 1 && (w.fuseTile % 4 != 0 || w.fuseTile == tile)) ||
  tile % w.tiles != 0

/-- What R115 and R293 forbid of TMUL2's store word, with layout `l` and second quartet `second`. DESIGN CHOICE (log entry 147). -/
def StoreWord.badInner (w : StoreWord) (l second : Nat) : Bool :=
  w.form != 0 || w.layout != 0 || !w.release || w.topk != 0 || w.compress || w.rowstat || w.usesDf ||
  w.arr != l || (w.fused && w.fuseTile != second) || w.span != 1

/-- A descriptor as a store writes through it: a view applies to operands that are read alone, so the store writes the stored
format at its pitch (R35), and its groups run along dimension 0, for across gives roles to a weight that is read (R106, R244,
R269). DEDUCED (log entry 42). DESIGN CHOICE (log entry 124). -/
def Desc.stored (d : Desc) : Desc := { d with view := d.fmt, across := false }

/-- A store: its word, first tile, destination, fused operand, origin in the destination and in a fused tensor, what the
linear index of R42 starts from, the tables copied at pass, and further tiles that it releases (R293). -/
structure StoreOp where
  w : StoreWord
  tile : Nat
  dd : DCopy
  D : Desc
  sh : Shape
  df : DCopy
  n : Nat
  m : Nat
  o : Nat
  fn : Nat
  fm : Nat
  fo : Nat
  lin0 : Nat
  tables : Tab Word
  frees : List Nat
  deriving DecidableEq, Repr

/-- Source tiles. -/
def StoreOp.tiles (t : StoreOp) : List Nat := (List.range t.w.tiles).map (· + t.tile)

/-- Channels of a quartet (R61). -/
def quartChans (arr : Nat) : Nat := if arr = 0 then 256 else if arr = 1 then 128 else 64

/-- Tokens of a quartet (R61). -/
def quartToks (arr : Nat) : Nat := if arr = 0 then 16 else if arr = 1 then 32 else 64

/-- Whether tokens run along the element axis (R98). -/
def StoreOp.tokenElems (t : StoreOp) : Bool := t.w.layout == 1

/-- Channels that the store covers (R97). -/
def StoreOp.chans (t : StoreOp) : Nat :=
  if t.w.span = 0 then 64 else if t.w.span = 2 && !t.tokenElems then 2 * quartChans t.w.arr else quartChans t.w.arr

/-- Tokens that the store covers (R97). -/
def StoreOp.toks (t : StoreOp) : Nat :=
  if t.w.span = 0 then 16 else if t.w.span = 2 && t.tokenElems then 2 * quartToks t.w.arr else quartToks t.w.arr

/-- Index in the span of the tile that holds element (c, u), and its word (R61, R97). -/
def StoreOp.place (t : StoreOp) (c u : Nat) : Nat × Nat :=
  let w := 16 * (c % 64) + u % 16
  if t.w.span = 0 then (0, w)
  else
    let cc := c % quartChans t.w.arr
    let uu := u % quartToks t.w.arr
    let q := if t.w.arr = 0 then cc / 64 else if t.w.arr = 1 then cc / 64 + 2 * (uu / 16) else uu / 16
    (q + 4 * (c / quartChans t.w.arr + u / quartToks t.w.arr), w)

/-- Extent along the element axis. -/
def StoreOp.elems (t : StoreOp) : Nat := if t.tokenElems then t.toks else t.chans

/-- Extent along the row axis. -/
def StoreOp.rowsN (t : StoreOp) : Nat := if t.tokenElems then t.chans else t.toks

/-- First element position in the destination. DEDUCED (log entry 41). -/
def StoreOp.e0 (t : StoreOp) : Nat := if t.tokenElems then t.m else t.n

/-- First row position in the destination. DEDUCED (log entry 41). -/
def StoreOp.r0 (t : StoreOp) : Nat := if t.tokenElems then t.n else t.m

/-- Outer position is valid. -/
def StoreOp.outerOk (t : StoreOp) : Bool :=
  let p := t.D.outerPos t.o
  (List.range 4).all (fun k => decide (posAt p k < t.sh.at (k + 2)))

/-- No valid position in a row or outer dimension (R254). DEDUCED (log entry 23). -/
def StoreOp.empty (t : StoreOp) : Bool := decide (t.sh.at 1 ≤ t.r0) || !t.outerOk

/-- The fused descriptor: no weight is read through it, so its records are those of dimension 0 (R269). DEDUCED (log entry 42). -/
def StoreOp.F (t : StoreOp) : Desc := { Desc.of t.df.bits with across := false }

/-! Side outputs (R114). -/

/-- Bytes of the three side outputs: top-k records, row sums, range records. DEDUCED (log entry 21). -/
def StoreOp.sideSizes (t : StoreOp) : List Nat :=
  [t.w.topk * 8 * t.toks, if t.w.rowstat then 16 * t.toks else 0,
    if t.w.stats then 8 * (t.D.groupsOf t.e0 (t.e0 + t.elems)).length else 0]

/-- First wide offsets of the three side outputs, from an offset on; a block not asked for takes no space. -/
def sidePlaces (a : Nat) : List Nat → List Nat
  | [] => []
  | n :: r => a :: sidePlaces (if n = 0 then a else up64 (a + n)) r

/-- Wide offset of the side area. -/
def StoreOp.sideAt (t : StoreOp) (bm : Nat) : Nat := t.w.sideRow * 64 * bm

/-- Wide ranges of the side outputs asked for. -/
def StoreOp.sideRanges (t : StoreOp) (bm : Nat) : List (Nat × Nat) :=
  (((sidePlaces (t.sideAt bm) t.sideSizes).zip t.sideSizes).filter (fun e => e.2 != 0)).map (fun e => (e.1, e.1 + e.2))

/-! Checks (R99–R101, R528). -/

/-- Layout code that the store word asks of its destination (R528). -/
def StoreWord.destLayout (w : StoreWord) : Nat :=
  if w.layout = 0 then 0 else if w.layout = 3 then (if w.form = 1 then 2 else if w.form = 2 then 3 else 4) else 1

/-- Whether every footprint of a descriptor lies in core `c`'s own Scratchpad. -/
def Desc.allOwn (d : Desc) (c : Nat) : Bool :=
  let base := spadBase + c * 0x100000
  decide (base ≤ d.local_) && decide (d.local_ < base + 0x60000) &&
  d.hulls.all (fun h => decide (base ≤ h.lo) && decide (h.hi ≤ base + 0x60000))

/-- Bank words that local bytes [lo, hi) reach in the data path's view (R101, R525). -/
def State.runWords (s : State) (d : Desc) (lo hi : Nat) : List Nat :=
  match s.reach ⟨true, d.diag⟩ (lo + s.nodeId * 2 ^ 48, hi + s.nodeId * 2 ^ 48) with
  | .words _ l => l
  | .atoms _ _ => []

/-- Bank words that a descriptor's footprints span. -/
def State.descWords (s : State) (d : Desc) : List Nat := d.hulls.flatMap (fun h => s.runWords d h.lo h.hi)

/-- The tiles of a descriptor's owned extent: (row block, chunk, linear outer index). -/
def Desc.allTiles (d : Desc) : List (Nat × Nat × Nat) :=
  (List.range d.outer).flatMap (fun o => (List.range (d.owned 1 / d.u1)).flatMap (fun nb =>
    (List.range d.tilesPerRow).map (fun kb => (nb, kb, o))))

/-- The run of a BITMAP tile as its header places it (R126, R241). -/
def DpCtx.headRun (x : DpCtx) (d : Desc) (dreg : Nat) (t : Nat × Nat × Nat) : Dp (Nat × Nat) := do
  let hb ← x.get d dreg (d.headAddr t.1 t.2.1 t.2.2) 8
  let h := TileHead.of (leNat hb)
  return (d.addr + h.off, h.size)

/-- The byte runs of tiles that a tensor's metadata place: a BITMAP tensor's at the offsets of its headers, a BCL tensor's at its
listed slots with their records and the list (R126, R131, R132). -/
def DpCtx.placedRuns (x : DpCtx) (d : Desc) (dreg : Nat) : Dp (List (Nat × Nat)) :=
  if d.bcl then do
    let l ← x.list d dreg
    let slots := l.entries.map (·.slot)
    return slots.flatMap (fun s => [(d.slotAddr s, d.denseTile), (d.slotWhey s 0 0, d.tileRows * (64 / d.g) * 8)]) ++
      [(d.listAddr, 8 + 8 * slots.length)]
  else if d.bitmap then d.allTiles.mapM (x.headRun d dreg)
  else pure []

/-- The byte runs that a descriptor reaches, each [a, a + n): its elements or tiles, records and headers, without what lies
between them (R101, R132, R241); `placed` are the runs that metadata give. -/
def Desc.runs (d : Desc) (write : Bool) (placed : List (Nat × Nat)) : List (Nat × Nat) :=
  let os := List.range d.outer
  if d.owned 0 = 0 then []
  else if d.bcl then placed
  else if d.pit then
    (if d.placed write then placed
      else d.allTiles.map (fun t => (d.tileAddr t.1 t.2.1 t.2.2, d.pitch))) ++
    os.flatMap (fun o => (List.range (d.owned 1 / d.u1)).flatMap (fun nb =>
      if d.bitmap then [(d.headAddr nb 0 o, 8 * d.tilesPerRow)] else [])) ++
    os.flatMap (fun o => (List.range d.wheyRows).map (fun r => (d.wheyAddr r 0 o, 8 * d.wheyGroups)))
  else os.flatMap (fun o => (List.range (d.owned 1)).map (fun r => (d.elemAddr 0 r o, d.owned 0 * d.elem)))

/-- Whether planning waits for the metadata that place a tensor's tiles (R223). DEDUCED (log entry 37). -/
def DpCtx.metaWaits (x : DpCtx) (d : Desc) (dreg : Nat) (write : Bool) : Bool :=
  d.placed write && (match (x.placedRuns d dreg).run [] with
    | .error (.wait _) => true
    | _ => false)

/-- Bank words that a descriptor reaches (R101). Metadata that its slip will refuse place nothing. DEDUCED (log entry 37). -/
def State.reachedWords (s : State) (c : Nat) (d : Desc) (dreg : Nat) (write : Bool) : List Nat :=
  let placed := if d.placed write then
      match ((⟨s, c, 0, []⟩ : DpCtx).placedRuns d dreg).run [] with
      | .ok z => z.1
      | .error _ => []
    else []
  ((d.runs write placed).flatMap (fun r => s.runWords d (localOf r.1) (localOf r.1 + r.2))).dedup

/-- Bank words of the side outputs. -/
def StoreOp.sideWords (t : StoreOp) (k : Core) : List Nat :=
  (t.sideRanges k.bm).flatMap (fun r =>
    (List.range (ceilDiv r.2 64 - r.1 / 64)).filterMap (fun i => (k.wide (64 * (r.1 / 64 + i))).map (· / 64)))

/-- The geometry of a descriptor: everything but its fill and its bound dimension. -/
def Desc.geometry (d : Desc) : Desc := { d with fill := 0, cap := false, bindDim := 0, bindReg := 0 }

/-- Whether two lists of words meet. -/
def meets (a b : List Nat) : Bool := a.any b.contains

/-- MINT.LAYOUT_FIT (R99). -/
def StoreOp.misfit (t : StoreOp) : Bool :=
  t.D.pit && (t.elems % 64 != 0 || t.rowsN % t.D.tileRows != 0 || t.e0 % 64 != 0 || t.r0 % t.D.tileRows != 0)

/-- Local whey groups of the destination that the store touches. -/
def StoreOp.groups (t : StoreOp) : List Nat :=
  t.D.groupsOf t.e0 (min (t.e0 + t.elems) (t.D.owned 0))

/-- MINT.GROUP_SPLIT (R99). -/
def StoreOp.splits (t : StoreOp) : Bool :=
  t.D.pit && t.groups.any (fun j => decide (j * t.D.g < t.D.lead + t.e0) || decide (t.e0 + t.elems < (t.D.groupSpan j).2))

/-- MINT.OVERLAP (R101). -/
def StoreOp.overlaps (t : StoreOp) (s : State) (c : Nat) : Bool :=
  let d := s.reachedWords c t.D t.dd.dreg true
  let side := t.sideWords (s.core c)
  let f := if t.w.usesDf then s.reachedWords c t.F t.df.dreg false else []
  let own := (Desc.of t.dd.bits)
  let same := t.w.fuseSrc == 1 && t.D == own.stored && (Desc.of t.df.bits).geometry == own.geometry
  (!same && meets d f) || meets d side || meets side f

/-- Whether a store's planning waits for metadata of its destination or its fused tensor (R223). -/
def StoreOp.waits (t : StoreOp) (x : DpCtx) : Bool :=
  x.metaWaits t.D t.dd.dreg true || (t.w.usesDf && x.metaWaits t.F t.df.dreg false)

/-- A copied descriptor that holds none (R245). -/
def DCopy.fault (d : DCopy) (code detail : Nat) : Stop := { Stop.of code with detail := detail, dreg := d.dreg }

/-- The origin's alignment and the reach of its fields (R257). -/
def originFault (d : DCopy) (n m : Nat) (reach : Bool) : Option Stop :=
  if n % 64 ≠ 0 ∨ m % 16 ≠ 0 then some (d.fault Code.descInvalid 4)
  else if reach then some (d.fault Code.descInvalid 5) else none

/-- The first of faults. DEDUCED (log entry 40). -/
def firstOf (l : List (Option Stop)) : Option Stop := l.findSome? id

/-- The faults of a store's places: its fit, its side outputs and its overlaps (R99–R101). -/
def StoreOp.placeFault (t : StoreOp) (s : State) (c : Nat) : Option Stop :=
  let iff (b : Bool) (st : Stop) : Option Stop := if b then some st else none
  firstOf [
    iff t.misfit (Stop.of Code.layoutFit),
    iff t.splits (Stop.of Code.mintGroupSplit),
    iff ((t.sideRanges (s.core c).bm).any (fun r => decide (384 * 64 * (s.core c).bm < r.2))) (Stop.of Code.destSpace),
    iff (t.overlaps s c) (Stop.of Code.mintOverlap)]

/-- Whether a fused TENSOR, which is read at the origin, has an owned extent beyond the reach of the origin's fields (R257). -/
def StoreOp.fuseReach (t : StoreOp) : Bool :=
  t.w.usesDf && t.w.fuseSrc == 1 && (decide (65536 < t.F.owned 0) || decide (65536 < t.F.owned 1))

/-- The faults of a store that planning finds, but for those of its word and of its template. -/
def StoreOp.fault (t : StoreOp) (s : State) (c : Nat) : Option Stop :=
  let F := t.F
  let fuse := t.w.usesDf
  let iff (b : Bool) (st : Stop) : Option Stop := if b then some st else none
  firstOf [
    t.dd.unset, if fuse then t.df.unset else none,
    iff (t.D.layout != t.w.destLayout) (t.dd.fault Code.descInvalid 3),
    iff (fuse && (if t.w.fuseSrc = 1 then !F.pit else F.layout != 2)) (t.df.fault Code.descInvalid 3),
    iff (!t.D.allOwn c || !s.isLocal t.D) (t.dd.fault Code.destSpace 0),
    iff (fuse && (!F.allOwn c || !s.isLocal F)) (t.df.fault Code.destSpace 0),
    iff (s.descDenied t.D true) (t.dd.fault Code.descInvalid 8),
    iff (fuse && s.descDenied F false) (t.df.fault Code.descInvalid 8),
    iff t.sh.excess (t.dd.fault Code.shapeOver 0),
    iff (fuse && t.df.shape.excess) (t.df.fault Code.shapeOver 0),
    originFault t.dd t.n t.m (decide (65536 < t.D.owned 1) || decide (65536 < t.D.owned 0)),
    iff (t.fuseReach) (t.df.fault Code.descInvalid 5),
    t.placeFault s c]

/-- Whether a descriptor's curd lies in one valid pail's storage (R115). -/
def State.descInPail (s : State) (c : Nat) (d : Desc) : Bool :=
  match s.descWords d with
  | [] => true
  | w :: r => match s.pailAt c (64 * w) with
    | some i => r.all (fun v => s.pailAt c (64 * v) == some i)
    | none => false

end Sys2Proof.Machine
end

