-- ==== Sys2Proof/Machine/Mint.lean ====
section
/-! DEFINITION. The Mint: values, fused operands, codes and whey, exports, statistics, row sums, top-k, and what a store
leaves behind (05_the_mint.md R97–R118; 06_sparse_operands_and_the_strainer.md R149). -/

namespace Sys2Proof.Machine

/-! Fused operands (R102). -/

/-- A fused TENSOR as read: rows of tiles and records by (row block, chunk) and (row, group), and synthesised tiles. -/
structure FusedTensor where
  tiles : List ((Nat × Nat) × List TileRow)
  recs : List ((Nat × Nat) × Whey)
  fills : Nat
  deriving Repr, Inhabited

/-- Position in a fused TENSOR of element (c, u): channels along dimension 0, but for a PIT-W tensor under layout PIT-W. DEDUCED (log entry 19). -/
def StoreOp.fusedPos (t : StoreOp) (c u : Nat) : Nat × Nat :=
  if t.tokenElems && t.F.pitW then (t.fm + u, t.fn + c) else (t.fn + c, t.fm + u)

/-- Whether a position lies inside the owned extent of a descriptor. -/
def Desc.owns (d : Desc) (e r o : Nat) : Bool := decide (e < d.owned 0) && decide (r < d.owned 1) && decide (o < d.outer)

/-- In-bounds elements of the store: (c, u). -/
def StoreOp.inBounds (t : StoreOp) (c u : Nat) : Bool :=
  let p := if t.tokenElems then (t.m + u, t.n + c) else (t.n + c, t.m + u)
  decide (p.1 < t.sh.at 0) && decide (p.2 < t.sh.at 1) && t.outerOk

/-- Read the rows of one tile of a fused TENSOR. -/
def StoreOp.fusedTile (t : StoreOp) (x : DpCtx) (bl : BclList) (e : Nat × Nat) : Dp ((Nat × Nat) × List TileRow) := do
  let rows ← x.tile t.F t.df.dreg bl e.1 e.2 t.fo
  return (e, rows)

/-- Read one record of a fused TENSOR; a tile that a list does not name has none. DEDUCED (log entry 19). -/
def StoreOp.fusedRec (t : StoreOp) (x : DpCtx) (bl : BclList) (e : Nat × Nat) : Dp (List ((Nat × Nat) × Whey)) :=
  let F := t.F
  let a := if F.bcl then
      (bl.slot F (e.1 / F.tileRows) (e.2 * F.g / 64)).map (fun s => F.slotWhey s (e.1 % F.tileRows) (e.2 * F.g % 64 / F.g))
    else some (F.wheyAddr e.1 e.2 t.fo)
  match a with
  | some a => do
    let w ← x.whey F t.df.dreg a
    return [(e, w)]
  | none => pure []

/-- Read the fused TENSOR at the store's in-bounds elements. DEDUCED (log entry 19). -/
def StoreOp.readTensor (t : StoreOp) (x : DpCtx) : Dp FusedTensor := do
  let F := t.F
  let ps := (List.range t.chans).flatMap (fun c => ((List.range t.toks).filter (t.inBounds c)).map (fun u => t.fusedPos c u))
  let inn := ps.filter (fun p => F.owns p.1 p.2 t.fo)
  let tileOf (p : Nat × Nat) : Nat × Nat := (p.2 / F.tileRows, p.1 / 64)
  let bl ← if F.bcl then x.list F t.df.dreg else pure default
  let tiles ← ((inn.map tileOf).dedup).mapM (t.fusedTile x bl)
  let recs ← ((inn.map (fun p => (p.2, F.group p.1))).dedup).mapM (t.fusedRec x bl)
  return ⟨tiles, recs.flatten, ((ps.filter (fun p => !F.owns p.1 p.2 t.fo)).map tileOf).dedup.length⟩

/-- The value of a code under a record: its contribution with the view's zero point (R22, R37, R102). -/
def Desc.codeValue (d : Desc) (w : Whey) (c : Nat) : Rat :=
  let s := u16Val (u16Use w.scale)
  if d.fmt = 0 then s * (2 * (c : Rat) - 1)
  else
    let dr := d.fmt - d.view
    s * (((c * 2 ^ dr : Nat) : Rat) - (z16Val d.fmt w.zero - ((2 ^ dr - 1 : Nat) : Rat) / 2))

/-- The value that a fill reads as in a PIT layout (R251). -/
def Desc.fillValue (d : Desc) : Rat :=
  codeVal d.fmt (u16Val (BitVec.ofNat 16 d.fillWhey.1)) (z16Val d.fmt (BitVec.ofNat 16 d.fillWhey.2.1)) d.fillCode

/-- The element of a fused TENSOR at a position. -/
def StoreOp.tensorValue (t : StoreOp) (f : FusedTensor) (p : Nat × Nat) : Rat :=
  let F := t.F
  if F.owns p.1 p.2 t.fo = false then F.fillValue
  else match f.tiles.lookup (p.2 / F.tileRows, p.1 / 64), f.recs.lookup (p.2, F.group p.1) with
    | some rows, some w =>
      let r := rows.getD (p.2 % F.tileRows) default
      if bitOf r.held (p.1 % 64) then F.codeValue w (r.codes.getD (p.1 % 64) 0) else 0
    | _, _ => 0

/-- Read element `i` of a fused vector, as stored or as fill. -/
def StoreOp.vectorElem (t : StoreOp) (x : DpCtx) (i : Nat) : Dp Word :=
  if t.F.owns i 0 0 then do
    let bs ← x.get t.F t.df.dreg (t.F.elemAddr i 0 0) 4
    return BitVec.ofNat 32 (leNat bs)
  else pure (BitVec.ofNat 32 (leNat t.F.fillElem))

/-- What a store's fused operand holds: the TENSOR, or a vector's elements, and positions read as fill. -/
structure Fused where
  tensor : FusedTensor
  vec : List Word
  fills : Nat
  deriving Repr, Inhabited

/-- Read the fused operand (R102). -/
def StoreOp.readFused (t : StoreOp) (x : DpCtx) : Dp Fused :=
  if t.w.usesDf = false then pure default
  else if t.w.fuseSrc = 1 then do
    let f ← t.readTensor x
    return ⟨f, [], f.fills⟩
  else do
    let n := if t.w.fuseSrc = 2 then t.chans else t.toks
    let used (i : Nat) : Bool := if t.w.fuseSrc = 2 then (List.range t.toks).any (t.inBounds i) else (List.range t.chans).any (fun c => t.inBounds c i)
    let l ← (List.range n).mapM (fun i => if used i then t.vectorElem x i else pure 0)
    return ⟨default, l, ((List.range n).filter (fun i => used i && !t.F.owns i 0 0)).length⟩

/-! Values (R102, R103). -/

/-- A value with the clamps that it met. -/
abbrev Clamped := Rat × Nat

/-- The exact ledger value of element (c, u) in a set of tiles. -/
def StoreOp.exact (t : StoreOp) (k : Core) (first c u : Nat) : Rat :=
  let (i, w) := t.place c u
  (k.tile (first + i)).value w

/-- a of R102: the ledger value under the channel's multiplier. -/
def StoreOp.scaled (t : StoreOp) (k : Core) (c u : Nat) : Rat :=
  let a := t.exact k t.tile c u
  if t.w.chmul then a * u16Val (u16Use (BitVec.ofNat 16 (tabGet 0x7F00 t.tables (0x400 + 4 * (c % 256))).toNat)) else a

/-- A function of one value (R102). -/
def mintFunc (func : Nat) (a : Rat) : Clamped :=
  if func = 0 ∨ func = 5 then (a, 0)
  else if func = 1 then (max a 0, 0)
  else
    let (x, cl) := rn32 a
    (if func = 2 then fSilu x else if func = 3 then fGelu x else fSigmoid x, b2n cl)

/-- SOFTMAX over the values of one token (R103). -/
def softmax (l : List Rat) : List Rat × Nat :=
  let xs := l.map rn32
  let m := xs.foldl (fun a x => max a x.1) ((xs.headD (0, false)).1)
  let es := xs.map (fun x => fExp (x.1 - m))
  let sum := es.foldl (· + ·) 0
  (es.map (fun e => toF32 (e / sum)), (xs.filter (·.2)).length)

/-- e(c, u) of R102. DEDUCED (log entry 18). -/
def StoreOp.fusedValue (t : StoreOp) (k : Core) (f : Fused) (c u : Nat) : Clamped :=
  if t.w.fuseSrc = 0 then (t.exact k t.w.fuseTile c u, 0)
  else if t.w.fuseSrc = 1 then (t.tensorValue f.tensor (t.fusedPos c u), 0)
  else
    let (v, cl) := f32Clamp (f.vec.getD (if t.w.fuseSrc = 2 then c else u) 0)
    (v, b2n cl)

/-- v of R102 from y. -/
def StoreOp.fuse (t : StoreOp) (k : Core) (f : Fused) (c u : Nat) (y : Clamped) : Clamped :=
  if t.w.fuseOp = 1 then
    let e := t.fusedValue k f c u
    (y.1 + e.1, y.2 + e.2)
  else if t.w.fuseOp = 2 then
    let e := t.fusedValue k f c u
    (y.1 * e.1, y.2 + e.2)
  else y

/-- The values of token `u`: in-bounds channels with their values, and the clamps. -/
def StoreOp.tokenValues (t : StoreOp) (k : Core) (f : Fused) (u : Nat) : List (Nat × Rat) × Nat :=
  let cs := (List.range t.chans).filter (fun c => t.inBounds c u)
  let as := cs.map (fun c => t.scaled k c u)
  let ys : List Clamped := if t.w.func = 5 then (softmax as).1.map (fun y => (y, 0)) else as.map (mintFunc t.w.func)
  let vs := (cs.zip ys).map (fun e => (e.1, t.fuse k f e.1 u e.2))
  (vs.map (fun e => (e.1, e.2.1)), sumOf (vs.map (fun e => e.2.2)) + if t.w.func = 5 then (softmax as).2 else 0)

/-- The values of a store by row and element; none outside the bounds. -/
abbrev Grid := List (List (Option Rat))

/-- The values by token, then channel. -/
def StoreOp.tokenGrid (t : StoreOp) (vals : List (List (Nat × Rat))) : Grid :=
  vals.map (fun l => (List.range t.chans).map (fun c => l.lookup c))

/-- The values by destination row and element (R98). -/
def StoreOp.grid (t : StoreOp) (vals : List (List (Nat × Rat))) : Grid :=
  let g := t.tokenGrid vals
  if t.tokenElems then (List.range t.chans).map (fun c => g.map (fun row => row.getD c none)) else g

/-! Codes (R104–R109). -/

/-- A group that the Mint makes: row and group of the destination, codes, the value class of each element (none for padding),
its record, and counts. -/
structure Made where
  row : Nat
  grp : Nat
  codes : List Nat
  zeros : List Bool
  scale : Half
  zero : Half
  sat : Nat
  collapsed : Nat
  nz : Nat
  retried : Bool
  drawn : List Nat
  deriving Repr, Inhabited

/-- Entry of MINT_GSCALE for a group: scale and zero (R104, R120). -/
def StoreOp.gscale (t : StoreOp) (j : Nat) : Half × Half :=
  let v := (tabGet 0 t.tables (0x200 + 4 * ((t.D.red0 / t.D.g + j) % 64))).toNat
  (u16Use (BitVec.ofNat 16 (v / 2 ^ 16)), if t.D.fmt = 0 then 0 else BitVec.ofNat 16 v)

/-- The draw of an element (R107, R328), where the store rounds stochastically. -/
abbrev Drawer := Option (Nat → Nat)

/-- Codes of a group under a scale and a zero point: the code and sat of each element. -/
def StoreOp.groupCodes (t : StoreOp) (dr : Drawer) (sc ze : Half) (idx : Nat → Nat) (vs : List (Option Rat)) : List (Nat × Bool) :=
  vs.mapIdx (fun i v => codeOf t.D.fmt sc ze (dr.map (fun f => f (idx i))) (v.getD (fillVal (BitVec.ofNat 16 t.D.fill))))

/-- DYNAMIC's scale and zero of a group's values (R105). -/
def StoreOp.dynamicOf (t : StoreOp) (vs : List Rat) : Half × Half :=
  let lo := vs.foldl min 0
  let hi := vs.foldl max 0
  let mean := (vs.map ratAbs).foldl (· + ·) 0 / ((max 1 vs.length : Nat) : Rat)
  dynamicScale t.D.fmt lo hi mean

/-- Make one group (R104–R109). Any code with sat set brings the second pass, one of padding too (R109); the counters take none of
padding (R106, R108). DESIGN CHOICE (log entry 140). -/
def StoreOp.makeGroup (t : StoreOp) (dr : Drawer) (row j : Nat) (vs : List (Option Rat)) : Made :=
  let real := vs.filterMap id
  let idx (i : Nat) : Nat := t.lin0 + t.D.linear ((t.D.groupSpan j).1 + i) row t.o
  let first := if t.w.dynamic then t.dynamicOf real else t.gscale j
  let one := t.groupCodes dr first.1 first.2 idx vs
  let again := t.w.retry && one.any (·.2)
  let use := if again then t.dynamicOf real else first
  let codes := if again then t.groupCodes dr use.1 use.2 idx vs else one
  let near := (z16Val t.D.fmt use.2 + 1 / 2).floor
  let draws (s : Half) : List Nat := if dr.isSome && u16Exp s != 0 then (List.range vs.length).map idx else []
  { row := row
    grp := j
    codes := codes.map (·.1)
    zeros := vs.map (fun v => v.getD (fillVal (BitVec.ofNat 16 t.D.fill)) == 0)
    scale := use.1
    zero := use.2
    sat := ((one.zip vs).filter (fun e => e.1.2 && e.2.isSome)).length
    collapsed := if t.D.fmt = 0 then 0 else
      ((codes.zip vs).filter (fun e => match e.2 with
        | some v => v != 0 && (e.1.1 : Int) == near
        | none => false)).length
    nz := (real.filter (· != 0)).length
    retried := again
    drawn := draws first.1 ++ if again then draws use.1 else [] }

/-- Rows of the destination that the store writes: local rows inside the owned extent. DEDUCED (log entry 41). -/
def StoreOp.outRows (t : StoreOp) : List Nat :=
  ((List.range t.rowsN).map (· + t.r0)).filter (fun r => decide (r < t.D.owned 1))

/-- Every group that the store makes, row by row. DEDUCED (log entry 20). -/
def StoreOp.makeAll (t : StoreOp) (dr : Drawer) (g : Grid) : List Made :=
  t.outRows.flatMap (fun r => t.groups.map (fun j =>
    t.makeGroup dr r j (((g.getD (r - t.r0) []).drop ((t.D.groupSpan j).1 - t.e0)).take t.D.g)))

/-- Block evaluations of draws taken in order: a new one where the index does not follow the one before it in its block
(R330). DEDUCED (log entry 20). -/
def drawBlocks : List Nat → Option Nat → Nat
  | [], _ => 0
  | i :: r, last => (if last = some (i - 1) ∧ 0 < i ∧ i % 5 ≠ 0 then 0 else 1) + drawBlocks r (some i)

/-! Tiles. -/

/-- Codes of chunk `kb` of row `r`, and which values are exactly zero. -/
def rowChunk (l : List Made) (d : Desc) (r kb : Nat) : List Nat × List Bool :=
  let ms := l.filter (fun m => m.row == r && decide ((d.groupSpan m.grp).1 < 64 * kb + 64) && decide (64 * kb < (d.groupSpan m.grp).2))
  let at_ (m : Made) : Nat := 64 * kb - (d.groupSpan m.grp).1
  (ms.flatMap (fun m => (m.codes.drop (at_ m)).take 64), ms.flatMap (fun m => (m.zeros.drop (at_ m)).take 64))

/-- The index field of row `i` of an N:M tile as it stands in the destination: a store keeps the index codes and holds the
elements that they name. DESIGN CHOICE (log entry 123). -/
def DpCtx.nmIndex (x : DpCtx) (d : Desc) (nb kb ol i : Nat) : Nat :=
  match x.own 0 (d.tileAddr nb kb ol + i * d.nmField) with
  | .ok o => leNat ((List.range d.nmField).map (fun b => match x.plain d.diag (o + b) with
    | .ok p => tabGet 0 x.k.mem p
    | .error _ => 0))
  | .error _ => 0

/-- A tile that the Mint writes: its place, its rows, whether it is compressed. -/
structure MadeTile where
  nb : Nat
  kb : Nat
  rows : List TileRow
  compressed : Bool
  deriving Repr, Inhabited

/-- Make tile (nb, kb) of the destination (R106, R116). DESIGN CHOICE (log entry 139). -/
def StoreOp.makeTile (t : StoreOp) (x : DpCtx) (l : List Made) (nb kb : Nat) : MadeTile :=
  let d := t.D
  let rows := (List.range d.tileRows).map (fun i => rowChunk l d (d.tileRows * nb + i) kb)
  let sparse := rows.map (fun (r : List Nat × List Bool) =>
    (⟨r.1, maskOf ((List.range 64).filter (fun e => !(r.2.getD e true))), 0⟩ : TileRow))
  let dense := rows.map (fun (r : List Nat × List Bool) => (⟨r.1, allHeld, 0⟩ : TileRow))
  if d.nm then
    ⟨nb, kb, rows.mapIdx (fun i r =>
      let f := x.nmIndex d nb kb t.o i
      ⟨r.1, maskOf (d.nmPlaces f), f⟩), false⟩
  else if d.bitmap && t.w.compress && decide (compressedBytes d.tileRows d.planes (heldCount (sparse.map (·.held))) < d.denseTile) then
    ⟨nb, kb, sparse, true⟩
  else ⟨nb, kb, dense, false⟩

/-- Tiles of the destination that the store covers inside the owned extent. -/
def StoreOp.tilePlaces (t : StoreOp) : List (Nat × Nat) :=
  ((List.range (t.rowsN / t.D.tileRows)).map (· + t.r0 / t.D.tileRows)).flatMap (fun nb =>
    (((List.range (t.elems / 64)).map (· + t.e0 / 64)).filter (fun kb =>
      decide (nb * t.D.tileRows < t.D.owned 1) && decide (kb * 64 < t.D.owned 0))).map (fun kb => (nb, kb)))

/-- The bytes of tiles by Span address, in the stored format, collected with the core DMA engine's packers (R32, R33, R35, R125,
R128, R132). -/
def StoreOp.putTile (t : StoreOp) (bl : BclList) (m : Mv) (w : MadeTile) : Mv :=
  let d := t.D
  let rows := w.rows
  if d.bitmap then
    let a := d.tileAddr w.nb w.kb t.o
    let tag := d.tileNum w.nb w.kb 0 % 64
    if w.compressed then
      (m.put a (compressedTile rows d.planes)).put (d.headAddr w.nb w.kb t.o)
        (leBytes (TileHead.toNat ⟨true, compressedBytes d.tileRows d.planes (heldCount (rows.map (·.held))), a - d.addr, tag⟩) 8)
    else (m.putDense a d.tileRows 0 d.planes rows).put (d.headAddr w.nb w.kb t.o)
        (leBytes (TileHead.toNat ⟨false, d.denseTile, a - d.addr, tag⟩) 8)
  else if d.nm then
    (rows.zipIdx).foldl (fun (m : Mv) e => m.putNm d (d.tileAddr w.nb w.kb t.o) e.2 d.planes e.1) m
  else if d.bcl then
    match bl.slot d w.nb w.kb with
    | some s => m.putDense (d.slotAddr s) d.tileRows 0 d.planes rows
    | none => m
  else m.putDense (d.tileAddr w.nb w.kb t.o) d.tileRows 0 d.planes rows

/-- code_sum of a group over the codes that the curd holds (R106, R116). -/
def StoreOp.sumOfGroup (t : StoreOp) (ts : List MadeTile) (m : Made) : Nat :=
  sumOf (m.codes.mapIdx (fun i c =>
    let e := (t.D.groupSpan m.grp).1 + i
    match ts.find? (fun w => w.nb == m.row / t.D.tileRows && w.kb == e / 64) with
    | some w => if bitOf (w.rows.getD (m.row % t.D.tileRows) default).held (e % 64) then c else 0
    | none => 0))

/-- The record of a group (R106). -/
def StoreOp.putRecord (t : StoreOp) (bl : BclList) (ts : List MadeTile) (m : Mv) (g : Made) : Mv :=
  let d := t.D
  let rec_ : Whey := ⟨g.scale, g.zero, t.sumOfGroup ts g, d.fmt, d.tagOf g.row g.grp⟩
  let a := if d.bcl then
      (bl.slot d (g.row / d.tileRows) (g.grp * d.g / 64)).map (fun s => d.slotWhey s (g.row % d.tileRows) (g.grp * d.g % 64 / d.g))
    else some (d.wheyAddr g.row g.grp t.o)
  match a with
  | some a => m.put a (leBytes rec_.toNat 8)
  | none => m

/-- A ROW element made from a value (R45, R46). -/
def StoreWord.element (w : StoreWord) (v : Rat) : List Byte :=
  if w.form = 1 then leBytes (f32Round v).toNat 4 else if w.form = 2 then leBytes (bf16Round v).toNat 2
  else leBytes (p64Round v).toNat 8

/-- The bytes of a ROW destination: values, and fill in padding (R253). DEDUCED (log entry 22). -/
def StoreOp.putRow (t : StoreOp) (g : Grid) (m : Mv) (r : Nat) : Mv :=
  ((List.range t.elems).filter (fun e => decide (t.e0 + e < t.D.owned 0))).foldl (fun (m : Mv) e =>
    m.put (t.D.elemAddr (t.e0 + e) r t.o) (match (g.getD (r - t.r0) []).getD e none with
      | some v => t.w.element v
      | none => t.D.fillElem)) m

/-! Side outputs (R111–R114). -/

/-- Range records: one for each group index, over all rows (R111). DEDUCED (log entry 21). -/
def StoreOp.rangeRecords (t : StoreOp) (g : Grid) : List Byte :=
  (t.D.groupsOf t.e0 (t.e0 + t.elems)).flatMap (fun j =>
    let vs := g.flatMap (fun row => (row.zipIdx.filterMap (fun v =>
      if t.D.group (t.e0 + v.2) = j then v.1 else none)))
    match vs with
    | [] => leBytes 0x7F800000 4 ++ leBytes 0xFF800000 4
    | v :: r => leBytes (f32Down (r.foldl min v)).toNat 4 ++ leBytes (f32Up (r.foldl max v)).toNat 4)

/-- Row sums of a token, with the clamps met (R112). -/
def rowSums (l : List (Nat × Rat)) : List Byte × Nat :=
  let xs := l.map (fun e => rn32 e.2)
  let s := (xs.map (·.1)).foldl (· + ·) 0
  let q := (xs.map (fun x => x.1 * x.1)).foldl (· + ·) 0
  (leBytes (p64Round s).toNat 8 ++ leBytes (p64Round q).toNat 8, (xs.filter (·.2)).length)

/-- Put a channel in rank order: larger value first, then lower channel (R113). -/
def rankInsert (e : Nat × Rat) : List (Nat × Rat) → List (Nat × Rat)
  | [] => [e]
  | f :: r => if f.2 < e.2 then e :: f :: r else f :: rankInsert e r

/-- Global channel position of channel `c`. -/
def StoreOp.globalChan (t : StoreOp) (c : Nat) : Nat := t.D.glob0 (if t.tokenElems then 1 else 0) + t.n + c

/-- Top-k records of a token (R113). -/
def StoreOp.topRecords (t : StoreOp) (l : List (Nat × Rat)) : List Byte :=
  let ranked := l.foldl (fun a e => rankInsert e a) []
  (List.range t.w.topk).flatMap (fun i => match ranked[i]? with
    | some e => leBytes (f32Round e.2).toNat 4 ++ leBytes (t.globalChan e.1) 3 ++ leBytes i 1
    | none => leBytes 0xFF800000 4 ++ leBytes 0xFFFFFF 3 ++ leBytes i 1)

/-- The blocks of the side outputs, in order. -/
def StoreOp.sideBlocks (t : StoreOp) (vals : List (List (Nat × Rat))) (g : Grid) : List (List Byte) :=
  [if t.w.topk = 0 then [] else vals.flatMap t.topRecords,
   if t.w.rowstat then vals.flatMap (fun l => (rowSums l).1) else [],
   if t.w.stats then t.rangeRecords g else []]

/-! A store. -/

/-- What a store writes and counts. -/
structure Minted where
  out : Tab Byte
  made : List Made
  tiles : List MadeTile
  clamps : Nat
  fills : Nat
  oob : Nat
  top : Rat
  deriving Repr

/-- Collect bytes put by Span address at the places that the data path writes. -/
def DpCtx.collect (x : DpCtx) (d : Desc) (dreg : Nat) (by_ : Tab Byte) : Except DpErr (Tab Byte) :=
  (outRuns by_).foldl (fun (r : Except DpErr (Tab Byte)) e => match r with
    | .ok out => x.put d dreg e.1 e.2 out
    | .error z => .error z) (.ok [])

/-- Add the side outputs to a collection. -/
def DpCtx.collectSides (x : DpCtx) : List (Nat × List Byte) → Tab Byte → Except DpErr (Tab Byte)
  | [], out => .ok out
  | (a, bs) :: r, out => match x.place false out a bs (bs.length / 64 + 2) with
    | .ok out => x.collectSides r out
    | .error e => .error e

/-- The list of a BCL destination, its entries checked as the store's tiles consume them; the slots of a BITMAP or BCL destination
lie inside the descriptor's region (R133, R248). -/
def StoreOp.destList (t : StoreOp) (x : DpCtx) : Dp BclList := do
  if t.D.bitmap && t.tilePlaces.any (fun e => x.s.slotOutside t.D (t.D.tileAddr e.1 e.2 t.o)) then throw (place07of t.dd.dreg)
  if t.D.bcl = false then return default
  let bl ← x.list t.D t.dd.dreg
  let slots ← t.tilePlaces.mapM (fun e => bl.consume t.D e.1 e.2)
  if slots.any (fun s => s.any (fun s => x.s.slotOutside t.D (t.D.slotAddr s))) then throw (place07of t.dd.dreg)
  return bl

/-- Everything that a store makes from the core's tiles and its fused operand, checked (R118). -/
def StoreOp.mint (t : StoreOp) (x : DpCtx) : Dp Minted := do
  let f ← Dp.forTile t.tile 0 (t.readFused x)
  let bl ← t.destList x
  let byTok := (List.range t.toks).map (t.tokenValues x.k f)
  let vals := byTok.map (·.1)
  let g := t.grid vals
  let shared := (x.k.streamOpen t.w.stream).getD false
  let dr : Drawer := if t.w.stochastic then some (draw x.s.sched.seed x.c t.w.stream shared) else none
  let made := if t.D.pit then t.makeAll dr g else []
  let tiles := if t.D.pit then t.tilePlaces.map (fun e => t.makeTile x made e.1 e.2) else []
  let m0 := Mv.start x.s x.c default
  let m := if t.D.pit then made.foldl (t.putRecord bl tiles) (tiles.foldl (t.putTile bl) m0)
    else t.outRows.foldl (t.putRow g) m0
  let out ← (x.collect t.D t.dd.dreg m.out : Except DpErr (Tab Byte))
  let sides := (sidePlaces (t.sideAt x.k.bm) t.sideSizes).zip (t.sideBlocks vals g)
  let out ← (x.collectSides (sides.filter (fun e => !e.2.isEmpty)) out : Except DpErr (Tab Byte))
  let covered := (min (t.e0 + t.elems) (t.D.owned 0) - t.e0) * t.outRows.length
  return { out := out
           made := made
           tiles := tiles
           clamps := sumOf (byTok.map (·.2)) + if t.w.rowstat then sumOf (vals.map (fun l => (rowSums l).2)) else 0
           fills := f.fills
           oob := t.elems * t.rowsN - covered
           top := (vals.flatten.map (fun e => ratAbs e.2)).foldl max 0 }

/-- Sampled blocks that a store finds active, by the threshold that the SELECT copied (R149, R155). DEDUCED (log entry 28). -/
def StoreOp.misses (t : StoreOp) (s : State) (c : Nat) : List Nat :=
  let k := s.core c
  let hit (a : Rat) : Bool := match f32Val k.sampledAct with
    | .fin q => decide (q ≤ a)
    | .inf neg => neg
    | .nan => false
  if k.sampledBlocks.isEmpty then []
  else
    let row (ch : Nat) : Nat :=
      let tl := k.tile (t.tile + (t.place ch 0).1)
      tl.rows.getD (ch % 64) (t.globalChan ch)
    let live (ch : Nat) : Bool := (List.range t.toks).any (fun u => t.inBounds ch u && hit (t.scaled k ch u))
    k.sampledBlocks.filter (fun b => (List.range t.chans).any (fun ch => row ch / 4 == b && live ch))

/-- The counters of a store (R108, R109, R111, R116, R330). DESIGN CHOICE (log entry 139). -/
def State.countMinted (s : State) (c : Nat) (t : StoreOp) (m : Minted) : State :=
  let codes := t.D.pit
  let s := if codes then
      let s := s.bump64 (Reg.MINT_SAT_CODES_LO c) (sumOf (m.made.map (·.sat)))
      let s := s.bump64 (Reg.MINT_ZERO_CODES_LO c) (sumOf (m.made.map (·.collapsed)))
      let s := s.bump64 (Reg.MINT_NZ_INPUTS_LO c) (sumOf (m.made.map (·.nz)))
      s.bump32 (Reg.MINT_CLIP_RETRY c) (m.made.filter (·.retried)).length
    else s
  let s := if t.w.compress && t.D.bitmap then
      (s.bump32 (Reg.MINT_COMPRESSED c) (m.tiles.filter (·.compressed)).length).bump32 (Reg.MINT_DENSE c)
        (m.tiles.filter (fun w => !w.compressed)).length
    else s
  let n := t.D.g
  let pass1 := m.made.flatMap (fun g => g.drawn.take n)
  let pass2 := m.made.flatMap (fun g => g.drawn.drop n)
  let s := s.countBlocks c (drawBlocks pass1 none + drawBlocks pass2 none)
  let s := s.bump32 (Reg.MINT_FUNC_CLAMP c) m.clamps
  let s := (s.bump64 (Reg.CORE_DESC_FILL_READS_LO c) m.fills).bump64 (Reg.CORE_DESC_OOB_WRITES_LO c) m.oob
  let s := s.maxReg (Reg.MINT_STAT_MAXABS c) (f32Up m.top).toNat
  s.bump64 (Reg.MINT_STORES_LO c) 1

/-- Flags of the source and fused tiles, as MINT_LAST_FLAGS shows them (R119). -/
def Core.flagsOf (k : Core) (l : List Nat) : Nat :=
  b2n (l.any (fun i => (k.tile i).sat)) + 2 * b2n (l.any (fun i => (k.tile i).sub)) + 4 * b2n (l.any (fun i => (k.tile i).range))

/-- Release tiles (R80, R110, R293). DEDUCED (log entry 25). -/
def State.releaseTiles (s : State) (c : Nat) (l : List Nat) : State :=
  s.modCore c (fun k => l.foldl (fun k i => k.setTile i (k.tile i).release) k)

/-- A store has made everything: its writes land, its counters move, and its tiles are released (R80, R110). -/
def StoreOp.finish (t : StoreOp) (s : State) (c e : Nat) (m : Minted) (pails : List Nat) : State :=
  let miss := t.misses s c
  let s := s.setRegN (Reg.MINT_LAST_FLAGS c) ((s.core c).flagsOf (t.tiles ++ t.w.fuseTiles))
  let s := s.modCore c (fun k =>
    let k := k.writeOut e m.out pails
    { k with sampledBlocks := k.sampledBlocks.filter (fun b => !miss.contains b) })
  let s := (s.countMinted c t m).bump32 (Reg.CORE_STRAIN_PRED_MISSED c) miss.length
  s.releaseTiles c ((if t.w.release then t.tiles else []) ++ t.frees)

end Sys2Proof.Machine
end

