-- ==== Sys2Proof/Machine/Sint.lean ====
section
/-! DEFINITION. SINT: MATCH, MERGE and SELECT, and their checks (06_sparse_operands_and_the_strainer.md R141–R148;
11_ngaosh_instruction_reference.md R299, R300). -/

namespace Sys2Proof.Machine

/-! Keys (R142). -/

/-- Read `n` keys of a ROW binary32 stream from element `i` on. -/
def DpCtx.keys (x : DpCtx) (d : Desc) (dreg i : Nat) : Nat → Dp (List Nat)
  | 0 => pure []
  | n + 1 => do
    let bs ← x.get d dreg (d.elemAddr i 0 0) 4
    let r ← x.keys d dreg (i + 1) n
    return leNat bs :: r

/-- Whether keys rise strictly (R142). -/
def rising : List Nat → Bool
  | a :: b :: r => decide (a < b) && rising (b :: r)
  | _ => true

/-- The keys of a stream, which must rise. -/
def DpCtx.stream (x : DpCtx) (c : DCopy) : Dp (List Nat) := do
  let l ← x.keys (Desc.of c.bits) c.dreg 0 (c.shape.at 0)
  if rising l = false then throw (strainStop Code.listOrder)
  return l

/-- MATCH: the places of each key that both streams hold, in key order (R141). -/
def matchKeys (a b : List Nat) : List (List Byte) :=
  a.zipIdx.filterMap (fun e => (b.findIdx? (· == e.1)).map (fun j => leBytes e.2 4 ++ leBytes j 4))

/-- MERGE: the union of two rising streams, with fuel. -/
def mergeKeys : Nat → List Nat → List Nat → List Nat
  | 0, _, _ => []
  | _ + 1, [], b => b
  | _ + 1, a, [] => a
  | n + 1, x :: a, y :: b =>
    if x < y then x :: mergeKeys n a (y :: b)
    else if y < x then y :: mergeKeys n (x :: a) b
    else x :: mergeKeys n a b

/-! Scores (R146–R148). -/

/-- Whether a score counts as active: at or above the threshold, or a NaN (R146). -/
def scoreActive (score thresh : Word) : Bool :=
  match f32Val score, f32Val thresh with
  | .nan, _ => true
  | _, .nan => false
  | .inf neg, .inf neg' => !neg || neg'
  | .inf neg, .fin _ => !neg
  | .fin _, .inf neg' => neg'
  | .fin a, .fin b => decide (b ≤ a)

/-- Whether any in-bounds score of one row is active. -/
def DpCtx.rowActive (x : DpCtx) (c : DCopy) (thresh : Word) (row : Nat) : Dp Bool := do
  let d := Desc.of c.bits
  let l ← (List.range (c.shape.at 1)).mapM (fun u => do
    let bs ← x.get d c.dreg (d.elemAddr row u 0) 4
    return scoreActive (BitVec.ofNat 32 (leNat bs)) thresh)
  return l.any id

/-- Blocks of four score rows: whether each is active. -/
def DpCtx.blocksActive (x : DpCtx) (c : DCopy) (thresh : Word) : Dp (List Bool) := do
  let rows ← (List.range (c.shape.at 0)).mapM (x.rowActive c thresh)
  return (chunks 4 rows.length rows).map (fun b => b.any id)

/-- The audit exponent in use (R154). -/
def auditExp (a : Nat) : Nat := if a = 0 then 1 else if 12 < a then 12 else a

/-- What SELECT finds: entries, active and inactive blocks, and the blocks drawn and sampled (R146–R148). -/
structure Selected where
  entries : List Nat
  active : Nat
  inactive : Nat
  drawn : List Nat
  sampled : List Nat
  deriving DecidableEq, Repr, Inhabited

/-- SELECT over blocks, with the draw of each inactive block (R147, R148). DEDUCED (log entry 31). -/
def selectBlocks (mode a : Nat) (dr : Nat → Nat) (bs : List Bool) : Selected :=
  let ix := bs.zipIdx
  let off := (ix.filter (fun e => !e.1)).map (·.2)
  let samp := if mode = 2 then off.filter (fun k => decide (dr k < 2 ^ (24 - a))) else []
  { entries := ix.filterMap (fun e =>
      if e.1 || mode == 0 then some e.2 else if samp.contains e.2 then some (e.2 + 2 ^ 31) else none)
    active := bs.length - off.length
    inactive := off.length
    drawn := if mode = 2 then off else []
    sampled := samp }

/-! Outputs (R143). -/

/-- Outputs collected into the destination, up to its capacity; a position beyond the valid extent takes the fill (R143, R252). -/
def DpCtx.outputs (x : DpCtx) (c : DCopy) (l : List (List Byte)) : Except DpErr (Tab Byte) :=
  let d := Desc.of c.bits
  (l.zipIdx.take (d.owned 0)).foldl (fun (r : Except DpErr (Tab Byte)) e => match r with
    | .ok out => x.put d c.dreg (d.elemAddr e.2 0 0) (if e.2 < c.shape.at 0 then e.1 else d.fillElem) out
    | .error z => .error z) (.ok [])

/-- What a SINT function makes: outputs, and what SELECT found. -/
structure SintOut where
  list : List (List Byte)
  sel : Option Selected
  deriving DecidableEq, Repr, Inhabited

/-- The audit draws of core `c`, from the stream that CORE_STRAIN_PRED_CTL names (R148). -/
def DpCtx.auditDraw (x : DpCtx) (k : Nat) : Nat :=
  let st := x.s.field (Reg.CORE_STRAIN_PRED_CTL x.c) 6 16
  draw x.s.sched.seed x.c st ((x.k.streamOpen st).getD false) k

/-- The blocks of draws that an AUDIT SELECT asks for while it is planned (R148, R330); a SELECT that its issue will stop
asks for none. -/
def DpCtx.auditBlocks (x : DpCtx) (a : DCopy) : Dp Nat := do
  let ctl := Reg.CORE_STRAIN_PRED_CTL x.c
  if x.s.field ctl 0 2 = 2 ∧ (x.k.streamOpen (x.s.field ctl 6 16)).isSome then do
    let bs ← x.blocksActive a (x.s.reg (Reg.CORE_STRAIN_PRED_THRESH x.c))
    return drawBlocks (selectBlocks 2 (auditExp (x.s.field ctl 2 4)) x.auditDraw bs).drawn none
  else return 0

/-- Run MATCH, MERGE or SELECT (functions 0, 1, 3) on their inputs. DEDUCED (log entry 30). -/
def DpCtx.sint (x : DpCtx) (fn : Nat) (ds : List DCopy) : Dp SintOut := do
  let a := ds.getD 0 ⟨0, 0, 0⟩
  if fn = 3 then do
    let mode := x.s.field (Reg.CORE_STRAIN_PRED_CTL x.c) 0 2
    if mode = 3 then throw (strainStop Code.predMode)
    if mode = 2 ∧ (x.k.streamOpen (x.s.field (Reg.CORE_STRAIN_PRED_CTL x.c) 6 16)).isNone then
      throw (.of (Stop.of Code.streamClosed))
    let bs ← x.blocksActive a (x.s.reg (Reg.CORE_STRAIN_PRED_THRESH x.c))
    let z := selectBlocks mode (auditExp (x.s.field (Reg.CORE_STRAIN_PRED_CTL x.c) 2 4)) x.auditDraw bs
    return ⟨z.entries.map (fun e => leBytes e 4), some z⟩
  else do
    let l ← x.stream a
    let m ← x.stream (ds.getD 1 ⟨0, 0, 0⟩)
    return ⟨if fn = 0 then matchKeys l m else (mergeKeys (l.length + m.length + 1) l m).map (fun e => leBytes e 4), none⟩

/-- The counters and the sampled blocks of a SELECT, with the activity threshold that it copies (R149, R155). DEDUCED (log entry 31). -/
def State.selected (s : State) (c : Nat) (z : Selected) : State :=
  let s := (s.bump32 (Reg.CORE_STRAIN_PRED_ACTIVE c) z.active).bump32 (Reg.CORE_STRAIN_PRED_INACTIVE c) z.inactive
  let s := s.bump32 (Reg.CORE_STRAIN_PRED_SAMPLED c) z.sampled.length
  s.modCore c (fun k => { k with sampledBlocks := z.sampled, sampledAct := s.reg (Reg.CORE_STRAIN_PRED_ACT c) })

/-- The faults of SINT operands (R299): each with the layout that it must have and whether it is written. -/
def State.sintFault (s : State) (c : Nat) (ops : List (DCopy × Nat × Bool)) : Option Stop :=
  let each (f : DCopy × Nat × Bool → Bool) (code detail : Nat) : Option Stop :=
    (ops.find? f).map (fun e => e.1.fault code detail)
  firstOf [
    each (fun e => !(Desc.of e.1.bits).valid) Code.descInvalid 1,
    each (fun e => (Desc.of e.1.bits).layout != e.2.1) Code.descInvalid 3,
    each (fun e => !(Desc.of e.1.bits).allOwn c || !s.isLocal (Desc.of e.1.bits)) Code.descInvalid 7,
    each (fun e => s.descDenied (Desc.of e.1.bits) e.2.2) Code.descInvalid 8,
    each (fun e => e.1.shape.excess) Code.shapeOver 0]

end Sys2Proof.Machine
end

