-- ==== Sys2Proof/Machine/Nest.lean ====
section
/-! DEFINITION. NEST: windows of tensors staged in pails, the loop order, and the transfers that planning posts
(10_tensors_and_tiling.md R259–R261). -/

namespace Sys2Proof.Machine

/-- A NEST tiling word (R259). -/
structure NestWord where
  memOrder : Bool
  spadOrder : Bool
  qm : Nat
  qn : Nat
  slab : Nat
  pw : Nat
  pa : Nat
  po : Nat
  pc : Nat
  rsv : Nat
  deriving DecidableEq, Repr, Inhabited

/-- Read the tiling word; counts minus one are made counts. -/
def NestWord.of (v : Nat) : NestWord :=
  { memOrder := bitOf v 1
    spadOrder := bitOf v 2
    qm := bits v 3 8 + 1
    qn := bits v 11 8 + 1
    slab := bits v 19 8
    pw := bits v 27 6
    pa := bits v 33 6
    po := bits v 39 6
    pc := bits v 45 3 + 1
    rsv := bits v 48 16 }

/-! Windows of a tensor in a pail. -/

/-- Place fields of a descriptor (R238): values with their lowest bits. -/
def descBits (l : List (Nat × Nat)) : BitVec 512 := BitVec.ofNat 512 (l.foldl (fun a f => a + f.1 * 2 ^ f.2) 0)

/-- The bits of a descriptor of rank 2 without padding or strides (R238). -/
def Desc.encode2 (d : Desc) : BitVec 512 :=
  descBits [(d.addr, 0), (b2n d.valid, 64), (d.fmt, 65), (d.view, 69), (d.layout, 73), (d.gsize, 76), (d.sparse, 78),
    (b2n d.transposable, 81), (1, 82), (b2n d.diag, 86), (b2n d.across, 87), (d.fill, 96), (suns 32 d.wheyOff, 112),
    (suns 28 d.metaOff, 164), ((d.dim 0).e, 192), ((d.dim 0).s, 224), ((d.dim 0).x, 232), ((d.dim 0).b, 240),
    ((d.dim 1).e, 256), ((d.dim 1).s, 288), ((d.dim 1).x, 296), ((d.dim 1).b, 304), (d.rsv, 350)]

/-- A dimension of a window of `n` positions from global position `g` on, of a tensor of extent `e`. -/
def windowDim (e g n u : Nat) : Dim := ⟨e, n - min (e - g) u, 1, g / u, 1, 0⟩

/-- The window of local positions [p0, p0 + n0) × [p1, p1 + n1) of a descriptor, packed at Span address `a`: curd or
elements, then whey, then tile headers. A block coordinate list is left out: its tiles are staged dense. -/
def Desc.window (d : Desc) (a p0 n0 p1 n1 : Nat) : Desc :=
  let w : Desc := { d with
    addr := a
    rankM1 := 1
    cap := false
    diag := false
    bindDim := 0
    bindReg := 0
    sparse := if d.bcl then 0 else d.sparse
    rsv := 1
    wheyOff := 0
    wheyStride := 0
    metaOff := 0
    dims := [windowDim (d.ext 0) (d.glob0 0 + p0) n0 (d.u 0), windowDim (d.ext 1) (d.glob0 1 + p1) n1 (d.u 1),
      ⟨0, 0, 0, 0, 0, 0⟩, ⟨0, 0, 0, 0, 0, 0⟩, ⟨0, 0, 0, 0, 0, 0⟩, ⟨0, 0, 0, 0, 0, 0⟩] }
  if d.pit then
    let curd := w.rows1 * w.stride1
    let whey := w.wheyRows * w.wheyStrideB
    { w with wheyOff := (curd / 8 : Nat), metaOff := if w.bitmap then (ceilDiv (curd + whey) 64 : Nat) else 0 }
  else w

/-- A dimension of `n` valid positions that begins inside a group of 128, or on a group boundary: the second of two shards of an odd
count of chunks, or no shard (R21, R242). DEDUCED (log entry 36). -/
def plainDim (n : Nat) (inside : Bool) : Dim :=
  let b := n / 64 + (n / 64 + 1) % 2
  if inside then ⟨64 * b + n, 0, 1, 1, b, 0⟩ else ⟨n, 0, 0, 0, 0, 0⟩

/-- The same window as a transfer names it, all of it valid, its groups where they are: tags travel unchanged (R264). -/
def Desc.plainWindow (w : Desc) (n0 n1 : Nat) : Desc :=
  let inside (k : Nat) : Bool := w.redDim == k && w.lead != 0
  { w with dims := [plainDim n0 (inside 0), plainDim n1 (inside 1), ⟨0, 0, 0, 0, 0, 0⟩, ⟨0, 0, 0, 0, 0, 0⟩,
      ⟨0, 0, 0, 0, 0, 0⟩, ⟨0, 0, 0, 0, 0, 0⟩] }

/-- Bytes of a window. -/
def Desc.windowBytes (w : Desc) : Nat :=
  let curd := w.rows1 * w.stride1
  if w.pit then
    let whey := w.wheyRows * w.wheyStrideB
    if w.bitmap then up64 (curd + whey) + 8 * (w.owned 1 / w.u1 * w.tilesPerRow) else curd + whey
  else curd

/-! The loop (R260, R261). -/

/-- A NEST TMUL as planned: operands and destination, the array layout, the first quartet, the origin, and the reduction
range with its slabs. -/
structure NestOp where
  word : NestWord
  w : DCopy
  a : DCopy
  dd : DCopy
  layout : Nat
  q : Nat
  actLead : Bool
  k : Nat
  n : Nat
  m : Nat
  o : Nat
  stop : Nat
  store : StoreWord
  deriving DecidableEq, Repr

/-- Weight descriptor. -/
def NestOp.W (t : NestOp) : Desc := Desc.of t.w.bits

/-- Activation descriptor. -/
def NestOp.A (t : NestOp) : Desc := Desc.of t.a.bits

/-- Destination descriptor. -/
def NestOp.D (t : NestOp) : Desc := Desc.of t.dd.bits

/-- Valid rows of the weight. -/
def NestOp.chans (t : NestOp) : Nat := t.w.shape.at (if t.W.across then 0 else 1)

/-- Valid tokens. -/
def NestOp.toks (t : NestOp) : Nat := t.a.shape.at 1

/-- Owned rows of the weight. -/
def NestOp.ownChans (t : NestOp) : Nat := t.W.owned (if t.W.across then 0 else 1)

/-- Pairs of two lists, the first outer. -/
def pairsOf (l m : List Nat) : List (Nat × Nat) := l.flatMap (fun a => m.map (fun b => (a, b)))

/-- (token, channel) pairs of quartet or memory tile numbers, tokens or channels outer. -/
def ordered (chansOuter : Bool) (ms ns : List Nat) : List (Nat × Nat) :=
  if chansOuter then (pairsOf ns ms).map (fun e => (e.2, e.1)) else pairsOf ms ns

/-- Quartet tiles (token, channel) in loop order. -/
def NestOp.quartets (t : NestOp) : List (Nat × Nat) :=
  let mq := ceilDiv (t.toks - t.m) (quartToks t.layout)
  let nq := ceilDiv (t.chans - t.n) (quartChans t.layout)
  let range (i size n : Nat) : List Nat := (List.range (min size (n - i * size))).map (· + i * size)
  (ordered t.word.memOrder (List.range (ceilDiv mq t.word.qm)) (List.range (ceilDiv nq t.word.qn))).flatMap (fun e =>
    ordered t.word.spadOrder (range e.1 t.word.qm mq) (range e.2 t.word.qn nq))

/-- First elements of the slabs: chunks of the reduction range. -/
def NestOp.slabs (t : NestOp) : List (Nat × Nat) :=
  if t.stop ≤ t.k then []
  else
    let c0 := t.k / 64
    let c1 := ceilDiv t.stop 64
    let size := if t.word.slab = 0 then c1 - c0 else t.word.slab
    (List.range (ceilDiv (c1 - c0) size)).map (fun i => (64 * (c0 + i * size), min (64 * (c0 + (i + 1) * size)) (64 * c1)))

/-- One use of slabs by a quartet: the quartet's number, its first channel and token, the slab, and the numbers of the
stagings that hold its operands. -/
structure NestUse where
  i : Nat
  n : Nat
  m : Nat
  lo : Nat
  hi : Nat
  ws : Nat
  as : Nat
  deriving DecidableEq, Repr, Inhabited

/-- The number of the staging that holds `key`: the last one, where it is held, or a new one (R261). -/
def staged {α : Type} [DecidableEq α] (l : List α) (key : α) : List α × Nat :=
  if l.getLast? = some key then (l, l.length - 1) else (l ++ [key], l.length)

/-- The uses of a loop, with what was staged in each run: (row, slab) of the weight and of the activation. -/
structure NestUses where
  uses : List NestUse
  ws : List (Nat × Nat)
  as : List (Nat × Nat)
  deriving DecidableEq, Repr, Inhabited

/-- All uses in loop order. -/
def NestOp.uses (t : NestOp) : NestUses :=
  (t.quartets.zipIdx.flatMap (fun q => t.slabs.map (fun s => (q, s)))).foldl (fun (z : NestUses) e =>
    let n := t.n + e.1.1.2 * quartChans t.layout
    let m := t.m + e.1.1.1 * quartToks t.layout
    let w := staged z.ws (n, e.2.1)
    let a := staged z.as (m, e.2.1)
    ⟨z.uses ++ [⟨e.1.2, n, m, e.2.1, e.2.2, w.2, a.2⟩], w.1, a.1⟩) ⟨[], [], []⟩

/-- Pail of staging `i` of a run that begins at pail `p`. -/
def NestOp.runPail (t : NestOp) (p i : Nat) : Nat := (p + i % t.word.pc) % 64

/-- Local Span address of a pail's storage in core `c`. -/
def State.pailBase (s : State) (c i : Nat) : Nat :=
  s.nodeId * 2 ^ 48 + spadBase + c * 0x100000 + (s.pailCfg c i).first * 64 * (s.core c).bm

/-- Window of the weight for a use, in pail `i`. -/
def NestOp.wWindow (t : NestOp) (s : State) (c i n lo hi : Nat) : Desc :=
  let rows := min (quartChans t.layout) (t.ownChans - n)
  if t.W.across then t.W.window (s.pailBase c i) n rows lo (hi - lo) else t.W.window (s.pailBase c i) lo (hi - lo) n rows

/-- Window of the activation for a use, in pail `i`. -/
def NestOp.aWindow (t : NestOp) (s : State) (c i m lo hi : Nat) : Desc :=
  t.A.window (s.pailBase c i) lo (hi - lo) m (min (quartToks t.layout) (t.A.owned 1 - m))

/-- Whether tokens run along the destination's elements. -/
def NestOp.tokenElems (t : NestOp) : Bool := t.store.layout == 1

/-- Destination window of the quartet at (n, m), in pail `i`, as its store writes it. -/
def NestOp.dWindow (t : NestOp) (s : State) (c i n m : Nat) : Desc :=
  let (p0, z0, p1, z1) := if t.tokenElems then (m, quartToks t.layout, n, quartChans t.layout)
    else (n, quartChans t.layout, m, quartToks t.layout)
  t.D.stored.window (s.pailBase c i) p0 (min z0 (t.D.owned 0 - p0)) p1 (min z1 (t.D.owned 1 - p1))

/-- An origin word (R262) of position (p0, p1) at outer index `o`. -/
def boxOrigin (p0 p1 o : Nat) : Dword := BitVec.ofNat 64 (p0 + p1 * 2 ^ 24 + o * 2 ^ 52)

/-- A transfer that planning posts: staging into a pail, or an output out of one. -/
def nestXfer (pc : Nat) (src dst : DCopy) (org : Dword) (side : Bool) (srcPail dstPail : Option Nat) : Xfer :=
  { (default : Xfer) with
    pc := pc
    kind := .move
    side := side
    src := src
    dst := dst
    org := org
    srcPail := srcPail
    dstPail := dstPail
    nest := true }

/-- The transfers of one use: staging that its slabs are the first to need. -/
def NestOp.stage (t : NestOp) (s : State) (c pc : Nat) (seenW seenA : Nat) (u : NestUse) : List Xfer :=
  let copy (d : Desc) : DCopy := ⟨0, d.encode2, 0⟩
  (if u.ws < seenW then [] else
    let i := t.runPail t.word.pw u.ws
    let w := t.wWindow s c i u.n u.lo u.hi
    let org := if t.W.across then boxOrigin u.n u.lo t.o else boxOrigin u.lo u.n t.o
    [nestXfer pc t.w (copy (w.plainWindow (w.owned 0) (w.owned 1))) org false none (some i)]) ++
  (if u.as < seenA then [] else
    let i := t.runPail t.word.pa u.as
    let w := t.aWindow s c i u.m u.lo u.hi
    [nestXfer pc t.a (copy (w.plainWindow (w.owned 0) (w.owned 1))) (boxOrigin u.lo u.m t.o) false none (some i)])

/-- A destination as the output transfer of a NEST loop writes through it: the stored format, groups along dimension 0 (R35,
R238, `Desc.stored`). DESIGN CHOICE (log entry 124). -/
def DCopy.stored (d : DCopy) : DCopy :=
  let n := d.bits.toNat
  { d with bits := BitVec.ofNat 512 (n + Machine.bits n 65 4 * 2 ^ 69 - Machine.bits n 69 4 * 2 ^ 69 - b2n (bitOf n 87) * 2 ^ 87) }

/-- The output transfer of quartet `i` at (n, m) (R260). -/
def NestOp.output (t : NestOp) (s : State) (c pc i n m : Nat) : Xfer :=
  let p := t.runPail t.word.po i
  let w := t.dWindow s c p n m
  let org := if t.tokenElems then boxOrigin m n t.o else boxOrigin n m t.o
  nestXfer pc ⟨0, (w.plainWindow (w.owned 0) (w.owned 1)).encode2, 0⟩ t.dd.stored org true (some p) none

/-- Everything of a loop: its steps, its transfers in loop order, and the fetches that held slabs save. -/
structure NestLoop where
  steps : List NestStep
  xfers : List Xfer
  reuse : Nat
  deriving DecidableEq, Repr

/-- The fault of the entry that the tile of a block of rows in a chunk, both local, is the first to consume (R133). -/
def Desc.listBad (d : Desc) (l : Option BclList) (blk kc : Nat) : Option Nat :=
  l.bind (fun l => if d.across then l.fault d kc blk else l.fault d blk kc)

/-- Whether a block of rows has its tile in a chunk; every one but those that a block coordinate list leaves out (R138). -/
def Desc.lists (d : Desc) (l : Option BclList) (blk kc : Nat) : Bool :=
  (d.listBad l blk kc).isSome || (match l with
    | some l => (if d.across then l.slot d kc blk else l.slot d blk kc).isSome
    | none => true)

/-- The lists of a loop's operands as they have been read; none for an operand without one (R138). -/
structure NestLists where
  w : Option BclList
  a : Option BclList
  deriving DecidableEq, Repr, Inhabited

/-- The lists that a part of a NEST loop holds. -/
def NestOp.listsOf (t : NestOp) (part : Part) : NestLists :=
  let get (d : DCopy) : Option BclList :=
    (part.lists.lookup d.dreg).map (fun l => (Desc.of d.bits).parseList none (l.map (fun e => ⟨e.2.1, e.1, e.2.2⟩)))
  ⟨get t.w, get t.a⟩

/-- The block of the weight and of the activation that array `a` takes of the quartet at (n, m). -/
def NestOp.blocks (t : NestOp) (n m a : Nat) : Nat × Nat := ((n + arrayChan t.layout a) / 64, (m + arrayTok t.layout a) / 16)

/-- The (array, chunk of the slab) pairs of the slab [lo, hi) of the quartet at (n, m) that the lists leave out (R138, R260). DEDUCED (log entry 125). -/
def NestOp.skips (t : NestOp) (l : NestLists) (n m lo hi : Nat) : List (Nat × Nat) :=
  (pairsOf (List.range 4) (List.range (ceilDiv (hi - lo) 64))).filter (fun e =>
    let b := t.blocks n m e.1
    !(t.W.lists l.w b.1 (lo / 64 + e.2) && t.A.lists l.a b.2 (lo / 64 + e.2)))

/-- The first chunk of a slab on which an entry of a list breaks R133: the chunk of the slab, the array, and the fault. DEDUCED (log entry 125). -/
def NestOp.badChunk (t : NestOp) (l : NestLists) (n m lo hi : Nat) : Option (Nat × Nat × Nat) :=
  (pairsOf (List.range (ceilDiv (hi - lo) 64)) (List.range 4)).findSome? (fun e =>
    let b := t.blocks n m e.2
    ((t.W.listBad l.w b.1 (lo / 64 + e.1)).or (t.A.listBad l.a b.2 (lo / 64 + e.1))).map (fun c => (e.1, e.2, c)))

/-- The steps and transfers of one quartet, with the stagings seen so far. -/
def NestOp.quartet (t : NestOp) (s : State) (c pc : Nat) (all : List NestUse)
    (z : NestLoop × Nat × Nat) (q : (Nat × Nat) × Nat) : NestLoop × Nat × Nat :=
  let n := t.n + q.1.2 * quartChans t.layout
  let m := t.m + q.1.1 * quartToks t.layout
  let half := (t.q + q.2) % 2
  let p := t.runPail t.word.po q.2
  let mine := all.filter (fun u => u.i == q.2)
  let later (f : NestUse → Nat) (u : NestUse) : Bool :=
    all.any (fun v => f v == f u && (decide (u.i < v.i) || (v.i == u.i && decide (u.lo < v.lo))))
  let steps := mine.map (fun u =>
    NestStep.slab half u.n u.m u.lo u.hi (t.runPail t.word.pw u.ws) (t.runPail t.word.pa u.as) (!later (·.ws) u)
      (!later (·.as) u))
  let x := mine.foldl (fun (y : List Xfer × Nat × Nat) u =>
    (y.1 ++ t.stage s c pc y.2.1 y.2.2 u, max y.2.1 (u.ws + 1), max y.2.2 (u.as + 1))) (([] : List Xfer), z.2)
  (⟨z.1.steps ++ steps ++ [.store half n m p], z.1.xfers ++ x.1 ++ [t.output s c pc q.2 n m], z.1.reuse⟩, x.2)

/-- The whole loop. DEDUCED (log entry 36). -/
def NestOp.loop (t : NestOp) (s : State) (c pc : Nat) : NestLoop :=
  let u := t.uses
  let z := t.quartets.zipIdx.foldl (t.quartet s c pc u.uses) (⟨[], [], 0⟩, 0, 0)
  { z.1 with reuse := 2 * u.uses.length - u.ws.length - u.as.length }

/-! CORE.NEST_FIT (R261). -/

/-- Whether a run's pails have the roles that it requires. -/
def State.runRoles (s : State) (c : Nat) (pails : List Nat) (producer consumer : Nat) : Bool :=
  pails.all (fun i => let p := s.pailCfg c i; p.valid && p.producer == producer && p.consumer == consumer)

/-- Pails of a run. -/
def NestOp.run (t : NestOp) (p : Nat) : List Nat := (List.range t.word.pc).map (t.runPail p)

/-- Whether bytes fit each pail of a run. -/
def State.runFits (s : State) (c : Nat) (pails : List Nat) (bytes : Nat) : Bool :=
  pails.all (fun i => decide (bytes ≤ (s.pailCfg c i).rows * 64 * (s.core c).bm))

/-- Whether the runs fit the loop. -/
def NestOp.fits (t : NestOp) (s : State) (c : Nat) : Bool :=
  s.runRoles c (t.run t.word.pw) 2 0 && s.runRoles c (t.run t.word.pa) 2 0 && s.runRoles c (t.run t.word.po) 0 2 &&
  t.uses.uses.all (fun u =>
    s.runFits c (t.run t.word.pw) (t.wWindow s c t.word.pw u.n u.lo u.hi).windowBytes &&
    s.runFits c (t.run t.word.pa) (t.aWindow s c t.word.pa u.m u.lo u.hi).windowBytes) &&
  t.quartets.all (fun q =>
    s.runFits c (t.run t.word.po) (t.dWindow s c t.word.po (t.n + q.2 * quartChans t.layout) (t.m + q.1 * quartToks t.layout)).windowBytes)

/-! Steps. -/

/-- A shape of two dimensions. -/
def shape2 (a b : Nat) : Shape := ⟨[a, b, 1, 1, 1, 1], 0, false⟩

/-- The product of one slab step (R260). -/
def NestOp.product (t : NestOp) (s : State) (c half n m lo hi wPail aPail : Nat) (skips : List (Nat × Nat)) : Product :=
  let red := min t.stop hi - lo
  let chans := min (quartChans t.layout) (t.chans - n)
  let w : Operand := ⟨t.w, t.wWindow s c wPail n lo hi, if t.W.across then shape2 chans red else shape2 red chans, 0, 0, none, false⟩
  let a : Operand := ⟨t.a, t.aWindow s c aPail m lo hi, shape2 red (min (quartToks t.layout) (t.toks - m)), 0, 0, none, false⟩
  ⟨w, a, 4 * half, t.layout, t.actLead, t.k - lo, red, skips⟩

/-- The store of one quartet (R260): the word's span and array layout are the quartet's, and it releases. -/
def NestOp.storeOp (t : NestOp) (s : State) (c half n m pail : Nat) (df : DCopy) (tables : Tab Word) : StoreOp :=
  let D := t.dWindow s c pail n m
  let (p0, p1) := if t.tokenElems then (m, n) else (n, m)
  let sh := t.dd.shape
  { w := t.store
    tile := 4 * half
    dd := t.dd
    D := D
    sh := shape2 (min (D.owned 0) (sh.at 0 - p0)) (min (D.owned 1) (sh.at 1 - p1))
    df := df
    n := 0
    m := 0
    o := 0
    fn := n
    fm := m
    fo := t.o
    lin0 := t.D.ext 0 * t.D.ext 1 * t.o
    tables := tables
    frees := [] }

end Sys2Proof.Machine
end

