-- ==== Sys2Proof/Machine/Planning.lean ====
section
/-! DEFINITION. Planning: what an operation of the Sequencer queue is made of, the faults that planning finds, and the counts
that it fixes (09_programming_model.md R222–R227; 10_tensors_and_tiling.md R253–R261; 11_ngaosh_instruction_reference.md
R290–R300). -/

namespace Sys2Proof.Machine

/-! What an operation names. -/

/-- A tensor origin word (R257). -/
structure Origin where
  k : Nat
  n : Nat
  m : Nat
  o : Nat
  deriving DecidableEq, Repr, Inhabited

/-- Read an origin word. -/
def Origin.of (v : Nat) : Origin := ⟨bits v 0 20, bits v 20 16, bits v 36 16, bits v 52 12⟩

/-- Descriptor copy `i` of an operation. -/
def SeqOp.dc (o : SeqOp) (i : Nat) : DCopy := o.descs.getD i ⟨0, 0, 0⟩

/-- Value `i` of the g-registers that an operation copied. -/
def SeqOp.gv (o : SeqOp) (i : Nat) : Nat := (o.gvals.getD i 0).toNat

/-- The epoch that an operation's pail accesses carry: 0 once VERIFY has passed (R231). DEDUCED (log entry 44). -/
def Core.pailEpoch (k : Core) (e : Nat) : Nat := if k.epoch e = .endingVerify then 0 else e

/-- What an operation reads from. -/
def State.dp (s : State) (c : Nat) (o : SeqOp) : DpCtx := ⟨s, c, (s.core c).pailEpoch o.epoch, o.overlay⟩

/-- An operand of a product at a first row and an outer index. -/
def State.operand (s : State) (c : Nat) (d : DCopy) (row0 ol : Nat) : Operand :=
  let D := Desc.of d.bits
  ⟨d, D, d.shape, ol, row0, if D.pitW then (s.core c).packed.lookup D.wheyBase.toNat else none, false⟩

/-- The end of a reduction range (R63, R258). -/
def rangeEnd (word k red : Nat) : Nat := if bits word 1 20 = 0 then red else min (k + 64 * bits word 1 20) red

/-- A product of weight `w` by activation `a`. -/
def State.productOf (s : State) (c : Nat) (w a : DCopy) (g : Origin) (word tile layout : Nat) (lead pairs : Bool) : Product :=
  let W := s.operand c w (if pairs then 0 else g.n) g.o
  let A := s.operand c a (if pairs then 0 else g.m) g.o
  ⟨W, A, tile, layout, lead, g.k, rangeEnd word g.k (min W.red A.red), []⟩

/-- TMUL's product under TILE1 (R291). -/
def State.tmulProduct (s : State) (c : Nat) (o : SeqOp) (f : FmtX) : Product :=
  s.productOf c (o.dc 0) (o.dc 1) (Origin.of (o.gv 0)) (o.gv 1) (4 * f.q.toNat) f.layout.toNat (f.lead == 1) false

/-- TMUL2's first product (R292). -/
def State.firstProduct (s : State) (c : Nat) (o : SeqOp) (f : FmtY) : Product :=
  s.productOf c (o.dc 0) (o.dc 1) (Origin.of (o.gv 0)) (o.gv 2) (4 * f.q.toNat) f.layout.toNat false false

/-- TMUL2's second product: its k field is ignored, and its range is the whole intermediate (R292). -/
def State.secondProduct (s : State) (c : Nat) (o : SeqOp) (f : FmtY) : Product :=
  s.productOf c (o.dc 2) (o.dc 3) { Origin.of (o.gv 1) with k := 0 } 0 (4 * (1 - f.q.toNat)) f.layout.toNat false false

/-- The product of PAIRS (R144, R299). -/
def State.pairsProduct (s : State) (c : Nat) (o : SeqOp) (f : FmtN) : Product :=
  s.productOf c (o.dc 0) (o.dc 1) (Origin.of (o.gv 0)) (o.gv 1) (4 * f.q.toNat) 0 false true

/-- A store at origin `g` of its destination. -/
def storeAt (word tile : Nat) (dd df : DCopy) (g : Origin) (tables : Tab Word) (frees : List Nat) : StoreOp where
  w := StoreWord.of word
  tile := tile
  dd := dd
  D := (Desc.of dd.bits).stored
  sh := dd.shape
  df := df
  n := g.n
  m := g.m
  o := g.o
  fn := g.n
  fm := g.m
  fo := g.o
  lin0 := 0
  tables := tables
  frees := frees

/-- TSTORE's store (R296). -/
def SeqOp.store (o : SeqOp) (f : FmtS) : StoreOp :=
  storeAt (o.gv 0) f.tile.toNat (o.dc 0) (o.dc 1) { Origin.of (o.gv 1) with k := 0 } o.tables []

/-- TMUL2's store of the intermediate (R292, R293); a fused quartet is released with its source. -/
def SeqOp.innerStore (o : SeqOp) (f : FmtY) : StoreOp :=
  let second := 4 * (1 - f.q.toNat)
  let frees := if (StoreWord.of (o.gv 3)).fused then (List.range 4).map (· + second) else []
  storeAt (o.gv 3) (4 * f.q.toNat) (o.dc 3) ⟨0, 0, 0⟩ ⟨0, 0, 0, (Origin.of (o.gv 0)).o⟩ o.tables frees

/-- A NEST TMUL (R260). DESIGN CHOICE (log entry 138). -/
def SeqOp.nestOp (o : SeqOp) (f : FmtX) : NestOp :=
  let g := Origin.of (o.gv 0)
  let w := o.dc 0
  let a := o.dc 1
  let red := min (w.shape.at (if (Desc.of w.bits).across then 1 else 0)) (a.shape.at 0)
  { word := NestWord.of (o.gv 1)
    w := w
    a := a
    dd := o.dc 2
    layout := f.layout.toNat
    q := f.q.toNat
    actLead := f.lead == 1
    k := g.k
    n := g.n
    m := g.m
    o := g.o
    stop := red
    store := { StoreWord.of (o.gv 2) with span := 1, arr := f.layout.toNat, release := true } }

/-! Faults of planning. -/

/-- A stop where a condition holds. -/
def stopIf (b : Bool) (st : Stop) : Option Stop := if b then some st else none

/-- A tiling word that does not suit (R258): NEST where only TILE1 is taken, or a reserved bit. -/
def tilingBad (word : Nat) : Bool := bitOf word 0 || word / 2 ^ 21 != 0

/-- The place that an operand must have (R528). -/
def State.placeBad (s : State) (c : Nat) (d : DCopy) : Bool := !(Desc.of d.bits).allOwn c || !s.isLocal (Desc.of d.bits)

/-- The faults of operands of a product: layouts, places, permissions and shapes (R245, R249, R253, R291, R528). -/
def State.operandFault (s : State) (c : Nat) (w a : DCopy) (own : Bool) : Option Stop :=
  let W := Desc.of w.bits
  let A := Desc.of a.bits
  firstOf [
    w.unset, a.unset,
    stopIf (!W.pitW) (w.fault Code.descInvalid 3),
    stopIf (!A.pitA) (a.fault Code.descInvalid 3),
    stopIf (own && s.placeBad c w) (w.fault Code.descInvalid 7),
    stopIf (own && s.placeBad c a) (a.fault Code.descInvalid 7),
    stopIf (s.descDenied W false) (w.fault Code.descInvalid 8),
    stopIf (s.descDenied A false) (a.fault Code.descInvalid 8),
    stopIf w.shape.excess (w.fault Code.shapeOver 0),
    stopIf a.shape.excess (a.fault Code.shapeOver 0)]

/-- Whether a precision in force is that of a product's operands (R57, R226). -/
def Product.precOk (p : Product) (q : Option Prec) : Bool :=
  q.any (fun q => q.w.toNat == p.w.d.view && q.a.toNat == p.a.d.view && q.f.toNat == p.w.fx + p.a.fx)

/-- The faults of a product's precision, origin and range (R63, R226, R257). -/
def Product.rangeFault (p : Product) (q : Option Prec) (n m : Nat) : Option Stop :=
  firstOf [
    stopIf (!p.precOk q) (Stop.of Code.precOperand),
    stopIf (p.k0 % p.gt != 0) (p.w.copy.fault Code.descInvalid 4),
    originFault p.w.copy n m false,
    stopIf (decide (2 ^ 20 < p.w.d.owned p.w.redDim) || decide (2 ^ 16 < p.w.d.owned p.w.rowDim)) (p.w.copy.fault Code.descInvalid 5),
    stopIf (decide (2 ^ 20 < p.a.d.owned 0) || decide (2 ^ 16 < p.a.d.owned 1)) (p.a.copy.fault Code.descInvalid 5),
    stopIf (p.stop != min p.w.red p.a.red && p.stop % p.gt != 0) (Stop.of Code.groupSplit)]

/-- The faults of one product. DEDUCED (log entry 40). -/
def Product.fault (p : Product) (s : State) (c : Nat) (q : Option Prec) (n m : Nat) : Option Stop :=
  (s.operandFault c p.w.copy p.a.copy true).or (p.rangeFault q n m)

/-- The faults of TMUL under TILE1. -/
def State.tmulFault (s : State) (c : Nat) (o : SeqOp) (f : FmtX) : Option Stop :=
  let g := Origin.of (o.gv 0)
  firstOf [
    stopIf (tilingBad (o.gv 1)) (Stop.of Code.illegalOp),
    stopIf (f.layout == 3) (Stop.of Code.layoutReserved),
    (s.tmulProduct c o f).fault s c o.prec g.n g.m,
    (s.core c).partsFault false o.slip]

/-- The faults of TMUL2 (R115, R292, R293). -/
def State.tmul2Fault (s : State) (c : Nat) (o : SeqOp) (f : FmtY) : Option Stop :=
  let g := Origin.of (o.gv 0)
  let h := Origin.of (o.gv 1)
  let t := o.innerStore f
  firstOf [
    stopIf (tilingBad (o.gv 2)) (Stop.of Code.illegalOp),
    stopIf (f.layout == 3) (Stop.of Code.layoutReserved),
    stopIf (t.w.bad t.tile || t.w.badInner f.layout.toNat (4 * (1 - f.q.toNat))) (Stop.of Code.wordReserved),
    (s.firstProduct c o f).fault s c o.prec g.n g.m,
    t.fault s c,
    stopIf (!s.descInPail c t.D) (t.dd.fault Code.destSpace 0),
    (s.secondProduct c o f).fault s c o.prec h.n h.m,
    (s.core c).partsFault true o.slip]

/-- The faults of TSTORE. -/
def State.tstoreFault (s : State) (c : Nat) (o : SeqOp) (f : FmtS) : Option Stop :=
  let t := o.store f
  firstOf [
    stopIf (t.w.bad t.tile) (Stop.of Code.wordReserved),
    t.fault s c,
    (s.core c).partsFault false o.slip]

/-- Elements of a TINGEST's source that lie inside the valid extent: word, element and row (R298). -/
def SeqOp.ingestPlaces (o : SeqOp) : List (Nat × Nat × Nat) :=
  let sh := (o.dc 0).shape
  let g := Origin.of (o.gv 0)
  let l := (List.range 64).flatMap (fun n => (List.range 16).map (fun t => (16 * n + t, g.n + n, g.m + t)))
  l.filter (fun e => decide (e.2.1 < sh.at 0) && decide (e.2.2 < sh.at 1))

/-- Whether an element that a TINGEST reads lies outside the pails that its template names (R528). DEDUCED (log entry 126). -/
def State.ingestOutside (s : State) (c : Nat) (o : SeqOp) : Bool :=
  let D := Desc.of (o.dc 0).bits
  let g := Origin.of (o.gv 0)
  let pails := (s.core c).templatePails false o.slip
  o.ingestPlaces.any (fun e =>
    let a := localOf (D.elemAddr e.2.1 e.2.2 g.o)
    (s.runWords D a (a + D.elem)).any (fun w => !(s.pailAt c (64 * w)).any pails.contains))

/-- The faults of TINGEST (R298, R528). DEDUCED (log entry 35). DEDUCED (log entry 126). -/
def State.tingestFault (s : State) (c : Nat) (o : SeqOp) : Option Stop :=
  let d := o.dc 0
  let D := Desc.of d.bits
  let g := Origin.of (o.gv 0)
  firstOf [
    d.unset,
    stopIf (D.layout != 2 && D.layout != 3) (d.fault Code.formatMismatch 0),
    stopIf (s.placeBad c d) (d.fault Code.descInvalid 7),
    stopIf (s.descDenied D false) (d.fault Code.descInvalid 8),
    stopIf d.shape.excess (d.fault Code.shapeOver 0),
    originFault d g.n g.m (decide (2 ^ 16 < D.owned 0) || decide (2 ^ 16 < D.owned 1)),
    (s.core c).partsFault false o.slip,
    stopIf (s.ingestOutside c o) (d.fault Code.descInvalid 7)]

/-- The faults of PAIRS (R144, R299, R300). -/
def State.pairsFault (s : State) (c : Nat) (o : SeqOp) (f : FmtN) : Option Stop :=
  let p := s.pairsProduct c o f
  let g := Origin.of (o.gv 0)
  let r := o.dc 2
  let R := Desc.of r.bits
  let kept (d : DCopy) : Bool := (Desc.of d.bits).dense || (Desc.of d.bits).bitmap
  firstOf [
    stopIf (tilingBad (o.gv 1)) (Stop.of Code.illegalOp),
    r.unset,
    stopIf (!kept (o.dc 0)) ((o.dc 0).fault Code.descInvalid 3),
    stopIf (!kept (o.dc 1)) ((o.dc 1).fault Code.descInvalid 3),
    stopIf (R.layout != 4) (r.fault Code.descInvalid 3),
    stopIf (s.placeBad c r) (r.fault Code.descInvalid 7),
    stopIf (s.descDenied R false) (r.fault Code.descInvalid 8),
    stopIf r.shape.excess (r.fault Code.shapeOver 0),
    p.fault s c o.prec g.n g.m,
    stopIf (decide (4096 < r.shape.at 0)) (r.fault Code.descInvalid 5),
    (s.core c).partsFault false o.slip]

/-- The faults of MATCH, MERGE and SELECT (R299): layouts of inputs and of the output. -/
def State.sintOpFault (s : State) (c : Nat) (o : SeqOp) (fn : Nat) : Option Stop :=
  if fn = 3 then s.sintFault c [(o.dc 0, 2, false), (o.dc 1, 2, true)]
  else s.sintFault c [(o.dc 0, 2, false), (o.dc 1, 2, false), (o.dc 2, if fn = 0 then 4 else 2, true)]

/-- The stores of a NEST loop, in loop order (R260). -/
def NestOp.stores (t : NestOp) (s : State) (c : Nat) (df : DCopy) (tables : Tab Word) : List StoreOp :=
  t.quartets.zipIdx.map (fun q =>
    t.storeOp s c ((t.q + q.2) % 2) (t.n + q.1.2 * quartChans t.layout) (t.m + q.1.1 * quartToks t.layout)
      (t.runPail t.word.po q.2) df tables)

/-- A store of a NEST loop as it meets its destination rather than its pail. -/
def NestOp.atDest (t : NestOp) (st : StoreOp) : StoreOp :=
  { st with D := t.D.stored, sh := t.dd.shape, n := st.fn, m := st.fm, o := st.fo }

/-- The faults of the stores of a NEST loop (R99–R101): of the fit and the groups of each in its destination, of each in its pail,
and of the destination against its fused tensor and its side outputs. -/
def NestOp.storesFault (t : NestOp) (s : State) (c : Nat) (df : DCopy) (tables : Tab Word) : Option Stop :=
  let l := t.stores s c df tables
  firstOf [
    stopIf (l.any (fun st => (t.atDest st).misfit)) (Stop.of Code.layoutFit),
    stopIf (l.any (fun st => (t.atDest st).splits)) (Stop.of Code.mintGroupSplit),
    l.findSome? (fun st => st.placeFault s c),
    stopIf ((l.head?).any (fun st => (t.atDest st).overlaps s c)) (Stop.of Code.mintOverlap)]

/-- The quartets that a loop uses: the named one first, then alternating (R260). -/
def NestOp.halves (t : NestOp) : List Nat := if t.quartets.length ≤ 1 then [t.q] else [t.q, 1 - t.q]

/-- The faults of the store word of a NEST TMUL, as TSTORE names it and as each quartet that the loop uses stores with it (R95, R96,
R260). -/
def NestOp.wordBad (t : NestOp) (raw : StoreWord) : Bool :=
  raw.reserved || t.halves.any (fun h => t.store.bad (4 * h))

/-- The faults of a NEST TMUL (R229, R249, R253, R257–R261, R528). DEDUCED (log entry 36). -/
def State.nestFault (s : State) (c : Nat) (o : SeqOp) (f : FmtX) : Option Stop :=
  let t := o.nestOp f
  let g := Origin.of (o.gv 0)
  let p : Product := s.productOf c t.w t.a g 0 0 t.layout t.actLead false
  let D := t.D
  let u := t.word
  let fuse := t.store.usesDf
  let F := Desc.of (o.dc 3).bits
  firstOf [
    stopIf (u.rsv != 0) (Stop.of Code.illegalOp),
    stopIf (f.layout == 3) (Stop.of Code.layoutReserved),
    stopIf (t.wordBad (StoreWord.of (o.gv 2))) (Stop.of Code.wordReserved),
    stopIf (o.epoch != 0) (Stop.of Code.specOutside),
    s.operandFault c t.w t.a false,
    t.dd.unset, if fuse then (o.dc 3).unset else none,
    stopIf (D.layout != t.store.destLayout) (t.dd.fault Code.descInvalid 3),
    stopIf (fuse && (if t.store.fuseSrc = 1 then !F.pit else F.layout != 2)) ((o.dc 3).fault Code.descInvalid 3),
    stopIf (s.placeBad c t.dd) (t.dd.fault Code.destSpace 0),
    stopIf (fuse && s.placeBad c (o.dc 3)) ((o.dc 3).fault Code.destSpace 0),
    stopIf (s.descDenied D true) (t.dd.fault Code.descInvalid 8),
    stopIf (fuse && s.descDenied F false) ((o.dc 3).fault Code.descInvalid 8),
    stopIf t.dd.shape.excess (t.dd.fault Code.shapeOver 0),
    stopIf (fuse && (o.dc 3).shape.excess) ((o.dc 3).fault Code.shapeOver 0),
    p.rangeFault o.prec g.n g.m,
    originFault t.dd g.n g.m (decide (2 ^ 16 < D.owned 0) || decide (2 ^ 16 < D.owned 1)),
    stopIf (fuse && t.store.fuseSrc == 1 && (decide (2 ^ 16 < F.owned 0) || decide (2 ^ 16 < F.owned 1)))
      ((o.dc 3).fault Code.descInvalid 5),
    stopIf (64 * u.slab % p.gt != 0) (Stop.of Code.groupSplit),
    stopIf (!t.fits s c) (Stop.of Code.nestFit),
    t.storesFault s c (o.dc 3) o.tables,
    (s.core c).partsFault false o.slip]

/-- The faults that planning finds (R223). DEDUCED (log entry 38). -/
def State.planFault (s : State) (c : Nat) (o : SeqOp) : Option Stop :=
  match o.kind with
  | .tmul f => if bitOf (o.gv 1) 0 then s.nestFault c o f else s.tmulFault c o f
  | .tmul2 f => s.tmul2Fault c o f
  | .tstore f => s.tstoreFault c o f
  | .tclear _ => none
  | .tingest _ => s.tingestFault c o
  | .sint fn f => if fn = 2 then s.pairsFault c o f else s.sintOpFault c o fn
  | .setprec _ => none
  | .setclass _ _ => none

/-! Parts. -/

/-- What planning finds of a product's data: none while a metadata pail is not readable; data that a slip will refuse
leaves the counts of a dense product. DEDUCED (log entry 37). -/
def Product.planned (p : Product) (x : DpCtx) : Option ProductPlan :=
  match (p.plan x).run [] with
  | .ok z => some z.1
  | .error (.wait _) => none
  | .error _ => some p.densePlan

/-- What the end of a product adds to counters (R64, R69, R139), but for its plane pairs and its chunks, which count as they issue. -/
def productCounts (c : Nat) (p : Product) (z : ProductPlan) : List (Nat × Nat × Nat) :=
  [(0, Reg.CORE_TALLY_PORT_LO c, z.cycles - z.chunks * p.pairs)]

/-- What the first slip of a product adds to counters: the chunks that the intersection of lists dropped (R138, R154). -/
def skippedCounts (c : Nat) (z : ProductPlan) : List (Nat × Nat × Nat) := [(1, Reg.CORE_STRAIN_SKIPPED c, z.skipped)]

/-- A part that takes its pail events alone (R254–R256); `noop` counts it as a no-op. DEDUCED (log entry 33). -/
def quietPart (c num : Nat) (noop : Bool) : Part :=
  { plainPart num with quiet := true, counts := if noop then [(1, Reg.CORE_DESC_NOOPS c, 1)] else [] }

/-- What planning finds of a product whose activation a store before it makes: none of its tiles stands yet, and all will be held
but those that a list leaves out. DEDUCED (log entry 26). -/
def Product.plannedAfter (p : Product) (x : DpCtx) : Option ProductPlan :=
  let q : Product := { p with a := { p.a with fresh := true } }
  if p.a.d.bcl then
    match (p.plan x).run [] with
    | .ok z => some z.1
    | .error _ => q.planned x
  else q.planned x

/-- The part of a product over template rows. -/
def State.productPart (s : State) (c : Nat) (p : Product) (num : Nat) (rows : List Nat) (z : ProductPlan) : Part :=
  if p.stop ≤ p.k0 then quietPart c num false
  else { plainPart num with
    slips := (s.core c).expand (p.slipCounts z.chunks) rows
    counts := productCounts c p z
    pairs := z.chunks * p.pairs
    uses := z.uses
    first := skippedCounts c z }

/-- The counts that a store's LOOP rows may name (R220). -/
def StoreOp.slipCounts (t : StoreOp) : SlipCounts := ⟨t.elems / 64, ceilDiv t.rowsN t.D.tileRows, t.groups.length, 1, 0, 0⟩

/-- The part of a store over template rows. -/
def State.storePart (s : State) (c : Nat) (t : StoreOp) (num : Nat) (rows : List Nat) (noop : Bool) : Part :=
  if t.empty then quietPart c num noop else { plainPart num with slips := (s.core c).expand t.slipCounts rows }

/-- TMUL's part under TILE1. -/
def State.tmulParts (s : State) (c : Nat) (o : SeqOp) (f : FmtX) : Option (List Part) :=
  let p := s.tmulProduct c o f
  if p.empty then some [quietPart c 0 true]
  else (p.planned (s.dp c o)).map (fun z => [s.productPart c p 0 ((s.core c).template o.slip 4096) z])

/-- TMUL2's parts (R292–R294); none while metadata that planning reads are not readable (R223). DEDUCED (log entry 26). -/
def State.tmul2Parts (s : State) (c : Nat) (o : SeqOp) (f : FmtY) : Option (List Part) :=
  let p := s.firstProduct c o f
  let q := s.secondProduct c o f
  let t := o.innerStore f
  let rows := (s.core c).partRows true o.slip
  if p.empty then some [quietPart c 0 true, quietPart c 1 false, quietPart c 2 false]
  else match p.planned (s.dp c o), if q.empty then some q.densePlan else q.plannedAfter (s.dp c o) with
    | some z, some y =>
      some [s.productPart c p 0 (rows.getD 0 []) z,
        s.storePart c t 1 (rows.getD 1 []) false,
        if q.empty then quietPart c 2 false else s.productPart c q 2 (rows.getD 2 []) y]
    | _, _ => none

/-- Whether TINGEST has no valid position in a row or outer dimension. -/
def SeqOp.ingestEmpty (o : SeqOp) : Bool :=
  let sh := (o.dc 0).shape
  let g := Origin.of (o.gv 0)
  let p := (Desc.of (o.dc 0).bits).outerPos g.o
  decide (sh.at 1 ≤ g.m) || !(List.range 4).all (fun k => decide (posAt p k < sh.at (k + 2)))

/-- PAIRS' part (R145). DEDUCED (log entry 26). -/
def State.pairsParts (s : State) (c : Nat) (o : SeqOp) (f : FmtN) : Option (List Part) :=
  let p := s.pairsProduct c o f
  let x := s.dp c o
  let r := o.dc 2
  if p.empty then some [quietPart c 0 true]
  else if p.stop ≤ p.k0 then some [quietPart c 0 false]
  else
    let part (cycles : Nat) (groups : List (Nat × Nat)) : Part :=
      let n := p.chunks.length
      { plainPart 0 with
        slips := (s.core c).expand (p.slipCounts n) ((s.core c).template o.slip 4096)
        counts := [(0, Reg.CORE_TALLY_PORT_LO c, cycles - n * p.pairs)]
        pairs := n * p.pairs
        uses := p.densePlan.uses
        perGroup := groups.map (fun g => [(1, Reg.LEDG_SCATTER_IDLE c, g.1), (2, Reg.LEDG_QUEUE_MAX c, g.2)]) }
    let read : Dp (Nat × List (Nat × Nat)) := do
      let rs ← x.pairRecs (Desc.of r.bits) r.dreg 0 (r.shape.at 0)
      p.pairsPlan x rs
    match read.run [] with
    | .ok z => some [part z.1.1 z.1.2]
    | .error (.wait _) => none
    | .error _ => some [part (p.chunks.length * p.pairs) []]

/-- The descriptors whose bound dimensions an operation resolves (R253). -/
def SeqOp.bound (o : SeqOp) : List DCopy :=
  match o.kind with
  | .tmul _ => if bitOf (o.gv 1) 0 then o.descs.take 3 ++ (if (StoreWord.of (o.gv 2)).usesDf then [o.dc 3] else []) else o.descs.take 2
  | .tmul2 _ => o.descs
  | .tstore _ => [o.dc 0] ++ if (StoreWord.of (o.gv 0)).usesDf then [o.dc 1] else []
  | _ => o.descs

/-- What CLAMP drops (R253). -/
def SeqOp.dropped (o : SeqOp) : Nat := sumOf (o.bound.map (fun d => d.shape.dropped))

/-- The entries of the list of a NEST operand of this module, as planning reads them; those of another module come with the first
staging (R138). DEDUCED (log entry 125). -/
def State.nestList (s : State) (c : Nat) (d : DCopy) : List (Nat × List ListEntry) :=
  let D := Desc.of d.bits
  if D.bcl && s.isLocal D then
    match ((Mv.start s c default).bclList D d.dreg ⟨⟨false, D.diag⟩, none⟩).2 with
    | some l => [(d.dreg, l.map (fun e => (e.nb, e.kb, e.slot)))]
    | none => []
  else []

/-- Whether planning a NEST TMUL waits for metadata of its fused tensor (R223). -/
def State.nestWaits (s : State) (c : Nat) (o : SeqOp) (f : FmtX) : Bool :=
  let t := o.nestOp f
  t.store.usesDf && (s.dp c o).metaWaits { Desc.of (o.dc 3).bits with across := false } (o.dc 3).dreg false

/-- Whether the outer position of a NEST TMUL is valid in an operand or the destination (R254, R257). -/
def NestOp.outerOk (t : NestOp) : Bool :=
  [t.w, t.a, t.dd].all (fun d =>
    (List.range 4).all (fun k => decide (posAt ((Desc.of d.bits).outerPos t.o) k < d.shape.at (k + 2))))

/-- Number the transfers of a loop from `n` on. -/
def numbered (n : Nat) (l : List Xfer) : List Xfer := l.zipIdx.map (fun e => { e.1 with id := n + e.2 })

/-- What planning an operation gives: a fault, or its parts, transfers to post, slabs held, and blocks of draws (R223, R260,
R261, R330). -/
structure Planned where
  fault : Option Stop
  parts : List Part
  xfers : List Xfer
  reuse : Nat
  draws : Nat
  deriving DecidableEq, Repr

/-- A plan of parts alone. -/
def Planned.of (l : List Part) : Planned := ⟨none, l, [], 0, 0⟩

/-- A plan that stops the core. -/
def Planned.stop (st : Stop) : Planned := ⟨some st, [], [], 0, 0⟩

/-- Plan a NEST TMUL. DEDUCED (log entry 36). -/
def State.planNest (s : State) (c : Nat) (o : SeqOp) (f : FmtX) : Planned :=
  let t := o.nestOp f
  let remote := !s.isLocal t.W || !s.isLocal t.A
  if remote && !spanPresent s.variant then .stop (Stop.of Code.unitAbsent)
  else if t.chans ≤ t.n ∨ t.toks ≤ t.m ∨ t.outerOk = false then .of [quietPart c 0 true]
  else
    let z := t.loop s c o.pc
    match z.xfers.mapM (s.xferWins c) with
    | none => .stop (Stop.of Code.noHandle)
    | some xs =>
      ⟨none, [{ plainPart 0 with nest := z.steps, halves := t.halves, lists := s.nestList c t.w ++ s.nestList c t.a }], xs, z.reuse, 0⟩

/-- The blocks of draws that planning a SELECT asks for, none while its scores are not readable (R330); scores that its slip
will refuse ask for none. DEDUCED (log entry 127). -/
def State.auditDraws (s : State) (c : Nat) (o : SeqOp) : Option Nat :=
  match ((s.dp c o).auditBlocks (o.dc 0)).run [] with
  | .ok z => some z.1
  | .error (.wait _) => none
  | .error _ => some 0

/-- Plan an operation without a fault; none while it waits for metadata. -/
def State.planParts (s : State) (c : Nat) (o : SeqOp) : Option Planned :=
  match o.kind with
  | .tmul f => if bitOf (o.gv 1) 0 then (if s.nestWaits c o f then none else some (s.planNest c o f)) else (s.tmulParts c o f).map .of
  | .tmul2 f => (s.tmul2Parts c o f).map .of
  | .tstore f =>
    if (o.store f).waits (s.dp c o) then none
    else some (.of [s.storePart c (o.store f) 0 ((s.core c).template o.slip 4096) true])
  | .tclear m => some (.of (if m = 0 then [] else [plainPart 0]))
  | .tingest _ =>
    some (.of [if o.ingestEmpty then quietPart c 0 true
      else { plainPart 0 with slips := (s.core c).expand ⟨1, 1, 1, 1, 0, 0⟩ ((s.core c).template o.slip 4096) }])
  | .sint fn f =>
    if fn = 2 then (s.pairsParts c o f).map .of
    else if fn = 3 then (s.auditDraws c o).map (fun n => { Planned.of [plainPart 0] with draws := n })
    else some (.of [plainPart 0])
  | .setprec _ => some (.of [])
  | .setclass _ _ => some (.of [plainPart 0])

/-- Plan an operation: its faults first, each at the first row of its template. DEDUCED (log entry 38). -/
def State.plan (s : State) (c : Nat) (o : SeqOp) : Option Planned :=
  match s.planFault c o with
  | some st => some (.stop { st with slip := some (st.slip.getD (if o.kind.templated then o.slip else 0)) })
  | none => s.planParts c o

/-! The queue. -/

/-- Put a plan on operation `id`. -/
def Core.modSeq (k : Core) (id : Nat) (f : SeqOp → SeqOp) : Core :=
  { k with seq := k.seq.map (fun o => if o.id = id then f o else o) }

/-- The operation at the head of the queue has ended (R218, R226). DEDUCED (log entry 34). -/
def State.seqEnd (s : State) (c : Nat) (o : SeqOp) (v : Option Dword) : State :=
  let s := s.modCore c (fun k => { k with
    seq := k.seq.tail
    precHead := match o.kind with
      | .setprec p => some p
      | _ => k.precHead })
  s.opEnd c o.id 0 v

/-- Planned operations at the head that issue nothing end, at most `n` of them. DEDUCED (log entry 34). DEDUCED (log entry 38). -/
def State.settle (s : State) (c : Nat) : Nat → State
  | 0 => s
  | n + 1 =>
    match (s.core c).seq with
    | [] => s
    | o :: _ =>
      match o.plan with
      | none => s
      | some p => if p.parts.isEmpty then (s.seqEnd c o none).settle c n else s

/-- Whether a planned operation runs a NEST loop that has not ended. DEDUCED (log entry 36). -/
def SeqOp.nesting (o : SeqOp) : Bool := match o.kind with
  | .tmul _ => bitOf (o.gv 1) 0 && o.plan.isSome
  | _ => false

/-- The operation that is planned next: the first without a plan, no NEST loop standing before it. DEDUCED (log entry 36). -/
def Core.toPlan (k : Core) : Option SeqOp :=
  if k.seq.any SeqOp.nesting then none else k.seq.find? (fun o => o.plan.isNone)

/-- Planning of an operation ends: a fault stops the core, whatever still runs before the operation (R224); else its transfers
are posted in loop order (R260). -/
def State.planned (s : State) (c gap : Nat) (o : SeqOp) (p : Planned) : State :=
  let s := s.bump64 (Reg.CORE_SEQ_GAP_LO c) gap
  match p.fault with
  | some st => s.stopCore c { st with pc := some o.pc }
  | none =>
    let s := (s.bump64 (Reg.CORE_DESC_DROPPED_LO c) o.dropped).countBlocks c p.draws
    let s := s.bump32 (Reg.CORE_DESC_NEST_REUSE c) p.reuse
    let s := s.modCore c (fun k =>
      let k := k.modSeq o.id (fun o => { o with plan := some ⟨p.parts⟩ })
      { k with dma := k.dma ++ numbered k.nextOp p.xfers, nextOp := k.nextOp + p.xfers.length })
    s.settle c 64

/-- PLANNING (R223): `gap` core cycles found the data path without a slip. DEDUCED (log entry 37). -/
def execPlanning (c : CoreId) (gap : Nat) (s : State) : Outcome :=
  let k := s.core c.val
  if k.running && !k.stopped then
    match k.toPlan with
    | some o => match s.plan c.val o with
      | some p => .next (s.planned c.val gap o p)
      | none => .next s
    | none => .next s
  else .next s

end Sys2Proof.Machine
end

