-- ==== Sys2Proof/Machine/Issue.lean ====
section
/-! DEFINITION. Issue: the slips of the operation at the head of the Sequencer queue, their checks and effects, the lockstep
freeze, and the ends of operations (03_the_tally.md R65–R68; 04_ledgers.md R80–R86; 06_sparse_operands_and_the_strainer.md
R151–R153; 09_programming_model.md R221–R227; 10_tensors_and_tiling.md R254–R260). -/

namespace Sys2Proof.Machine

/-! What a part does. -/

/-- The work of a part: what its slips carry out. -/
inductive Work where
  | product (p : Product)
  | pairs (p : Product) (recs : DCopy)
  | store (t : StoreOp)
  | ingest (tile : Nat)
  | clear (mask : Nat)
  | sint (fn : Nat)
  | setclass (cls k : Nat)
  | none_

/-- The work of part `num` of an operation. -/
def State.work (s : State) (c : Nat) (o : SeqOp) (num : Nat) : Work :=
  match o.kind with
  | .tmul f => .product (s.tmulProduct c o f)
  | .tmul2 f =>
    if num = 0 then .product (s.firstProduct c o f)
    else if num = 1 then .store (o.innerStore f)
    else .product (s.secondProduct c o f)
  | .tstore f => .store (o.store f)
  | .tclear m => .clear m
  | .tingest f => .ingest f.tile.toNat
  | .sint fn f => if fn = 2 then .pairs (s.pairsProduct c o f) (o.dc 2) else .sint fn
  | .setprec _ => .none_
  | .setclass cls k => .setclass cls k

/-! Checks of the first slip. -/

/-- A stop at a ledger tile. -/
def tileStop (code l : Nat) : DpErr := .of { Stop.of code with tile := some l }

/-- Whether an operation of epoch `e` may name tile `l` (R83, R151–R153). -/
def Core.nameTile (k : Core) (e l : Nat) : Except DpErr Unit :=
  let t := k.tile l
  let ending := k.epoch t.epoch == .endingVerify || k.epoch t.epoch == .endingSquash
  match t.st with
  | .clear => .ok ()
  | .opened => if e = 0 then .ok () else .error (tileStop Code.shadowAccess l)
  | .invalid => .error (tileStop (if e = 0 then Code.ledgerInvalid else Code.shadowAccess) l)
  | .shadow => if t.epoch = e then .ok () else if ending then .error .hold else .error (tileStop Code.shadowAccess l)

/-- Whether a Tally operation of precision `p` may add into tile `l` (R82, R151). -/
def Core.mixTile (k : Core) (p : Prec) (l : Nat) : Except DpErr Unit :=
  let t := k.tile l
  if (t.st = .opened ∨ t.st = .shadow) ∧ t.tag ≠ p then .error (tileStop Code.precisionMix l) else .ok ()

/-- Whether adds that arrived before wait for one of some tiles (R86). -/
def Core.addsWait (k : Core) (l : List Nat) : Except DpErr Unit :=
  if k.adds.any (fun a => l.contains a.tile) then .error .hold else .ok ()

/-- A check of each of a list. -/
def checkAll {α : Type} (f : α → Except DpErr Unit) : List α → Except DpErr Unit
  | [] => .ok ()
  | a :: r => match f a with
    | .ok _ => checkAll f r
    | e => e

/-- Tiles of a quartet. -/
def quartet (first : Nat) : List Nat := (List.range 4).map (· + first)

/-- Whether a stochastic store's stream is open (R107, R309). -/
def Core.streamCheck (k : Core) (w : StoreWord) : Except DpErr Unit :=
  if w.stochastic ∧ (k.streamOpen w.stream).isNone then .error (.of (Stop.of Code.streamClosed)) else .ok ()

/-- The checks of a product that adds into tiles `act` of a quartet. -/
def Core.productCheck (k : Core) (e : Nat) (p : Option Prec) (first : Nat) (act : List Nat) : Except DpErr Unit := do
  checkAll (k.nameTile e) (quartet first)
  match p with
  | some p => checkAll (k.mixTile p) act
  | none => .ok ()

/-- Arrays of a quartet that the records of a PAIRS drive. -/
def recArrays (l : List PairRec) : List Nat := (List.range 4).filter (fun a => l.any (fun r => r.array == a))

/-- TCLEAR's check: a shadow tile refuses it (R152). -/
def Core.clearCheck (k : Core) (l : List Nat) : Except DpErr Unit := do
  checkAll (fun i => if (k.tile i).st = .shadow then k.nameTile 0 i else .ok ()) l
  k.addsWait l

/-- TINGEST's check (R81, R83, R152, R298). -/
def Core.ingestCheck (k : Core) (p : Option Prec) (l : Nat) : Except DpErr Unit := do
  k.nameTile 0 l
  if (k.tile l).st = .clear ∧ p = none then throw (.of (Stop.of Code.precOperand))

/-- Tiles of a mask. -/
def maskTiles (m : Nat) : List Nat := (List.range 8).filter (bitOf m)

/-- A pail that a STORE slip names (R118, R183, R186). DEDUCED (log entry 32). -/
def DpCtx.storePail (x : DpCtx) (i : Nat) : Except DpErr Unit :=
  let p := x.s.pailCfg x.c i
  if !p.valid || p.producer != 0 then .error (.of { Stop.of Code.pailRole with row := p.first })
  else if (x.k.pail i).writable x.epoch then .ok () else .error (.wait i)

/-- The records of a PAIRS. -/
def DpCtx.recs (x : DpCtx) (r : DCopy) : Dp (List PairRec) := x.pairRecs (Desc.of r.bits) r.dreg 0 (r.shape.at 0)

/-- Whether the tiles of a part are CLEAR again before it runs, so that its product finds no tags: the second quartet of a TMUL2
whose store fuses it (R293). -/
def SeqOp.cleared (o : SeqOp) (num : Nat) : Bool :=
  match o.kind with
  | .tmul2 _ => num == 2 && (StoreWord.of (o.gv 3)).fused
  | _ => false

/-- The checks of the tiles that a part names, made when the operation's first slip would issue (R82, R83, R151–R153). A quiet part
adds nothing, so no tag of a tile is checked. -/
def State.tileCheck (s : State) (c : Nat) (o : SeqOp) (part : Part) : Dp Unit := do
  let k := s.core c
  let prec := if part.quiet || o.cleared part.num then none else o.prec
  match s.work c o part.num with
  | .product p => (k.productCheck o.epoch prec p.tile (p.active.map (· + p.tile)) : Except DpErr Unit)
  | .pairs p r =>
    let l ← if part.quiet then pure [] else (s.dp c o).recs r
    (k.productCheck o.epoch prec p.tile ((recArrays l).map (· + p.tile)) : Except DpErr Unit)
  | .store t => (checkAll (k.nameTile o.epoch) (t.tiles ++ t.w.fuseTiles) : Except DpErr Unit)
  | .ingest l => (k.ingestCheck o.prec l : Except DpErr Unit)
  | .clear m => (k.clearCheck (maskTiles m) : Except DpErr Unit)
  | .sint _ => pure ()
  | .setclass cls n =>
    if bits s.sched.cls.toNat 0 2 < cls ∨ bits s.sched.cls.toNat 2 4 < n then throw (.of (Stop.of Code.classLimit))
  | .none_ => pure ()

/-- Whether an operation is a NEST TMUL. -/
def SeqOp.nest? (o : SeqOp) : Option FmtX :=
  match o.kind with
  | .tmul f => if bitOf (o.gv 1) 0 then some f else none
  | _ => none

/-- The tiles that the first slab of a quartet adds into. -/
def NestOp.firstTiles (t : NestOp) (s : State) (c half : Nat) (l : List NestStep) : List Nat :=
  match l.find? (fun z => match z with
    | .slab h _ _ _ _ _ _ _ _ => h == half
    | .store _ _ _ _ => false) with
  | some (.slab h n m lo hi wp ap _ _) => (t.product s c h n m lo hi wp ap []).active.map (· + 4 * half)
  | _ => []

/-- The checks of the tiles that a NEST loop names. -/
def State.nestCheck (s : State) (c : Nat) (o : SeqOp) (f : FmtX) (part : Part) : Except DpErr Unit := do
  let k := s.core c
  let t := o.nestOp f
  let halves := part.halves
  checkAll (k.nameTile 0) (halves.flatMap (fun h => quartet (4 * h)) ++ t.store.fuseTiles)
  match o.prec with
  | some p => checkAll (k.mixTile p) (halves.flatMap (fun h => t.firstTiles s c h part.nest))
  | none => .ok ()

/-- The checks of every tile that an operation names, before its first slip. -/
def State.opCheck (s : State) (c : Nat) (o : SeqOp) : Dp Unit := do
  let parts := (o.plan.map (·.parts)).getD []
  match o.nest? with
  | some f => let _ ← parts.mapM (fun p => (s.nestCheck c o f p : Except DpErr Unit))
  | none => let _ ← parts.mapM (s.tileCheck c o)

/-- The checks made when a part's first slip would issue: a store's adds and stream (R86, R107, R309, R329), and the pails of its
STORE slips (R118). -/
def State.beginCheck (s : State) (c : Nat) (o : SeqOp) (part : Part) (w : Work) : Except DpErr Unit := do
  let k := s.core c
  match w with
  | .store t => do
    k.addsWait (t.tiles ++ t.w.fuseTiles ++ t.frees)
    k.streamCheck t.w
  | _ => .ok ()
  checkAll (s.dp c o).storePail ((part.slips.filter (fun sl => sl.kind == 4)).map (·.pail))

/-- The checks that stand before the next slip of a part: those of the operation, if none of its slips has issued, and those of the
part, if it has not begun. -/
def State.firstCheck (s : State) (c : Nat) (o : SeqOp) (part : Part) (w : Work) : Dp Unit := do
  if o.started = false then s.opCheck c o
  if o.begun = false then (s.beginCheck c o part w : Except DpErr Unit)

/-! Slips. -/

/-- The 64 B words of a READ slip: rows of its pail, in MATRIX-owned banks. -/
def DpCtx.slipWords (x : DpCtx) (sl : Slip) : List Nat :=
  let p := x.s.pailCfg x.c sl.pail
  let lo := p.first + sl.rowOff
  let n := min sl.rows (p.rows - sl.rowOff)
  (List.range n).flatMap (fun r => x.k.matrixBanks.map (fun b => (lo + r) * 1024 + b * 64))

/-- The checks of a pail that a READ slip reads (R65, R67, R185, R186, R189). -/
def DpCtx.readPail (x : DpCtx) (i : Nat) : Except DpErr Unit :=
  let p := x.s.pailCfg x.c i
  let t := x.k.pail i
  if !p.valid || p.consumer != 0 then .error (.of { Stop.of Code.pailRole with row := p.first })
  else if t.readable x.epoch = false then .error (.wait i)
  else if t.err then .error (.kept t.kept)
  else .ok ()

/-- Read one word of a READ slip. -/
def DpCtx.readWord (x : DpCtx) (a : Nat) : Except DpErr Unit :=
  match x.power a with
  | .ok _ => if x.k.parityBad a 64 then .error (.of (spadStop Code.parity a 0)) else .ok ()
  | e => e

/-- A READ slip: the bytes that it reads join those held. -/
def DpCtx.readSlip (x : DpCtx) (sl : Slip) : Except DpErr (Tab Byte) := do
  x.readPail sl.pail
  checkAll x.readWord (x.slipWords sl)
  return (x.slipWords sl).foldl (fun t a => putBytes t a (x.k.spadBytes a 64)) x.overlay

/-- The pails of a READ slip after it. -/
def Core.readDone (k : Core) (sl : Slip) : Core :=
  let p := (k.pail sl.pail).firstRead
  k.setPail sl.pail (if sl.last then p.emptied else p)

/-- How far a run of product groups came: the state, the drawn index, the next group, and what stopped it. -/
structure GroupsEnd where
  s : State
  drawn : Nat
  next : Nat
  err : Option DpErr

/-- Product groups [i, i + n) end one by one: what `read` gives of a group goes through `emit`. The groups before one that
cannot be read stand (R68). -/
def groupsEnd {α : Type} (c : Nat) (read : Nat → Dp α) (emit : Nat → State → Nat → α → State × Nat) (i : Nat) :
    Nat → State × Nat → GroupsEnd
  | 0, z => ⟨z.1, z.2, i, none⟩
  | n + 1, z => match (read i).run [] with
    | .ok r => groupsEnd c read emit (i + 1) n (emit i (z.1.modCore c (·.readPails r.2)) z.2 r.1)
    | .error e => ⟨z.1, z.2, i, some e⟩

/-- The precision that an operation copied; planning has seen that a Tally operation has one. -/
def SeqOp.precOf (o : SeqOp) : Prec := o.prec.getD ⟨0, 0, 0, 0⟩

/-- Apply the counts of a part. -/
def State.applyCounts (s : State) (l : List (Nat × Nat × Nat)) : State :=
  l.foldl (fun (s : State) e =>
    if e.1 = 0 then s.bump64 e.2.1 e.2.2 else if e.1 = 1 then s.bump32 e.2.1 e.2.2 else s.maxReg e.2.1 e.2.2) s

/-- Up to `n` further product groups of a part end; each adds what its scatter counts (R88). DEDUCED (log entry 120). -/
def State.endGroups (s : State) (c : Nat) (o : SeqOp) (w : Work) (n : Nat) : Except DpErr State :=
  let x := s.dp c o
  let per := (o.part.map (·.perGroup)).getD []
  let go {α : Type} (total : Nat) (read : Nat → Dp α) (emit : Nat → State → Nat → α → State × Nat) : Except DpErr State :=
    let z := groupsEnd c read emit o.group (min n (total - o.group)) (s, o.drawn)
    let t := z.s.modCore c (fun k => k.modSeq o.id (fun o => { o with group := z.next, drawn := z.drawn }))
    match z.err with
    | none => .ok t
    | some e => .error (.after t e)
  match w with
  | .product p => go p.groups (p.readGroup x) (fun _ t d r => p.endGroup t c o.epoch o.precOf d r)
  | .pairs p r => go p.groups (fun i => do
      let l ← x.recs r
      p.readPairs x i l) (fun i t d l => p.endPairs (t.applyCounts (per.getD i [])) c o.epoch o.precOf d l)
  | _ => .ok s

/-! What PAIR slips consume (R29, R68, R127). -/

/-- Plane pairs of a chunk. -/
def Work.planePairs : Work → Nat
  | .product p => p.pairs
  | .pairs p _ => p.pairs
  | _ => 0

/-- Read what the slips of one chunk are the first to consume. -/
def Work.consume (w : Work) (x : DpCtx) (u : ChunkUse) : Dp Unit := do
  match w with
  | .product p => p.consume x u
  | .pairs p r =>
    let l ← x.recs r
    let _ ← l.mapM (p.consumePair x u)
  | _ => pure ()

/-- Whether an operation's next PAIR slip is the first of a chunk of `n` plane pairs. -/
def SeqOp.chunkStart (o : SeqOp) (n : Nat) : Bool := n != 0 && o.checked % n == 0

/-- A PAIR slip: the first of a chunk checks the chunk's operands and counts the chunk (R154), and each is a core cycle of plane
pairs (R69). DEDUCED (log entry 118). -/
def State.pairSlip (s : State) (c : Nat) (o : SeqOp) (part : Part) (w : Work) : Except DpErr State := do
  let u := if o.chunkStart w.planePairs then part.uses.headD default else default
  let (_, pails) ← (w.consume (s.dp c o) u).run []
  let s := (s.bump64 (Reg.CORE_TALLY_PAIRS_LO c) (min 1 part.pairs)).applyCounts u.counts
  return s.modCore c (fun k => (k.readPails pails).modSeq o.id (fun o => { o with checked := o.checked + 1 }))

/-- A part after a slip of kind `kind` of operation `o`, of work whose chunks have `n` plane pairs. -/
def Part.counted (p : Part) (o : SeqOp) (n kind : Nat) : Part :=
  if kind = 2 then { p with pairs := p.pairs - 1, uses := if o.chunkStart n then p.uses.tail else p.uses } else p

/-! Ingest (R44, R298). -/

/-- Read one element of a TINGEST as binary32; a bfloat16 element is its upper half. -/
def DpCtx.ingestElem (x : DpCtx) (d : Desc) (dreg e r o : Nat) : Dp Word := do
  let bs ← x.get d dreg (d.elemAddr e r o) d.elem
  return BitVec.ofNat 32 (if d.layout = 3 then leNat bs * 65536 else leNat bs)

/-- The elements of a TINGEST inside the valid extent: (word, value). DEDUCED (log entry 35). -/
def SeqOp.ingestRead (o : SeqOp) (x : DpCtx) : Dp (List (Nat × Word)) := do
  let c := o.dc 0
  o.ingestPlaces.mapM (fun e => do
    let v ← x.ingestElem (Desc.of c.bits) c.dreg e.2.1 e.2.2 (Origin.of (o.gv 0)).o
    return (e.1, v))

/-- Add ingested values to a tile (R74, R81). -/
def State.ingest (s : State) (c l : Nat) (p : Option Prec) (vs : List (Nat × Word)) : State :=
  if vs.isEmpty then s
  else
    let t := (s.core c).tile l
    let t := if t.st = .clear then t.openWith (p.getD t.tag) else t
    let (t, n) := vs.foldl (fun (a : Tile × AddCount) e =>
      let (t, n) := a.1.addF32 e.1 e.2
      (t, a.2.add n)) (t, ⟨0, 0, 0⟩)
    (s.setTile c l t).countAdds c n

/-! The end of a part. -/

/-- Clear tiles of a mask under a precision (R80, R297). -/
def Core.clearTiles (k : Core) (p : Option Prec) (l : List Nat) : Core := l.foldl (fun k i => k.setTile i ((k.tile i).clearTo p)) k

/-- A store mints and lands (R110, R118). Its end moves the pails that its STORE slips name, not others that it wrote
(R187). DEDUCED (log entry 12). -/
def State.storeRun (s : State) (c : Nat) (o : SeqOp) (t : StoreOp) : Except DpErr State := do
  let x := s.dp c o
  let (m, reads) ← (t.mint x).run []
  let pails ← x.checkOut m.out
  let s := s.modCore c (·.readPails reads)
  return t.finish s c x.epoch m pails

/-- MATCH, MERGE or SELECT runs (R141–R148): the state and the number of outputs produced. Under FAULT, outputs beyond the capacity stop the core
once those that fit are written. DEDUCED (log entry 30). -/
def State.sintRun (s : State) (c : Nat) (o : SeqOp) (fn : Nat) : Except DpErr (State × Option Nat) := do
  let x := s.dp c o
  let (z, reads) ← (x.sint fn o.descs).run []
  let d := o.descs.getLastD ⟨0, 0, 0⟩
  let out ← x.outputs d z.list
  let pails ← x.checkOut out
  let s := s.modCore c (fun k => (k.readPails reads).writeOut x.epoch out pails)
  let s := match z.sel with
    | some y => s.selected c y
    | none => s
  let D := Desc.of d.bits
  let extra := z.list.length - D.owned 0
  if D.cap && decide (0 < extra) then return (s, none)
  else return (s.bump64 (Reg.CORE_DESC_DROPPED_LO c) extra, some z.list.length)

/-- How a part that has done its work ends: the written pails become FULL, and the next part comes (R187). -/
def State.partEnd (s : State) (c : Nat) (o : SeqOp) (part : Part) (v : Option Dword) : State :=
  let s := (s.applyCounts (part.uses.flatMap (·.counts) ++ part.counts)).bump64 (Reg.CORE_TALLY_PAIRS_LO c) part.pairs
  let s := s.modCore c (fun k => match k.seq with
    | o :: r =>
      let k := o.writes.dedup.foldl (fun k i => k.setPail i ((k.pail i).filled 0)) k
      { k with seq := { o with
          plan := o.plan.map (fun p => ⟨p.parts.tail⟩)
          begun := false
          group := 0
          checked := 0
          overlay := []
          reads := []
          writes := [] } :: r }
    | [] => k)
  match (s.core c).seq with
  | p :: _ => if p.id = o.id ∧ p.plan.any (fun q => q.parts.isEmpty) then (s.seqEnd c p v).settle c 64 else s
  | [] => s

/-- What the last slip of a part completes. DEDUCED (log entry 12). -/
def State.partWork (s : State) (c : Nat) (o : SeqOp) (part : Part) (w : Work) : Except DpErr State := do
  match w with
  | .product p => return (← s.endGroups c o w p.groups).partEnd c o part none
  | .pairs p _ => return (← s.endGroups c o w p.groups).partEnd c o part none
  | .store t => return (← s.storeRun c o t).partEnd c o part none
  | .ingest l => do
    let (vs, reads) ← (Dp.forTile l 0 (o.ingestRead (s.dp c o))).run []
    return ((s.modCore c (·.readPails reads)).ingest c l o.prec vs).partEnd c o part none
  | .clear m => return (s.modCore c (·.clearTiles o.prec (maskTiles m))).partEnd c o part none
  | .sint fn => do
    let (s, n) ← s.sintRun c o fn
    match n with
    | some n => return s.partEnd c o part (some (BitVec.ofNat 64 n))
    | none => return s.stopCore c { (o.descs.getLastD ⟨0, 0, 0⟩).fault Code.shapeOver 0 with pc := some o.pc, slip := some 0 }
  | .setclass cls k => return (s.modCore c (fun y => { y with classHead := (cls, k) })).partEnd c o part none
  | .none_ => return s.partEnd c o part none

/-! One slip. -/

/-- Pails of the READ and STORE rows of a part, for its quiet form. DEDUCED (log entry 33). -/
def State.quietPails (s : State) (c : Nat) (o : SeqOp) (num kind : Nat) : List Nat :=
  let k := s.core c
  let rows := (k.partRows o.kind.threeParts o.slip).getD num []
  (rows.filter (fun r => k.rowKind r == kind)).map (fun r => bits (k.slipRow r) 4 6) |>.dedup

/-- Whether the whole of a TMUL2 is a no-op, so that its store does nothing (R294). DEDUCED (log entry 23). -/
def State.wholeNoop (s : State) (c : Nat) (o : SeqOp) : Bool :=
  match o.kind with
  | .tmul2 f => (s.firstProduct c o f).empty
  | _ => false

/-- A quiet part (R254–R256): it waits until its pails are FULL and EMPTY, and turns them in one cycle. DEDUCED (log entry 23). DEDUCED (log entry 33). -/
def State.quietRun (s : State) (c : Nat) (o : SeqOp) (part : Part) (w : Work) : Except DpErr State := do
  let x := s.dp c o
  let rd := s.quietPails c o part.num 1
  let wr := s.quietPails c o part.num 4
  let (_, _) ← (s.firstCheck c o part w).run []
  checkAll (fun i => do
    x.readPail i
    if (x.k.pail i).st ≠ .full then throw (DpErr.wait i)) rd
  checkAll (fun i => do
    x.storePail i
    if (x.k.pail i).st ≠ .empty then throw (DpErr.wait i)) wr
  let s := s.modCore c (fun k =>
    let k := rd.foldl (fun k i => k.setPail i (k.pail i).emptied) k
    wr.foldl (fun k i => k.setPail i (((k.pail i).firstWrite x.epoch).filled 0)) k)
  let s := match w with
    | .store t => if s.wholeNoop c o then s else s.releaseTiles c ((if t.w.release then t.tiles else []) ++ t.frees)
    | _ => s
  return s.partEnd c o part none

/-- Note that a part has begun. -/
def Core.begin_ (k : Core) (id : Nat) : Core := k.modSeq id (fun o => { o with started := true, begun := true })

/-- The ledger tile that a READ slip's data goes to: that of the first array that its row drives, else of the first active one, or
the tile of a store or an ingest. DEDUCED (log entry 128). -/
def Work.readTile (w : Work) (sl : Slip) : Option Nat :=
  match w with
  | .product p => (((p.active.filter (bitOf sl.arrays)).head?).or p.active.head?).map (· + p.tile)
  | .pairs p _ => some (p.tile + (((List.range 4).filter (bitOf sl.arrays)).headD 0))
  | .store t => some t.tile
  | .ingest l => some l
  | _ => none

/-- A refused operand read marks the slip's ledger tile INVALID (R176). -/
def refusedRead {α : Type} (l : Option Nat) : Except DpErr α → Except DpErr α
  | .error (.stop st inv) => .error (.stop { st with tile := l } (l.toList ++ inv))
  | r => r

/-- The effect of one slip but for the work that it completes. DEDUCED (log entry 12). -/
def State.slipRun (s : State) (c : Nat) (o : SeqOp) (part : Part) (w : Work) (sl : Slip) : Except DpErr State := do
  if sl.kind = 1 then do
    let t ← refusedRead (w.readTile sl) ((s.dp c o).readSlip sl)
    return s.modCore c (fun k => (k.readDone sl).modSeq o.id (fun o => { o with
      overlay := t
      reads := if sl.last then o.reads.filter (· != sl.pail) else sl.pail :: o.reads }))
  else if sl.kind = 2 then s.pairSlip c o part w
  else if sl.kind = 4 then do
    (s.dp c o).storePail sl.pail
    return s.modCore c (fun k => (k.writePails (k.pailEpoch o.epoch) [sl.pail]).modSeq o.id (fun o =>
      { o with writes := sl.pail :: o.writes }))
  else if sl.kind = 3 ∨ sl.kind = 5 then s.endGroups c o w 1
  else return s

/-- The operation at the head as it now stands. -/
def State.headOp (s : State) (c : Nat) (o : SeqOp) : SeqOp := ((s.core c).seq.headD o)

/-- The next slip of a part issues: the first makes its checks, the last completes the part's work. DEDUCED (log entry 12). -/
def State.partSlip (s : State) (c : Nat) (o : SeqOp) (part : Part) (w : Work) : Except DpErr State := do
  let (_, reads) ← (s.firstCheck c o part w).run []
  let s := (if o.begun then s else s.applyCounts part.first).modCore c (fun k => (k.readPails reads).begin_ o.id)
  match part.slips with
  | [] => s.partWork c (s.headOp c o) part w
  | sl :: rest => do
    let s ← s.slipRun c (s.headOp c o) part w sl
    let s := s.bump64 (Reg.CORE_SEQ_SLIPS_LO c) 1
    let part := { part.counted o w.planePairs sl.kind with slips := rest }
    if rest.isEmpty then s.partWork c (s.headOp c o) part w
    else return s.modCore c (·.modSeq o.id (fun o => { o with plan := o.plan.map (fun p => ⟨part :: p.parts.tail⟩) }))

/-! NEST steps (R260). -/

/-- What the chunks of a slab's product count of which the first to consume a group below `n` has issued. -/
def State.slabUses (s : State) (c : Nat) (p : Product) (z : ProductPlan) (n : Nat) : State :=
  let us := z.uses.take ((z.uses.takeWhile (fun u => u.groups.all (fun i => decide (i < n)))).length)
  (s.applyCounts (skippedCounts c z ++ us.flatMap (·.counts))).bump64 (Reg.CORE_TALLY_PAIRS_LO c) (us.length * p.pairs)

/-- One slab of a NEST loop: its pails are read, and emptied by their last reader (R261). Where a group stops the core, or an entry of a
list does (R133), the groups before it stand, and their chunks count (R68, R69, R154). -/
def State.slabRun (s : State) (c : Nat) (o : SeqOp) (p : Product) (wp ap : Nat) (lastW lastA : Bool)
    (bad : Option (Nat × Nat × Nat)) : Except DpErr State := do
  let x := s.dp c o
  x.readPail wp
  x.readPail ap
  let plan := (p.planned x).getD p.densePlan
  let upTo := match bad with
    | some b => ((List.range p.groups).filter (fun i => decide ((p.range i).2 ≤ 64 * b.1))).length
    | none => p.groups
  let z := groupsEnd c (p.readGroup x) (fun _ t d r => p.endGroup t c 0 o.precOf d r) 0 upTo (s, o.drawn)
  match z.err, bad with
  | some e, _ => throw (.after (z.s.slabUses c p plan z.next) e)
  | none, some b =>
    throw (.after (z.s.slabUses c p plan upTo) (.stop { Stop.of b.2.2 with tile := some (p.tile + b.2.1), array := b.2.1 } [p.tile + b.2.1]))
  | none, none => do
    let u := (z.s.slabUses c p plan p.groups).applyCounts (productCounts c p plan)
    return u.modCore c (fun k =>
      let k := k.readPails [wp, ap]
      let k := if lastW then k.setPail wp (k.pail wp).emptied else k
      let k := if lastA then k.setPail ap (k.pail ap).emptied else k
      k.modSeq o.id (fun o => { o with drawn := z.drawn }))

/-- One store of a NEST loop. -/
def State.nestStore (s : State) (c : Nat) (o : SeqOp) (t : NestOp) (half n m pail : Nat) : Except DpErr State := do
  let x := s.dp c o
  let st := t.storeOp s c half n m pail (o.dc 3) o.tables
  s.beginCheck c o (plainPart 0) (.store st)
  x.storePail pail
  let s ← s.storeRun c o st
  return s.modCore c (fun k => (k.setPail pail (((k.pail pail).firstWrite 0).filled 0)).modSeq o.id (fun o => { o with writes := [] }))

/-- The next step of a NEST loop; it ends once its transfers have completed. DEDUCED (log entry 36). -/
def State.nestSlip (s : State) (c : Nat) (o : SeqOp) (f : FmtX) (part : Part) : Except DpErr State := do
  let t := o.nestOp f
  let (_, _) ← (if o.started then pure () else s.opCheck c o : Dp Unit).run []
  let lists := t.listsOf part
  let go (s : State) (rest : List NestStep) (slab : Bool) : State :=
    (s.bump64 (Reg.CORE_SEQ_SLIPS_LO c) 1).modCore c (fun k => (k.begin_ o.id).modSeq o.id (fun o => { o with
      begun := slab
      plan := some ⟨[{ part with nest := rest }]⟩ }))
  match part.nest with
  | [] => if (s.core c).dma.any (·.nest) then throw .hold else return s.partEnd c o part none
  | .slab half n m lo hi wp ap lw la :: rest =>
    let p := t.product s c half n m lo hi wp ap (t.skips lists n m lo hi)
    return go (← s.slabRun c o p wp ap lw la (t.badChunk lists n m lo hi)) rest true
  | .store half n m p :: rest => return go (← s.nestStore c o t half n m p) rest false

/-- The head of the queue issues its next slip. -/
def State.issueHead (s : State) (c : Nat) (o : SeqOp) (part : Part) : Except DpErr State :=
  match o.nest? with
  | some f => if part.quiet then .ok (s.partEnd c o part none) else s.nestSlip c o f part
  | none =>
    let w := s.work c o part.num
    if part.quiet then s.quietRun c o part w else s.partSlip c o part w

/-! Stops, freezes, and the commands. -/

/-- The template row of a part's next slip. -/
def Part.row (p : Part) (o : SeqOp) : Nat :=
  match p.slips with
  | sl :: _ => sl.row
  | [] => if o.kind.templated then o.slip else 0

/-- The core stops at a slip (R29, R68, R176, R182). -/
def State.slipStop (s : State) (c : Nat) (o : SeqOp) (part : Part) (st : Stop) (inv : List Nat) : State :=
  let st := { st with pc := some o.pc, slip := some (part.row o) }
  let s := inv.foldl (fun s l => s.invalidTile c l) s
  if st.code = Code.parity then (s.parityErrorAt c (st.row * 1024 + st.bank * 64) st.port st.pc st.slip true false).1
  else (s.countRefusal c st.code).stopCore c st

/-- Whether an attempt that failed waits. -/
def DpErr.waits : DpErr → Bool
  | .wait _ => true
  | .hold => true
  | .kept _ => false
  | .stop _ _ => false
  | .after _ e => e.waits

/-- The pail that it waits for. -/
def DpErr.pail : DpErr → Option Nat
  | .wait i => some i
  | .after _ e => e.pail
  | _ => none

/-- The core stops with what a slip met, what issued before it having run to completion (R67, R68). -/
def State.halted (c : Nat) (o : SeqOp) (part : Part) : State → DpErr → State
  | _, .after t e => State.halted c o part t e
  | s, .kept code => s.stopCore c { Stop.of code with pc := some o.pc, slip := some (part.row o) }
  | s, .stop st inv => s.slipStop c o part st inv
  | s, _ => s

/-- What the attempt to issue a slip leaves, `wait` where it waits for a pail. -/
def State.issued (s : State) (c : Nat) (o : SeqOp) (part : Part) : State × Option Nat :=
  match s.issueHead c o part with
  | .ok t => (t, none)
  | .error e => if e.waits then (s, e.pail) else (State.halted c o part s e, none)

/-- The operation at the head and its running part, where a slip may issue. -/
def Core.toIssue (k : Core) : Option (SeqOp × Part) :=
  if k.running && !k.stopped && k.ownerReq.isNone then
    match k.seq with
    | o :: _ => match o.plan with
      | some p => p.parts.head?.map (fun part => (o, part))
      | none => none
    | [] => none
  else none

/-- SLIP_ISSUE (R65, R221); an operation that issues nothing ends once it comes to the head. -/
def execSlipIssue (c : CoreId) (s : State) : Outcome :=
  match (s.core c.val).toIssue, (s.core c.val).freeze with
  | some (o, part), none =>
    match s.issued c.val o part with
    | (_, some i) => .next (s.modCore c.val (fun k => { k with freeze := some ⟨i⟩ }))
    | (t, none) => .next t
  | none, _ => act ((s.core c.val).running && !(s.core c.val).stopped) s (s.settle c.val 64)
  | _, _ => .next s

/-- A freeze of `n` core cycles is over (R67, R69). -/
def State.thaw (s : State) (c n : Nat) : State := (s.countFreeze c n).modCore c (fun k => { k with freeze := none })

/-- FREEZE_END (R65, R67): the slip that waited issues. -/
def execFreezeEnd (c : CoreId) (cycles : Nat) (s : State) : Outcome :=
  let limit := s.regN (Reg.CORE_TALLY_FREEZE_LIMIT c.val)
  match (s.core c.val).toIssue, (s.core c.val).freeze with
  | some (o, part), some _ =>
    match (s.thaw c.val cycles).issued c.val o part with
    | (t, none) => act (decide (limit = 0) || decide (cycles < limit)) s t
    | (_, some _) => .next s
  | _, _ => .next s

/-- FREEZE_LIMIT (R67). -/
def execFreezeLimit (c : CoreId) (s : State) : Outcome :=
  let limit := s.regN (Reg.CORE_TALLY_FREEZE_LIMIT c.val)
  match (s.core c.val).toIssue, (s.core c.val).freeze with
  | some (o, part), some _ =>
    match (s.thaw c.val limit).issued c.val o part with
    | (_, some _) =>
      act (decide (limit ≠ 0)) s
        ((s.thaw c.val limit).stopCore c.val { Stop.of Code.freezeLimit with pc := some o.pc, slip := some (part.row o) })
    | (_, none) => .next s
  | _, _ => .next s

end Sys2Proof.Machine
end

