-- ==== Sys2Proof/Machine/Tasks.lean ====
section
/-! DEFINITION. The task scheduler: taking, validating, loading and starting a task, its end, and its failure
(09_programming_model.md R206–R214, R236; 08_scratchpad_pails_and_rings.md R194; 20_fault_index.md R507–R511). -/

namespace Sys2Proof.Machine

/-! Reading a task (R206–R208). -/

/-- Why a task is refused: status, detail, and the daybook entry that stands already. -/
structure Refusal_ where
  status : Nat
  detail : Nat
  seq : Nat
  deriving DecidableEq, Repr, Inhabited

/-- CORE.TASK_INVALID with a detail code (R209). -/
def invalidTask (detail : Nat) : Refusal_ := ⟨Code.taskInvalid, detail, 0⟩

/-- The scheduler's reading: the state, and the bytes read so far (R211). -/
structure Loader where
  s : State
  bytes : Nat

/-- A step of the scheduler's reading. -/
abbrev Ld (α : Type) := StateT Loader (Except (Loader × Refusal_)) α

/-- Refuse the task. -/
def Ld.refuse {α : Type} (r : Refusal_) : Ld α := fun l => .error (l, r)

/-- Refuse the task where a condition holds. -/
def Ld.check (bad : Bool) (r : Refusal_) : Ld Unit := fun l => if bad then .error (l, r) else .ok ((), l)

/-- Read `n` bytes of LPDDR; a place outside it is refused, and so is an atom that cannot be read. -/
def Ld.read (a n : Nat) : Ld (List Byte) := fun l =>
  if n = 0 then .ok ([], l)
  else if l.s.lpddrEnd < a + n then .error (l, invalidTask 6)
  else match l.s.lpddrRead a n 0xFF with
    | (s, bs, st) => if st.code = 0 then .ok (bs, ⟨s, l.bytes + n⟩) else .error (⟨s, l.bytes⟩, ⟨st.code, 0, st.seq⟩)

/-- A task header (R206). -/
structure TaskHeader where
  regions : Nat
  regionBase : Nat
  coreBase : Nat
  mask : Nat
  seed : BitVec 128
  argument : Dword
  timeout : Nat
  bad : Bool
  deriving DecidableEq, Repr, Inhabited

/-- A header from its 128 bytes; `bad` says that its version is not 1 or a reserved byte is not zero. -/
def TaskHeader.of (v : Nat) : TaskHeader where
  regions := bits v 32 32
  regionBase := bits v 64 64
  coreBase := bits v 128 64
  mask := bits v 192 64
  seed := BitVec.ofNat 128 (bits v 256 128)
  argument := BitVec.ofNat 64 (bits v 384 64)
  timeout := bits v 448 32
  bad := bits v 0 16 != 1 || bits v 16 16 != 0 || v / 2 ^ 480 != 0

/-- A core table entry (R207). -/
structure CoreEntry where
  core : Nat
  prog : Nat
  progLen : Nat
  slipRows : Nat
  descs : Nat
  pails : Nat
  slipBase : Nat
  descBase : Nat
  pailBase : Nat
  owner : Word
  rsv : Bool
  deriving DecidableEq, Repr, Inhabited

/-- The entry of core `c` from its 64 bytes. -/
def CoreEntry.of (c v : Nat) : CoreEntry where
  core := c
  prog := bits v 0 64
  progLen := bits v 64 16
  slipRows := bits v 80 16
  descs := bits v 96 8
  pails := bits v 104 8
  slipBase := bits v 128 64
  descBase := bits v 192 64
  pailBase := bits v 256 64
  owner := BitVec.ofNat 32 (bits v 320 32)
  rsv := bits v 112 16 != 0 || v / 2 ^ 352 != 0

/-- Detail 0x03 of an entry (R209). -/
def CoreEntry.bad03 (e : CoreEntry) : Bool :=
  decide (e.progLen < 1) || decide (8192 < e.progLen) || decide (4096 < e.slipRows) || decide (64 < e.descs) || decide (64 < e.pails)

/-- A misaligned address of an entry (R207, R209). DESIGN CHOICE (log entry 142). -/
def CoreEntry.bad06 (e : CoreEntry) : Bool :=
  e.prog % 8 != 0 || e.slipBase % 32 != 0 || e.descBase % 64 != 0 || e.pailBase % 8 != 0

/-- A region from its 32 bytes, with whether it is malformed (R208, R209). -/
def regionOf (v : Nat) : Region × Bool :=
  let r : Region := ⟨bits v 0 64, bits v 64 64, bits v 128 2, bitOf v 130, bitOf v 131, bitOf v 132, bits v 133 6⟩
  (r, v / 2 ^ 139 != 0 || r.space == 3 || r.base % 64 != 0 || r.len == 0 || r.len % 64 != 0 ||
    (r.pinned && r.space != 0) || (!r.pinned && r.package != 0) || decide (47 < r.package))

/-- Whether a region lies inside its space (R209, R338). -/
def State.regionInside (s : State) (r : Region) : Bool :=
  let hi := r.base + r.len
  match r.space with
  | 0 =>
    let spread := s.numPkgs * s.split * 2 ^ 30
    if r.pinned then
      let run := (48 - s.split) * 2 ^ 30
      match (List.range s.numPkgs).find? (fun k => rankPkg s.variant k == r.package) with
      | some k => decide (spread + k * run ≤ r.base) && decide (hi ≤ spread + (k + 1) * run)
      | none => false
    else decide (hi ≤ spread)
  | 1 => withinOne spadBase 0x100000 0x60000 64 r.base hi
  | _ => withinOne controlBase 0x100000 0x10000 64 r.base hi

/-- Whether a region lies on an absent package, or in the half of the map that a smaller module lacks (R7): it lies outside
its space (R209, R338). DEDUCED (log entry 129). -/
def State.regionAbsent (s : State) (r : Region) : Bool :=
  r.space == 0 && ((r.pinned && !pkgPresent s.variant r.package) ||
    (s.variant == .m1152u && decide (r.base < 0x024000000000) && decide (0x012000000000 < r.base + r.len)))

/-- Whether two regions of a list overlap. -/
def regionsMeet : List Region → Bool
  | [] => false
  | r :: l => l.any (fun q => decide (r.base < q.base + q.len) && decide (q.base < r.base + r.len)) || regionsMeet l

/-- Whether a class record is refused (R158–R160). -/
def classBad (v : Nat) : Bool :=
  !classOk (bits v 0 2) (bits v 2 4) || v / 2 ^ 29 != 0 ||
  (bits v 0 2 == 2 && (decide (bits v 6 5 < 4) || decide (16 < bits v 6 5)))

/-- What a core loads (R211). -/
structure CoreLoad where
  e : CoreEntry
  prog : List Dword
  slips : List (BitVec 256)
  descs : List (BitVec 512)
  pails : List PailCfg
  pailWords : List Nat
  deriving Repr, Inhabited

/-- A task as read. -/
structure TaskLoad where
  h : TaskHeader
  regions : List Region
  cores : List CoreLoad
  cls : Dword
  deriving Repr, Inhabited

/-- Numbers of `w` bytes each from bytes. -/
def numbers (w : Nat) (bs : List Byte) : List Nat := (chunks w bs.length bs).map leNat

/-- Read a core's tables. DEDUCED (log entry 55). -/
def Ld.core (e : CoreEntry) : Ld CoreLoad := do
  let p ← Ld.read e.prog (8 * e.progLen)
  let sl ← Ld.read e.slipBase (32 * e.slipRows)
  let d ← Ld.read e.descBase (64 * e.descs)
  let w ← Ld.read e.pailBase (8 * e.pails)
  let pw := (numbers 8 w).map (fun v => v % 2 ^ 20)
  return ⟨e, (numbers 8 p).map (BitVec.ofNat 64), (numbers 32 sl).map (BitVec.ofNat 256), (numbers 64 d).map (BitVec.ofNat 512),
    pw.map PailCfg.of, pw⟩

/-- Whether a loaded pail table breaks R183. -/
def pailsBad : List PailCfg → Bool
  | [] => false
  | p :: l => p.long || l.any p.meets || pailsBad l

/-- The first refusal that loaded descriptors give (R209, R245). -/
def State.descsRefused (s : State) (rs : List Region) (l : List CoreLoad) : Option Refusal_ :=
  l.findSome? (fun k => k.descs.findSome? (fun d => (s.descBadIn rs (Desc.of d)).map (fun e =>
    if e.1 = Code.unitAbsent then ⟨Code.unitAbsent, 0, 0⟩ else invalidTask 4)))

/-- Read and validate a task whose header lies at `a` (R209, R211 steps 1 and 2). DEDUCED (log entry 55). DESIGN CHOICE (log entry 141). -/
def Ld.task (a : Nat) (cls : Dword) : Ld TaskLoad := do
  Ld.check (a % 64 != 0) (invalidTask 6)
  let hb ← Ld.read a 128
  let h := TaskHeader.of (leNat hb)
  Ld.check h.bad (invalidTask 1)
  Ld.check (h.regionBase % 32 != 0 || h.coreBase % 64 != 0) (invalidTask 6)
  let es ← ((List.range 64).filter (bitOf h.mask)).mapM (fun c => do
    let eb ← Ld.read (h.coreBase + 64 * c) 64
    return CoreEntry.of c (leNat eb))
  Ld.check (es.any (·.rsv)) (invalidTask 1)
  Ld.check (decide (h.regions < 1) || decide (1024 < h.regions)) (invalidTask 2)
  let rb ← Ld.read h.regionBase (32 * h.regions)
  let rs := (numbers 32 rb).map regionOf
  let s := (← get).s
  Ld.check (rs.any (·.2)) (invalidTask 2)
  Ld.check (rs.any (fun r => s.regionAbsent r.1 || !s.regionInside r.1) || regionsMeet (rs.map (·.1))) (invalidTask 2)
  Ld.check (es.any (·.bad03)) (invalidTask 3)
  Ld.check (es.any (·.bad06)) (invalidTask 6)
  let ks ← es.mapM Ld.core
  let s := (← get).s
  match s.descsRefused (rs.map (·.1)) ks with
  | some r => Ld.refuse r
  | none => pure ()
  Ld.check (ks.any (fun k => pailsBad k.pails)) (invalidTask 5)
  Ld.check (classBad cls.toNat) ⟨Code.classInvalid, 0, 0⟩
  return ⟨h, rs.map (·.1), ks, cls⟩

/-! Loading (R194, R211). -/

/-- Banks that hold any byte of core `c`'s Scratchpad regions or pail rows (R211). -/
def taskBanks (c : Nat) (rs : List Region) (pails : List PailCfg) : Nat :=
  if pails.any (·.valid) then 0xFFFF
  else maskOf ((List.range 16).filter (fun b => rs.any (fun r =>
    let base := spadBase + c * 0x100000
    r.space == 1 && decide (base ≤ r.base) && decide (r.base < base + 0x60000) &&
      (decide (1024 ≤ r.len) || (List.range (r.len / 64)).any (fun i => bankOf (r.base - base + 64 * i) == b)))))

/-- A core's state as a task's load leaves it (R94, R212): nothing of the task before is left but the Scratchpad, its
owners, counters' mirrors and the rows that GATHER packed. DEDUCED (log entry 67). -/
def Core.emptied (k : Core) : Core :=
  { Core.reset with
    owner := k.owner
    nextOp := k.nextOp
    adds := k.adds
    banks := k.banks
    mem := k.mem
    badParity := k.badParity
    mirror := k.mirror
    packed := k.packed }

/-- A list as a table. -/
def tabOf {α : Type} [DecidableEq α] (d : α) (l : List α) : Tab α := l.zipIdx.filterMap (fun e => if e.1 = d then none else some (e.2, e.1))

/-- Load a core's tables (R211, R212). -/
def Core.load (k : Core) (l : CoreLoad) (arg cls : Dword) : Core :=
  { k with
    owner := l.e.owner
    progLen := l.e.progLen
    store := tabOf 0 l.prog
    slipRows := l.e.slipRows
    slips := tabOf 0 l.slips
    d := tabOf 0 l.descs
    g := tabOf 0 [0, BitVec.ofNat 64 l.e.core, arg]
    classHead := (bits cls.toNat 0 2, bits cls.toNat 2 4) }

/-- The power of core `c`'s banks at a task's start: On where a mask names the bank, else Off (R194). -/
def State.powerBanks (s : State) (c : Nat) : State :=
  let mask := s.residentMask c ||| s.field (Reg.SPAD_TASK_BANKS c) 0 16
  s.modCore c (fun k => (List.range 16).foldl (fun k b => k.bankRequest b (if bitOf mask b then .on else .off)) k)

/-- The power of core `c`'s banks at a task's end: Retain where a resident mask names the bank, else Off (R194). -/
def State.restBanks (s : State) (c : Nat) : State :=
  let mask := s.residentMask c
  s.modCore c (fun k => (List.range 16).foldl (fun k b => k.bankRequest b (if bitOf mask b then .retain else .off)) k)

/-- The fault registers of core `c` that a task's start clears. DEDUCED (log entry 67). -/
def coreFaultRegs (c : Nat) : List Nat :=
  [Reg.CORE_TALLY_FAULT c, Reg.LEDG_FAULT c, Reg.CORE_STRAIN_FAULT c, Reg.CORE_CLERK_FAULT c, Reg.CORE_CLERK_FAULT_SLIP c,
   Reg.CORE_DESC_FAULT c, Reg.CORE_DESC_FAULT_PC c, Reg.CORE_RNG_FAULT c, Reg.SPAD_FAULT c, Reg.SPAD_FAULT_SLIP c,
   Reg.MINT_FAULT c, Reg.SPAN_HANDLE_FAULT c]

/-- Load core `c` (R194, R211): its pail table, its banks, and its own tables where it runs. DEDUCED (log entry 67). -/
def State.loadCore (s : State) (t : TaskLoad) (c : Nat) : State :=
  let l := t.cores.find? (fun k => k.e.core == c)
  let s := (coreFaultRegs c).foldl (fun s x => s.setRegN x 0) s
  let s := s.modCore c (fun k => match l with
    | some l => k.emptied.load l t.h.argument t.cls
    | none => k.emptied)
  let pw := match l with
    | some l => l.pailWords
    | none => []
  let ps := match l with
    | some l => l.pails
    | none => []
  let s := (List.range 64).foldl (fun s i => s.setRegN (Reg.SPAD_PAIL_CFG c i) (pw.getD i 0)) s
  (s.setRegN (Reg.SPAD_TASK_BANKS c) (taskBanks c t.regions ps)).powerBanks c

/-- Ask for every Q domain that holds a running core and is off (R446). -/
def State.askQuads (s : State) (mask : Nat) : State :=
  (List.range 16).foldl (fun s q =>
    if bits mask (4 * q) 4 ≠ 0 ∧ (s.domainOn q = false ∨ (tabGet [] s.power.domReqs q).head? = some false) then
      { s with power := { s.power with domReqs := tabSet [] s.power.domReqs q (tabGet [] s.power.domReqs q ++ [true]) } }
    else s) s

/-- The Sampled offset that each quad starts at (R162); its window is cleared (R171). -/
def State.startSkim (s : State) (cls : Dword) : State :=
  (List.range 16).foldl (fun s q =>
    let off := if bits cls.toNat 0 2 = 2 then min (bits cls.toNat 21 8) (s.field (Reg.PWR_SKIM_CAL q) 8 8) else 0
    { s.setRegN (Reg.PWR_SKIM_WINDOW q) 0 with skimOff := tabSet 0 s.skimOff q off }) s

/-- An accepted task is loaded (R211 steps 2 to 4). -/
def State.loadTask (s : State) (e : SubEntry) (t : TaskLoad) (bytes : Nat) : State :=
  let s := { s with sched := { s.sched with
    st := .loading
    lastRing := e.ring
    entry := e
    header := e.addr
    mask := t.h.mask
    seed := t.h.seed
    argument := t.h.argument
    timeout := t.h.timeout
    cls := t.cls
    regions := t.regions
    failing := false
    primary := none } }
  let s := coreList.foldl (fun s c => s.loadCore t c) s
  let s := (s.setRegN Reg.SPAD_RING_FAULT 0).setRegN Reg.TELL_FAULT 0
  let s := s.setRegN Reg.PWR_FAULT (if s.field Reg.PWR_FAULT 0 8 = 1 then s.regN Reg.PWR_FAULT else 0)
  let s := s.maxReg Reg.CORE_SCHED_LOAD_MAX (1600 + ceilDiv bytes 256)
  (s.startSkim t.cls).askQuads t.h.mask

/-- A task is refused (R209, R511): no core changes state. -/
def State.refuseTask (s : State) (e : SubEntry) (r : Refusal_) : State :=
  let busy := { s with sched := { s.sched with st := .loading, lastRing := e.ring, entry := e, header := e.addr } }
  let busy := if r.status = Code.taskInvalid then busy.setRegN Reg.CORE_SCHED_FAULT (1 + r.detail * 2 ^ 8) else busy
  let st := { Stop.of r.status with detail := r.detail }
  let (busy, seq) := if r.seq ≠ 0 then (busy, r.seq)
    else busy.hostRecord (if r.status / 256 = 0x31 then 0x31 else unitOfCode r.status) 0 true st (busy.reg Reg.CORE_SCHED_FAULT)
  let busy := busy.markPrimary seq
  let counted := r.status = Code.taskInvalid ∨ r.status = Code.classInvalid ∨ r.status = Code.unitAbsent
  let busy := if counted then busy.bump32 Reg.CORE_SCHED_REFUSED 1 else busy
  { busy with sched := { busy.sched with st := .idle } }.queueCpl e r.status r.detail 0 seq

/-- Why the scheduler refuses every task now (R349, R448, R487). -/
def State.taskBar (s : State) : Option Refusal_ :=
  if s.lc.state = .blank ∨ s.lc.state = .scrap then some ⟨Code.noService, 0, 0⟩
  else if s.power.trainFailed ≠ 0 then some ⟨Code.training, 0, 0⟩
  else if s.field Reg.PWR_STATUS 4 1 = 1 then some ⟨Code.selftestFail, 0, 0⟩
  else none

/-- Whether a ring's oldest entry is a valid TASK (R429). -/
def State.taskReady (s : State) (ring : Nat) : Bool :=
  let raw := s.subRaw ring
  s.subReady ring && !subBad raw && bits raw 0 4 == 0

/-- The ring that the idle scheduler takes next (R201, R210, R432, R447, R479). -/
def State.taskRing (s : State) : Option Nat :=
  if s.sched.st = .idle ∧ s.poolMode = false ∧ s.cplBlocked = false ∧ s.power.loaded ∧ s.sisyn.attn = 0 then
    (subOrder s.sched.lastRing).find? s.taskReady
  else none

/-- The scheduler takes the task of ring `ring` (R209–R211). -/
def State.taskTake (s : State) (ring : Nat) : State :=
  let e := s.subOf ring (s.subRaw ring)
  let s := ((s.subTake ring).setRegN Reg.CORE_SCHED_FAULT 0).setReg64 Reg.CORE_SCHED_HEADER_LO e.addr
  let s := { s with sched := { s.sched with firstRec := 0 } }
  let cls := BitVec.ofNat 64 (s.reg64 (ringReg ring 6))
  match s.taskBar with
  | some r => s.refuseTask e r
  | none => match (Ld.task e.addr cls).run ⟨s, 0⟩ with
    | .ok (t, l) => l.s.loadTask e t l.bytes
    | .error (l, r) => l.s.refuseTask e r

/-- TASK_TAKE (R210). DESIGN CHOICE (log entry 15). -/
def execTaskTake (s : State) : Outcome :=
  match s.taskRing with
  | some r => .next (s.taskTake r)
  | none => .next s

/-! Start, end and failure. -/

/-- Whether every bank that a mask names is On in core `c` (R194). -/
def State.banksUp (s : State) (c : Nat) : Bool :=
  let mask := s.residentMask c ||| s.field (Reg.SPAD_TASK_BANKS c) 0 16
  (List.range 16).all (fun b => !bitOf mask b || ((s.core c).bank b).usable)

/-- Running cores of the task. -/
def State.taskCores (s : State) : List Nat := coreList.filter (bitOf s.sched.mask)

/-- Whether every running core's domain is up, and the banks that the start asked to be On in every core that has power (R194,
R211 steps 3 and 5, R446). -/
def State.startReady (s : State) : Bool :=
  s.sched.st == .loading && s.taskCores.all (fun c => s.domainOn (c / 4)) &&
    coreList.all (fun c => !s.domainOn (c / 4) || s.banksUp c)

/-- The seq of a task's first daybook record, 0 where it has none (R431, R467). DEDUCED (log entry 57). -/
def State.firstRecord (s : State) : Nat := s.sched.firstRec

/-- Hand over a task's completion; one whose port was reset is discarded, and counted at the port that the task came from
(R437). DEDUCED (log entry 57). -/
def State.taskPost (s : State) (status detail seq : Nat) : State :=
  if s.hosts.discardTask then
    { s.bump32 (Reg.HOST_RESETS s.sched.entry.port) 1 with hosts := { s.hosts with discardTask := false } }
  else
    let (s, t) := s.stamp
    s.queueCpl s.sched.entry status detail (min (t / 1600) (2 ^ 32 - 1)) seq

/-- Every epoch of a core ends: a verified one commits, any other is squashed (R231, R232). -/
def Core.settleEpochs (k : Core) : Core :=
  (List.range 16).foldl (fun k e => match k.epoch e with
    | .free => k
    | .endingVerify => (k.epochTiles e Tile.commit).setEpoch e .free
    | _ => ((k.epochPails e (fun _ => Pail.reset)).epochTiles e Tile.squash).setEpoch e .free) k

/-- The scheduler is idle again: banks rest (R194), and every core is at rest; `ended` stays as the task leaves it (R235). -/
def State.taskOver (s : State) : State :=
  let s := coreList.foldl (fun s c => (s.restBanks c).modCore c (fun k =>
    { k.settleEpochs with
      running := false
      stopped := false
      ending := false
      waiting := none
      streams := [] })) s
  let s := { s with skimOff := [] }
  { s with sched := { s.sched with st := .idle, failing := false, primary := none } }

/-- A task without failure is over: its completion is posted (R213). -/
def State.taskDone (s : State) : State :=
  let seq := s.firstRecord
  ((s.bump64 Reg.CORE_SCHED_DONE_LO 1).taskPost 0 0 seq).taskOver

/-- Whether every request that the windows of the task accepted has taken effect: none but a PARTIAL is ever on its way (R396,
R397, R404). -/
def State.winsIdle (s : State) : Bool := s.span.served.isEmpty

/-- A task without failure that is ending posts its completion once its windows' requests have taken effect (R397). DEDUCED (log entry 58). -/
def State.taskSettle (s : State) : State :=
  if s.sched.st = .ending ∧ s.sched.failing = false ∧ s.winsIdle then s.taskDone else s

/-- The last core of a task has ended: the windows are closed before the completion is posted (R213, R397). -/
def State.taskEnd (s : State) : State :=
  let s := s.closeTaskWins
  { s with sched := { s.sched with st := .ending } }.taskSettle

/-- P64_ADD (R83, R86, R89): the oldest add waits while a store that has begun holds its tile; the last add of a PARTIAL may be
what an ending task waits for (R397). -/
def execP64Add (c : CoreId) (s : State) : Outcome :=
  act (!(s.core c.val).adds.head?.any (s.core c.val).addHeld) s (s.addStep c.val).taskSettle

/-- CORE_START (R211 step 5): every running core starts; a task without one ends at once (R213). DESIGN CHOICE (log entry 15). -/
def execCoreStart (s : State) : Outcome :=
  let t := { s.taskCores.foldl (fun (s : State) c => s.modCore c (fun k => { k with running := true })) s with
    sched := { s.sched with st := .running } }
  act s.startReady s (if s.taskCores.isEmpty then t.taskEnd else t)

/-- Whether a core that executed END has nothing left (R213). -/
def Core.drained (k : Core) : Bool :=
  k.running && !k.stopped && k.ending && !k.ended && k.ops.isEmpty && k.seq.isEmpty && k.dma.isEmpty && k.psigs.isEmpty && k.scloses.isEmpty

/-- CORE_END (R213): the core ends and its streams close; with the last one the task ends. -/
def execCoreEnd (c : CoreId) (s : State) : Outcome :=
  let t := s.modCore c.val (fun k => { k with ended := true, running := false, streams := [] })
  act ((s.core c.val).drained && s.sched.st == .running) s
    (if t.taskCores.all (fun i => (t.core i).ended) then t.taskEnd else t)

/-- A fault of kind Task that concerns no core fails the running task (R508, R509). -/
def State.taskFault (s : State) (code unit inst : Nat) (reg : Nat) : State :=
  let (s, seq) := s.hostRecord unit inst s.primaryNow (Stop.of code) (s.reg reg)
  s.failTask code 0 seq

/-- TASK_TIMEOUT (R214): of a task that is failing already it is a later fault (R509). -/
def execTaskTimeout (s : State) : Outcome :=
  act ((s.sched.st == .running || s.sched.st == .ending) && s.sched.timeout != 0) s
    ((s.firstFault Reg.CORE_SCHED_FAULT 2).taskFault Code.taskTimeout 0x31 0 Reg.CORE_SCHED_FAULT)

/-- Whether a shared unit holds an operation for which a failed task does not wait: an UPDATE that a Churn holds (R508), a
BARRIER and a ring entry that have begun are never withdrawn. DEDUCED (log entry 58). -/
def HubOp.unawaited (c id : Nat) : HubOp → Bool
  | .update c' i _ _ _ => c' == c && i == id
  | _ => false

/-- Whether a failed task has nothing left to wait for (R508). DEDUCED (log entry 58). -/
def State.failDrained (s : State) : Bool :=
  coreList.all (fun c => (s.core c).dma.isEmpty &&
    (s.core c).ops.all (fun o => o.result.isSome || s.hubOps.any (HubOp.unawaited c o.id)))

/-- Whether an operation of a core leaves its shared unit when its task has failed. DEDUCED (log entry 58). -/
def HubOp.dropped : HubOp → Bool
  | .spread _ _ _ => true
  | _ => false

/-- Every retirement whose new generation is still on its way to the mirrors reaches them (R319, R322). DEDUCED (log entry 58). -/
def State.spreadAll (s : State) : State :=
  s.hubOps.foldl (fun s o => match o with
    | .spread _ _ ctr => s.spreadDone ctr
    | _ => s) s

/-- What has ended in core `c` completes: a fault of it writes its record before the task's completion (R507, R509). DEDUCED (log entry 58). -/
def State.deliverAll (s : State) (c : Nat) : State :=
  (s.core c).ops.foldl (fun t o => match o.result with
    | some r => t.complete c o r
    | none => t) s

/-- A failed task's completion is posted (R508 steps 3 and 4, R511). -/
def State.taskFailEnd (s : State) : State :=
  let p := s.sched.primary.getD ⟨0, 0, 0⟩
  let s := s.spreadAll
  let s := coreList.foldl State.deliverAll { s with hubOps := s.hubOps.filter (fun o => !o.dropped) }
  let s := coreList.foldl (fun s c => (s.squashOpen c).modCore c (fun k => { k with ops := [] })) s
  ((s.bump32 Reg.CORE_SCHED_FAILED 1).taskPost p.status p.detail p.seq).taskOver

/-- A failed task with nothing left to wait for closes its windows, and posts its completion once their requests have taken
effect (R397, R508). -/
def State.taskFailClose (s : State) : State :=
  let s := s.closeTaskWins
  if s.winsIdle then s.taskFailEnd else s

/-- TASK_FAIL_COMPLETE (R508). -/
def execTaskFailComplete (s : State) : Outcome :=
  act (s.sched.st == .ending && s.sched.failing && s.failDrained) s s.taskFailClose

end Sys2Proof.Machine
end

