-- ==== Sys2Proof/Machine/Power.lean ====
section
/-! DEFINITION. The quiesce protocol, power domains, supply sag, throttling and quad resets
(17_power_clocks_and_reset.md R443–R446, R449–R452, R455, R457–R461; 14_the_churn.md R376; 08_scratchpad_pails_and_rings.md
R194). -/

namespace Sys2Proof.Machine

/-! The quiesce protocol (R459). -/

/-- The domain of the unit at a place (R443). -/
def qDomain (k : Nat) : Nat :=
  if k < 48 then 20 + k / 12 else if k < 52 then 20 + (k - 48) else if k < 244 then 16 + (k - 52) / 48 else 24 + (k - 244) / 8

/-- A Churn refuses its parked commands (R376); queued ones are refused as they are taken. -/
def State.churnRefuse (s : State) (n : Nat) : State :=
  (s.churn n).parked.foldl (fun t c => (t.unpark n c).churnEnd n c (some (Fail.of Code.quiesceRefused))) s

/-- Jobs queued at root engine `i`, and those that wait in its Churns for its queue. -/
def State.rootQueued (s : State) (i : Nat) : List RootJob :=
  (s.root i).queue ++ ((List.range 12).flatMap (fun n => (s.churn (12 * i + n)).rootWait))

/-- A root engine refuses its queued jobs. -/
def State.rootRefuse (s : State) (i : Nat) : State :=
  let jobs := s.rootQueued i
  let s := s.modRoot i (fun r => { r with queue := [], waiting := [] })
  let s := (List.range 12).foldl (fun t n => t.setChurn (12 * i + n) { t.churn (12 * i + n) with rootWait := [] }) s
  jobs.foldl (fun t j => t.rootJobOver i j (some (Fail.of Code.quiesceRefused)) false) s

/-- A quiesce begins at the unit at a place; it has no effect on one that is not ENABLED. -/
def State.quiesceStart (s : State) (k : Nat) : State :=
  if s.qst k ≠ 1 then s
  else if 244 ≤ k then s.drainStart (k - 244)
  else
    let s := s.setQst k 2
    if k < 48 then s.churnRefuse k else if k < 52 then s.rootRefuse (k - 48) else s

/-- An enable request to the unit at a place: it waits while the unit is QUIESCING, and has no effect on a unit whose domain
is off. DEDUCED (log entry 85). -/
def State.enableReq (s : State) (k : Nat) : State :=
  if s.domainOn (qDomain k) = false then s
  else if 244 ≤ k then s.portEnableReq (k - 244)
  else if s.qst k = 2 then s.qWait k
  else if s.qst k = 3 then s.qEnabled k
  else s

/-- A unit enters QUIESCED; an enable that waits then takes effect. -/
def State.qFinish (s : State) (k : Nat) : State :=
  let s := s.qDisabled k
  if s.power.enableWait.contains k then s.qEnabled k else s

/-- The place of a present unit by unit_kind and instance (R460). -/
def qFind (v : Variant) (kind inst : Nat) : Option Nat :=
  let k := if kind = 0x50 ∧ inst < 48 then inst
    else if kind = 0x51 ∧ inst < 4 then 48 + inst
    else if kind = 0x40 ∧ inst < 192 then 52 + inst
    else if kind = 0x61 ∧ inst < 16 then 244 + inst
    else 260
  if qPresent v k then some k else none

/-- A write to PWR_QUIESCE_REQ: one that names no present unit is ignored and counted. -/
def State.qRequest (s : State) (v : Nat) : State :=
  match qFind s.variant (bits v 0 8) (bits v 8 12) with
  | none => s.bump32 Reg.PWR_REQ_IGNORED 1
  | some k => if bitOf v 20 then s.enableReq k else s.quiesceStart k

/-- QUIESCE_REQUEST: a write with op 0. -/
def execQuiesceRequest (_r : Requester) (value : Word) (s : State) : Outcome :=
  act (!bitOf value.toNat 20) s (s.qRequest value.toNat)

/-- ENABLE_REQUEST: a write with op 1. -/
def execEnableRequest (_r : Requester) (value : Word) (s : State) : Outcome :=
  act (bitOf value.toNat 20) s (s.qRequest value.toNat)

/-- Whether a QUIESCING unit has no accepted work left; a channel's requests end within their step, but for those that a
timeout cuts off. -/
def State.qIdle (s : State) (u : QUnit) : Bool :=
  match u with
  | .churn n => (s.churn n.val).running.isNone
  | .root i => (s.root i.val).running.isNone
  | .chan _ => true
  | .port p =>
    let q := s.port p.val
    q.st == 3 && q.drainSeen && q.replay.isEmpty && q.waiting.isEmpty

/-- A QUIESCING unit's accepted work has ended. -/
def State.qComplete (s : State) (u : QUnit) : State :=
  match u with
  | .port p => s.drainCheck p.val
  | _ => s.qFinish (qIndex u)

/-- QUIESCE_COMPLETE. -/
def execQuiesceComplete (u : QUnit) (s : State) : Outcome :=
  act (s.qst (qIndex u) == 2 && s.qIdle u) s (s.qComplete u)

/-- A transfer with accepted requests that its channel has not finished ends with the abort status (R459). DESIGN CHOICE (log entry 70). -/
def State.cutXfer (s : State) (e : CoreId × Nat) : State :=
  match s.xfer e.1.val e.2 with
  | some x =>
    if !x.started || x.discard then s
    else
      let s := s.xferFail e.1.val e.2 (Stop.of Code.quiesceAborted)
      if x.moved then s else (s.modXfer e.1.val e.2 (fun y => { y with moved := true })).drainEnd e.1.val x
  | none => s

/-- What is left of a unit's accepted work is aborted: the root engine keeps the previous root, a Churn's units done stand (R376),
and transfers whose requests a channel has not finished fail. DESIGN CHOICE (log entry 70). -/
def State.qAbort (s : State) (u : QUnit) (cut : List (CoreId × Nat)) : State :=
  match u with
  | .churn n =>
    match (s.churn n.val).running with
    | some w => (s.churnOver n.val w.cmd (some (Fail.of Code.quiesceAborted))).qFinish (qIndex u)
    | none => s.qFinish (qIndex u)
  | .chan _ => (cut.foldl State.cutXfer s).qFinish (qIndex u)
  | .port p => (s.portLeave p.val 4 12).portQuiesced p.val
  | .root i =>
    match (s.root i.val).running with
    | some j =>
      ((s.modRoot i.val (fun r => { r with running := none })).rootJobOver i.val j
        (some (Fail.of Code.quiesceAborted)) false).qFinish (qIndex u)
    | none => s.qFinish (qIndex u)

/-- QUIESCE_TIMEOUT. -/
def execQuiesceTimeout (u : QuiesceCut) (s : State) : Outcome :=
  act (s.qst (qIndex u.unit) == 2) s (s.qAbort u.unit u.transfers)

/-! Domains (R443–R446). -/

/-- Units of a domain alone. -/
def ownUnits (d : Nat) : List Nat :=
  if 16 ≤ d ∧ d < 20 then (List.range 48).map (· + (52 + 48 * (d - 16)))
  else if 20 ≤ d ∧ d < 24 then (List.range 12).map (· + 12 * (d - 20)) ++ [48 + (d - 20)]
  else if d = 24 ∨ d = 25 then (List.range 8).map (· + (244 + 8 * (d - 24)))
  else []

/-- Domains that turn off with domain `d`, those that depend on it first. -/
def withDependents (d : Nat) : List Nat := if 16 ≤ d ∧ d < 20 then [d + 4, d] else [d]

/-- Present units of a list of domains. -/
def unitsOf (v : Variant) (ds : List Nat) : List Nat := (ds.flatMap ownUnits).filter (qPresent v)

/-- Whether every domain that `d` depends on is on. -/
def State.domainFed (s : State) (d : Nat) : Bool := if 20 ≤ d ∧ d < 24 then s.domainOn (d - 4) else s.domainOn 27

/-- Whether a request is allowed at this moment (R443, R445). -/
def State.domainAllowed (s : State) (d : Nat) (on : Bool) : Bool :=
  decide (d < 26) && domainPresent s.variant d && (decide (20 ≤ d) || s.sched.st == .idle) && (!on || s.domainFed d)

/-- The request of domain `d` in progress. -/
def State.domainHead (s : State) (d : Nat) : Option Bool := (tabGet [] s.power.domReqs d).head?

/-- Requests of domain `d`. -/
def State.setDomReqs (s : State) (d : Nat) (l : List Bool) : State :=
  { s with power := { s.power with domReqs := tabSet [] s.power.domReqs d l } }

/-- The request of domain `d` in progress has finished. -/
def State.domainPop (s : State) (d : Nat) : State := s.setDomReqs d ((tabGet [] s.power.domReqs d).drop 1)

/-- The request in progress begins: one for the state reached finishes at once, at most `n` of them; a request for on
enables the domain's units, and a request for off quiesces them and those of the domains that depend on it (R445). -/
def State.domainBegin (s : State) (d : Nat) : Nat → State
  | 0 => s
  | n + 1 =>
    match s.domainHead d with
    | none => s
    | some true =>
      if s.domainOn d then
        (((unitsOf s.variant [d]).foldl State.enableReq s).domainPop d).domainBegin d n
      else s
    | some false =>
      if s.domainOn d then (unitsOf s.variant (withDependents d)).foldl State.quiesceStart s
      else (s.domainPop d).domainBegin d n

/-- The request after the one that finished begins. -/
def State.domainNext (s : State) (d : Nat) : State := (s.domainPop d).domainBegin d (tabGet [] s.power.domReqs d).length

/-- A write to PWR_DOMAIN_REQ: a request that is not allowed is ignored and counted; one behind another waits. -/
def State.domainRequest (s : State) (v : Nat) : State :=
  let d := bits v 0 5
  let on := bitOf v 5
  if s.domainAllowed d on = false then s.bump32 Reg.PWR_REQ_IGNORED 1
  else
    let l := tabGet [] s.power.domReqs d
    let s := s.setDomReqs d (l ++ [on])
    if l.isEmpty then s.domainBegin d 1 else s

/-- DOMAIN_ON_REQUEST (R445). -/
def execDomainOnRequest (_r : Requester) (value : Word) (s : State) : Outcome :=
  act (bitOf value.toNat 5) s (s.domainRequest value.toNat)

/-- DOMAIN_OFF_REQUEST (R445). -/
def execDomainOffRequest (_r : Requester) (value : Word) (s : State) : Outcome :=
  act (!bitOf value.toNat 5) s (s.domainRequest value.toNat)

/-- Set whether a domain is on. -/
def State.setDomain (s : State) (d : Nat) (on : Bool) : State := s.setField Reg.PWR_DOMAIN_STATE d 1 (b2n on)

/-- A core that has lost all state. Its operations are numbered on, so that work of its former ones that is in flight elsewhere
ends at none of the new ones (R457). -/
def Core.lost (k : Core) : Core := { Core.reset with nextOp := k.nextOp }

/-- Core `c` loses all state. Adds that wait for its ledger are dropped there, and their senders learn it (R86, R402). -/
def State.coreLost (s : State) (c : Nat) : State :=
  let adds := (s.core c).adds
  (adds.foldl (fun t a => t.addLanded a.src a.tile false) (s.modCore c Core.lost)).servedDone

/-- The cores of quad `q` lose all state; resident_lost is set (R194, R444, R457). -/
def State.loseQuad (s : State) (q : Nat) : State :=
  let s := s.keepRegs (fun b => !(coreBlock b.kind && b.inst / 4 == q))
  let s : State := { s with skimOff := tabSet 0 s.skimOff q 0 }
  let s := (List.range 4).foldl (fun (t : State) i => t.coreLost (4 * q + i)) s
  (List.range 4).foldl (fun t i => t.setField (Reg.SPAD_STATUS (4 * q + i)) 1 1 1) s

/-- The controllers and packages of rim `i` lose all state (R444, R524). -/
def State.loseRim (s : State) (i : Nat) : State :=
  let wb := s.writeBacks.filter (fun w => dramChan w.1 / 48 != i)
  let s := s.keepRegs (fun b => !(b.kind == .memc && b.inst / 48 == i))
  { s with
    dram := tabDrop (fun k => dramChan k / 48 == i) s.dram
    zeroed := s.zeroed.filter (fun z => z.1 / 48 != i)
    writeBacks := wb
    scrubAt := tabDrop (fun m => m / 48 == i) s.scrubAt
    pkgCe := tabDrop (fun p => p / 12 == i) s.pkgCe
    power := { s.power with trainFailed := (List.range 48).foldl (fun m j => m &&& ~~~(1#192 <<< (48 * i + j))) s.power.trainFailed } }

/-- The Churns and the root engine of rim `i` lose all state. -/
def State.loseGroup (s : State) (i : Nat) : State :=
  let s := s.keepRegs (fun b => !((b.kind == .churn && b.inst / 12 == i) || (b.kind == .root && b.inst == i)))
  { s with churns := tabDrop (fun n => n / 12 == i) s.churns, roots := tabDel s.roots i }

/-- Eight Span ports lose all state. -/
def State.losePorts (s : State) (j : Nat) : State :=
  let s := s.keepRegs (fun b => !(b.kind == .spanPort && b.inst / 8 == j && b.off != 0x38))
  let s : State := { s with span := { s.span with ports := tabDrop (fun q => q / 8 == j) s.span.ports } }
  s.showModules

/-- Domain `d` turns off and loses all state held in it (R444). -/
def State.domainLose (s : State) (d : Nat) : State :=
  let s := s.setDomain d false
  if d < 16 then s.loseQuad d
  else if d < 20 then s.loseRim (d - 16)
  else if d < 24 then s.loseGroup (d - 20)
  else if d < 26 then s.losePorts (d - 24)
  else s

/-- Whether every unit that a domain's turning off quiesces is QUIESCED. -/
def State.domainQuiet (s : State) (d : Nat) : Bool := (unitsOf s.variant (withDependents d)).all (fun k => s.qst k == 3)

/-- A domain, after those that depend on it, turns off. -/
def State.domainOff (s : State) (d : Nat) : State := (withDependents d).foldl State.domainLose s

/-- Whether domain `d` may switch off now: a Q domain stays on while the scheduler has a task (R443). DEDUCED (log entry 85). -/
def State.domainFree (s : State) (d : Nat) : Bool := decide (16 ≤ d) || s.sched.st == .idle

/-- A request to turn off a domain that is off now has finished. DEDUCED (log entry 85). -/
def State.domainSettle (s : State) (d : Nat) : State := if s.domainHead d = some false then s.domainNext d else s

/-- DOMAIN_SWITCH (R445): with an M domain, a request to turn off the C domain that it takes along has finished too. -/
def execDomainSwitch (d : DomainId) (s : State) : Outcome :=
  act (s.domainHead d.val == some false && s.domainOn d.val && s.domainQuiet d.val && s.domainFree d.val) s
    ((withDependents d.val).foldl State.domainSettle (s.domainOff d.val))

/-- The units of a domain that has come up: channels train, and every unit is enabled (R444, R445). DEDUCED (log entry 85). -/
def State.domainUnits (s : State) (d : Nat) (failed : BitVec 192) : State :=
  let s := if 16 ≤ d ∧ d < 20 then s.trainAll ((List.range 48).map (· + 48 * (d - 16))) failed else s
  (unitsOf s.variant [d]).foldl (fun t k => if 244 ≤ k then t.portEnable (k - 244) else t.qEnabled k) s

/-- DOMAIN_UP (R444–R446). -/
def execDomainUp (d : DomainId) (trainFailed : BitVec 192) (s : State) : Outcome :=
  let t := (s.setDomain d.val true).domainUnits d.val trainFailed
  act (s.domainHead d.val == some true && !s.domainOn d.val && s.domainFed d.val) s (t.domainNext d.val)

/-! Supply sag (R449, R450). -/

/-- A V_IN warning. DESIGN CHOICE (log entry 86). -/
def State.vinWarn (s : State) (mv : Nat) : State :=
  let s := ((s.setRegN Reg.PWR_VIN mv).setField Reg.PWR_STATUS 3 1 1).setField Reg.PWR_THROTTLE 9 3 4
  let s : State := { s with power := { s.power with vin := false } }
  (s.bump32 Reg.PWR_VIN_WARNS 1).postEvent 1 1 0x80 0 0x003 (leBytes mv 2)

/-- VIN_WARN (R449). -/
def execVinWarn (millivolts : Half) (s : State) : Outcome :=
  act (s.power.aux && decide (millivolts.toNat < 44000) && s.field Reg.PWR_STATUS 3 1 == 0) s (s.vinWarn millivolts.toNat)

/-- A V_IN warning ends. -/
def State.vinWarnEnd (s : State) (mv : Nat) : State :=
  let s := ((s.setRegN Reg.PWR_VIN mv).setField Reg.PWR_STATUS 3 1 0).setField Reg.PWR_THROTTLE 9 3 0
  { s with power := { s.power with vin := true, brown := false } }

/-- VIN_WARN_END (R449). -/
def execVinWarnEnd (millivolts : Half) (s : State) : Outcome :=
  act (s.power.aux && decide (45000 ≤ millivolts.toNat) && s.field Reg.PWR_STATUS 3 1 == 1) s (s.vinWarnEnd millivolts.toNat)

/-- A saturating 16-bit count in a register's field. -/
def State.bump16 (s : State) (x lo : Nat) : State := s.setField x lo 16 (min (s.field x lo 16 + 1) 0xFFFF)

/-- Whether a quad's droop is reported: the first is, and a later one may fall within 10 ms of it (R473). DESIGN CHOICE (log entry 86). -/
def State.droopReports (s : State) (q : Nat) : State × Bool :=
  if s.power.droopPosted.contains q then
    let (s, n) := s.tick
    (s, (Config.freeValue n).getLsbD 0)
  else ({ s with power := { s.power with droopPosted := s.power.droopPosted ++ [q] } }, true)

/-- The clock of quad `q` is stretched. -/
def State.stretch (s : State) (q : Nat) : State :=
  let s : State := { s with power := { s.power with stretched := s.power.stretched ++ [q] } }
  let (s, posts) := (s.bump16 (Reg.PWR_DROOP q) 0).droopReports q
  if posts then s.postEvent 1 1 0x80 0 0x004 (leBytes q 1) else s

/-- DROOP (R449, R450). DESIGN CHOICE (log entry 86). -/
def execDroop (q : QuadId) (s : State) : Outcome :=
  act (s.domainOn q.val && !s.power.stretched.contains q.val) s (s.stretch q.val)

/-- DROOP_END (R449). -/
def execDroopEnd (q : QuadId) (s : State) : Outcome :=
  .next { s with power := { s.power with stretched := s.power.stretched.filter (· != q.val) } }

/-! Quad resets (R455, R457). -/

/-- A task that is still being loaded fails as a running one does. DEDUCED (log entry 85). -/
def State.loadingRuns (s : State) : State :=
  if s.sched.st = .loading then { s with sched := { s.sched with st := .running } } else s

/-- A quad reset: the running task fails, the quad's cores lose all state, and its domain cycles off and on. -/
def State.quadReset (s : State) (q : Nat) : State :=
  let s := (s.bump16 (Reg.PWR_DROOP q) 16).firstFault Reg.PWR_FAULT (2 + q * 2 ^ 8)
  let s := (s.loadingRuns).taskFault Code.quadReset 0x80 0 Reg.PWR_FAULT
  let s : State := { s with power := { s.power with stretched := s.power.stretched.filter (· != q) } }
  (s.domainLose q).setDomReqs q (true :: tabGet [] s.power.domReqs q)

/-- QUAD_RESET (R455). -/
def execQuadReset (q : QuadId) (s : State) : Outcome := act (s.domainOn q.val) s (s.quadReset q.val)

/-! Throttling (R452). -/

/-- Move a throttle demand by one level, or leave it. -/
def State.demandStep (s : State) (lo : Nat) (raise lower : Bool) : State :=
  let l := s.field Reg.PWR_THROTTLE lo 3
  s.setField Reg.PWR_THROTTLE lo 3 (if raise then min (l + 1) 7 else if lower then l - 1 else l)

/-- The highest temperature that a controller has read from a package (R348, R351). -/
def State.hottestPackage (s : State) : Nat := (List.range 192).foldl (fun h m => max h (s.field (Reg.PWR_MEMC_STATUS m) 4 8)) 0

/-- The thermal demand at a period's end, with the highest junction site in degrees Celsius (R452). DESIGN CHOICE (log entry 86). -/
def State.thermalStep (s : State) (hottest : Nat) : State :=
  s.demandStep 3 (decide (95 ≤ hottest) || decide (105 < s.hottestPackage)) (decide (hottest < 90) && decide (s.hottestPackage ≤ 100))

/-- THERMAL_DEMAND_STEP (R452). DESIGN CHOICE (log entry 86). -/
def execThermalDemandStep (hottest : Byte) (s : State) : Outcome := .next (s.thermalStep hottest.toNat)

/-- The power limit in watts: a value above 1,150 is used as 1,150 (R460). -/
def State.powerLimit (s : State) : Nat := min (s.field Reg.PWR_LIMIT 0 11) 1150

/-- The power demand at a period's end, with the input power averaged over it (R452). DESIGN CHOICE (log entry 86). -/
def State.powerStep (s : State) (watts : Nat) : State :=
  s.demandStep 6 (decide (s.powerLimit < watts)) (decide (100 * watts < 95 * s.powerLimit))

/-- POWER_DEMAND_STEP (R452). -/
def execPowerDemandStep (watts : Half) (s : State) : Outcome := .next (s.powerStep watts.toNat)

end Sys2Proof.Machine
end

