-- ==== Sys2Proof/Machine/Sisyn.lean ====
section
/-! DEFINITION. Sisyn: sensors, the daybook's writing and reading, its record of the hardware, and firmware slots
(18_sisyn_and_the_faceplate.md R464–R472, R480–R483). -/

namespace Sys2Proof.Machine

/-! Sensors (R464). -/

/-- Write the low half of each register of a run from a list, at most `n` of them. -/
def State.copySensors (s : State) (x : Nat → Nat) (n : Nat) (l : List Half) : State :=
  ((l.take n).mapIdx (fun i v => (i, v))).foldl (fun (t : State) e => t.setRegN (x e.1) e.2.toNat) s

/-- The first of the hottest sites: its number and its reading, in 1/16 °C. -/
def hottest (l : List Half) : Nat × Int :=
  ((l.mapIdx (fun i (v : Half) => (i, v.toInt))).foldl (fun (a : Option (Nat × Int)) e =>
    match a with
    | none => some e
    | some b => if b.2 < e.2 then some e else some b) none).getD (0, 0)

/-- PWR_THERMAL_MAX from the thermal sites (R460): whole degrees, 0 to 255. DEDUCED (log entry 87). -/
def State.thermalMax (s : State) (l : List Half) : State :=
  match l with
  | [] => s
  | _ =>
    let h := hottest (l.take 96)
    s.setRegN Reg.PWR_THERMAL_MAX (min (h.2.fdiv 16).toNat 255 + h.1 * 2 ^ 8)

/-- PWR_VIN from voltage monitor 37 (R460, R464). DEDUCED (log entry 87). -/
def State.sensedVin (s : State) (volts : List Half) : State :=
  match volts[37]? with
  | some v => s.setRegN Reg.PWR_VIN v.toNat
  | none => s

/-- SENSOR_COPY (R464): every sensor in the order of its number. DEDUCED (log entry 87). -/
def execSensorCopy (temps volts currents : List Half) (s : State) : Outcome :=
  let s' := ((s.copySensors Reg.SISYN_TEMP 96 temps).copySensors Reg.SISYN_VOLT 40 volts).copySensors Reg.SISYN_CURR 12 currents
  act (s.power.aux && !s.sisyn.noFw) s ((s'.thermalMax temps).sensedVin volts)

/-- A kind of sensor (R464). -/
inductive SensorKind where
  | thermal
  | voltage
  | current
  deriving DecidableEq, Repr

/-- Thresholds of a numeric sensor (R468): warning and critical ones, low and high, in 1/16 °C for thermal sites and in 0.1 mV for
voltages. -/
structure Thresholds where
  lowWarn : Option Int
  lowCrit : Option Int
  highWarn : Option Int
  deriving DecidableEq, Repr

/-- The thresholds of a sensor: those of R449 for VDD_CORE_q (92 % and 85 % of 0.75 V), V_IN and AUX, and that of R452 for the
junction sites. DEDUCED (log entry 134). -/
def thresholds (k : SensorKind) (n : Nat) : Thresholds :=
  match k with
  | .thermal => if n < 96 then ⟨none, none, some (95 * 16)⟩ else ⟨none, none, none⟩
  | .voltage =>
    if n < 16 then ⟨some 6900, some 6375, none⟩
    else if n = 37 then ⟨some 440000, some 400000, none⟩
    else if n = 38 then ⟨none, some 29000, none⟩
    else ⟨none, none, none⟩
  | .current => ⟨none, none, none⟩

/-- What a numeric sensor reads, in the unit of its thresholds, currents in 0.1 A (R464, R468). -/
def State.sensorReading (s : State) (k : SensorKind) (n : Nat) : Int :=
  match k with
  | .thermal => ((s.reg (Reg.SISYN_TEMP n)).setWidth 16).toInt
  | .voltage => 10 * (s.field (Reg.SISYN_VOLT n) 0 16 : Int)
  | .current => (s.field (Reg.SISYN_CURR n) 0 16 : Int)

/-- The state of a numeric sensor: 0 normal, 1 warning, 2 critical (R468). -/
def State.sensorState (s : State) (k : SensorKind) (n : Nat) : Nat :=
  let t := thresholds k n
  let v := s.sensorReading k n
  if t.lowCrit.any (fun l => decide (v < l)) then 2
  else if t.lowWarn.any (fun l => decide (v < l)) || t.highWarn.any (fun l => decide (l ≤ v)) then 1
  else 0

/-- What a state sensor reads (R468): the state of a quiescible unit or of a Span port, and 0 for a domain that is off, 1 for one that
is on, 2 for one in transition. -/
def State.stateSensor (s : State) (w : Watched) : Nat :=
  match w with
  | .domain d => if bitOf s.domainBusy d.val then 2 else s.watchHw (watchNum w)
  | _ => s.watchHw (watchNum w)

/-! The daybook (R465–R468). -/

/-- Write the oldest queued entry; one of severity WARN or above is also sent as a platform event (R466, R468). DEDUCED (log entry 91). -/
def State.daybookWrite (s : State) (e : DbEntry) (rest : List DbEntry) : State :=
  let s : State := { s with dbQueue := rest }
  let s := s.dbStore e
  if 1 ≤ e.severity then { s with sisyn := { s.sisyn with pldmEvents := s.sisyn.pldmEvents ++ [e.seq] } } else s

/-- DAYBOOK_WRITE (R466). -/
def execDaybookWrite (s : State) : Outcome :=
  match s.dbQueue with
  | [] => .next s
  | e :: rest => act (s.power.aux && !s.sisyn.noFw) s (s.daybookWrite e rest)

/-- DB_SELECT (R467). -/
def execDbSelect (_r : Requester) (k : HostPort) (seq : Word) (s : State) : Outcome :=
  .next (s.setReg (Reg.SISYN_DB_SEL (hostNum k)) seq)

/-! The record of the hardware (R481, R482). -/

/-- Whether what has a number takes no part in a comparison: a unit that is QUIESCING, a Span port with it, or a domain in
transition, also a C domain that turns off with its M domain. DESIGN CHOICE (log entry 89). -/
def State.watchMoves (s : State) (n : Nat) : Bool :=
  if n < 260 then s.qst n == 2
  else if n < 290 then bitOf s.domainBusy (n - 260)
  else if n < 306 then s.qst (n - 46) == 2
  else false

/-- What Sisyn's record holds. -/
def State.watchRecord (s : State) (n : Nat) : Nat := tabGet 0 s.sisyn.record n

/-- Whether a comparison of what has a number differs. -/
def State.watchDiffers (s : State) (n : Nat) : Bool := !s.watchMoves n && s.watchRecord n != s.watchHw n

/-- Set the reads left for what has a number. -/
def State.setRecheck (s : State) (n left : Nat) : State :=
  { s with sisyn := { s.sisyn with recheck := tabSet 0 s.sisyn.recheck n left } }

/-- Compare the record with the hardware: what differs is read three more times. -/
def State.compare (s : State) : State :=
  watchAll.foldl (fun t n => if t.watchDiffers n && tabGet 0 t.sisyn.recheck n == 0 then t.setRecheck n 3 else t) s

/-- STATE_COMPARE (R481). -/
def execStateCompare (s : State) : Outcome := act (s.power.aux && !s.sisyn.noFw) s s.compare

/-- The unit_kind and instance of what has a number. -/
def watchUnit (n : Nat) : Nat × Nat :=
  if n < 260 then (qKind n, qInst n) else if n < 290 then (0x80, n - 260) else if n < 306 then (0x61, n - 290) else (0x25, n - 306)

/-- The record adopts the hardware state. -/
def State.adopt (s : State) (n : Nat) : State := (s.noteRecord n (s.watchHw n)).setRecheck n 0

/-- All three reads differ: a unit is forced to QUIESCED, and anything else is adopted (R482). DESIGN CHOICE (log entry 89). -/
def State.watchForce (s : State) (n : Nat) : State :=
  let both := leBytes (s.watchRecord n) 4 ++ leBytes (s.watchHw n) 4
  let u := watchUnit n
  if n < 260 then
    let s := ((s.setRecheck n 0).noteRecord n 3).quiesceStart n
    (s.bump32 Reg.SISYN_FORCED 1).postEvent 1 1 u.1 u.2 0x030 both
  else ((s.adopt n).report (dbEvent 1 1 u.1 u.2 0 0 both)).1

/-- One of the three reads (R481, R482). DESIGN CHOICE (log entry 89). -/
def State.recheck (s : State) (n : Nat) : State :=
  if s.watchMoves n || s.watchRecord n == s.watchHw n then (s.adopt n).bump32 Reg.SISYN_DISAGREE 1
  else if 1 < tabGet 0 s.sisyn.recheck n then s.setRecheck n (tabGet 0 s.sisyn.recheck n - 1)
  else s.watchForce n

/-- STATE_RECHECK (R481, R482). -/
def execStateRecheck (w : Watched) (s : State) : Outcome :=
  act (tabGet 0 s.sisyn.recheck (watchNum w) != 0) s (s.recheck (watchNum w))

/-! Firmware slots (R470–R472). -/

/-- Key of the replies on Sisyn's management bindings. PRESUMED (log entry 95). -/
def mgmtKey : Nat := 2

/-- Put an image in slot `k`: its number (0 for one that cannot boot), version and security version. DESIGN CHOICE (log entry 90). -/
def State.setSlot (s : State) (k image : Nat) (version : Word) (svn : Nat) : State :=
  let s : State := if k = 0 then { s with sisyn := { s.sisyn with imageA := image } } else { s with sisyn := { s.sisyn with imageB := image } }
  (s.setReg (if k = 0 then Reg.SISYN_FW_VERSION_A else Reg.SISYN_FW_VERSION_B) version).setField Reg.SISYN_FW_SVN (8 * k) 7 svn

/-- The slot that an update writes: the one that does not run, or, in the ROM, the one active last (R471, R472). -/
def State.slotToWrite (s : State) : Nat := if s.sisyn.noFw then s.slotActive else 1 - s.slotActive

/-- Whether an image passes verification (R470). -/
def State.imagePasses (s : State) (ok : Bool) (svn : Nat) : Bool := ok && decide (svn ≤ 64) && decide (s.fuseF ≤ svn)

/-- A PLDM firmware update (R472). DESIGN CHOICE (log entry 90). -/
def State.fwUpdate (s : State) (ok : Bool) (version : Word) (svn : Nat) : State :=
  let k := s.slotToWrite
  if s.imagePasses ok svn then
    let n := s.sisyn.nextImage
    let s := s.setSlot k n version svn
    let s : State := { s with sisyn := { s.sisyn with nextImage := n + 1, staged := true } }
    (s.postEvent 0 1 0x90 0 0x040 []).reply mgmtKey 0 0 []
  else
    let s := s.setSlot k 0 version svn
    let s : State := { s with sisyn := { s.sisyn with staged := false } }
    s.reply mgmtKey 3 0 []

/-- FW_UPDATE (R472): `imageOk` says that signature, digest and header are correct. -/
def execFwUpdate (imageOk : Bool) (version : Word) (svn : BitVec 7) (s : State) : Outcome :=
  act s.power.aux s (s.fwUpdate imageOk version svn.toNat)

/-- The written slot becomes active, and a management reset boots it (R472); it samples ADDR, whose level the command does not
name (R514). DESIGN CHOICE (log entry 90). -/
def State.fwActivate (s : State) : State :=
  let k := s.slotToWrite
  let s : State := { s with sisyn := { s.sisyn with staged := false } }
  let (s, n) := s.tick
  ((((s.mgmtReset).sampleAddr ((Config.freeValue n).setWidth 2)).setActive k).bootRom 0 0).recordAll

/-- ACTIVATE_FIRMWARE (R472). -/
def execActivateFirmware (s : State) : Outcome := act (s.power.aux && s.sisyn.staged) s s.fwActivate

/-- Raise F to the security version of the running image, if that is higher; refused where the passbook has no space
(R472, R500). DEDUCED (log entry 103). -/
def State.fwCommit (s : State) : State :=
  let k := s.slotActive
  let v := s.slotSvn k
  if v ≤ s.fuseF then s
  else if s.pbRoom 1 false then
    (s.setField Reg.SISYN_STATUS 3 7 v).pbAppend .fuseCommit 0 0 noSlot (Config.imageDigest (4 * s.slotImage k))
  else (s.report (dbError 2 0x92 0 Code.passbookFull 0)).1

/-- FW_COMMIT (R472). -/
def execFwCommit (_r : Requester) (value : Word) (s : State) : Outcome :=
  act (value.getLsbD 0 && s.power.aux && !s.sisyn.noFw) s s.fwCommit

end Sys2Proof.Machine
end

