-- ==== Sys2Proof/Machine/Faceplate.lean ====
section
/-! DEFINITION. The faceplate: the touch strip, ATTN and power-off for removal, LOCATE and the status display
(18_sisyn_and_the_faceplate.md R474–R480, R484, R485). -/

namespace Sys2Proof.Machine

/-! The touch strip (R475–R477). -/

/-- Change the strip. -/
def State.modStrip (s : State) (f : StripSt → StripSt) : State := { s with sisyn := { s.sisyn with strip := f s.sisyn.strip } }

/-- Bit `k` of a strip's field. -/
def segBit (k : Nat) : BitVec 8 := 1#8 <<< k

/-- Segment `k` is touched; where another one is, every hold under way meets a second touch. A stuck segment is ignored until
it is released. DEDUCED (log entry 104). -/
def StripSt.touch (t : StripSt) (k : Nat) : StripSt :=
  let all := t.touched ||| segBit k
  let live := all &&& ~~~t.stuck
  { t with touched := all, crossed := if live.getLsbD k && live != segBit k then t.crossed ||| live else t.crossed }

/-- Segment `k` is released. DEDUCED (log entry 104). -/
def StripSt.release (t : StripSt) (k : Nat) : StripSt :=
  let m := ~~~(segBit k)
  { t with touched := t.touched &&& m, crossed := t.crossed &&& m, stuck := t.stuck &&& m, done := t.done &&& m }

/-- TOUCH (R475): touches are ignored in configurations without Span (R5). -/
def execTouch (k : CageId) (s : State) : Outcome := act (spanPresent s.variant) s (s.modStrip (·.touch k.val))

/-- TOUCH_RELEASE (R475). -/
def execTouchRelease (k : CageId) (s : State) : Outcome := act (spanPresent s.variant) s (s.modStrip (·.release k.val))

/-- Whether a gesture on segment `k` is refused (R477). -/
def State.gestureRefused (s : State) (k : Nat) : Bool :=
  s.sisyn.strip.crossed.getLsbD k || s.field Reg.SISYN_FP_CTL 0 1 == 1 ||
    (!s.cageModule k && (s.port (2 * k)).st == 0 && (s.port (2 * k + 1)).st == 0) || s.sisyn.attn != 0

/-- The driver's or the faceplate's drain of port `q` (R411). -/
def State.drainPort (s : State) (q : Nat) : State := (s.setField (Reg.SPAN_PORT_CTL q) 0 1 1).drainStart q

/-- A gesture on cage `k` whose ports are both DRAINED by a gesture enables them; any other drains them (R475, R476). -/
def State.gestureAct (s : State) (k : Nat) : State :=
  let s := s.bump32 Reg.SISYN_FP_GESTURES 1
  if s.gestureDrain k ∧ (s.port (2 * k)).st = 4 ∧ (s.port (2 * k + 1)).st = 4 then s.undrainCage k
  else
    let s := ((s.drainPort (2 * k)).drainPort (2 * k + 1)).setField (Reg.SISYN_FP_CAGE k) 3 1 1
    let s := s.modStrip (fun t => { t with confirm := t.confirm ||| segBit k })
    (s.report (dbEvent 0 3 0x91 0 0 0 (leBytes k 1))).1

/-- A hold of 2.0 s on segment `k`. -/
def State.gesture (s : State) (k : Nat) : State :=
  let s := s.modStrip (fun t => { t with done := t.done ||| segBit k })
  if s.gestureRefused k then
    (s.bump32 Reg.SISYN_FP_REFUSED 1).modStrip (fun t => { t with refused := t.refused ||| segBit k })
  else s.gestureAct k

/-- DRAIN_GESTURE (R475–R477). -/
def execDrainGesture (k : CageId) (s : State) : Outcome :=
  let t := s.sisyn.strip
  act (spanPresent s.variant && t.touched.getLsbD k.val && !t.stuck.getLsbD k.val && !t.done.getLsbD k.val) s (s.gesture k.val)

/-- SEGMENT_STUCK (R477). -/
def execSegmentStuck (k : CageId) (s : State) : Outcome :=
  let t := s.modStrip (fun t => { t with stuck := t.stuck ||| segBit k.val })
  act (spanPresent s.variant && s.sisyn.strip.touched.getLsbD k.val && !s.sisyn.strip.stuck.getLsbD k.val) s
    (t.report (dbEvent 1 3 0x91 0 0 0 (leBytes k.val 1))).1

/-- CONFIRMATION_END (R474). -/
def execConfirmationEnd (cage : CageId) (s : State) : Outcome :=
  let m := ~~~(segBit cage.val)
  .next (s.modStrip (fun t => { t with confirm := t.confirm &&& m, refused := t.refused &&& m }))

/-! ATTN (R479, R485). -/

/-- Set the power-off request: 0 none, 1 pending, 2 powering off, 3 ready. -/
def State.setAttn (s : State) (v : Nat) : State := { s with sisyn := { s.sisyn with attn := v } }

/-- Whether ATTN is logged and ignored: it is locked, or a lifecycle transition runs (R479, R492). -/
def State.attnIgnored (s : State) : Bool := s.field Reg.SISYN_FP_CTL 1 1 == 1 || s.lc.zeroise.isSome

/-- Log a press of ATTN that is ignored. -/
def State.attnLogged (s : State) : State := (s.report (dbEvent 0 3 0x91 0 0 0 [])).1

/-- A power-off request ends (R479). -/
def State.attnCancel (s : State) : State := (s.setAttn 0).postEvent 0 1 0x90 0 0x021 []

/-- A power-off request is posted (R479 step 1). DEDUCED (log entry 92). -/
def State.attnAsk (s : State) : State := s.postEvent 0 3 0x91 0 0x020 []

/-- Whether ATTN is held. -/
def State.holdAttn (s : State) (v : Bool) : State := { s with sisyn := { s.sisyn with attnPressed := v } }

/-- A press of ATTN of 50 ms to 5 s: a request, or its withdrawal. -/
def State.attnPress (s : State) : State :=
  let s := s.holdAttn false
  if s.attnIgnored then s.attnLogged
  else if s.sisyn.attn = 0 then (s.setAttn 1).attnAsk
  else if s.sisyn.attn = 1 then s.attnCancel
  else s

/-- ATTN_PRESS (R479). -/
def execAttnPress (s : State) : Outcome := act (s.power.aux && !s.sisyn.noFw) s s.attnPress

/-- Whether an entry stands in a Churn's or the Teller's ring, which serve it without its pusher too (R319, R508). -/
def HubOp.posted : HubOp → Bool
  | .service _ _ _ _ => true
  | .update _ _ _ _ _ => true
  | _ => false

/-- The running task ends without a completion, as at a module reset (R456, R479): its windows are closed (R397), and freezes
and retirements under way end (R67, R319). DEDUCED (log entry 92). -/
def State.dropTask (s : State) : State :=
  if s.sched.st = .idle then s
  else
    let s := coreList.foldl State.freezeCut s.closeTaskWins.spreadAll
    let s : State := { s with
      hubOps := s.hubOps.filter HubOp.posted, hosts := { s.hosts with discardTask := false }, cores := (s.allCores (fun k => { k.stopNow with ops := [], dma := [] })).cores }
    s.taskOver

/-- ATTN held for 5 s: step 1 stands where no request is pending; steps 2 and 3 are left out, and step 4's wait for the running
task, also one that is under way. DEDUCED (log entry 92). -/
def State.attnLong (s : State) : State :=
  let s := s.holdAttn true
  if s.attnIgnored then s.attnLogged
  else if s.sisyn.attn = 0 then ((s.attnAsk).dropTask).setAttn 2
  else if s.sisyn.attn = 1 ∨ s.sisyn.attn = 2 then (s.dropTask).setAttn 2
  else s

/-- ATTN_LONG_PRESS (R479). DEDUCED (log entry 92). -/
def execAttnLongPress (s : State) : Outcome := act (s.power.aux && !s.sisyn.noFw) s s.attnLong

/-- ATTN_GRANT (R479): a host writes grant while a request is pending. -/
def execAttnGrant (_port : HostPort) (s : State) : Outcome := act (s.sisyn.attn == 1) s (s.setAttn 2)

/-- ATTN_VETO (R479, R485): the first of grant and veto to arrive ends the request. -/
def execAttnVeto (_port : HostPort) (s : State) : Outcome := act (s.sisyn.attn == 1) s s.attnCancel

/-- ATTN_TIMEOUT (R479). -/
def execAttnTimeout (s : State) : Outcome := act (s.sisyn.attn == 1) s (s.setAttn 2)

/-! Power-off for removal (R479). -/

/-- The Q, M, C and F domains. -/
def removable : List Nat := List.range 26

/-- Sisyn asks for domain `d` to be turned off through its control path, and notes it in its record. -/
def State.sisynOff (s : State) (d : Nat) : State :=
  let s := s.noteRecord (260 + d) 0
  if (tabGet [] s.power.domReqs d).getLast? = some false then s
  else
    let l := tabGet [] s.power.domReqs d
    let s := s.setDomReqs d (l ++ [false])
    if l.isEmpty then s.domainBegin d 1 else s

/-- Drain every Span port, and ask for every domain that is on to be turned off. -/
def State.powerDown (s : State) : State :=
  let s := if spanPresent s.variant then (List.range 16).foldl State.drainStart s else s
  (removable.filter s.domainOn).foldl State.sisynOff s

/-- Every domain but P, H, A and X is off: the hosts are told, P and H turn off, and the power-off request is asserted. -/
def State.powerReady (s : State) : State :=
  let s := s.postEvent 0 1 0x90 0 0x022 []
  let s := (((s.resetUnits).keepRegs moduleKeeps).showModules).setRegN Reg.PWR_DOMAIN_STATE alwaysOn
  let s := s.setAttn 3
  { s with power := { s.power with removed := true, offReq := true } }

/-- POWER_OFF (R479): it begins, or ends once every domain has turned off. DEDUCED (log entry 92). -/
def execPowerOff (s : State) : Outcome :=
  act (s.sisyn.attn == 2 && s.sched.st == .idle) s (if removable.any s.domainOn then s.powerDown else s.powerReady)

/-- PWR_OFF_REQ#: asserted once the module is ready for removal, until V_IN is removed (R479, R513). -/
def State.pwrOffReq (s : State) : Bool := s.power.offReq

/-- THERMTRIP#: asserted from a thermal trip until the power-up sequence resumes (R453, R513). -/
def State.thermTrip (s : State) : Bool := s.power.tripped

/-! LOCATE and the status display (R480). -/

/-- LOCATE_EFFECTER (R480): mode 3 is reserved. -/
def execLocateEffecter (mode : BitVec 2) (s : State) : Outcome := act (mode != 3) s (s.setField Reg.SISYN_FP_CTL 2 2 mode.toNat)

/-- The module state that the status display shows. -/
inductive Shown where
  | boot (step : Nat)
  | idle
  | run
  | drain
  | remove
  | fault
  | trip
  | noFw
  deriving DecidableEq, Repr

/-- The module state on the display. DEDUCED (log entry 92). -/
def State.shown (s : State) : Shown :=
  if s.sisyn.noFw then .noFw
  else if s.power.removed then .remove
  else if s.power.tripped then .trip
  else if s.sisyn.attn = 2 then .drain
  else if s.power.loaded = false then .boot (s.field Reg.PWR_STATUS 0 3)
  else if s.power.trainFailed ≠ 0 ∨ s.field Reg.PWR_STATUS 4 1 = 1 then .fault
  else if s.sched.st = .idle then .idle
  else .run

/-- The node ID on the display, none without Span. -/
def State.shownNode (s : State) : Option Nat := if spanPresent s.variant then some s.nodeId else none

/-- The newest daybook entry of severity ERROR or FATAL: its status and the low four decimal digits of its seq. DEDUCED (log entry 92). -/
def State.shownError (s : State) : Option (Nat × Nat) :=
  (((s.dbArea.map (·.2)) ++ s.dbQueue).foldl (fun (a : Option DbEntry) e =>
    if e.severity < 2 then a
    else match a with
      | none => some e
      | some b => if (e.seq + 2 ^ 32 - b.seq) % 2 ^ 32 < 2 ^ 31 then some e else some b) none).map (fun e => (e.status, e.seq % 10000))

end Sys2Proof.Machine
end

