-- ==== Sys2Proof/Machine/Attest.lean ====
section
/-! DEFINITION. Attestation over SPDM: certificates, what the responder advertises, and what the alias key signs
(19_lifecycle_and_attestation.md R496–R499; 18_sisyn_and_the_faceplate.md R468). -/

namespace Sys2Proof.Machine

/-! Certificates (R496, R497). -/

/-- The Gulath root's SHA-384, which mask ROM holds. DESIGN CHOICE (log entry 11). -/
def rootHash : BitVec 384 := sha384 (Config.certificate 0)

/-- The certificate of the firmware key in the image of slot `k`, chained to the root. -/
def State.firmwareCert (s : State) (k : Nat) : List Byte := Config.firmwareCert (s.slotImage k)

/-- The alias certificate: the identity key signs it. -/
def State.aliasCert (s : State) : List Byte :=
  let body := Config.aliasBody s.lc.alKey
  Config.x509 body (Config.sign s.lc.idKey body)

/-- The certificates of an SPDM slot: slot 0 holds the chain, and slots 1 to 7 are empty. -/
def State.certSlot (s : State) (k : Nat) : Option (List (List Byte)) :=
  if k = 0 then
    some [Config.certificate 0, Config.certificate 1, Config.identityCert s.lc.idKey s.serial, s.aliasCert]
  else none

/-- The chain of slot 0 as SPDM carries it: its length, the hash of the root, and the certificates. PRESUMED (log entry 95). -/
def State.certChain (s : State) : List Byte :=
  let certs := ((s.certSlot 0).getD []).flatten
  leBytes (52 + certs.length) 2 ++ leBytes 0 2 ++ digestBytes rootHash ++ certs

/-! What the responder advertises (R468, R497). -/

/-- Capabilities and algorithms of the responder: the bits CERT, CHAL and MEAS with signature; no BaseAsymAlgo bit; and the hash
algorithms TPM_ALG_SHA_384. -/
structure SpdmOffer where
  capabilities : Nat
  baseAsym : Nat
  extAsym : List (Half × Half)
  baseHash : Nat
  measurementHash : Nat
  deriving DecidableEq, Repr

/-- What the responder advertises: one ExtAsym entry under Gulath's vendor ID (R497). PRESUMED (log entry 95). -/
def spdmOffer : SpdmOffer := ⟨2 + 4 + 16, 0, [(Config.vendorId, Config.extAsym)], 2, 4⟩

/-- The bytes of what is advertised, as the exchange that is signed holds them. PRESUMED (log entry 95). -/
def SpdmOffer.bytes (o : SpdmOffer) : List Byte :=
  leBytes o.capabilities 4 ++ leBytes o.baseAsym 4 ++ leBytes o.baseHash 4 ++ leBytes o.measurementHash 4 ++
    o.extAsym.flatMap (fun e => leBytes e.1.toNat 2 ++ leBytes e.2.toNat 2)

/-! What the alias key signs (R496, R497). -/

/-- The bytes of a text. -/
def asciiBytes (t : String) : List Byte := t.toList.map (fun c => BitVec.ofNat 8 c.toNat)

/-- What SPDM 1.2 puts before the hash that is signed, for a context of at most 36 characters. PRESUMED (log entry 95). -/
def spdmPrefix (context : String) : List Byte :=
  let c := asciiBytes context
  (List.replicate 4 (asciiBytes "dmtf-spdm-v1.2.*")).flatten ++ List.replicate (36 - c.length) 0 ++ c

/-- The signature of an exchange: what went before, what is advertised, a request and its response. PRESUMED (log entry 95). -/
def State.spdmSign (s : State) (n : Nat) (context : String) (request response : List Byte) : List Byte :=
  let m := Config.spdmEarlier n ++ spdmOffer.bytes ++ request ++ response
  sigBytes (Config.sign s.lc.alKey (spdmPrefix context ++ digestBytes (sha384 m)))

/-- A fresh nonce of the responder, and a number for what went before. DESIGN CHOICE (log entry 11). -/
def State.spdmFresh (s : State) : State × List Byte × Nat :=
  let (s, a) := s.tick
  let (s, b) := s.tick
  let (s, n) := s.tick
  (s, leBytes (Config.freeNonce a).toNat 16 ++ leBytes (Config.freeNonce b).toNat 16, n)

/-- The measurement summary that a CHALLENGE asks for: none, or the hash over all measurements. PRESUMED (log entry 95). -/
def State.summary (s : State) (kind : Byte) : List Byte := if kind = 0 then [] else digestBytes (sha384 s.lc.measured.flatten)

/-- The answer to a CHALLENGE: the chain's hash, a nonce, the summary, and the signature of the exchange. PRESUMED (log entry 95). -/
def State.challengeAnswer (s : State) (ask : SpdmChallenge) : State × List Byte :=
  let (s, nonce, n) := s.spdmFresh
  let request := [0x12, 0x83, ask.slot, ask.summary] ++ leBytes ask.nonce.toNat 32
  let response := [0x12, 0x03, ask.slot, 1] ++ digestBytes (sha384 s.certChain) ++ nonce ++ s.summary ask.summary ++ leBytes 0 2
  (s, response ++ s.spdmSign n "responder-challenge_auth signing" request response)

/-- The bytes of passbook record `seq`; one that is not written reads as zero (R499). -/
def State.recordBytes (s : State) (seq : Nat) : List Byte :=
  match s.lc.passbook.find? (fun r => r.seq = seq) with
  | some r => r.bytes
  | none => List.replicate 160 0

/-- What a request for measurements asks for (R498); the baseboard reads passbook records the same way (R499). DESIGN CHOICE (log entry 136). -/
def State.measureAsked (s : State) : MeasureAsk → Option (List Byte)
  | .index i => s.measure i.toNat
  | .record seq => some (s.recordBytes seq.toNat)

/-- The bytes that name what is asked for. DESIGN CHOICE (log entry 136). -/
def askBytes : MeasureAsk → List Byte
  | .index i => [i]
  | .record seq => leBytes seq.toNat 4

/-- A signed measurement: its content, a nonce, and the signature of the exchange. PRESUMED (log entry 95). -/
def State.signedMeasure (s : State) (ask : MeasureAsk) (asked : BitVec 256) (m : List Byte) : State × List Byte :=
  let (s, nonce, n) := s.spdmFresh
  let request := [0x12, 0xE0, 1] ++ askBytes ask ++ leBytes asked.toNat 32
  let response := [0x12, 0x60, 0, 0, 1] ++ leBytes m.length 3 ++ m ++ nonce ++ leBytes 0 2
  (s, m ++ nonce ++ s.spdmSign n "responder-measurements signing" request response)

/-- The SPDM error Unspecified. PRESUMED (log entry 95). -/
def spdmUnspecified : Nat := 5

/-- The SPDM error InvalidRequest. PRESUMED (log entry 95). -/
def spdmInvalid : Nat := 1

end Sys2Proof.Machine
end

