-- ==== Sys2Proof/Machine/Lifecycle.lean ====
section
/-! DEFINITION. Lifecycle, tokens, keys, attestation and privileged commands (19_lifecycle_and_attestation.md R486–R502;
18_sisyn_and_the_faceplate.md R463). -/

namespace Sys2Proof.Machine

/-! Privileged commands (R486, R488). -/

/-- Whether the lifecycle state opens what bit `bit` of a token's scope stands for (R486, R490). -/
def LcSt.grants (l : LcSt) (bit : Nat) : Bool :=
  match l.state with
  | .blank | .maker | .returned => true
  | .fieldDebug => bitOf l.scope bit
  | .field | .scrap => false

/-- Whether JTAG is open. -/
def LcSt.jtagOpen (l : LcSt) : Bool := l.grants 0

/-- Whether the debug UART is open. -/
def LcSt.uartOpen (l : LcSt) : Bool := l.grants 1

/-- Whether the lifecycle state accepts privileged commands. -/
def LcSt.opens (l : LcSt) : Bool := l.grants 2

/-- A privileged command is refused: LIFECYCLE.PRIVILEGED over MCTP, and a daybook entry of origin 2 (R488, R507). DEDUCED (log entry 93). DEDUCED (log entry 103). -/
def State.privileged (s : State) : State :=
  (s.report (dbError 2 0x92 0 Code.privileged 0)).1.reply mgmtKey 3 Code.privileged []

/-- A privileged command has its effect, or is refused. -/
def State.ifOpen (s t : State) : State := if s.lc.opens then t else s.privileged

/-- Whether Sisyn serves commands. -/
def State.sisynUp (s : State) : Bool := s.power.aux && !s.sisyn.noFw

/-- A daybook entry from its 64 bytes; none where its crc is wrong. -/
def dbParse (bs : List Byte) : Option DbEntry :=
  let f (o n : Nat) : Nat := leNat ((bs.drop o).take n)
  if (crc32 (bs.take 56)).toNat = f 56 4 then
    some ⟨f 0 4, f 4 6, f 10 2, f 12 1 % 16, f 12 1 / 16, f 13 1, f 14 2, f 16 2, f 18 2, f 20 4, (bs.drop 24).take 32⟩
  else none

/-- The 64 bytes of a daybook slot with one byte replaced. -/
def State.slotWith (s : State) (o : Nat) (b : Byte) : List Byte :=
  (List.range 64).map (fun i => if i = o % 64 then b else s.norByte (dbPlace + o / 64 * 64 + i))

/-- A raw write in the daybook's area: the slot holds the entry that its bytes now spell, if they spell one. DESIGN CHOICE (log entry 90). -/
def State.norDaybookWrite (s : State) (o : Nat) (b : Byte) : State :=
  let bs := s.slotWith o b
  let a := dbPlace + o / 64 * 64
  match dbParse bs with
  | some e =>
    { s with dbArea := tabPut s.dbArea (o / 64) e
             sisyn := { s.sisyn with nor := tabDrop (fun x => decide (a ≤ x) && decide (x < a + 64)) s.sisyn.nor } }
  | none =>
    { s with dbArea := tabDel s.dbArea (o / 64)
             sisyn := { s.sisyn with nor := putBytes s.sisyn.nor a bs } }

/-- The passbook record that 160 bytes spell (R499). -/
def PbRecord.of (bs : List Byte) : PbRecord :=
  let f (o n : Nat) : Nat := leNat ((bs.drop o).take n)
  let big (o n : Nat) : Nat := leNat ((bs.drop o).take n).reverse
  ⟨f 0 4, f 4 2, f 6 1, f 7 1, f 8 1, f 9 1, BitVec.ofNat 48 (f 10 6), BitVec.ofNat 384 (big 16 48), BitVec.ofNat 768 (big 64 96)⟩

/-- A raw write in the passbook's area: it changes the record that stands there. Behind the last record the bytes stand by
themselves, until they spell the next seq: then they are a record. DESIGN CHOICE (log entry 90). -/
def State.norPassbookWrite (s : State) (o : Nat) (b : Byte) : State :=
  let i := o / 160
  let n := s.lc.passbook.length
  let a := pbPlace + 160 * i
  let r := PbRecord.of ((List.range 160).map (fun j => if j = o % 160 then b else s.norByte (a + j)))
  if i < n then { s with lc := { s.lc with passbook := s.lc.passbook.set i r } }
  else if i = n ∧ i < pbCapacity ∧ r.seq = n + 1 then
    { s with lc := { s.lc with passbook := s.lc.passbook ++ [r] }
             sisyn := { s.sisyn with nor := tabDrop (fun x => decide (a ≤ x) && decide (x < a + 160)) s.sisyn.nor } }
  else { s with sisyn := { s.sisyn with nor := tabPut s.sisyn.nor (pbPlace + o) b } }

/-- A raw write in the boot record: the active slot from the next boot on, or a slot's failure count. DESIGN CHOICE (log entry 90). -/
def State.norBootWrite (s : State) (a : Nat) (b : Byte) : State :=
  if a = 1 ∨ a = 2 then s.setCount (a - 1) (b.toNat % 4)
  else { s with sisyn := { s.sisyn with nor := tabPut s.sisyn.nor a b } }

/-- A raw write of one byte. One in a firmware slot makes another image of what stands there. DESIGN CHOICE (log entry 90). -/
def State.norWrite (s : State) (a : Nat) (b : Byte) : State :=
  if a < 0x100000 then s.norBootWrite a b
  else if dbPlace ≤ a ∧ a < pbPlace then s.norDaybookWrite (a - dbPlace) b
  else if pbPlace ≤ a ∧ a < 0x3500000 then s.norPassbookWrite (a - pbPlace) b
  else
    let n := s.sisyn.nextImage
    let slotA := decide (0x100000 ≤ a) && decide (a < 0x1100000)
    let slotB := decide (0x1100000 ≤ a) && decide (a < 0x2100000)
    { s with sisyn := { s.sisyn with
        nor := tabPut s.sisyn.nor a b
        imageA := if slotA then n else s.sisyn.imageA
        imageB := if slotB then n else s.sisyn.imageB
        nextImage := if slotA || slotB then n + 1 else n } }

/-- NOR_RAW_ACCESS (R488): a read is answered with the byte. -/
def execNorRawAccess (offset : BitVec 26) (write : Option Byte) (s : State) : Outcome :=
  act s.sisynUp s (s.ifOpen (match write with
    | some b => (s.norWrite offset.toNat b).reply mgmtKey 0 0 []
    | none => s.reply mgmtKey 0 0 [s.norByte offset.toNat]))

/-- Where the calibration area holds two bytes: a quad's bound_off and floor_off, or a sensor's trim behind them. DESIGN CHOICE (log entry 88). -/
def calAt : CalPlace → Nat
  | .quad q => calPlace q.val
  | .trim i => calPlace 16 + 2 * i.val

/-- Sisyn's calibration area takes two bytes; start-up writes a quad's offsets to the skim block (R162). DESIGN CHOICE (log entry 88). -/
def State.calWrite (s : State) (a : Nat) (first second : Byte) : State :=
  { s with sisyn := { s.sisyn with nor := tabPut (tabPut s.sisyn.nor a first) (a + 1) second } }

/-- CALIBRATION_WRITE (R488). -/
def execCalibrationWrite (place : CalPlace) (first second : Byte) (s : State) : Outcome :=
  act s.sisynUp s (s.ifOpen ((s.calWrite (calAt place) first second).reply mgmtKey 0 0 []))

/-- A byte that a debug access reads. -/
def State.debugByte (s : State) : DebugPlace → Byte
  | .sram o => tabGet 0 s.sisyn.sram o.toNat
  | .register o => tabGet 0 s.sisyn.debugRegs o.toNat

/-- A byte that a debug access writes. A debug register holds what was written. DESIGN CHOICE (log entry 135). -/
def State.debugPut (s : State) (b : Byte) : DebugPlace → State
  | .sram o => { s with sisyn := { s.sisyn with sram := tabSet 0 s.sisyn.sram o.toNat b } }
  | .register o => { s with sisyn := { s.sisyn with debugRegs := tabSet 0 s.sisyn.debugRegs o.toNat b } }

/-- SISYN_DEBUG_ACCESS (R488): a byte of Sisyn's SRAM, or of its processor's debug registers. -/
def execSisynDebugAccess (place : DebugPlace) (write : Option Byte) (s : State) : Outcome :=
  act s.sisynUp s (s.ifOpen (match write with
    | some b => (s.debugPut b place).reply mgmtKey 0 0 []
    | none => s.reply mgmtKey 0 0 [s.debugByte place]))

/-! Tokens (R490–R492, R500). -/

/-- The fields of an owner token (R490). -/
structure Token where
  version : Nat
  kind : Nat
  slot : Nat
  serial : Nat
  nonce : BitVec 128
  duration : Nat
  scope : Nat
  target : Nat
  keyHash : BitVec 384
  rsv : Nat
  pubkey : List Byte
  bytes : List Byte
  deriving DecidableEq, Repr

/-- Read a token from its 320 bytes. A hash stands in them most significant byte first. DESIGN CHOICE (log entry 11). -/
def Token.of (bs : List Byte) : Token :=
  let f (o n : Nat) : Nat := leNat ((bs.drop o).take n)
  ⟨f 0 2, f 2 1, f 3 1, f 4 8, BitVec.ofNat 128 (f 12 16), f 28 4, f 32 2, f 34 2,
    BitVec.ofNat 384 (leNat ((bs.drop 36).take 48).reverse), f 84 44, (bs.drop 128).take 96, bs⟩

/-- The 320 bytes of the submission buffer (R501). -/
def State.tokenBuffer (s : State) : List Byte := (List.range 80).flatMap (fun w => leBytes (s.regN (Reg.SISYN_LC_TOKEN w)) 4)

/-- The token that is submitted. -/
def State.tokenVia (s : State) (via : TokenVia) : Token :=
  match via with
  | .buffer => Token.of s.tokenBuffer
  | .mctp t => Token.of (leBytes t.toNat 320)

/-- Whether the fields that a kind does not use are zero, and the others in range (R490). -/
def Token.inRange (t : Token) : Bool :=
  decide (t.slot < 4) && t.rsv == 0 &&
  (if t.kind = 1 then (t.duration == 0 || (decide (60 ≤ t.duration) && decide (t.duration ≤ 604800))) && decide (t.scope < 8)
   else t.duration == 0 && t.scope == 0) &&
  (if t.kind = 4 ∨ t.kind = 5 then decide (t.target < 4) else t.target == 0) &&
  (t.kind == 4 || t.keyHash == 0)

/-- Whether a kind is allowed from the present state (R489, R491). -/
def State.tokenAllowed (s : State) (t : Token) : Bool :=
  let l := s.lc
  if t.kind = 1 then (if t.duration = 0 then l.state == .fieldDebug else l.state == .field)
  else if t.kind = 4 then l.state == .field && (l.slot t.target).st == 0
  else if t.kind = 5 then l.state == .field && (l.slot t.target).st == 1 && t.target != t.slot
  else l.state == .field

/-- Whether the signature of a token verifies: its last 96 bytes sign bytes 0–223 (R490). PRESUMED (log entry 137). -/
def Token.sigOk (t : Token) : Bool := ecdsaVerify t.pubkey (t.bytes.take 224) (t.bytes.drop 224)

/-- Whether a token is accepted (R491). -/
def State.tokenOk (s : State) (t : Token) : Bool :=
  let o := s.lc.slot t.slot
  t.version == 1 && t.inRange && o.st == 1 && sha384 t.pubkey == o.hash && t.sigOk &&
    t.serial == s.serial.toNat && s.lc.nonce == some t.nonce && s.tokenAllowed t

/-- Records that a token appends, counted in full, and whether it may use the reserve (R500). -/
def Token.records (t : Token) : Nat × Bool :=
  if t.kind = 1 then (if t.duration = 0 then 0 else 4, t.duration == 0)
  else if t.kind = 2 ∨ t.kind = 3 then (3, true)
  else (1, false)

/-- The nonce is consumed, and the buffer that was submitted is cleared (R492, R502). -/
def State.consume (s : State) (via : TokenVia) : State :=
  let s : State := { s with lc := { s.lc with nonce := none } }
  match via with
  | .buffer => (List.range 80).foldl (fun t w => t.setRegN (Reg.SISYN_LC_TOKEN w) 0) s
  | .mctp _ => s

/-- A submission completes with a status (R501). -/
def State.submitted (s : State) (via : TokenVia) (result status : Nat) : State :=
  let s := s.setRegN Reg.SISYN_LC_RESULT result
  let s := if result = 1 then s else s.bump32 Reg.SISYN_LC_REFUSED 1
  match via with
  | .buffer => s
  | .mctp _ => s.reply mgmtKey (if result = 1 then 0 else 3) status []

/-- Whether a transition runs, or a power-off request is pending or ready (R492). -/
def State.lcBusy (s : State) : Bool := s.lc.zeroise.isSome || s.sisyn.attn != 0

/-- Serve a submission: refused, or accepted with an effect. -/
def State.submit (s : State) (via : TokenVia) (go : State → Token → State) : State :=
  let t := s.tokenVia via
  let ok := s.tokenOk t
  let busy := s.lcBusy
  let s := s.consume via
  if busy then s.submitted via 3 Code.lcBusy
  else if ok = false then s.submitted via 2 Code.tokenInvalid
  else if s.pbRoom t.records.1 t.records.2 = false then s.submitted via 4 Code.passbookFull
  else go (s.submitted via 1 0) t

/-- Whether requester `r` reaches SISYN_LC_CTL, where a token comes by the buffer: a core reaches its own blocks alone (R280). -/
def viaReaches (via : TokenVia) (r : Requester) : Bool :=
  match via, r with
  | .buffer, .core _ => false
  | _, _ => true

/-- Whether a submission carries version 1 and kind `k`. -/
def State.submits (s : State) (via : TokenVia) (r : Requester) (k : Nat) : Bool :=
  let t := s.tokenVia via
  s.sisynUp && viaReaches via r && t.version == 1 && t.kind == k

/-- A transition that zeroises begins: ZEROISE_BEGIN, then a module reset, and the power-up sequence goes on once V_IN is
good (R493). DEDUCED (log entry 94). -/
def State.zeroiseStart (s : State) (to_ : LcState) (slot : Nat) (digest : BitVec 384) (duration scope : Nat) (f : BootFindings) : State :=
  let s := s.pbAppend .zeroiseBegin s.lc.state.code to_.code slot digest
  let s : State := { s with lc := { s.lc with zeroise := some ⟨to_, slot, digest, duration, scope⟩ } }
  (s.moduleReset 4).bootOn f

/-- The digest of an accepted token. -/
def Token.digest (t : Token) : BitVec 384 := sha384 t.bytes

/-- DEBUG_TOKEN (R489, R491): duration 0 ends a session. -/
def execDebugToken (via : TokenVia) (r : Requester) (find : BootFindings) (s : State) : Outcome :=
  act (s.submits via r 1) s (s.submit via (fun s t =>
    if t.duration = 0 then s.debugOver t.slot t.digest else s.zeroiseStart .fieldDebug t.slot t.digest t.duration t.scope find))

/-- RETURN_TOKEN (R489). -/
def execReturnToken (via : TokenVia) (r : Requester) (find : BootFindings) (s : State) : Outcome :=
  act (s.submits via r 2) s (s.submit via (fun s t => s.zeroiseStart .returned t.slot t.digest 0 0 find))

/-- SCRAP_TOKEN (R489). -/
def execScrapToken (via : TokenVia) (r : Requester) (find : BootFindings) (s : State) : Outcome :=
  act (s.submits via r 3) s (s.submit via (fun s t => s.zeroiseStart .scrap t.slot t.digest 0 0 find))

/-- Write an owner slot. -/
def State.setOwner (s : State) (k : Nat) (o : OwnerSlot) : State :=
  { s with lc := { s.lc with slots := tabSet ⟨0, 0⟩ s.lc.slots k o } }

/-- KEY_ADD (R491). -/
def execKeyAdd (via : TokenVia) (r : Requester) (s : State) : Outcome :=
  act (s.submits via r 4) s (s.submit via (fun s t =>
    (s.setOwner t.target ⟨1, t.keyHash⟩).pbAppend .keyAdd 0 0 t.target t.keyHash))

/-- KEY_REVOKE (R491). -/
def execKeyRevoke (via : TokenVia) (r : Requester) (s : State) : Outcome :=
  act (s.submits via r 5) s (s.submit via (fun s t =>
    let h := (s.lc.slot t.target).hash
    (s.setOwner t.target ⟨2, h⟩).pbAppend .keyRevoke 0 0 t.target h))

/-- TOKEN_SUBMIT_INVALID (R491, R492): a reserved kind, or a version other than 1. -/
def execTokenSubmitInvalid (via : TokenVia) (s : State) : Outcome :=
  let t := s.tokenVia via
  act (s.sisynUp && (t.version != 1 || t.kind == 0 || decide (5 < t.kind))) s
    ((s.consume via).submitted via (if s.lcBusy then 3 else 2) (if s.lcBusy then Code.lcBusy else Code.tokenInvalid))

/-- NEW_NONCE (R492). -/
def execNewNonce (_r : Requester) (value : Word) (s : State) : Outcome :=
  let n := s.tick
  act (value.getLsbD 0 && s.sisynUp) s { n.1 with lc := { n.1.lc with nonce := some (Config.freeNonce n.2) } }

/-- DEBUG_END (R495): the duration expires. -/
def execDebugEnd (s : State) : Outcome := act (s.lc.state == .fieldDebug) s (s.debugOver noSlot 0)

/-! Maker (R489). -/

/-- A command that is not a listed transition, or whose authority is wrong. -/
def State.makerRefused (s : State) (status : Nat) : State := s.reply mgmtKey 3 status []

/-- MAKER_PROVISION (R489, R496): the identity seed is fused, and the identity key is made from it. DEDUCED (log entry 132). -/
def execMakerProvision (identitySeed : BitVec 384) (s : State) : Outcome :=
  let t : State := { s with lc := { s.lc with state := .maker, seedFuse := identitySeed, idKey := identityKey identitySeed } }
  act s.sisynUp s
    (if s.lc.state ≠ .blank then s.makerRefused Code.tokenInvalid
     else if s.pbRoom 1 false = false then s.makerRefused Code.passbookFull
     else ((t.pbAppend .provision LcState.blank.code LcState.maker.code noSlot 0).takeMeasures).reply mgmtKey 0 0 [])

/-- Whether a maker-signed command is a listed transition (R489). DEDUCED (log entry 93). -/
def makerPath (l : LcState) (op : MakerOp) : Bool :=
  match op with
  | .toField _ => l == .maker
  | .scrap => l == .maker || l == .field || l == .returned

/-- A maker-signed command that the lifecycle accepts: its transition. -/
def State.makerGo (s : State) (op : MakerOp) (f : BootFindings) : State :=
  match op with
  | .toField key => ((s.setOwner 0 ⟨1, key⟩).reply mgmtKey 0 0 []).zeroiseStart .field 0 key 0 0 f
  | .scrap => (s.reply mgmtKey 0 0 []).zeroiseStart .scrap noSlot 0 0 0 f

/-- Records of a maker-signed command: three, and SCRAP may use the reserve (R500). -/
def State.makerRoom (s : State) (op : MakerOp) : Bool := s.pbRoom 3 (op == .scrap)

/-- MAKER_COMMAND (R488, R489): a privileged command. DEDUCED (log entry 93). -/
def execMakerCommand (op : MakerOp) (sigOk : Bool) (find : BootFindings) (s : State) : Outcome :=
  act s.sisynUp s (s.ifOpen
    (if sigOk = false ∨ makerPath s.lc.state op = false then s.makerRefused Code.tokenInvalid
     else if s.lcBusy then s.makerRefused Code.lcBusy
     else if s.makerRoom op = false then s.makerRefused Code.passbookFull
     else s.makerGo op find))

/-! Attestation (R496–R499). -/

/-- CHALLENGE (R497): the alias key signs the exchange; in SCRAP the answer is the error Unspecified, and a slot other than 0 is
empty. PRESUMED (log entry 95). -/
def execChallenge (ask : SpdmChallenge) (s : State) : Outcome :=
  act s.sisynUp s
    (if s.lc.state = .scrap then s.reply mgmtKey 3 spdmUnspecified []
     else if (s.certSlot ask.slot.toNat).isNone then s.reply mgmtKey 3 spdmInvalid []
     else
       let (s, m) := s.challengeAnswer ask
       s.reply mgmtKey 0 0 m)

/-- GET_MEASUREMENTS (R497–R499): unsigned ones are served in every state. -/
def execGetMeasurements (ask : MeasureAsk) (signed : Option (BitVec 256)) (s : State) : Outcome :=
  act s.sisynUp s
    (match s.measureAsked ask, signed with
      | none, _ => s.reply mgmtKey 3 spdmInvalid []
      | some m, none => s.reply mgmtKey 0 0 m
      | some m, some nonce =>
        if s.lc.state = .scrap then s.reply mgmtKey 3 spdmUnspecified []
        else
          let (s, a) := s.signedMeasure ask nonce m
          s.reply mgmtKey 0 0 a)

/-- PB_SELECT (R499). -/
def execPbSelect (_r : Requester) (seq : Word) (s : State) : Outcome := .next (s.setReg Reg.SISYN_PB_SEL seq)

end Sys2Proof.Machine
end

