-- ==== Sys2Proof/Machine/MemCmds.lean ====
section
/-! DEFINITION. What a memory controller does by itself or for a plain request: reads and writes of atoms, the patrol
scrubber, write-backs and the temperature read (13_lpddr6_memory.md R341–R348). -/

namespace Sys2Proof.Machine

/-- Key of the replies to plain memory requests. PRESUMED (log entry 95). -/
def memReplyKey : Nat := 128

/-- Whether an address is one that the local map gives to memory or to the hole above it (R346). -/
def memAddress (a : Nat) : Bool := decide (a < 0xF00000000000)

/-- MEMORY_READ (R341, R344, R346): the atom that holds the address, with its status. DEDUCED (log entry 68). -/
def execMemoryRead (addr : BitVec 48) (s : State) : Outcome :=
  if memAddress addr.toNat = false then .next s
  else
    .next (s.apart (fun s =>
      let (s, bs, st) := s.lpddrRead (addr.toNat / 32 * 32) 32 0xFF
      s.reply memReplyKey (if st.code = 0 then 0 else 3) st.code bs))

/-- MEMORY_WRITE (R345–R347). -/
def execMemoryWrite (addr : BitVec 48) (bytes : List Byte) (s : State) : Outcome :=
  if memAddress addr.toNat = false then .next s
  else
    .next (s.apart (fun s =>
      let (s, st) := s.lpddrWrite addr.toNat bytes 0xFF
      s.reply memReplyKey (if st.code = 0 then 0 else 3) st.code []))

/-! The patrol scrubber (R343). -/

/-- Whether controller `m` is present, trained and takes requests. -/
def State.chanReady (s : State) (m : Nat) : Bool :=
  blockPresent s.variant .memc m && s.field (Reg.PWR_MEMC_STATUS m) 0 2 == 2 && s.chanEnabled m

/-- Read the scrubber's next atom; the last atom of the channel ends a pass. -/
def State.scrub (s : State) (m : Nat) : State :=
  let k := tabGet 0 s.scrubAt m
  let (s, _) := s.atomRead (s.chanAddress m (k * 32) / 32) true 0xFF
  let s := { s with scrubAt := tabSet 0 s.scrubAt m ((k + 1) % atomsPerChan) }
  if k + 1 = atomsPerChan then s.bump32 (Reg.PWR_MEMC_SCRUB_PASSES m) 1 else s

/-- SCRUB_READ (R343): a scrub period of 0 stops the scrubber. -/
def execScrubRead (m : ChanId) (s : State) : Outcome :=
  act (s.chanReady m.val && s.field Reg.PWR_MEMMAP_SCRUB 0 16 != 0) s (s.apart (·.scrub m.val))

/-- WRITE_BACK (R343): the oldest corrected atom of the channel that waits. DEDUCED (log entry 68). -/
def execWriteBack (m : ChanId) (s : State) : Outcome :=
  match s.writeBacks.find? (fun w => dramChan w.1 = m.val) with
  | some w => act (s.chanReady m.val) s (s.placeWrite w.1 w.2)
  | none => .next s

/-! Temperature (R348). -/

/-- The refresh multiplier's code at a package temperature. DEDUCED (log entry 69). -/
def refreshCode (celsius : Nat) : Nat := if celsius ≤ 85 then 0 else if celsius ≤ 95 then 1 else 2

/-- TEMPERATURE_READ (R348). DEDUCED (log entry 69). -/
def execTemperatureRead (m : ChanId) (celsius : BitVec 8) (s : State) : Outcome :=
  act (blockPresent s.variant .memc m.val) s
    ((s.setField (Reg.PWR_MEMC_STATUS m.val) 4 8 celsius.toNat).setField (Reg.PWR_MEMC_STATUS m.val) 2 2
      (refreshCode celsius.toNat))

end Sys2Proof.Machine
end

