-- ==== Sys2Proof/Machine/Ngaosh.lean ====
section
/-! DEFINITION. The meanings of the Ngaosh instructions: each is passed by the Clerk of one core
(11_ngaosh_instruction_reference.md R272–R313, 09_programming_model.md R215–R232), and the end of a wait (R217). -/

namespace Sys2Proof.Machine

/-- What an instruction does once it passes (R273); any other command passes nothing. -/
def clerkBody : Instr → State → Passed
  | .nop _ _ _, s => .pass s
  | .add c _ f, s => bodyR c f (fun a b => a + b) s
  | .sub c _ f, s => bodyR c f (fun a b => a - b) s
  | .and c _ f, s => bodyR c f (fun a b => a &&& b) s
  | .or c _ f, s => bodyR c f (fun a b => a ||| b) s
  | .xor c _ f, s => bodyR c f (fun a b => a ^^^ b) s
  | .shl c _ f, s => bodyR c f (fun a b => a <<< (b.toNat % 64)) s
  | .shr c _ f, s => bodyR c f (fun a b => a >>> (b.toNat % 64)) s
  | .sra c _ f, s => bodyR c f (fun a b => a.sshiftRight (b.toNat % 64)) s
  | .mul c _ f, s => bodyR c f (fun a b => a * b) s
  | .min c _ f, s => bodyR c f (fun a b => if a.slt b then a else b) s
  | .max c _ f, s => bodyR c f (fun a b => if a.slt b then b else a) s
  | .addi c _ f, s => bodyI c f (fun a i => a + sext i) s
  | .andi c _ f, s => bodyI c f (fun a i => a &&& sext i) s
  | .lil c _ f, s => bodyI c f (fun _ i => sext i) s
  | .lih c _ f, s => bodyLih c f s
  | .shli c _ f, s => bodyI c f (fun a i => a <<< (i.toNat % 64)) s
  | .shri c _ f, s => bodyI c f (fun a i => a >>> (i.toNat % 64)) s
  | .cmp c _ f, s => bodyC c f (fun k => k.greg f.gb.toNat) s
  | .cmpi c _ f, s => bodyC c f (fun _ => sext f.imm) s
  | .plog c _ f, s => bodyPlog c f s
  | .br _ _ f, s => .jump s f.target.toNat
  | .bal c _ f, s => bodyBal c f s
  | .jr c _ f, s => bodyJr c f s
  | .end_ c _ _, s => bodyEnd c s
  | .ld c _ f, s => bodyLd c f s
  | .st c _ f, s => bodySt c f s
  | .dmake c _ f, s => bodyDmake c f s
  | .dget c _ f, s => bodyDget c f s
  | .dput c _ f, s => bodyDput c f s
  | .dcopy c _ f, s => bodyDcopy c f s
  | .move c _ side f, s => bodyT c .move side f s
  | .gather c _ side f, s => bodyT c .gather side f s
  | .scatter c _ side f, s => bodyT c .scatter side f s
  | .xpose c _ side f, s => bodyT c .xpose side f s
  | .permute c _ side f, s => bodyT c .permute side f s
  | .fill c _ f, s => bodyFill c f s
  | .copy c _ f, s => bodyCopy c f s
  | .aadd c _ f, s => bodyAadd c f s
  | .acas c _ f, s => bodyAcas c f s
  | .tmul c _ f, s => bodyTmul c f s
  | .tmul2 c _ f, s => bodyTmul2 c f s
  | .tstore c _ f, s => bodyTstore c f s
  | .tclear c _ f, s => bodyTclear c f s
  | .tingest c _ f, s => bodyTingest c f s
  | .sintMatch c _ f, s => bodySintKeys c 0 f s
  | .sintMerge c _ f, s => bodySintKeys c 1 f s
  | .sintPairs c _ f, s => bodySintPairs c f s
  | .sintSelect c _ f, s => bodySintSelect c f s
  | .pwait c _ f, s => bodyPwait c f s
  | .psig c _ f, s => bodyPsig c f s
  | .fence c _ f, s => bodyFence c f s
  | .grant c _ f, s => bodyGrant c f s
  | .barrier c _ f, s => bodyBarrier c f s
  | .take c _ f, s => bodyTake c f s
  | .push c _ f, s => bodyPush c f s
  | .pop c _ f, s => bodyPop c f s
  | .setprec c _ f, s => bodySetprec c f s
  | .setclass c _ f, s => bodySetclass c f s
  | .spec c _ f, s => bodySpec c f s
  | .verify c _ f, s => bodyVerify c f s
  | .squash c _ f, s => bodySquash c f s
  | .sopen c _ f, s => bodySopen c f s
  | .sclose c _ f, s => bodySclose c f s
  | .wopen c _ f, s => bodyWopen c f s
  | .wclose c _ f, s => bodyWclose c f s
  | .update c _ f, s => bodyUpdate c f s
  | _, s => .wait s

/-- NOP: no effect (R278). -/
def execNop (c : CoreId) (p : Pred) (f : FmtE) (s : State) : Outcome :=
  s.clerk (.nop c p f) (fun s => .pass s)

/-- ADD: gd := ga + gb (R278). -/
def execAdd (c : CoreId) (p : Pred) (f : FmtR) (s : State) : Outcome :=
  s.clerk (.add c p f) (fun s => bodyR c f (fun a b => a + b) s)

/-- SUB: gd := ga - gb (R278). -/
def execSub (c : CoreId) (p : Pred) (f : FmtR) (s : State) : Outcome :=
  s.clerk (.sub c p f) (fun s => bodyR c f (fun a b => a - b) s)

/-- AND: gd := ga and gb (R278). -/
def execAnd (c : CoreId) (p : Pred) (f : FmtR) (s : State) : Outcome :=
  s.clerk (.and c p f) (fun s => bodyR c f (fun a b => a &&& b) s)

/-- OR: gd := ga or gb (R278). -/
def execOr (c : CoreId) (p : Pred) (f : FmtR) (s : State) : Outcome :=
  s.clerk (.or c p f) (fun s => bodyR c f (fun a b => a ||| b) s)

/-- XOR: gd := ga xor gb (R278). -/
def execXor (c : CoreId) (p : Pred) (f : FmtR) (s : State) : Outcome :=
  s.clerk (.xor c p f) (fun s => bodyR c f (fun a b => a ^^^ b) s)

/-- SHL: gd := ga shifted left by gb mod 64 (R278). -/
def execShl (c : CoreId) (p : Pred) (f : FmtR) (s : State) : Outcome :=
  s.clerk (.shl c p f) (fun s => bodyR c f (fun a b => a <<< (b.toNat % 64)) s)

/-- SHR: gd := ga shifted right with zeros by gb mod 64 (R278). -/
def execShr (c : CoreId) (p : Pred) (f : FmtR) (s : State) : Outcome :=
  s.clerk (.shr c p f) (fun s => bodyR c f (fun a b => a >>> (b.toNat % 64)) s)

/-- SRA: gd := ga shifted right with copies of bit 63 by gb mod 64 (R278). -/
def execSra (c : CoreId) (p : Pred) (f : FmtR) (s : State) : Outcome :=
  s.clerk (.sra c p f) (fun s => bodyR c f (fun a b => a.sshiftRight (b.toNat % 64)) s)

/-- MUL: gd := low 64 bits of ga × gb (R278). -/
def execMul (c : CoreId) (p : Pred) (f : FmtR) (s : State) : Outcome :=
  s.clerk (.mul c p f) (fun s => bodyR c f (fun a b => a * b) s)

/-- MIN: gd := the signed minimum (R278). -/
def execMin (c : CoreId) (p : Pred) (f : FmtR) (s : State) : Outcome :=
  s.clerk (.min c p f) (fun s => bodyR c f (fun a b => if a.slt b then a else b) s)

/-- MAX: gd := the signed maximum (R278). -/
def execMax (c : CoreId) (p : Pred) (f : FmtR) (s : State) : Outcome :=
  s.clerk (.max c p f) (fun s => bodyR c f (fun a b => if a.slt b then b else a) s)

/-- ADDI: gd := ga + sext(imm) (R278). -/
def execAddi (c : CoreId) (p : Pred) (f : FmtI) (s : State) : Outcome :=
  s.clerk (.addi c p f) (fun s => bodyI c f (fun a i => a + sext i) s)

/-- ANDI: gd := ga and sext(imm) (R278). -/
def execAndi (c : CoreId) (p : Pred) (f : FmtI) (s : State) : Outcome :=
  s.clerk (.andi c p f) (fun s => bodyI c f (fun a i => a &&& sext i) s)

/-- LIL: gd := sext(imm) (R278). -/
def execLil (c : CoreId) (p : Pred) (f : FmtI) (s : State) : Outcome :=
  s.clerk (.lil c p f) (fun s => bodyI c f (fun _ i => sext i) s)

/-- LIH: gd[63:32] := imm (R278). -/
def execLih (c : CoreId) (p : Pred) (f : FmtI) (s : State) : Outcome :=
  s.clerk (.lih c p f) (fun s => bodyLih c f s)

/-- SHLI: gd := ga shifted left by imm[5:0] (R278). -/
def execShli (c : CoreId) (p : Pred) (f : FmtI) (s : State) : Outcome :=
  s.clerk (.shli c p f) (fun s => bodyI c f (fun a i => a <<< (i.toNat % 64)) s)

/-- SHRI: gd := ga shifted right with zeros by imm[5:0] (R278). -/
def execShri (c : CoreId) (p : Pred) (f : FmtI) (s : State) : Outcome :=
  s.clerk (.shri c p f) (fun s => bodyI c f (fun a i => a >>> (i.toNat % 64)) s)

/-- CMP: p[pdst] := ga cond gb (R278). -/
def execCmp (c : CoreId) (p : Pred) (f : FmtC) (s : State) : Outcome :=
  s.clerk (.cmp c p f) (fun s => bodyC c f (fun k => k.greg f.gb.toNat) s)

/-- CMPI: p[pdst] := ga cond sext(imm) (R278). -/
def execCmpi (c : CoreId) (p : Pred) (f : FmtC) (s : State) : Outcome :=
  s.clerk (.cmpi c p f) (fun s => bodyC c f (fun _ => sext f.imm) s)

/-- PLOG: p[pdst] := p[pa] op p[pb] (R278). -/
def execPlog (c : CoreId) (p : Pred) (f : FmtP) (s : State) : Outcome :=
  s.clerk (.plog c p f) (fun s => bodyPlog c f s)

/-- BR: pc := target (R279). -/
def execBr (c : CoreId) (p : Pred) (f : FmtB) (s : State) : Outcome :=
  s.clerk (.br c p f) (fun s => .jump s f.target.toNat)

/-- BAL: gd := pc + 1; pc := target (R279). -/
def execBal (c : CoreId) (p : Pred) (f : FmtB) (s : State) : Outcome :=
  s.clerk (.bal c p f) (fun s => bodyBal c f s)

/-- JR: pc := ga (R279). -/
def execJr (c : CoreId) (p : Pred) (f : FmtB) (s : State) : Outcome :=
  s.clerk (.jr c p f) (fun s => bodyJr c f s)

/-- END: the core ends (R213). -/
def execEnd (c : CoreId) (p : Pred) (f : FmtE) (s : State) : Outcome :=
  s.clerk (.end_ c p f) (fun s => bodyEnd c s)

/-- LD: gv := the bytes at ga + sext(imm) (R280). -/
def execLd (c : CoreId) (p : Pred) (f : FmtM) (s : State) : Outcome :=
  s.clerk (.ld c p f) (fun s => bodyLd c f s)

/-- ST: the bytes at ga + sext(imm) := gv (R280). -/
def execSt (c : CoreId) (p : Pred) (f : FmtM) (s : State) : Outcome :=
  s.clerk (.st c p f) (fun s => bodySt c f s)

/-- DMAKE: d[dd] := a validated record of the Scratchpad (R281). -/
def execDmake (c : CoreId) (p : Pred) (f : FmtD) (s : State) : Outcome :=
  s.clerk (.dmake c p f) (fun s => bodyDmake c f s)

/-- DGET: g[ga] := a word of d[ds] (R281). -/
def execDget (c : CoreId) (p : Pred) (f : FmtD) (s : State) : Outcome :=
  s.clerk (.dget c p f) (fun s => bodyDget c f s)

/-- DPUT: a word of d[dd] := g[ga], validated (R281). -/
def execDput (c : CoreId) (p : Pred) (f : FmtD) (s : State) : Outcome :=
  s.clerk (.dput c p f) (fun s => bodyDput c f s)

/-- DCOPY: d[dd] := d[ds] (R281). -/
def execDcopy (c : CoreId) (p : Pred) (f : FmtD) (s : State) : Outcome :=
  s.clerk (.dcopy c p f) (fun s => bodyDcopy c f s)

/-- MOVE: a transfer enters the DMA queue (R282). -/
def execMove (c : CoreId) (p : Pred) (side : Bool) (f : FmtT) (s : State) : Outcome :=
  s.clerk (.move c p side f) (fun s => bodyT c .move side f s)

/-- GATHER: a transfer enters the DMA queue (R282). -/
def execGather (c : CoreId) (p : Pred) (side : Bool) (f : FmtT) (s : State) : Outcome :=
  s.clerk (.gather c p side f) (fun s => bodyT c .gather side f s)

/-- SCATTER: a transfer enters the DMA queue (R282). -/
def execScatter (c : CoreId) (p : Pred) (side : Bool) (f : FmtT) (s : State) : Outcome :=
  s.clerk (.scatter c p side f) (fun s => bodyT c .scatter side f s)

/-- XPOSE: a transfer enters the DMA queue (R282). -/
def execXpose (c : CoreId) (p : Pred) (side : Bool) (f : FmtT) (s : State) : Outcome :=
  s.clerk (.xpose c p side f) (fun s => bodyT c .xpose side f s)

/-- PERMUTE: a transfer enters the DMA queue (R282). -/
def execPermute (c : CoreId) (p : Pred) (side : Bool) (f : FmtT) (s : State) : Outcome :=
  s.clerk (.permute c p side f) (fun s => bodyT c .permute side f s)

/-- FILL: a FILL enters the DMA queue (R286). -/
def execFill (c : CoreId) (p : Pred) (f : FmtF) (s : State) : Outcome :=
  s.clerk (.fill c p f) (fun s => bodyFill c f s)

/-- COPY: a COPY enters the DMA queue (R286). -/
def execCopy (c : CoreId) (p : Pred) (f : FmtF) (s : State) : Outcome :=
  s.clerk (.copy c p f) (fun s => bodyCopy c f s)

/-- AADD: gd := old; memory := old + gb (R287). -/
def execAadd (c : CoreId) (p : Pred) (f : FmtA) (s : State) : Outcome :=
  s.clerk (.aadd c p f) (fun s => bodyAadd c f s)

/-- ACAS: gd := old; if old = gc, memory := gb (R287). -/
def execAcas (c : CoreId) (p : Pred) (f : FmtA) (s : State) : Outcome :=
  s.clerk (.acas c p f) (fun s => bodyAcas c f s)

/-- TMUL: a product enters the Sequencer queue (R291). -/
def execTmul (c : CoreId) (p : Pred) (f : FmtX) (s : State) : Outcome :=
  s.clerk (.tmul c p f) (fun s => bodyTmul c f s)

/-- TMUL2: two products and their intermediate store enter the Sequencer queue (R292). -/
def execTmul2 (c : CoreId) (p : Pred) (f : FmtY) (s : State) : Outcome :=
  s.clerk (.tmul2 c p f) (fun s => bodyTmul2 c f s)

/-- TSTORE: a store enters the Sequencer queue (R296). -/
def execTstore (c : CoreId) (p : Pred) (f : FmtS) (s : State) : Outcome :=
  s.clerk (.tstore c p f) (fun s => bodyTstore c f s)

/-- TCLEAR: a clear enters the Sequencer queue (R297). -/
def execTclear (c : CoreId) (p : Pred) (f : FmtE) (s : State) : Outcome :=
  s.clerk (.tclear c p f) (fun s => bodyTclear c f s)

/-- TINGEST: an ingest enters the Sequencer queue (R298). -/
def execTingest (c : CoreId) (p : Pred) (f : FmtS) (s : State) : Outcome :=
  s.clerk (.tingest c p f) (fun s => bodyTingest c f s)

/-- SINT MATCH: MATCH enters the Sequencer queue (R299). -/
def execSintMatch (c : CoreId) (p : Pred) (f : FmtN) (s : State) : Outcome :=
  s.clerk (.sintMatch c p f) (fun s => bodySintKeys c 0 f s)

/-- SINT MERGE: MERGE enters the Sequencer queue (R299). -/
def execSintMerge (c : CoreId) (p : Pred) (f : FmtN) (s : State) : Outcome :=
  s.clerk (.sintMerge c p f) (fun s => bodySintKeys c 1 f s)

/-- SINT PAIRS: PAIRS enters the Sequencer queue (R299). -/
def execSintPairs (c : CoreId) (p : Pred) (f : FmtN) (s : State) : Outcome :=
  s.clerk (.sintPairs c p f) (fun s => bodySintPairs c f s)

/-- SINT SELECT: SELECT enters the Sequencer queue (R299). -/
def execSintSelect (c : CoreId) (p : Pred) (f : FmtN) (s : State) : Outcome :=
  s.clerk (.sintSelect c p f) (fun s => bodySintSelect c f s)

/-- PWAIT: wait for a pail state (R301). -/
def execPwait (c : CoreId) (p : Pred) (f : FmtE) (s : State) : Outcome :=
  s.clerk (.pwait c p f) (fun s => bodyPwait c f s)

/-- PSIG: signal a pail (R301). -/
def execPsig (c : CoreId) (p : Pred) (f : FmtE) (s : State) : Outcome :=
  s.clerk (.psig c p f) (fun s => bodyPsig c f s)

/-- FENCE: wait for classes of operations (R302). -/
def execFence (c : CoreId) (p : Pred) (f : FmtE) (s : State) : Outcome :=
  s.clerk (.fence c p f) (fun s => bodyFence c f s)

/-- GRANT: set or clear the grant (R303). -/
def execGrant (c : CoreId) (p : Pred) (f : FmtG) (s : State) : Outcome :=
  s.clerk (.grant c p f) (fun s => bodyGrant c f s)

/-- BARRIER: meet at a counter (R304). -/
def execBarrier (c : CoreId) (p : Pred) (f : FmtG) (s : State) : Outcome :=
  s.clerk (.barrier c p f) (fun s => bodyBarrier c f s)

/-- TAKE: gd := counter and generation; counter := counter + gb (R305). -/
def execTake (c : CoreId) (p : Pred) (f : FmtG) (s : State) : Outcome :=
  s.clerk (.take c p f) (fun s => bodyTake c f s)

/-- PUSH: copy an entry into a ring (R307). -/
def execPush (c : CoreId) (p : Pred) (f : FmtG) (s : State) : Outcome :=
  s.clerk (.push c p f) (fun s => bodyPush c f s)

/-- POP: copy the oldest entry out of a ring (R307). -/
def execPop (c : CoreId) (p : Pred) (f : FmtG) (s : State) : Outcome :=
  s.clerk (.pop c p f) (fun s => bodyPop c f s)

/-- SETPREC: set the precision in force (R226). -/
def execSetprec (c : CoreId) (p : Pred) (f : FmtE) (s : State) : Outcome :=
  s.clerk (.setprec c p f) (fun s => bodySetprec c f s)

/-- SETCLASS: set the class (R227). -/
def execSetclass (c : CoreId) (p : Pred) (f : FmtE) (s : State) : Outcome :=
  s.clerk (.setclass c p f) (fun s => bodySetclass c f s)

/-- SPEC: open an epoch (R230). -/
def execSpec (c : CoreId) (p : Pred) (f : FmtE) (s : State) : Outcome :=
  s.clerk (.spec c p f) (fun s => bodySpec c f s)

/-- VERIFY: keep an epoch (R231). -/
def execVerify (c : CoreId) (p : Pred) (f : FmtE) (s : State) : Outcome :=
  s.clerk (.verify c p f) (fun s => bodyVerify c f s)

/-- SQUASH: erase an epoch (R232). -/
def execSquash (c : CoreId) (p : Pred) (f : FmtE) (s : State) : Outcome :=
  s.clerk (.squash c p f) (fun s => bodySquash c f s)

/-- SOPEN: open a random stream (R309). -/
def execSopen (c : CoreId) (p : Pred) (f : FmtE) (s : State) : Outcome :=
  s.clerk (.sopen c p f) (fun s => bodySopen c f s)

/-- SCLOSE: close a random stream (R309). -/
def execSclose (c : CoreId) (p : Pred) (f : FmtE) (s : State) : Outcome :=
  s.clerk (.sclose c p f) (fun s => bodySclose c f s)

/-- WOPEN: open a window (R310). -/
def execWopen (c : CoreId) (p : Pred) (f : FmtG) (s : State) : Outcome :=
  s.clerk (.wopen c p f) (fun s => bodyWopen c f s)

/-- WCLOSE: close a window (R310). -/
def execWclose (c : CoreId) (p : Pred) (f : FmtG) (s : State) : Outcome :=
  s.clerk (.wclose c p f) (fun s => bodyWclose c f s)

/-- UPDATE: post a Churn command (R311). -/
def execUpdate (c : CoreId) (p : Pred) (f : FmtG) (s : State) : Outcome :=
  s.clerk (.update c p f) (fun s => bodyUpdate c f s)

/-- The instruction that a core's Clerk waits on tries again (R217). -/
def State.clerkRetry (s : State) (i : Instr) : State :=
  match clerkOf i with
  | some w => s.clerkGo w i (clerkBody i)
  | none => s

/-- CLERK_WAIT_END (R217). -/
def execClerkWaitEnd (c : CoreId) (s : State) : Outcome :=
  match (s.core c.val).waiting with
  | some i => act ((s.core c.val).running && !(s.core c.val).stopped) s (s.clerkRetry i)
  | none => .next s

end Sys2Proof.Machine
end

