-- ==== Sys2Proof/Machine/Dispatch.lean ====
section
/-! DEFINITION. The effect of each command on everything but the queue: one arm per constructor of Instr. -/

namespace Sys2Proof.Machine

def exec (i : Instr) (s : State) : Host.Outcome State Fault Refusal :=
  match i with
  | .nop c p f => Sys2Proof.Machine.execNop c p f s
  | .add c p f => Sys2Proof.Machine.execAdd c p f s
  | .sub c p f => Sys2Proof.Machine.execSub c p f s
  | .and c p f => Sys2Proof.Machine.execAnd c p f s
  | .or c p f => Sys2Proof.Machine.execOr c p f s
  | .xor c p f => Sys2Proof.Machine.execXor c p f s
  | .shl c p f => Sys2Proof.Machine.execShl c p f s
  | .shr c p f => Sys2Proof.Machine.execShr c p f s
  | .sra c p f => Sys2Proof.Machine.execSra c p f s
  | .mul c p f => Sys2Proof.Machine.execMul c p f s
  | .min c p f => Sys2Proof.Machine.execMin c p f s
  | .max c p f => Sys2Proof.Machine.execMax c p f s
  | .addi c p f => Sys2Proof.Machine.execAddi c p f s
  | .andi c p f => Sys2Proof.Machine.execAndi c p f s
  | .lil c p f => Sys2Proof.Machine.execLil c p f s
  | .lih c p f => Sys2Proof.Machine.execLih c p f s
  | .shli c p f => Sys2Proof.Machine.execShli c p f s
  | .shri c p f => Sys2Proof.Machine.execShri c p f s
  | .cmp c p f => Sys2Proof.Machine.execCmp c p f s
  | .cmpi c p f => Sys2Proof.Machine.execCmpi c p f s
  | .plog c p f => Sys2Proof.Machine.execPlog c p f s
  | .br c p f => Sys2Proof.Machine.execBr c p f s
  | .bal c p f => Sys2Proof.Machine.execBal c p f s
  | .jr c p f => Sys2Proof.Machine.execJr c p f s
  | .end_ c p f => Sys2Proof.Machine.execEnd c p f s
  | .ld c p f => Sys2Proof.Machine.execLd c p f s
  | .st c p f => Sys2Proof.Machine.execSt c p f s
  | .dmake c p f => Sys2Proof.Machine.execDmake c p f s
  | .dget c p f => Sys2Proof.Machine.execDget c p f s
  | .dput c p f => Sys2Proof.Machine.execDput c p f s
  | .dcopy c p f => Sys2Proof.Machine.execDcopy c p f s
  | .move c p side f => Sys2Proof.Machine.execMove c p side f s
  | .gather c p side f => Sys2Proof.Machine.execGather c p side f s
  | .scatter c p side f => Sys2Proof.Machine.execScatter c p side f s
  | .xpose c p side f => Sys2Proof.Machine.execXpose c p side f s
  | .permute c p side f => Sys2Proof.Machine.execPermute c p side f s
  | .fill c p f => Sys2Proof.Machine.execFill c p f s
  | .copy c p f => Sys2Proof.Machine.execCopy c p f s
  | .aadd c p f => Sys2Proof.Machine.execAadd c p f s
  | .acas c p f => Sys2Proof.Machine.execAcas c p f s
  | .tmul c p f => Sys2Proof.Machine.execTmul c p f s
  | .tmul2 c p f => Sys2Proof.Machine.execTmul2 c p f s
  | .tstore c p f => Sys2Proof.Machine.execTstore c p f s
  | .tclear c p f => Sys2Proof.Machine.execTclear c p f s
  | .tingest c p f => Sys2Proof.Machine.execTingest c p f s
  | .sintMatch c p f => Sys2Proof.Machine.execSintMatch c p f s
  | .sintMerge c p f => Sys2Proof.Machine.execSintMerge c p f s
  | .sintPairs c p f => Sys2Proof.Machine.execSintPairs c p f s
  | .sintSelect c p f => Sys2Proof.Machine.execSintSelect c p f s
  | .pwait c p f => Sys2Proof.Machine.execPwait c p f s
  | .psig c p f => Sys2Proof.Machine.execPsig c p f s
  | .fence c p f => Sys2Proof.Machine.execFence c p f s
  | .grant c p f => Sys2Proof.Machine.execGrant c p f s
  | .barrier c p f => Sys2Proof.Machine.execBarrier c p f s
  | .take c p f => Sys2Proof.Machine.execTake c p f s
  | .push c p f => Sys2Proof.Machine.execPush c p f s
  | .pop c p f => Sys2Proof.Machine.execPop c p f s
  | .setprec c p f => Sys2Proof.Machine.execSetprec c p f s
  | .setclass c p f => Sys2Proof.Machine.execSetclass c p f s
  | .spec c p f => Sys2Proof.Machine.execSpec c p f s
  | .verify c p f => Sys2Proof.Machine.execVerify c p f s
  | .squash c p f => Sys2Proof.Machine.execSquash c p f s
  | .sopen c p f => Sys2Proof.Machine.execSopen c p f s
  | .sclose c p f => Sys2Proof.Machine.execSclose c p f s
  | .wopen c p f => Sys2Proof.Machine.execWopen c p f s
  | .wclose c p f => Sys2Proof.Machine.execWclose c p f s
  | .update c p f => Sys2Proof.Machine.execUpdate c p f s
  | .planning c gap => Sys2Proof.Machine.execPlanning c gap s
  | .slipIssue c => Sys2Proof.Machine.execSlipIssue c s
  | .freezeEnd c cycles => Sys2Proof.Machine.execFreezeEnd c cycles s
  | .freezeLimit c => Sys2Proof.Machine.execFreezeLimit c s
  | .clerkWaitEnd c => Sys2Proof.Machine.execClerkWaitEnd c s
  | .opCompletion c op => Sys2Proof.Machine.execOpCompletion c op s
  | .psigAct c => Sys2Proof.Machine.execPsigAct c s
  | .scloseAct c => Sys2Proof.Machine.execScloseAct c s
  | .bankOwnerAct c => Sys2Proof.Machine.execBankOwnerAct c s
  | .epochCommit c e => Sys2Proof.Machine.execEpochCommit c e s
  | .epochFree c e => Sys2Proof.Machine.execEpochFree c e s
  | .transferStart c op waited => Sys2Proof.Machine.execTransferStart c op waited s
  | .transferComplete c op => Sys2Proof.Machine.execTransferComplete c op s
  | .p64Add c => Sys2Proof.Machine.execP64Add c s
  | .coreEnd c => Sys2Proof.Machine.execCoreEnd c s
  | .taskTimeout => Sys2Proof.Machine.execTaskTimeout s
  | .taskFailComplete => Sys2Proof.Machine.execTaskFailComplete s
  | .taskTake => Sys2Proof.Machine.execTaskTake s
  | .coreStart => Sys2Proof.Machine.execCoreStart s
  | .hostSubDoorbell port ring value => Sys2Proof.Machine.execHostSubDoorbell port ring value s
  | .hostCplDoorbell port ring value => Sys2Proof.Machine.execHostCplDoorbell port ring value s
  | .copyIn ring hostStops => Sys2Proof.Machine.execCopyIn ring hostStops s
  | .copyOut ring hostStops => Sys2Proof.Machine.execCopyOut ring hostStops s
  | .nopEntry ring => Sys2Proof.Machine.execNopEntry ring s
  | .copyDone ring => Sys2Proof.Machine.execCopyDone ring s
  | .completionWrite ring => Sys2Proof.Machine.execCompletionWrite ring s
  | .msixSend port vector => Sys2Proof.Machine.execMsixSend port vector s
  | .ringConfigWrite r ring word wide value => Sys2Proof.Machine.execRingConfigWrite r ring word wide value s
  | .pailCfgWrite r c pail value => Sys2Proof.Machine.execPailCfgWrite r c pail value s
  | .bankPwrReqWrite r c value => Sys2Proof.Machine.execBankPwrReqWrite r c value s
  | .bankClose c b => Sys2Proof.Machine.execBankClose c b s
  | .bankTransitionEnd c b => Sys2Proof.Machine.execBankTransitionEnd c b s
  | .poolModeWrite r value => Sys2Proof.Machine.execPoolModeWrite r value s
  | .poolAccess r offset write => Sys2Proof.Machine.execPoolAccess r offset write s
  | .ledgTileFlagsWrite r c l value => Sys2Proof.Machine.execLedgTileFlagsWrite r c l value s
  | .residentLostClear r c value => Sys2Proof.Machine.execResidentLostClear r c value s
  | .memcErrClear r m value => Sys2Proof.Machine.execMemcErrClear r m value s
  | .counterLoRead r offset => Sys2Proof.Machine.execCounterLoRead r offset s
  | .tellCtrValRead r counter => Sys2Proof.Machine.execTellCtrValRead r counter s
  | .memcErrIdxRead r m => Sys2Proof.Machine.execMemcErrIdxRead r m s
  | .coreTallyCntClr r c value => Sys2Proof.Machine.execCoreTallyCntClr r c value s
  | .ledgCntClr r c value => Sys2Proof.Machine.execLedgCntClr r c value s
  | .mintCntClr r c value => Sys2Proof.Machine.execMintCntClr r c value s
  | .coreStrainCntClr r c value => Sys2Proof.Machine.execCoreStrainCntClr r c value s
  | .pwrSkimCntClr r q value => Sys2Proof.Machine.execPwrSkimCntClr r q value s
  | .spadCntClr r c value => Sys2Proof.Machine.execSpadCntClr r c value s
  | .spadHubCntClr r value => Sys2Proof.Machine.execSpadHubCntClr r value s
  | .coreClerkCntClr r c value => Sys2Proof.Machine.execCoreClerkCntClr r c value s
  | .coreSchedCntClr r value => Sys2Proof.Machine.execCoreSchedCntClr r value s
  | .coreDescCntClr r c value => Sys2Proof.Machine.execCoreDescCntClr r c value s
  | .tellCntClr r value => Sys2Proof.Machine.execTellCntClr r value s
  | .coreRngCntClr r c value => Sys2Proof.Machine.execCoreRngCntClr r c value s
  | .pwrMemcCntClr r m value => Sys2Proof.Machine.execPwrMemcCntClr r m value s
  | .churnCntClr r n value => Sys2Proof.Machine.execChurnCntClr r n value s
  | .churnRootCntClr r rim value => Sys2Proof.Machine.execChurnRootCntClr r rim value s
  | .spanCntClr r value => Sys2Proof.Machine.execSpanCntClr r value s
  | .spanPortCntClr r port value => Sys2Proof.Machine.execSpanPortCntClr r port value s
  | .hostCntClr r port value => Sys2Proof.Machine.execHostCntClr r port value s
  | .pwrCntClr r value => Sys2Proof.Machine.execPwrCntClr r value s
  | .sisynCntClr r value => Sys2Proof.Machine.execSisynCntClr r value s
  | .sisynFpCntClr r value => Sys2Proof.Machine.execSisynFpCntClr r value s
  | .sisynLcCntClr r value => Sys2Proof.Machine.execSisynLcCntClr r value s
  | .registerWrite r offset wide value => Sys2Proof.Machine.execRegisterWrite r offset wide value s
  | .tellRetire r value => Sys2Proof.Machine.execTellRetire r value s
  | .takeApply c op => Sys2Proof.Machine.execTakeApply c op s
  | .takeEntry svc => Sys2Proof.Machine.execTakeEntry svc s
  | .retire svc => Sys2Proof.Machine.execRetire svc s
  | .barrierWake c op => Sys2Proof.Machine.execBarrierWake c op s
  | .memoryRead addr => Sys2Proof.Machine.execMemoryRead addr s
  | .memoryWrite addr bytes => Sys2Proof.Machine.execMemoryWrite addr bytes s
  | .scrubRead m => Sys2Proof.Machine.execScrubRead m s
  | .temperatureRead m celsius => Sys2Proof.Machine.execTemperatureRead m celsius s
  | .churnUpdate n ring => Sys2Proof.Machine.execChurnUpdate n ring s
  | .churnRelease n ring => Sys2Proof.Machine.execChurnRelease n ring s
  | .churnRemint n ring => Sys2Proof.Machine.execChurnRemint n ring s
  | .churnRoot n ring => Sys2Proof.Machine.execChurnRoot n ring s
  | .parkedStart n => Sys2Proof.Machine.execParkedStart n s
  | .fenceTimeout n slot => Sys2Proof.Machine.execFenceTimeout n slot s
  | .rootJob rim => Sys2Proof.Machine.execRootJob rim s
  | .rootJobEnd rim => Sys2Proof.Machine.execRootJobEnd rim s
  | .churnPbtWrite r n reg value => Sys2Proof.Machine.execChurnPbtWrite r n reg value s
  | .pwrMemmapSplitWrite r value => Sys2Proof.Machine.execPwrMemmapSplitWrite r value s
  | .flitReceive port flit fecCorrected fecUncorrectable => Sys2Proof.Machine.execFlitReceive port flit fecCorrected fecUncorrectable s
  | .spanRead hdr => Sys2Proof.Machine.execSpanRead hdr s
  | .spanWrite hdr payload => Sys2Proof.Machine.execSpanWrite hdr payload s
  | .spanFadd hdr payload => Sys2Proof.Machine.execSpanFadd hdr payload s
  | .spanCas hdr payload => Sys2Proof.Machine.execSpanCas hdr payload s
  | .spanMsg hdr payload => Sys2Proof.Machine.execSpanMsg hdr payload s
  | .spanPartial hdr payload => Sys2Proof.Machine.execSpanPartial hdr payload s
  | .spanTake hdr payload => Sys2Proof.Machine.execSpanTake hdr payload s
  | .rsp hdr payload => Sys2Proof.Machine.execRsp hdr payload s
  | .spanTimeout tag => Sys2Proof.Machine.execSpanTimeout tag s
  | .heartbeatSend => Sys2Proof.Machine.execHeartbeatSend s
  | .heartbeat src msg => Sys2Proof.Machine.execHeartbeat src msg s
  | .echo src msg => Sys2Proof.Machine.execEcho src msg s
  | .registry src window entry => Sys2Proof.Machine.execRegistry src window entry s
  | .resync src => Sys2Proof.Machine.execResync src s
  | .link src msg => Sys2Proof.Machine.execLink src msg s
  | .managerLost => Sys2Proof.Machine.execManagerLost s
  | .takeover => Sys2Proof.Machine.execTakeover s
  | .spanPortDrain r port => Sys2Proof.Machine.execSpanPortDrain r port s
  | .spanPortUndrain r port => Sys2Proof.Machine.execSpanPortUndrain r port s
  | .spanPortEnable r port on => Sys2Proof.Machine.execSpanPortEnable r port on s
  | .drain port => Sys2Proof.Machine.execDrain port s
  | .drainTimeout port => Sys2Proof.Machine.execDrainTimeout port s
  | .init port node peerPort seq => Sys2Proof.Machine.execInit port node peerPort seq s
  | .portDown port => Sys2Proof.Machine.execPortDown port s
  | .trainRetry port trains => Sys2Proof.Machine.execTrainRetry port trains s
  | .modulePlugged cage identifier power lanesOk => Sys2Proof.Machine.execModulePlugged cage identifier power lanesOk s
  | .moduleUnplugged cage => Sys2Proof.Machine.execModuleUnplugged cage s
  | .spanNodeCtlWrite r value => Sys2Proof.Machine.execSpanNodeCtlWrite r value s
  | .spanWinClose r value => Sys2Proof.Machine.execSpanWinClose r value s
  | .bar2Read port offset len => Sys2Proof.Machine.execBar2Read port offset len s
  | .bar2Write port offset bytes => Sys2Proof.Machine.execBar2Write port offset bytes s
  | .unmappedAccess port offset isWrite => Sys2Proof.Machine.execUnmappedAccess port offset isWrite s
  | .hostClaimWrite r k value => Sys2Proof.Machine.execHostClaimWrite r k value s
  | .portReset port kind => Sys2Proof.Machine.execPortReset port kind s
  | .perstRelease port refclk => Sys2Proof.Machine.execPerstRelease port refclk s
  | .refclkArrival port => Sys2Proof.Machine.execRefclkArrival port s
  | .powerOn find => Sys2Proof.Machine.execPowerOn find s
  | .domainOnRequest r value => Sys2Proof.Machine.execDomainOnRequest r value s
  | .domainOffRequest r value => Sys2Proof.Machine.execDomainOffRequest r value s
  | .domainSwitch d => Sys2Proof.Machine.execDomainSwitch d s
  | .domainUp d trainFailed => Sys2Proof.Machine.execDomainUp d trainFailed s
  | .quiesceRequest r value => Sys2Proof.Machine.execQuiesceRequest r value s
  | .enableRequest r value => Sys2Proof.Machine.execEnableRequest r value s
  | .quiesceComplete u => Sys2Proof.Machine.execQuiesceComplete u s
  | .quiesceTimeout u => Sys2Proof.Machine.execQuiesceTimeout u s
  | .moduleReset r value => Sys2Proof.Machine.execModuleReset r value s
  | .vinWarn millivolts => Sys2Proof.Machine.execVinWarn millivolts s
  | .vinWarnEnd millivolts => Sys2Proof.Machine.execVinWarnEnd millivolts s
  | .brownOut => Sys2Proof.Machine.execBrownOut s
  | .droop q => Sys2Proof.Machine.execDroop q s
  | .droopEnd q => Sys2Proof.Machine.execDroopEnd q s
  | .quadReset q => Sys2Proof.Machine.execQuadReset q s
  | .auxSag find => Sys2Proof.Machine.execAuxSag find s
  | .auxLoss => Sys2Proof.Machine.execAuxLoss s
  | .thermalDemandStep hottest => Sys2Proof.Machine.execThermalDemandStep hottest s
  | .powerDemandStep watts => Sys2Proof.Machine.execPowerDemandStep watts s
  | .thermalTrip => Sys2Proof.Machine.execThermalTrip s
  | .tripResume find => Sys2Proof.Machine.execTripResume find s
  | .watchdog find => Sys2Proof.Machine.execWatchdog find s
  | .sensorCopy temps volts currents => Sys2Proof.Machine.execSensorCopy temps volts currents s
  | .daybookWrite => Sys2Proof.Machine.execDaybookWrite s
  | .dbSelect r k seq => Sys2Proof.Machine.execDbSelect r k seq s
  | .stateCompare => Sys2Proof.Machine.execStateCompare s
  | .stateRecheck w => Sys2Proof.Machine.execStateRecheck w s
  | .fwUpdate imageOk version svn => Sys2Proof.Machine.execFwUpdate imageOk version svn s
  | .activateFirmware => Sys2Proof.Machine.execActivateFirmware s
  | .fwCommit r value => Sys2Proof.Machine.execFwCommit r value s
  | .touch k => Sys2Proof.Machine.execTouch k s
  | .touchRelease k => Sys2Proof.Machine.execTouchRelease k s
  | .drainGesture k => Sys2Proof.Machine.execDrainGesture k s
  | .segmentStuck k => Sys2Proof.Machine.execSegmentStuck k s
  | .attnPress => Sys2Proof.Machine.execAttnPress s
  | .attnLongPress => Sys2Proof.Machine.execAttnLongPress s
  | .attnGrant port => Sys2Proof.Machine.execAttnGrant port s
  | .attnVeto port => Sys2Proof.Machine.execAttnVeto port s
  | .attnTimeout => Sys2Proof.Machine.execAttnTimeout s
  | .powerOff => Sys2Proof.Machine.execPowerOff s
  | .locateEffecter mode => Sys2Proof.Machine.execLocateEffecter mode s
  | .challenge ask => Sys2Proof.Machine.execChallenge ask s
  | .getMeasurements ask signed => Sys2Proof.Machine.execGetMeasurements ask signed s
  | .newNonce r value => Sys2Proof.Machine.execNewNonce r value s
  | .debugToken via r find => Sys2Proof.Machine.execDebugToken via r find s
  | .returnToken via r find => Sys2Proof.Machine.execReturnToken via r find s
  | .scrapToken via r find => Sys2Proof.Machine.execScrapToken via r find s
  | .keyAdd via r => Sys2Proof.Machine.execKeyAdd via r s
  | .keyRevoke via r => Sys2Proof.Machine.execKeyRevoke via r s
  | .makerProvision identitySeed => Sys2Proof.Machine.execMakerProvision identitySeed s
  | .makerCommand op sigOk find => Sys2Proof.Machine.execMakerCommand op sigOk find s
  | .debugEnd => Sys2Proof.Machine.execDebugEnd s
  | .pbSelect r seq => Sys2Proof.Machine.execPbSelect r seq s
  | .norRawAccess offset write => Sys2Proof.Machine.execNorRawAccess offset write s
  | .calibrationWrite place first second => Sys2Proof.Machine.execCalibrationWrite place first second s
  | .sisynDebugAccess place write => Sys2Proof.Machine.execSisynDebugAccess place write s
  | .writeBack m => Sys2Proof.Machine.execWriteBack m s
  | .tagReuse tag => Sys2Proof.Machine.execTagReuse tag s
  | .vinRestored find => Sys2Proof.Machine.execVinRestored find s
  | .pcieLinkUp port link => Sys2Proof.Machine.execPcieLinkUp port link s
  | .addViewWrite port c offset wide value => Sys2Proof.Machine.execAddViewWrite port c offset wide value s
  | .invalidSubmissionEntry ring readFails => Sys2Proof.Machine.execInvalidSubmissionEntry ring readFails s
  | .tokenSubmitInvalid via => Sys2Proof.Machine.execTokenSubmitInvalid via s
  | .confirmationEnd cage => Sys2Proof.Machine.execConfirmationEnd cage s
  | .resizableBarWrite port log2GiB => Sys2Proof.Machine.execResizableBarWrite port log2GiB s

end Sys2Proof.Machine
end

