-- ==== Sys2Proof/Safety.lean ====
section
/-! DEFINITION. What claims speak of: a command that ends well, what it leaves alone, an instruction that passes, and the
canonical form of the memories. -/

namespace Sys2Proof.Machine

/-- A command answers a next state, of which `P` holds. -/
def Ends (o : Outcome) (P : State → Prop) : Prop := ∃ t, o = .next t ∧ P t

/-- A step goes on: neither a fault nor a refusal. -/
def State.goesOn (s : State) : Prop := ∃ t, step s = .next t

/-- The memories of the part are in canonical form: LPDDR symbols rise by place (a zero symbol that has been written is
listed, for an unwritten one is free), host memory and BAR4 list no zero byte. -/
def State.memoryCanonical (s : State) : Prop :=
  tabSorted s.dram = true ∧ memoryWf 0 s.hosts.mem = true ∧ memoryWf 0 s.hosts.bar4 = true

/-- Each core's Scratchpad is in canonical form: no zero byte is listed. -/
def State.spadsCanonical (s : State) : Prop := ∀ c, memoryWf 0 (s.core c).mem = true

/-- Beside core `c` and registers nothing of the part changes. -/
def OnlyCoreAndRegs (s t : State) (c : Nat) : Prop :=
  t = { s with cores := t.cores, regs := t.regs } ∧ ∀ d, d ≠ c → t.core d = s.core d

/-- Beside core `c` nothing of the part changes. -/
def OnlyCore (s t : State) (c : Nat) : Prop :=
  t = { s with cores := t.cores } ∧ ∀ d, d ≠ c → t.core d = s.core d

/-- Registers change at the places of a list alone. -/
def RegsSameBut (s t : State) (l : List Nat) : Prop := ∀ x, x ∉ l → t.reg x = s.reg x

/-- Core `c` has passed one instruction more (R235), and no other register changes. -/
def CountedOne (s t : State) (c : Nat) : Prop :=
  t.reg64 (Reg.CORE_CLERK_INSTR_LO c) = (s.reg64 (Reg.CORE_CLERK_INSTR_LO c) + 1) % 2 ^ 64 ∧
  RegsSameBut s t [Reg.CORE_CLERK_INSTR_LO c, Reg.CORE_CLERK_INSTR_LO c + 4]

/-- Whether a core's Clerk meets an Ngaosh instruction now, with no decoding fault (R216, R274). -/
def State.meets (s : State) (i : Instr) : Bool :=
  match clerkOf i with
  | some w => (s.core w.core).takes w && opcodeKnown (s.core w.core).opcodeAt && !w.illegal
  | none => false

/-- Whether an Ngaosh instruction passes now: the Clerk meets it, its predicate holds, and no register that it names is
pending (R216–R218, R273, R274). -/
def State.passes (s : State) (i : Instr) : Bool :=
  match clerkOf i with
  | some w => s.meets i && (s.core w.core).executes w.pred && !(s.core w.core).mustWait w
  | none => false

/-- Whether an instruction follows the one at a core's pc in its program (R276). -/
def Core.hasNext (k : Core) : Bool := decide (k.pc + 1 < k.progLen)

/-- Of core `c`, g-register `r` takes `v` (g0 takes nothing, R212), the pc becomes `pc`, and all else stays. -/
def TakesG (s t : State) (c r : Nat) (v : Dword) (pc : Nat) : Prop :=
  (∀ x, (t.core c).greg x = if x = r ∧ x ≠ 0 then v else (s.core c).greg x) ∧
  t.core c = { s.core c with g := (t.core c).g, pc := pc }

/-- Of core `c`, predicate `r` takes `v` (p0 takes nothing, R278), the pc becomes `pc`, and all else stays. -/
def TakesP (s t : State) (c r : Nat) (v : Bool) (pc : Nat) : Prop :=
  (∀ x, (t.core c).pred x = if x = r ∧ x ≠ 0 then v else (s.core c).pred x) ∧
  t.core c = { s.core c with p := (t.core c).p, pc := pc }

/-- The Clerk of core `c` has passed one instruction that is complete: beside core `c` only its counter moves. -/
def PassedAlone (s t : State) (c : Nat) : Prop := OnlyCoreAndRegs s t c ∧ CountedOne s t c

/-- As `PassedAlone`, with the registers of a list beside. -/
def PassedWith (s t : State) (c : Nat) (l : List Nat) : Prop :=
  OnlyCoreAndRegs s t c ∧ t.reg64 (Reg.CORE_CLERK_INSTR_LO c) = (s.reg64 (Reg.CORE_CLERK_INSTR_LO c) + 1) % 2 ^ 64 ∧
  RegsSameBut s t (l ++ [Reg.CORE_CLERK_INSTR_LO c, Reg.CORE_CLERK_INSTR_LO c + 4])

/-- A 32-bit counter at `x` has counted `n` more, and stays at its end (R70). -/
def CountedUp (s t : State) (x n : Nat) : Prop := t.regN x = min (s.regN x + n) 0xFFFFFFFF

/-- A core whose Clerk goes on at `pc` and waits for nothing. -/
def Core.goesOnAt (k : Core) (pc : Nat) : Core := { k with pc := pc, waiting := none }

/-- Operation results handed over: each named operation without a result takes `r`. -/
def handedOver (ops : List Op) (ids : List Nat) (r : OpResult) : List Op :=
  ops.map (fun o => if o.id ∈ ids ∧ o.result = none then { o with result := some r } else o)

/-- Core `c` has stopped on a fault of code `code`: the core stops at its pc, a task that runs and has not failed fails with
that status, and no register, predicate, descriptor or Scratchpad byte of the core has changed (R216, R508). -/
def StoppedWith (s t : State) (c code : Nat) : Prop :=
  (t.core c).stopped = true ∧ (t.core c).pc = (s.core c).pc ∧ (t.core c).g = (s.core c).g ∧ (t.core c).d = (s.core c).d ∧
  (t.core c).p = (s.core c).p ∧ (t.core c).mem = (s.core c).mem ∧
  (s.sched.st = .running → s.sched.failing = false →
    t.sched.st = .ending ∧ t.sched.failing = true ∧ t.sched.primary.map (·.status) = some code)

/-- A core whose Clerk has passed an instruction that starts an operation (R217): its class, the registers of its result and
its status, whether it has a status field at all, and its result where that is handed over at once. -/
def Core.passedOp (k : Core) (cls : OpClass) (gd gs : Nat) (named : Bool) (r : Option OpResult) : Core :=
  let ops := k.ops ++ [⟨k.nextOp, k.pc, cls, gd, gs, named, none⟩]
  { k with
    ops := (match r with
      | none => ops
      | some r => handedOver ops [k.nextOp] r)
    nextOp := k.nextOp + 1
    pc := k.pc + 1 }

/-- The result of an operation that ended with a status code and no value. -/
def endedWith (code : Nat) : Option OpResult := some ⟨code, none, Stop.of code⟩

/-- Whether the word of an instruction holds a reserved value (R274). -/
def reserved (i : Instr) : Bool := (clerkOf i).any (·.illegal)

end Sys2Proof.Machine
end

