-- ==== Sys2Proof/Certificates/Slice0/Obligations.lean ====
section
/-! DEFINITION. The statements for the provers. -/

open Sys2Proof Sys2Proof.Machine

/-! The machine. -/

/-- A step runs the command at the front of the queue on the state with the queue's rest. That a step on an empty queue idles is
the model's choice (log entry 1). -/
def Obligations.StepRunsTheFrontCommand : Prop :=
  (∀ (s : State) (c : Instr) (rest : List Instr), s.pending = c :: rest → step s = exec c { s with pending := rest }) ∧
  (∀ s : State, s.pending = [] → step s = .next s)

/-- Every command answers a next state, in every state: the manual gives each command an effect, and a command whose step is
not enabled changes nothing (log entry 2). -/
def Obligations.EveryCommandAnswersANextState : Prop := ∀ (i : Instr) (s : State), Ends (exec i s) (fun _ => True)

/-- An invariant of every step: the configuration of the module and its Device Serial Number never change (R1, R419, R523), and exactly
the front command leaves the queue, first in, first out. -/
def Obligations.EveryStepKeepsTheConfiguration : Prop :=
  ∀ s t : State, step s = .next t → t.variant = s.variant ∧ t.serial = s.serial ∧ t.pending = s.pending.tail

/-- An invariant of every step: LPDDR symbols, host memory, BAR4 and each core's Scratchpad stay in canonical form: places rise,
and no entry equals what an unlisted place reads as. The form is the model's own (log entry 97). -/
def Obligations.EveryStepKeepsMemoryCanonical : Prop :=
  ∀ s t : State, s.memoryCanonical ∧ s.spadsCanonical → step s = .next t → t.memoryCanonical ∧ t.spadsCanonical

/-! Ngaosh: words, decoding faults, predicates and waits. -/

/-- The word of an Ngaosh instruction reads back as the instruction, for every value of every field (R272, R275). -/
def ngaoshWordReadsBack : Prop :=
  ∀ (i : Instr) (w : Clerked) (c : CoreId), clerkOf i = some w → w.core = c.val → ngaoshAt c w.word = some i

/-- Bits [63:56] of an instruction's word hold its opcode, [55:53] its predicate register, [52] the negate bit and [51:0] its
operands; the word has 64 bits (R272). -/
def ngaoshWordLayout : Prop :=
  ∀ (i : Instr) (w : Clerked), clerkOf i = some w →
    bits w.word 56 8 = w.opcode ∧ bits w.word 53 3 = w.pred.pp.toNat ∧ bits w.word 52 1 = b2n w.pred.pn ∧
    bits w.word 0 52 = w.operands ∧ w.word < 2 ^ 64

/-- Words of Ngaosh instructions are laid out as R272 says and read back as their instructions (R272, R275). -/
def Obligations.NgaoshWordsReadBack : Prop := ngaoshWordReadsBack ∧ ngaoshWordLayout

/-- An instruction whose predicate does not hold passes as a no-op: pc and the count of passed instructions advance by one, and
nothing else changes, whatever the instruction is (R273). -/
def falsePredicatePassesAsNoOp : Prop :=
  ∀ (s : State) (i : Instr) (w : Clerked), clerkOf i = some w → s.meets i = true →
    xor ((s.core w.core).pred w.pred.pp.toNat) w.pred.pn = false → (s.core w.core).hasNext = true →
    Ends (exec i s) (fun t =>
      t.core w.core = { s.core w.core with pc := (s.core w.core).pc + 1 } ∧
      OnlyCoreAndRegs s t w.core ∧ CountedOne s t w.core)

/-- An instruction that names a pending register, or comes behind 256 incomplete ones or a BARRIER, does not pass: the Clerk
holds it and nothing else changes (R217, R218, R304). -/
def pendingRegisterHoldsTheClerk : Prop :=
  ∀ (s : State) (i : Instr) (w : Clerked), clerkOf i = some w → s.meets i = true →
    xor ((s.core w.core).pred w.pred.pp.toNat) w.pred.pn = true → (s.core w.core).mustWait w = true →
    exec i s = .next (s.setCore w.core { s.core w.core with waiting := some i })

/-- A decoding fault stops the core whatever the predicate says: CLERK.ILLEGAL_OP is the fault that CORE_CLERK_FAULT keeps if it
kept none, the core stops, a task that runs and has not failed fails with it, and no g-register, descriptor, predicate or byte
of the Scratchpad changes (R216, R274, R508). -/
def illegalWordStopsTheCore : Prop :=
  ∀ (s : State) (i : Instr) (w : Clerked), clerkOf i = some w → (s.core w.core).takes w = true →
    (opcodeKnown (s.core w.core).opcodeAt = false ∨ w.illegal = true) →
    Ends (exec i s) (fun t =>
      (t.core w.core).stopped = true ∧ (t.core w.core).pc = (s.core w.core).pc ∧
      (t.core w.core).g = (s.core w.core).g ∧ (t.core w.core).d = (s.core w.core).d ∧
      (t.core w.core).p = (s.core w.core).p ∧ (t.core w.core).mem = (s.core w.core).mem ∧
      (s.field (Reg.CORE_CLERK_FAULT w.core) 0 8 = 0 → t.field (Reg.CORE_CLERK_FAULT w.core) 0 8 = 1) ∧
      (s.sched.st = .running → s.sched.failing = false →
        t.sched.st = .ending ∧ t.sched.failing = true ∧ (t.sched.primary.map (·.status)) = some 0x2701))

/-- A false predicate makes an instruction a no-op (R273), a pending register, a full window or a BARRIER holds it (R217, R218, R304),
and an illegal word stops its core (R216, R274). -/
def Obligations.PredicatesWaitsAndIllegalWords : Prop :=
  falsePredicatePassesAsNoOp ∧ pendingRegisterHoldsTheClerk ∧ illegalWordStopsTheCore

/-- The scalar instructions have the effects of R278's table: NOP has none; each other one writes its one register, g0 and p0
taking nothing; every other register, flag and byte stays; the pc and the count of passed instructions advance by one; and a
reserved condition, ga, gb or imm makes the word a decoding fault. -/
def Obligations.ScalarInstructionsHaveTheirEffects : Prop :=
  ∀ (s : State) (c : CoreId) (p : Pred), (s.core c.val).hasNext = true →
    let k := s.core c.val
    (∀ f : FmtE, s.passes (.nop c p f) = true →
      Ends (exec (.nop c p f) s) (fun t => t.core c.val = { k with pc := k.pc + 1 } ∧ PassedAlone s t c.val)) ∧
    (∀ f : FmtR, ∀ e ∈ ([(.add c p f, fun a b => a + b), (.sub c p f, fun a b => a - b), (.and c p f, fun a b => a &&& b),
        (.or c p f, fun a b => a ||| b), (.xor c p f, fun a b => a ^^^ b),
        (.shl c p f, fun a b => a <<< (b.toNat % 64)), (.shr c p f, fun a b => a >>> (b.toNat % 64)),
        (.sra c p f, fun a b => a.sshiftRight (b.toNat % 64)), (.mul c p f, fun a b => BitVec.ofNat 64 (a.toNat * b.toNat)),
        (.min c p f, fun a b => BitVec.ofInt 64 (min a.toInt b.toInt)),
        (.max c p f, fun a b => BitVec.ofInt 64 (max a.toInt b.toInt))] : List (Instr × (Dword → Dword → Dword))),
      s.passes e.1 = true →
      Ends (exec e.1 s) (fun t =>
        TakesG s t c.val f.gd.toNat (e.2 (k.greg f.ga.toNat) (k.greg f.gb.toNat)) (k.pc + 1) ∧ PassedAlone s t c.val)) ∧
    (∀ f : FmtI, ∀ e ∈ ([(.addi c p f, fun a i => a + i.signExtend 64), (.andi c p f, fun a i => a &&& i.signExtend 64),
        (.lil c p f, fun _ i => i.signExtend 64), (.shli c p f, fun a i => a <<< (i.toNat % 64)),
        (.shri c p f, fun a i => a >>> (i.toNat % 64))] : List (Instr × (Dword → Word → Dword))),
      s.passes e.1 = true →
      Ends (exec e.1 s) (fun t =>
        TakesG s t c.val f.gd.toNat (e.2 (k.greg f.ga.toNat) f.imm) (k.pc + 1) ∧ PassedAlone s t c.val)) ∧
    (∀ f : FmtI, s.passes (.lih c p f) = true →
      Ends (exec (.lih c p f) s) (fun t =>
        TakesG s t c.val f.gd.toNat (BitVec.ofNat 64 (f.imm.toNat * 2 ^ 32 + (k.greg f.gd.toNat).toNat % 2 ^ 32)) (k.pc + 1) ∧
        PassedAlone s t c.val)) ∧
    (∀ f : FmtC, ∀ e ∈ ([(.cmp c p f, k.greg f.gb.toNat), (.cmpi c p f, f.imm.signExtend 64)] : List (Instr × Dword)),
      s.passes e.1 = true →
      let a := k.greg f.ga.toNat
      Ends (exec e.1 s) (fun t =>
        TakesP s t c.val f.pdst.toNat
          (match f.cond.toNat with
            | 0 => decide (a = e.2)
            | 1 => decide (a ≠ e.2)
            | 2 => decide (a.toInt < e.2.toInt)
            | 3 => decide (e.2.toInt ≤ a.toInt)
            | 4 => decide (a.toNat < e.2.toNat)
            | _ => decide (e.2.toNat ≤ a.toNat)) (k.pc + 1) ∧ PassedAlone s t c.val)) ∧
    (∀ f : FmtP, s.passes (.plog c p f) = true →
      let a := k.pred f.pa.toNat
      let b := k.pred f.pb.toNat
      Ends (exec (.plog c p f) s) (fun t =>
        TakesP s t c.val f.pdst.toNat
          (match f.op.toNat with
            | 0 => a && b
            | 1 => a || b
            | 2 => xor a b
            | _ => a && !b) (k.pc + 1) ∧ PassedAlone s t c.val)) ∧
    (∀ f : FmtC, (f.cond.toNat = 6 ∨ f.cond.toNat = 7 → reserved (.cmp c p f) = true ∧ reserved (.cmpi c p f) = true) ∧
      (f.imm ≠ 0 → reserved (.cmp c p f) = true) ∧ (f.gb ≠ 0 → reserved (.cmpi c p f) = true)) ∧
    (∀ f : FmtI, (f.ga ≠ 0 → reserved (.lil c p f) = true ∧ reserved (.lih c p f) = true) ∧
      (64 ≤ f.imm.toNat → reserved (.shli c p f) = true ∧ reserved (.shri c p f) = true))

/-- BR, BAL and JR take the pc to their target where it lies inside the program, BAL saving pc + 1; a target at or above
prog_len, or a JR register with a bit of [63:13] set, stops the core with CLERK.PC_RANGE, and so does any instruction that passes
and would fall through past the program's end: its own effect, which leads to `u`, stands (R216, R279). That this stop comes at
the instruction that falls through, at once, is the model's choice (log entry 5). -/
def Obligations.BranchesGoToTheirTargets : Prop :=
  ∀ (s : State) (c : CoreId) (p : Pred) (f : FmtB),
    let k := s.core c.val
    (s.passes (.br c p f) = true → f.target.toNat < k.progLen →
      Ends (exec (.br c p f) s) (fun t => t.core c.val = { k with pc := f.target.toNat } ∧ PassedAlone s t c.val)) ∧
    (s.passes (.bal c p f) = true → f.target.toNat < k.progLen →
      Ends (exec (.bal c p f) s) (fun t =>
        TakesG s t c.val f.gd.toNat (BitVec.ofNat 64 (k.pc + 1)) f.target.toNat ∧ PassedAlone s t c.val)) ∧
    (s.passes (.jr c p f) = true → (k.greg f.ga.toNat).toNat < 2 ^ 13 → (k.greg f.ga.toNat).toNat < k.progLen →
      Ends (exec (.jr c p f) s) (fun t =>
        t.core c.val = { k with pc := (k.greg f.ga.toNat).toNat } ∧ PassedAlone s t c.val)) ∧
    (s.passes (.jr c p f) = true → (2 ^ 13 ≤ (k.greg f.ga.toNat).toNat ∨ k.progLen ≤ (k.greg f.ga.toNat).toNat) →
      Ends (exec (.jr c p f) s) (fun t => StoppedWith s t c.val 0x2702)) ∧
    (∀ i ∈ [Instr.br c p f, Instr.bal c p f], s.passes i = true → k.progLen ≤ f.target.toNat →
      Ends (exec i s) (fun t => StoppedWith s t c.val 0x2702)) ∧
    (∀ e : FmtE, s.passes (.nop c p e) = true → k.hasNext = false →
      Ends (exec (.nop c p e) s) (fun t => StoppedWith s t c.val 0x2702)) ∧
    (∀ (i : Instr) (w : Clerked) (body : State → Passed) (u : State), clerkOf i = some w → w.core = c.val →
      (∀ x, exec i x = x.clerk i body) → s.passes i = true → k.hasNext = false → body s = .pass u →
      (u.core c.val).running = true → (u.core c.val).stopped = false → (u.core c.val).pc = k.pc →
      Ends (exec i s) (fun t => StoppedWith u t c.val 0x2702))

/-- A narrow access to the core's own Scratchpad, aligned, in a bank that the scalar port owns and that is On, below 0x60000,
moves one word: LD reads it zero-extended into gv, ST writes gv's low bytes and every other byte stays (R178, R280). -/
def narrowAccessMovesOneWord : Prop :=
  ∀ (s : State) (c : CoreId) (p : Pred) (f : FmtM), (s.core c.val).hasNext = true →
    let k := s.core c.val
    let n := if f.size = 0 then 8 else 4
    let a := (k.greg f.ga.toNat + f.imm.signExtend 64).toNat
    let o := a - (0xF00000000000 + c.val * 0x100000)
    0xF00000000000 + c.val * 0x100000 ≤ a → o < 0x60000 → o % n = 0 → k.ownerReq = none → s.poolMode = false →
    k.ownerOf (bankOf o) = 1 → (k.bank (bankOf o)).usable = true →
    (s.passes (.ld c p f) = true → k.parityBad o n = false →
      Ends (exec (.ld c p f) s) (fun t =>
        TakesG s t c.val f.gv.toNat (BitVec.ofNat 64 (leNat (bytesGet 0 k.mem o n))) (k.pc + 1) ∧ PassedAlone s t c.val)) ∧
    (s.passes (.st c p f) = true →
      Ends (exec (.st c p f) s) (fun t =>
        bytesGet 0 (t.core c.val).mem o n = leBytes (k.greg f.gv.toNat).toNat n ∧
        (∀ x, x < o ∨ o + n ≤ x → tabGet 0 (t.core c.val).mem x = tabGet 0 k.mem x) ∧
        t.core c.val = { k with mem := (t.core c.val).mem, badParity := (t.core c.val).badParity, pc := k.pc + 1 } ∧
        (∀ x, x ∈ (t.core c.val).badParity ↔ x ∈ k.badParity ∧ (x < o ∨ o + n ≤ x)) ∧ PassedAlone s t c.val))

/-- A narrow access to the core's own register blocks: an aligned LD of 4 bytes reads the register zero-extended, and an aligned ST
of 4 bytes writes its one register under that register's rule, and stops the core where the rule does. An aligned access of 8 bytes
reads or writes two words of a Span handle's record, the one register of these blocks that is wider than 4 bytes (R417); anywhere else
it spans two registers, and it and every misaligned access complete without effect, an LD reading zero (R11, R280). -/
def narrowAccessOfRegisters : Prop :=
  ∀ (s : State) (c : CoreId) (p : Pred) (f : FmtM) (b : BlockAt × Nat), (s.core c.val).hasNext = true →
    let k := s.core c.val
    let n := if f.size = 0 then 8 else 4
    let a := (k.greg f.ga.toNat + f.imm.signExtend 64).toNat
    let reads (t : State) (v : Dword) : Prop :=
      TakesG s t c.val f.gv.toNat v (k.pc + 1) ∧ (∀ d, d ≠ c.val → t.core d = s.core d) ∧ t.dram = s.dram ∧ CountedOne s t c.val
    let record : Bool := b.1.kind == .handle && decide (0x100 ≤ b.1.off)
    ownReg c.val a = some b →
    (s.passes (.ld c p f) = true →
      (a % n = 0 → n = 4 → Ends (exec (.ld c p f) s) (reads · ((s.regRead (.core c) b.2).2.setWidth 64))) ∧
      (a % n = 0 → n = 8 → Ends (exec (.ld c p f) s) (reads ·
        (if record then BitVec.ofNat 64 ((s.regView b.2).toNat + (s.regView (b.2 + 4)).toNat * 2 ^ 32) else 0))) ∧
      (a % n ≠ 0 → Ends (exec (.ld c p f) s) (reads · 0))) ∧
    (s.passes (.st c p f) = true →
      let v := (k.greg f.gv.toNat).setWidth 32
      (∀ u, a % n = 0 → n = 4 → s.coreRegWrite (.core c) b.1 b.2 v = (u, none) → Ends (exec (.st c p f) s) (fun t =>
        t.core c.val = { u.core c.val with pc := k.pc + 1, waiting := none } ∧ PassedAlone u t c.val)) ∧
      (∀ u st, a % n = 0 → n = 4 → s.coreRegWrite (.core c) b.1 b.2 v = (u, some st) → st.seq = 0 →
        Ends (exec (.st c p f) s) (fun t => StoppedWith u t c.val st.code)) ∧
      (∀ u w, a % n = 0 → n = 8 → record = true → s.coreRegWrite (.core c) b.1 b.2 v = (u, none) →
        u.coreRegWrite (.core c) { b.1 with off := b.1.off + 4 } (b.2 + 4) ((k.greg f.gv.toNat).extractLsb' 32 32) = (w, none) →
        Ends (exec (.st c p f) s) (fun t =>
          t.core c.val = { w.core c.val with pc := k.pc + 1, waiting := none } ∧ PassedAlone w t c.val)) ∧
      ((a % n ≠ 0 ∨ (n = 8 ∧ record = false)) →
        Ends (exec (.st c p f) s) (fun t => t.core c.val = { k with pc := k.pc + 1 } ∧ PassedAlone s t c.val)))

/-- A narrow access anywhere but the core's own Scratchpad and register blocks, or a 64-byte record of DMAKE outside the
Scratchpad, stops the core with CLERK.ADDR_RANGE; a misaligned one in the Scratchpad stops it with SPAD.RANGE; in a bank that
another port owns with SPAD.BANK_PORT, and in a bank that is not On with SPAD.BANK_OFF (R174, R178, R192, R280, R281). -/
def narrowAccessFaults : Prop :=
  ∀ (s : State) (c : CoreId) (p : Pred) (f : FmtM) (e : FmtD),
    let k := s.core c.val
    let n := if f.size = 0 then 8 else 4
    let a := (k.greg f.ga.toNat + f.imm.signExtend 64).toNat
    let base := 0xF00000000000 + c.val * 0x100000
    let inSpad : Prop := base ≤ a ∧ a - base < 0x60000
    (∀ i ∈ [Instr.ld c p f, Instr.st c p f], s.passes i = true →
      ((a < base ∨ base + 0x60000 ≤ a) → ownReg c.val a = none → Ends (exec i s) (fun t => StoppedWith s t c.val 0x2706)) ∧
      (inSpad → (a - base) % n ≠ 0 → k.ownerReq = none → Ends (exec i s) (fun t => StoppedWith s t c.val 0x2607)) ∧
      (inSpad → (a - base) % n = 0 → k.ownerReq = none → s.poolMode = false →
        k.ownerOf (bankOf (a - base)) ≠ 1 → k.ownerOf (bankOf (a - base)) ≠ 0 →
        Ends (exec i s) (fun t => StoppedWith s t c.val 0x2601)) ∧
      (inSpad → (a - base) % n = 0 → k.ownerReq = none → s.poolMode = false →
        k.ownerOf (bankOf (a - base)) = 1 → (k.bank (bankOf (a - base))).usable = false →
        Ends (exec i s) (fun t => StoppedWith s t c.val 0x2602))) ∧
    (s.passes (.dmake c p e) = true →
      let x := (k.greg e.ga.toNat).toNat
      (x < base ∨ base + 0x60000 < x + 64) → Ends (exec (.dmake c p e) s) (fun t => StoppedWith s t c.val 0x2706))

/-- LD and ST move one word, or fail with their fault. -/
def Obligations.NarrowAccessesMoveOneWordOrFault : Prop :=
  narrowAccessMovesOneWord ∧ narrowAccessOfRegisters ∧ narrowAccessFaults

/-- DGET moves one word of a descriptor to a g-register, DCOPY a whole descriptor; DPUT replaces one word and DMAKE reads a
record, and both write dd once the result is valid; one that is not stops the core and leaves dd as it was (R245, R281). -/
def Obligations.DescriptorInstructions : Prop :=
  ∀ (s : State) (c : CoreId) (p : Pred) (f : FmtD), (s.core c.val).hasNext = true →
    let k := s.core c.val
    let dd := f.dd.toNat
    let writes (t : State) (v : BitVec 512) : Prop :=
      (∀ x, (t.core c.val).dreg x = if x = dd then v else k.dreg x) ∧
      t.core c.val = { k with d := (t.core c.val).d, pc := k.pc + 1 } ∧ PassedAlone s t c.val
    let o := (k.greg f.ga.toNat).toNat - (0xF00000000000 + c.val * 0x100000)
    let record := BitVec.ofNat 512 (leNat (bytesGet 0 k.mem o 64))
    (s.passes (.dget c p f) = true →
      Ends (exec (.dget c p f) s) (fun t =>
        TakesG s t c.val f.ga.toNat ((k.dreg f.ds.toNat).extractLsb' (64 * f.word.toNat) 64) (k.pc + 1) ∧
        PassedAlone s t c.val)) ∧
    (s.passes (.dcopy c p f) = true → Ends (exec (.dcopy c p f) s) (fun t => writes t (k.dreg f.ds.toNat))) ∧
    (∀ v : BitVec 512, s.passes (.dput c p f) = true →
      v.extractLsb' (64 * f.word.toNat) 64 = k.greg f.ga.toNat →
      (∀ j, j < 8 → j ≠ f.word.toNat → v.extractLsb' (64 * j) 64 = (k.dreg dd).extractLsb' (64 * j) 64) →
      (s.descBad (Desc.of v) = none → Ends (exec (.dput c p f) s) (fun t => writes t v)) ∧
      (∀ e, s.descBad (Desc.of v) = some e → Ends (exec (.dput c p f) s) (fun t => StoppedWith s t c.val e.1))) ∧
    (s.passes (.dmake c p f) = true → 0xF00000000000 + c.val * 0x100000 ≤ (k.greg f.ga.toNat).toNat →
      o + 64 ≤ 0x60000 → o % 64 = 0 → k.ownerReq = none → s.poolMode = false → k.ownerOf (bankOf o) = 1 →
      (k.bank (bankOf o)).usable = true → k.parityBad o 64 = false →
      (s.descBad (Desc.of record) = none → Ends (exec (.dmake c p f) s) (fun t => writes t record)) ∧
      (∀ e, s.descBad (Desc.of record) = some e → Ends (exec (.dmake c p f) s) (fun t => StoppedWith s t c.val e.1)))

/-- MOVE, GATHER, SCATTER, XPOSE, PERMUTE, FILL and COPY, whose faults have been checked, pass into the core DMA queue with
copies of what they name (R217, R283, R303); one that needs absent Span completes at once with UNIT.ABSENT (R3); FILL and COPY
of length zero complete at once with status 0 (R286); in each case nothing else changes. -/
def Obligations.TransfersEnterTheDmaQueue : Prop :=
  ∀ (s : State) (c : CoreId) (p : Pred) (side : Bool) (f : FmtT) (h : FmtF),
    let k := s.core c.val
    let pail (v : BitVec 7) : Option Nat := if v.toNat < 64 then none else some (v.toNat - 64)
    let box (kind : XferKind) : Xfer := { k.blankXfer kind f.epoch.toNat with
      side := side
      src := k.copyD f.ds.toNat
      dst := k.copyD f.dd.toNat
      list := k.copyD f.dl.toNat
      org := k.greg f.go.toNat
      form := f.form == 1
      cnt := k.greg f.gc.toNat
      srcPail := pail f.srcPail
      dstPail := pail f.dstPail }
    let fill : Xfer := { k.blankXfer .fill h.epoch.toNat with
      org := k.greg h.gc.toNat
      dstAddr := (k.greg h.ga.toNat).toNat
      len := (k.greg h.gb.toNat).toNat
      srcPail := pail h.srcPail
      dstPail := pail h.dstPail }
    let copy : Xfer := { k.blankXfer .copy h.epoch.toNat with
      dstAddr := (k.greg h.ga.toNat).toNat
      srcAddr := (k.greg h.gb.toNat).toNat
      len := (k.greg h.gc.toNat).toNat
      srcPail := pail h.srcPail
      dstPail := pail h.dstPail }
    ∀ e ∈ ([(.move c p side f, box .move, f.gs.toNat), (.gather c p side f, box .gather, f.gs.toNat),
        (.scatter c p side f, box .scatter, f.gs.toNat), (.xpose c p side f, box .xpose, f.gs.toNat),
        (.permute c p side f, box .permute, f.gs.toNat), (.fill c p h, fill, h.gs.toNat),
        (.copy c p h, copy, h.gs.toNat)] : List (Instr × Xfer × Nat)),
      let x := e.2.1
      let gs := e.2.2
      s.passes e.1 = true → k.hasNext = true → k.dmaQueued < 64 →
      (x.epoch = 0 ∨ (x.dstPail ≠ none ∧ k.epoch x.epoch = .opened)) → s.xferFault c.val x = none →
      (s.xferRemote x = false → (remoteGrant k.grant = false ∨ spanPresent s.variant = true) → (x.tensor = true ∨ x.len ≠ 0) →
        Ends (exec e.1 s) (fun t =>
          t.core c.val = { k.passedOp .dma 0 gs true none with dma := k.dma ++ [x] } ∧ OnlyCore s t c.val)) ∧
      (∀ y, s.xferRemote x = true → spanPresent s.variant = true → s.xferWins c.val x = some y →
        Ends (exec e.1 s) (fun t =>
          t.core c.val = { k.passedOp .dma 0 gs true none with dma := k.dma ++ [y] } ∧ OnlyCore s t c.val)) ∧
      ((s.xferRemote x = true ∨ remoteGrant k.grant = true) → spanPresent s.variant = false →
        Ends (exec e.1 s) (fun t =>
          t.core c.val = k.passedOp .dma 0 gs true (endedWith 0x0101) ∧ OnlyCore s t c.val)) ∧
      (x.tensor = false → x.len = 0 → (remoteGrant k.grant = false ∨ spanPresent s.variant = true) →
        Ends (exec e.1 s) (fun t =>
          t.core c.val = k.passedOp .dma 0 gs true (endedWith 0) ∧ OnlyCore s t c.val))

/-- From `v`, atom `i` has been written: its place holds the data with fresh check symbols, no write-back of it waits, every
other atom reads as before, and beside the controller's counter nothing else of the part but cores and replies may differ. -/
def storesAtom (v t : State) (i : Nat) (data : List Byte) : Prop :=
  let x := Reg.PWR_MEMC_WRITES_LO (dramChan (v.atomKey i))
  t.atomStored i = (t, rsEncode data i) ∧ (∀ w ∈ t.writeBacks, w.1 ≠ v.atomKey i) ∧
  (∀ j, v.atomKey j ≠ v.atomKey i → (t.atomStored j).2 = (v.atomStored j).2) ∧
  t.reg64 x = (v.reg64 x + 1) % 2 ^ 64 ∧ RegsSameBut v t [x, x + 4] ∧
  t = { v with cores := t.cores, dram := t.dram, writeBacks := t.writeBacks, regs := t.regs, replies := t.replies }

/-- AADD and ACAS on 8 aligned bytes of local LPDDR that a region allows for read and write, whose atom is read clean or
corrected: gd gets the old value, and the atom is written with the sum in its place, or with the new value where the old one equals
the compared one, and is otherwise left alone; status 0 is handed over, and no other atom changes (R287, R347). It passes once the DMA
queue has room and every transfer before it has started or waits for a pail (R217, R225), and acts then, which is the model's choice
(log entry 45); until then the Clerk waits. -/
def Obligations.AtomicsExchangeOneWord : Prop :=
  ∀ (s : State) (c : CoreId) (p : Pred) (f : FmtA) (r : Region) (u : State) (d : List Byte),
    let k := s.core c.val
    let x := (k.greg f.ga.toNat).toNat
    let a := x % 2 ^ 48
    let o := a % 32
    let b := k.greg f.gb.toNat
    let old : Dword := BitVec.ofNat 64 (leNat ((d.drop o).take 8))
    k.hasNext = true → x % 8 = 0 → x < 2 ^ 56 → x / 2 ^ 48 = s.nodeId →
    regionFor s.sched.regions a (a + 8) = some r → r.space = 0 → r.rd = true → r.wr = true →
    a + 8 ≤ s.lpddrEnd → s.atomEnabled (a / 32) = true →
    (s.newOp c.val .dma f.gd.toNat f.gs.toNat true).1.atomRead (a / 32) false c.val = (u, .ok d) →
    ∀ e ∈ ([(.aadd c p f, some (old + b)), (.acas c p f, if old = k.greg f.gc.toNat then some b else none)] :
        List (Instr × Option Dword)),
      s.passes e.1 = true →
      let starts : Prop := k.dmaQueued < 64 ∧ ∀ y ∈ k.dma, y.started = true ∨ k.xferReady y = false
      (¬ starts → exec e.1 s = .next (s.setCore c.val { k with waiting := some e.1 })) ∧
      let lands (t : State) : Prop := (∀ d, d ≠ c.val → t.core d = s.core d) ∧
        t.core c.val = k.passedOp .dma f.gd.toNat f.gs.toNat true (some ⟨0, some old, Stop.of 0⟩)
      (∀ v, starts → e.2 = some v → Ends (exec e.1 s) (fun t =>
        lands t ∧ storesAtom u t (a / 32) (d.take o ++ leBytes v.toNat 8 ++ d.drop (o + 8)))) ∧
      (starts → e.2 = none → Ends (exec e.1 s) (fun t => lands t ∧ t = { u with cores := t.cores }))

/-- TMUL, TMUL2, TSTORE, TCLEAR, TINGEST, the four SINT functions, SETPREC and SETCLASS pass into the Sequencer queue, of 32
entries, with copies of the descriptors they name, the values of their g-registers, the precision in force and, for the ones
that store, the Mint's tables (R118, R222, R225); a SINT count is marked pending for its g-register (R218); SETPREC is in force
for what passes after it (R226). Nothing else changes. An epoch on TINGEST, MATCH, MERGE or SELECT, or on a TSTORE with a side
output or to no pail, stops the core with CLERK.EPOCH_KIND (R229). -/
def Obligations.SequencerInstructionsEnterTheQueue : Prop :=
  ∀ (s : State) (c : CoreId) (p : Pred) (x : FmtX) (y : FmtY) (w : FmtS) (n : FmtN) (e : FmtE),
    let k := s.core c.val
    let nest := bitOf (k.greg (x.gr.toNat + 1)).toNat 0
    let tables := s.mintTables c.val
    let storeKind : Prop := sideOutputs (k.greg w.gw.toNat) = false ∧ s.destPail c.val (Desc.of (k.dreg w.dd.toNat)) = true
    k.hasNext = true → k.seq.length < 32 →
    (∀ i ∈ ([
        (.tmul c p x, .tensor, 0,
          k.seqEntry (.tmul x) x.epoch.toNat x.slip.toNat [x.dw.toNat, x.da.toNat, x.dd.toNat, x.df.toNat]
            [x.gr.toNat, x.gr.toNat + 1, if nest then x.gr.toNat + 2 else 0] tables),
        (.tmul2 c p y, .tensor, 0,
          k.seqEntry (.tmul2 y) y.epoch.toNat y.slip.toNat [y.dw1.toNat, y.da.toNat, y.dw2.toNat, y.di.toNat]
            [y.gr.toNat, y.gr.toNat + 1, y.gr.toNat + 2, y.gr.toNat + 3] tables),
        (.tstore c p w, .tensor, 0,
          k.seqEntry (.tstore w) w.epoch.toNat w.slip.toNat [w.dd.toNat, w.df.toNat] [w.gw.toNat, w.go.toNat] tables),
        (.tclear c p e, .tensor, 0, k.seqEntry (.tclear (e.imm.toNat % 256)) 0 0 [] [] []),
        (.tingest c p w, .tensor, 0, k.seqEntry (.tingest w) 0 w.slip.toNat [w.dd.toNat] [w.go.toNat] []),
        (.sintMatch c p n, .tensor, n.gr.toNat,
          k.seqEntry (.sint 0 n) 0 0 [n.da.toNat, n.db.toNat, n.dd.toNat] [] []),
        (.sintMerge c p n, .tensor, n.gr.toNat,
          k.seqEntry (.sint 1 n) 0 0 [n.da.toNat, n.db.toNat, n.dd.toNat] [] []),
        (.sintPairs c p n, .tensor, 0,
          k.seqEntry (.sint 2 n) n.epoch.toNat n.slip.toNat [n.da.toNat, n.db.toNat, n.dc.toNat]
            [n.gr.toNat, n.gr.toNat + 1] []),
        (.sintSelect c p n, .tensor, n.gr.toNat, k.seqEntry (.sint 3 n) 0 0 [n.da.toNat, n.dd.toNat] [] []),
        (.setclass c p e, .setclass, 0,
          k.seqEntry (.setclass (e.imm.toNat % 4) (e.imm.toNat / 4 % 16)) 0 0 [] [] [])] :
        List (Instr × OpClass × Nat × SeqOp)),
      s.passes i.1 = true → (i.2.2.2.epoch = 0 ∨ k.epoch i.2.2.2.epoch = .opened) →
      (i.1 = .tmul c p x → if nest then x.gr.toNat ≤ 29 ∧ k.pendingG (x.gr.toNat + 2) = false else x.dd = 0 ∧ x.df = 0) →
      (i.1 = .tstore c p w → (w.df = 0 ∨ noFusedDesc (k.greg w.gw.toNat) = false) ∧ (w.epoch = 0 ∨ storeKind)) →
      (i.1 = .tingest c p w → w.epoch = 0) →
      (i.1 = .sintMatch c p n ∨ i.1 = .sintMerge c p n ∨ i.1 = .sintSelect c p n → n.epoch = 0) →
      Ends (exec i.1 s) (fun t =>
        t.core c.val = { k.passedOp i.2.1 i.2.2.1 0 false none with seq := k.seq ++ [i.2.2.2] } ∧ OnlyCore s t c.val)) ∧
    (∀ i ∈ [Instr.sintMatch c p n, .sintMerge c p n, .sintSelect c p n], s.passes i = true → n.epoch ≠ 0 →
      Ends (exec i s) (fun t => StoppedWith s t c.val 0x2705)) ∧
    (s.passes (.tingest c p w) = true → w.epoch ≠ 0 → Ends (exec (.tingest c p w) s) (fun t => StoppedWith s t c.val 0x2705)) ∧
    (s.passes (.tstore c p w) = true → w.epoch ≠ 0 → (w.df = 0 ∨ noFusedDesc (k.greg w.gw.toNat) = false) → ¬ storeKind →
      Ends (exec (.tstore c p w) s) (fun t => StoppedWith s t c.val 0x2705)) ∧
    (s.passes (.setprec c p e) = true →
      Ends (exec (.setprec c p e) s) (fun t =>
        t.core c.val = { k.passedOp .other 0 0 false none with
          seq := k.seq ++ [k.seqEntry (.setprec (Prec.ofNat e.imm.toNat)) 0 0 [] [] []]
          precPass := some (Prec.ofNat e.imm.toNat) } ∧ OnlyCore s t c.val))

/-- PWAIT passes once its pail is in a state of its condition, FENCE once no incomplete operation of a class that its mask selects is
left; until then the Clerk holds them, and nothing else changes in either case (R301, R302). That a FULL or DRAINING pail of an epoch
does not satisfy PWAIT is the model's inference from R190 (log entry 131). -/
def Obligations.PwaitAndFenceWaitForTheirCondition : Prop :=
  ∀ (s : State) (c : CoreId) (p : Pred) (f : FmtE), (s.core c.val).hasNext = true →
    let k := s.core c.val
    let t := k.pail (f.imm.toNat % 64)
    let st := t.st
    let holds : Prop := match f.imm.toNat / 64 with
      | 0 => st = .empty
      | 1 => (st = .full ∨ st = .draining) ∧ t.epoch = 0
      | _ => st = .empty ∨ st = .filling
    let selected (o : Op) : Bool := match o.cls with
      | .narrow => bitOf f.imm.toNat 0
      | .dma => bitOf f.imm.toNat 1
      | .tensor => bitOf f.imm.toNat 2
      | .sync => bitOf f.imm.toNat 3
      | .barrier => bitOf f.imm.toNat 3
      | .setclass => bitOf f.imm.toNat 4
      | .other => false
    (s.passes (.pwait c p f) = true →
      (holds → Ends (exec (.pwait c p f) s) (fun t => t.core c.val = { k with pc := k.pc + 1 } ∧ PassedAlone s t c.val)) ∧
      (¬ holds → exec (.pwait c p f) s = .next (s.setCore c.val { k with waiting := some (.pwait c p f) }))) ∧
    (s.passes (.fence c p f) = true →
      (k.ops.any selected = false →
        Ends (exec (.fence c p f) s) (fun t => t.core c.val = { k with pc := k.pc + 1 } ∧ PassedAlone s t c.val)) ∧
      (k.ops.any selected = true →
        exec (.fence c p f) s = .next (s.setCore c.val { k with waiting := some (.fence c p f) })))

/-- GRANT of a legal word sets the core's grant and of g0 clears it, and an illegal word stops the core (R303, R321); SOPEN of a
stream that is not open takes a free one of the 16 places at pass, and stops the core with RNG.STREAM_BUSY or
RNG.STREAM_LIMIT otherwise (R309, R329); PSIG and SCLOSE start operations that act later (R301, R309). -/
def grantStreamsAndSignalsAtPass : Prop :=
  ∀ (s : State) (c : CoreId) (p : Pred) (f : FmtE) (g : FmtG), (s.core c.val).hasNext = true →
    let k := s.core c.val
    let w := k.greg g.ga.toNat
    let id := f.imm.toNat % 65536
    (s.passes (.grant c p g) = true →
      (g.ga = 0 → Ends (exec (.grant c p g) s) (fun t =>
        t.core c.val = { k with grant := none, pc := k.pc + 1 } ∧ PassedAlone s t c.val)) ∧
      (g.ga ≠ 0 → w.toNat / 2 ^ 10 % 2 ^ 6 = 0 → w.toNat / 2 ^ 41 = 0 → (bitOf w.toNat 40 = true ∨ w.toNat / 2 ^ 32 % 2 ^ 8 = 0) →
        Ends (exec (.grant c p g) s) (fun t =>
          t.core c.val = { k with grant := some w, pc := k.pc + 1 } ∧ PassedAlone s t c.val)) ∧
      (g.ga ≠ 0 → (w.toNat / 2 ^ 10 % 2 ^ 6 ≠ 0 ∨ w.toNat / 2 ^ 41 ≠ 0 ∨
          (bitOf w.toNat 40 = false ∧ w.toNat / 2 ^ 32 % 2 ^ 8 ≠ 0)) →
        Ends (exec (.grant c p g) s) (fun t => StoppedWith s t c.val 0x2706))) ∧
    (s.passes (.sopen c p f) = true →
      (∀ i, k.streamOpen id = none → (id ≠ 0xFFFF ∨ s.sampledTask = false) → k.freeStream = some i →
        Ends (exec (.sopen c p f) s) (fun t =>
          t.core c.val = { k with streams := tabPut k.streams i (id, bitOf f.imm.toNat 16), pc := k.pc + 1 } ∧
          (t.core c.val).streamOpen id = some (bitOf f.imm.toNat 16) ∧ PassedAlone s t c.val)) ∧
      ((k.streamOpen id ≠ none ∨ (id = 0xFFFF ∧ s.sampledTask = true)) →
        Ends (exec (.sopen c p f) s) (fun t => StoppedWith s t c.val 0x2901)) ∧
      (k.streamOpen id = none → (id ≠ 0xFFFF ∨ s.sampledTask = false) → k.freeStream = none →
        Ends (exec (.sopen c p f) s) (fun t => StoppedWith s t c.val 0x2902))) ∧
    (s.passes (.psig c p f) = true → Ends (exec (.psig c p f) s) (fun t =>
      t.core c.val = { k.passedOp .other 0 0 false none with psigs := k.psigs ++ [(f.imm.toNat % 64, k.nextOp)] } ∧
      OnlyCore s t c.val)) ∧
    (s.passes (.sclose c p f) = true → Ends (exec (.sclose c p f) s) (fun t =>
      t.core c.val = { k.passedOp .other 0 0 false none with scloses := k.scloses ++ [(id, k.nextOp)] } ∧ OnlyCore s t c.val))

/-- BARRIER and a local TAKE leave for the Teller, and a remote TAKE for its node as a Span TAKE; a TAKE of an illegal counter
word stops the core with CLERK.ADDR_RANGE, and a remote one without Span completes with UNIT.ABSENT (R304, R305, R312). -/
def barrierAndTakeLeaveForTheTeller : Prop :=
  ∀ (s : State) (c : CoreId) (p : Pred) (f : FmtG), (s.core c.val).hasNext = true →
    let k := s.core c.val
    let w := (k.greg f.ga.toNat).toNat
    let a := k.greg f.gb.toNat
    let legal : Prop := w / 2 ^ 10 % 2 ^ 6 = 0 ∧ w / 2 ^ 25 = 0 ∧ (bitOf w 24 = true ∨ w / 2 ^ 16 % 2 ^ 8 = 0)
    (s.passes (.barrier c p f) = true →
      Ends (exec (.barrier c p f) s) (fun t =>
        t = { s with cores := t.cores, hubOps := s.hubOps ++ [.barrier c.val k.nextOp f.imm.toNat w none] } ∧
        t.core c.val = k.passedOp .barrier 0 f.gs.toNat true none ∧ ∀ d, d ≠ c.val → t.core d = s.core d)) ∧
    (s.passes (.take c p f) = true →
      (legal → bitOf w 24 = false →
        Ends (exec (.take c p f) s) (fun t =>
          t = { s with cores := t.cores, hubOps := s.hubOps ++ [.take c.val k.nextOp (w % 2 ^ 10) a.toNat] } ∧
          t.core c.val = k.passedOp .sync f.gd.toNat f.gs.toNat true none ∧ ∀ d, d ≠ c.val → t.core d = s.core d)) ∧
      (legal → bitOf w 24 = true → spanPresent s.variant = false →
        Ends (exec (.take c p f) s) (fun t =>
          t.core c.val = k.passedOp .sync f.gd.toNat f.gs.toNat true (endedWith 0x0101) ∧ OnlyCore s t c.val)) ∧
      (legal → bitOf w 24 = true → spanPresent s.variant = true →
        exec (.take c p f) s = .next
          (((s.newOp c.val .sync f.gd.toNat f.gs.toNat true).1.spanRequest (.op c.val k.nextOp)
            (reqHdr opTake (w / 2 ^ 16 % 2 ^ 8) 0 0 1 (w % 2 ^ 10)) [a]).modCore c.val (·.goesOnAt (k.pc + 1)))) ∧
      (¬ legal → Ends (exec (.take c p f) s) (fun t => StoppedWith s t c.val 0x2706)))

/-- GRANT, SOPEN, SCLOSE, PSIG, BARRIER and TAKE at pass (R301, R303–R305, R309, R312, R321, R329). -/
def Obligations.GrantsStreamsBarriersAndTakesAtPass : Prop := grantStreamsAndSignalsAtPass ∧ barrierAndTakeLeaveForTheTeller

/-- SPEC opens a FREE epoch, waits for an ENDING one and stops the core with CLERK.EPOCH_OPEN for an OPEN one (R230). -/
def specOpensAFreeEpoch : Prop :=
  ∀ (s : State) (c : CoreId) (p : Pred) (f : FmtE), s.passes (.spec c p f) = true →
    let k := s.core c.val
    let e := f.imm.toNat
    (k.hasNext = true → k.epoch e = .free →
      Ends (exec (.spec c p f) s) (fun t =>
        (∀ x, (t.core c.val).epoch x = if x = e then .opened else k.epoch x) ∧
        t.core c.val = { k with epochs := (t.core c.val).epochs, pc := k.pc + 1 } ∧
        CountedUp s t (Reg.CORE_SPEC_OPENED c.val) 1 ∧ PassedWith s t c.val [Reg.CORE_SPEC_OPENED c.val])) ∧
    ((k.epoch e = .endingVerify ∨ k.epoch e = .endingSquash) →
      exec (.spec c p f) s = .next (s.setCore c.val { k with waiting := some (.spec c p f) })) ∧
    (k.epoch e = .opened → Ends (exec (.spec c p f) s) (fun t => StoppedWith s t c.val 0x2703))

/-- VERIFY and SQUASH make an OPEN epoch ENDING. At pass, VERIFY gives its pails and transfers epoch 0; SQUASH drops its
transfers and operations that have not started, cuts a started one, marks running transfers, which no longer read a pail of it, ends a
freeze of it, whose cycles are counted, makes its pails EMPTY with epoch 0 and its shadow tiles CLEAR with the tags they held before,
hands each dropped or cut operation its end, and counts them. An epoch that is not OPEN stops the core with CLERK.EPOCH_CLOSED (R231,
R232). That pails and tiles are emptied at SQUASH's own step is the model's inference (log entry 115), and that a freeze cut short
counts a free number of cycles below its limit is the model's choice (log entry 108). -/
def verifyAndSquashEndAnOpenEpoch : Prop :=
  ∀ (s : State) (c : CoreId) (p : Pred) (f : FmtE),
    let k := s.core c.val
    let e := f.imm.toNat
    let unX := k.dma.filter (fun x => x.epoch == e && !x.started)
    let unO := k.seq.filter (fun o => o.epoch == e && !o.started)
    let cut := k.seq.filter (fun o => o.epoch == e && o.started)
    let gone := unX.map (·.id) ++ unO.map (·.id) ++ cut.map (·.id)
    let froze : Prop := (∃ z, k.freeze = some z ∧ (k.pail z.pail).epoch = e) ∨ (k.freeze ≠ none ∧ k.seq.head?.map (·.epoch) = some e)
    let limit := s.regN (Reg.CORE_TALLY_FREEZE_LIMIT c.val)
    let stall := Reg.CORE_TALLY_STALL_LO c.val
    let longest := Reg.CORE_TALLY_FREEZE_MAX c.val
    let counts : List Nat := [Reg.CORE_SPEC_SQUASHED c.val, Reg.CORE_SPEC_DISCARDED c.val, Reg.CORE_SPEC_CUT c.val]
    (s.passes (.verify c p f) = true → k.hasNext = true → k.epoch e = .opened →
      Ends (exec (.verify c p f) s) (fun t =>
        (∀ i, i < 64 → (t.core c.val).pail i = if (k.pail i).epoch = e then { k.pail i with epoch := 0 } else k.pail i) ∧
        (∀ x, (t.core c.val).epoch x = if x = e then .endingVerify else k.epoch x) ∧
        t.core c.val = { k with
          pails := (t.core c.val).pails
          epochs := (t.core c.val).epochs
          dma := k.dma.map (fun x => if x.epoch = e then { x with epoch := 0 } else x)
          pc := k.pc + 1 } ∧
        CountedUp s t (Reg.CORE_SPEC_VERIFIED c.val) 1 ∧ PassedWith s t c.val [Reg.CORE_SPEC_VERIFIED c.val])) ∧
    (s.passes (.squash c p f) = true → k.hasNext = true → k.epoch e = .opened →
      Ends (exec (.squash c p f) s) (fun t =>
        (∀ x, (t.core c.val).epoch x = if x = e then .endingSquash else k.epoch x) ∧
        (∀ i, i < 64 → (t.core c.val).pail i = if (k.pail i).epoch = e then Pail.reset else k.pail i) ∧
        (∀ l, l < 8 → (t.core c.val).tile l = if (k.tile l).st = .shadow ∧ (k.tile l).epoch = e then
          (match (k.tile l).before with
            | some p => { Tile.reset with tagged := true, tag := p }
            | none => Tile.reset) else k.tile l) ∧
        (froze → (t.core c.val).freeze = none) ∧ (¬ froze → (t.core c.val).freeze = k.freeze) ∧
        t.core c.val = { k with
          pails := (t.core c.val).pails
          tiles := (t.core c.val).tiles
          epochs := (t.core c.val).epochs
          dma := (k.dma.filter (fun x => !(x.epoch == e && !x.started))).map (fun x => if x.epoch = e then
            { x with discard := true, srcPail := x.srcPail.filter (fun i => (k.pail i).epoch != e) } else x)
          seq := k.seq.filter (fun o => o.epoch != e)
          freeze := (t.core c.val).freeze
          ops := handedOver k.ops gone ⟨0, none, Stop.of 0⟩
          pc := k.pc + 1 } ∧
        CountedUp s t (Reg.CORE_SPEC_SQUASHED c.val) 1 ∧
        CountedUp s t (Reg.CORE_SPEC_DISCARDED c.val) (unX.length + unO.length) ∧
        CountedUp s t (Reg.CORE_SPEC_CUT c.val) cut.length ∧
        (¬ froze → PassedWith s t c.val counts) ∧
        (froze → PassedWith { s with free := t.free } t c.val (stall :: (stall + 4) :: longest :: counts) ∧
          (limit ≠ 0 → ∃ n, n < limit ∧ t.reg64 stall = (s.reg64 stall + n) % 2 ^ 64 ∧ t.regN longest = max (s.regN longest) n)))) ∧
    (∀ i ∈ [Instr.verify c p f, Instr.squash c p f], s.passes i = true → k.epoch e ≠ .opened →
      Ends (exec i s) (fun t => StoppedWith s t c.val 0x2704))

/-- END: the Clerk passes no more, its pc stays, and no epoch of the core is OPEN after it, each one that was being squashed
(R213, R232); with none open, nothing else changes but the count of instructions. -/
def endEndsTheProgram : Prop :=
  ∀ (s : State) (c : CoreId) (p : Pred) (f : FmtE), s.passes (.end_ c p f) = true →
    let k := s.core c.val
    Ends (exec (.end_ c p f) s) (fun t =>
      (t.core c.val).ending = true ∧ (t.core c.val).pc = k.pc ∧
      (∀ e, e < 16 → (t.core c.val).epoch e = if k.epoch e = .opened then .endingSquash else k.epoch e) ∧
      (∀ d, d ≠ c.val → t.core d = s.core d) ∧
      (∀ i, s.meets i = true → (clerkOf i).map (·.core) = some c.val → t.meets i = false) ∧
      ((∀ e, e < 16 → k.epoch e ≠ .opened) → t.core c.val = { k with ending := true } ∧ PassedAlone s t c.val))

/-- Epochs open by SPEC and end by VERIFY, SQUASH and END (R213, R230–R232). -/
def Obligations.EpochsOpenAndEnd : Prop := specOpensAFreeEpoch ∧ verifyAndSquashEndAnOpenEpoch ∧ endEndsTheProgram

/-- Head and tail of a ring run freely modulo 2^32: it holds (tail − head) mod 2^32 entries, is empty when they are equal and
full when the difference equals 2^count_log2, and counter value x names slot x mod 2^count_log2 (R198); posting to a ring that
is not full fills the slot that tail names, advances tail by one and counts it, and touches no other register; taking an entry
advances head by one and leaves tail. -/
def Obligations.RingCountersRunModulo2To32 : Prop :=
  (∀ (s : State) (r x : Nat),
    let held := (s.ringTail r + (2 ^ 32 - s.ringHead r)) % 2 ^ 32
    s.ringUsed r = held ∧ (s.ringEmpty r = true ↔ s.ringTail r = s.ringHead r) ∧
    (held ≤ 2 ^ s.ringCountLog r → (s.ringIsFull r = true ↔ held = 2 ^ s.ringCountLog r)) ∧
    s.ringSlot r x = s.ringBase r + x % 2 ^ s.ringCountLog r * 2 ^ s.ringEntryLog r) ∧
  (∀ (s u : State) (core : Nat) (r : RingId) (entry : List Byte),
    s.ringKind r.val = ringKindOf r.val → ringKindOf r.val ≠ 0 → s.ringIsFull r.val = false →
    s.slotFault (s.ringSlot r.val (s.ringTail r.val)) (s.ringEntry r.val) = none →
    s.ringMemWrite core (s.ringSlot r.val (s.ringTail r.val)) (entry.take (s.ringEntry r.val)) = (u, none) →
    ∃ t, s.ringPost core r.val (ringKindOf r.val) entry = (t, .slot (s.ringTail r.val)) ∧ t = { u with regs := t.regs } ∧
      t.ringTail r.val = (u.ringTail r.val + 1) % 2 ^ 32 ∧
      t.reg64 Reg.SPAD_RING_PUSHES_LO = (u.reg64 Reg.SPAD_RING_PUSHES_LO + 1) % 2 ^ 64 ∧
      RegsSameBut u t [ringReg r.val 4, Reg.SPAD_RING_PUSHES_LO, Reg.SPAD_RING_PUSHES_LO + 4]) ∧
  (∀ (s u : State) (core : Nat) (r : RingId) (e : Except Fail (List Byte)),
    s.ringTake core r.val = (u, e) → u.ringHead r.val = (s.ringHead r.val + 1) % 2 ^ 32 ∧ u.ringTail r.val = s.ringTail r.val)

/-- PUSH reads one entry of the ring's size from the Scratchpad and posts it to a local CORE or TELLER_SVC ring that has room and
whose banks wait for no new owner (R175); into a CORE ring it completes at once with status 0, into a TELLER_SVC ring when the Teller
has served it. UPDATE posts a command to a CHURN_CMD ring and completes when the Churn reports it done. POP takes the oldest entry of
the core's own ring into the Scratchpad, and waits while the ring is empty or new owners of its banks are to take effect; a ring of an
absent unit gives UNIT.ABSENT (R198–R200, R307, R311, R312). -/
def Obligations.PushUpdateAndPopMoveOneEntry : Prop :=
  ∀ (s u t1 t2 : State) (c : CoreId) (p : Pred) (f : FmtG) (e : List Byte) (o x : Nat), (s.core c.val).hasNext = true →
    let k := s.core c.val
    let w := (k.greg f.ga.toNat).toNat
    let n := s.ringEntry w
    w < 2 ^ 15 → k.ownerReq = none → entryPlace c.val (k.greg f.gb.toNat).toNat n = .ok o →
    (k.grant = none → s.spadReadN c.val .clerk o n (n / 64 + 2) = (t1, .done e) → s.ringIsFull w = false → s.ringSettled w = true →
      let id := (t1.core c.val).nextOp
      let post (kind : Nat) := (t1.newOp c.val .sync 0 f.gs.toNat true).1.ringPost c.val w kind e
      (s.passes (.push c p f) = true → n ≤ 256 → s.ringKind w = ringKindOf w →
        (ringKindOf w = 1 → post 1 = (t2, .slot x) →
          Ends (exec (.push c p f) s) (fun t =>
            t = (t2.modCore c.val (·.opDone id ⟨0, none, Stop.of 0⟩)).modCore c.val (·.goesOnAt (k.pc + 1)))) ∧
        (ringKindOf w = 6 → post 6 = (t2, .slot x) →
          Ends (exec (.push c p f) s) (fun t =>
            t = { t2 with hubOps := t2.hubOps ++ [HubOp.service c.val id w x] }.modCore c.val (·.goesOnAt (k.pc + 1))))) ∧
      (s.passes (.update c p f) = true → ringKindOf w = 5 → s.ringKind w = 5 → ringAbsent s.variant w = false →
        post 5 = (t2, .slot x) →
        Ends (exec (.update c p f) s) (fun t =>
          t = { t2 with hubOps := t2.hubOps ++ [HubOp.update c.val id w x t2.sched.seed] }.modCore c.val
            (·.goesOnAt (k.pc + 1))))) ∧
    (s.passes (.pop c p f) = true → ringKindOf w = 1 → w / 256 = c.val → s.ringKind w = 1 →
      (s.ringEmpty w = true ∨ s.ringSettled w = false →
        exec (.pop c p f) s = .next (s.setCore c.val { k with waiting := some (.pop c p f) })) ∧
      (s.ringEmpty w = false → s.ringSettled w = true → s.ringTake c.val w = (u, .ok e) →
        u.spadWriteN c.val .clerk o e (e.length / 64 + 2) = (t1, .done []) →
        Ends (exec (.pop c p f) s) (fun t =>
          t = { t1.ringMoved w with cores := t.cores, regs := t.regs } ∧
          t.core c.val = ((t1.ringMoved w).core c.val).goesOnAt (k.pc + 1) ∧ CountedOne (t1.ringMoved w) t c.val))) ∧
    (s.passes (.pop c p f) = true → ringAbsent s.variant w = true → Ends (exec (.pop c p f) s) (fun t =>
      t.core c.val = k.passedOp .sync 0 0 true (endedWith 0x0101) ∧ OnlyCore s t c.val))

/-- WOPEN of a window that is not open, from a valid record, opens it with the record's base, limit and kind and writes the
window's generation into bytes 18 and 19 of the record; WCLOSE closes an open window, whose generation rises by one modulo
2^16. Each completes with status 0 once the window has changed state. An index above 4,095 stops the core with CLERK.ADDR_RANGE, in a
configuration without Span too, which is the model's choice (log entry 114); without Span any other index completes with UNIT.ABSENT
(R310, R312, R394–R396). -/
def Obligations.WindowsOpenAndClose : Prop :=
  ∀ (s t1 t2 : State) (c : CoreId) (p : Pred) (f : FmtG) (bs : List Byte), (s.core c.val).hasNext = true →
    let k := s.core c.val
    let w := (k.greg f.ga.toNat).toNat
    let a := (k.greg f.gb.toNat).toNat
    let o := a - (0xF00000000000 + c.val * 0x100000)
    (∀ i ∈ [Instr.wopen c p f, Instr.wclose c p f], s.passes i = true →
      (4095 < w → Ends (exec i s) (fun t => StoppedWith s t c.val 0x2706)) ∧
      (w ≤ 4095 → spanPresent s.variant = false →
        Ends (exec i s) (fun t =>
          t.core c.val = k.passedOp .sync 0 f.gs.toNat true (endedWith 0x0101) ∧ OnlyCore s t c.val))) ∧
    (s.passes (.wopen c p f) = true → w ≤ 4095 → spanPresent s.variant = true →
      0xF00000000000 + c.val * 0x100000 ≤ a → o + 32 ≤ 0x60000 → k.ownerReq = none →
      s.spadReadN c.val .clerk o 32 3 = (t1, .done bs) → t1.winBad (WinRec.of bs) = false → t1.winOpen w = false →
      t1.spadWriteN c.val .clerk (o + 18) (leBytes (t1.winGeneration w) 2) 3 = (t2, .done []) →
      Ends (exec (.wopen c p f) s) (fun t =>
        t.winOpen w = true ∧ t.winBase w = (WinRec.of bs).base ∧ t.winLimit w = (WinRec.of bs).limit ∧
        t.winKind w = (WinRec.of bs).kind ∧ t.winGeneration w = t1.winGeneration w ∧
        (t.core c.val).pc = k.pc + 1 ∧
        (∃ op ∈ (t.core c.val).ops, op.id = (t2.core c.val).nextOp ∧ op.result = some ⟨0, none, Stop.of 0⟩))) ∧
    (s.passes (.wclose c p f) = true → w ≤ 4095 → spanPresent s.variant = true → s.winOpen w = true →
      s.winBusy w = false →
      Ends (exec (.wclose c p f) s) (fun t =>
        t.winOpen w = false ∧ t.winGeneration w = (s.winGeneration w + 1) % 65536 ∧ (t.core c.val).pc = k.pc + 1 ∧
        (∃ op ∈ (t.core c.val).ops, op.id = k.nextOp ∧ op.result = some ⟨0, none, Stop.of 0⟩)))

/-- Planning takes the first operation without a plan: its plan, its transfers of a loop, the draws of an AUDIT and the cycles in
which the data path found no slip are recorded, and nothing issues (R223, R260, R330); a fault of planning stops the core at once
(R224). That all transfers of a loop enter the DMA queue now, and that the draws of an AUDIT count now, are the model's inferences
(log entries 36 and 127). -/
def Obligations.PlanningPlansTheFirstUnplanned : Prop :=
  ∀ (s : State) (c : CoreId) (gap : Nat) (o : SeqOp) (z : Planned) (h : SeqOp) (q : List SeqOp) (pl : Plan),
    let k := s.core c.val
    let blocks := Reg.CORE_RNG_BLOCKS_LO c.val
    k.running = true → k.stopped = false → k.toPlan = some o → s.plan c.val o = some z →
    (z.fault = none → k.seq = h :: q → (if h.id = o.id then some ⟨z.parts⟩ else h.plan) = some pl → pl.parts ≠ [] →
      Ends (exec (.planning c gap) s) (fun t =>
        t.core c.val = { k with
          seq := k.seq.map (fun a => if a.id = o.id then { a with plan := some ⟨z.parts⟩ } else a)
          dma := k.dma ++ numbered k.nextOp z.xfers
          nextOp := k.nextOp + z.xfers.length } ∧
        OnlyCoreAndRegs s t c.val ∧
        t.reg64 (Reg.CORE_SEQ_GAP_LO c.val) = (s.reg64 (Reg.CORE_SEQ_GAP_LO c.val) + gap) % 2 ^ 64 ∧
        t.reg64 (Reg.CORE_DESC_DROPPED_LO c.val) = (s.reg64 (Reg.CORE_DESC_DROPPED_LO c.val) + o.dropped) % 2 ^ 64 ∧
        CountedUp s t (Reg.CORE_DESC_NEST_REUSE c.val) z.reuse ∧ t.reg64 blocks = (s.reg64 blocks + z.draws) % 2 ^ 64 ∧
        RegsSameBut s t [Reg.CORE_SEQ_GAP_LO c.val, Reg.CORE_SEQ_GAP_LO c.val + 4, Reg.CORE_DESC_DROPPED_LO c.val,
          Reg.CORE_DESC_DROPPED_LO c.val + 4, Reg.CORE_DESC_NEST_REUSE c.val, blocks, blocks + 4])) ∧
    (∀ st, z.fault = some st → st.seq = 0 →
      Ends (exec (.planning c gap) s) (fun t => StoppedWith s t c.val st.code))

/-- Where the head of the queue has a slip to issue: core `c` runs and is not stopped, no owner write waits, and the head `o` is
planned and started, its running part `part` begun, not quiet and no NEST loop. -/
def slipStands (s : State) (c : Nat) (o : SeqOp) (q : List SeqOp) (pl : Plan) (part : Part) (parts : List Part) : Prop :=
  (s.core c).running = true ∧ (s.core c).stopped = false ∧ (s.core c).ownerReq = none ∧ (s.core c).seq = o :: q ∧
  o.plan = some pl ∧ pl.parts = part :: parts ∧ part.quiet = false ∧ o.nest? = none ∧ o.started = true ∧ o.begun = true ∧
  ∀ a ∈ q, a.id ≠ o.id

/-- The core after one slip of that part has issued, with `rest` still to issue and the other changes that `f` makes to the
operation. -/
def slipGone (k : Core) (o : SeqOp) (q : List SeqOp) (part : Part) (parts : List Part) (rest : List Slip)
    (f : SeqOp → SeqOp) : Core :=
  { k with seq :=
      { f { o with started := true, begun := true } with
        plan := some ⟨{ part with slips := rest } :: parts⟩ } :: q }

/-- SLIP_ISSUE issues one slip of the operation at the head and counts it (R221): an IDLE slip does nothing else; a STORE slip
makes the pail it names FILLING; a STORE slip whose pail the producer may not yet write freezes the core on that pail and nothing
else changes (R65). The one slip of a TCLEAR clears the tiles of its mask under the precision it copied, ends the operation and
leaves every other tile as it was (R80, R297). -/
def slipIssueIssuesOneSlip : Prop :=
  ∀ (s : State) (c : CoreId) (o : SeqOp) (q : List SeqOp) (pl : Plan) (part : Part) (parts : List Part) (sl : Slip)
      (rest : List Slip) (m : Nat),
    let k := s.core c.val
    let e := k.pailEpoch o.epoch
    k.freeze = none →
    (slipStands s c.val o q pl part parts → part.slips = sl :: rest → rest ≠ [] →
      (sl.kind = 0 → Ends (exec (.slipIssue c) s) (fun t =>
        t.core c.val = slipGone k o q part parts rest id ∧ OnlyCoreAndRegs s t c.val ∧
        t.reg64 (Reg.CORE_SEQ_SLIPS_LO c.val) = (s.reg64 (Reg.CORE_SEQ_SLIPS_LO c.val) + 1) % 2 ^ 64 ∧
        RegsSameBut s t [Reg.CORE_SEQ_SLIPS_LO c.val, Reg.CORE_SEQ_SLIPS_LO c.val + 4])) ∧
      (sl.kind = 4 → (s.pailCfg c.val sl.pail).valid = true → (s.pailCfg c.val sl.pail).producer = 0 →
        ((k.pail sl.pail).writable e = true → Ends (exec (.slipIssue c) s) (fun t =>
          t.core c.val = (slipGone k o q part parts rest (fun a => { a with writes := sl.pail :: a.writes })).setPail sl.pail
            ((k.pail sl.pail).firstWrite e) ∧ OnlyCoreAndRegs s t c.val ∧
          t.reg64 (Reg.CORE_SEQ_SLIPS_LO c.val) = (s.reg64 (Reg.CORE_SEQ_SLIPS_LO c.val) + 1) % 2 ^ 64 ∧
          RegsSameBut s t [Reg.CORE_SEQ_SLIPS_LO c.val, Reg.CORE_SEQ_SLIPS_LO c.val + 4])) ∧
        ((k.pail sl.pail).writable e = false →
          exec (.slipIssue c) s = .next (s.setCore c.val { k with freeze := some ⟨sl.pail⟩ })))) ∧
    (k.running = true → k.stopped = false → k.ownerReq = none → k.seq = [o] → o.kind = .tclear m →
      o.plan = some ⟨[plainPart 0]⟩ → o.writes = [] → (∀ l, l < 8 → bitOf m l = true → (k.tile l).st ≠ .shadow) →
      (∀ a ∈ k.adds, a.tile < 8 → bitOf m a.tile = false) →
      Ends (exec (.slipIssue c) s) (fun t =>
        (∀ l, l < 8 → (t.core c.val).tile l = if bitOf m l then (match o.prec with
          | some p => { Tile.reset with tagged := true, tag := p }
          | none => Tile.reset) else k.tile l) ∧
        t.core c.val = { k with
          tiles := (t.core c.val).tiles
          seq := []
          ops := handedOver k.ops [o.id] ⟨0, none, Stop.of 0⟩ } ∧
        OnlyCore s t c.val))

/-- A READ slip of a pail that its consumer may read holds the bytes of its rows' MATRIX-owned banks for the part, turns a FULL pail
DRAINING, and with last EMPTY (R185–R187, R221). A PAIR slip is a core cycle of plane pairs; the first of a chunk reads and checks what the
chunk consumes, and counts it (R29, R68, R69, R127, R154). A slip that ends a product group, in an exact class, adds each lane's term to
the lane's word of its array's tile, in order, a CLEAR tile taking the operation's precision, and counts the terms and the arrays that
lack one (R58, R60, R74, R81). When each kind of slip acts is the model's inference (log entries 12, 27, 43 and 118). -/
def slipsReadPairAndEndGroups : Prop :=
  ∀ (s : State) (c : CoreId) (o : SeqOp) (q : List SeqOp) (pl : Plan) (part : Part) (parts : List Part) (sl : Slip)
      (rest : List Slip),
    let k := s.core c.val
    let e := k.pailEpoch o.epoch
    let x := s.dp c.val o
    let w := s.work c.val o part.num
    let slips := Reg.CORE_SEQ_SLIPS_LO c.val
    let pairs := Reg.CORE_TALLY_PAIRS_LO c.val
    k.freeze = none → slipStands s c.val o q pl part parts → part.slips = sl :: rest → rest ≠ [] →
    (sl.kind = 1 → (s.pailCfg c.val sl.pail).valid = true → (s.pailCfg c.val sl.pail).consumer = 0 →
      (k.pail sl.pail).readable e = true → (k.pail sl.pail).err = false →
      (∀ a ∈ x.slipWords sl, (k.bank (bankOf a)).usable = true ∧ k.parityBad a 64 = false) →
      Ends (exec (.slipIssue c) s) (fun t =>
        t.core c.val = (slipGone k o q part parts rest (fun a => { a with
          overlay := (x.slipWords sl).foldl (fun z a => putBytes z a (k.spadBytes a 64)) a.overlay
          reads := if sl.last then a.reads.filter (· != sl.pail) else sl.pail :: a.reads })).setPail sl.pail
            (if sl.last then (k.pail sl.pail).firstRead.emptied else (k.pail sl.pail).firstRead) ∧
        OnlyCoreAndRegs s t c.val ∧ t.reg64 slips = (s.reg64 slips + 1) % 2 ^ 64 ∧ RegsSameBut s t [slips, slips + 4])) ∧
    (∀ pails, sl.kind = 2 →
      let start := o.chunkStart w.planePairs
      let u := if start then part.uses.headD default else default
      (w.consume x u).run [] = .ok ((), pails) →
      Ends (exec (.slipIssue c) s) (fun t =>
        t.core c.val = (slipGone k o q { part with
            pairs := part.pairs - 1
            uses := if start then part.uses.tail else part.uses } parts rest
          (fun a => { a with checked := a.checked + 1 })).readPails pails ∧
        OnlyCoreAndRegs s t c.val ∧
        ∀ r, t.reg r = (((s.bump64 pairs (min 1 part.pairs)).applyCounts u.counts).bump64 slips 1).reg r)) ∧
    (∀ p rs pails, sl.kind = 3 ∨ sl.kind = 5 → w = .product p → o.group < p.groups → k.classHead.1 ≠ 2 → k.classHead.2 = 0 →
      (p.readGroup x o.group).run [] = .ok (rs, pails) → (rs.map (·.a)).Nodup →
      let term (l : Lane) : Option (Nat × Int × Int) :=
        let z := laneSums l.w.vals l.a.vals
        (p.term l.w l.a z z.p).map (fun y => (l.word, y))
      let terms (r : ArrayRows) : List (Nat × Int × Int) := r.lanes.filterMap term
      let counts := [slips, slips + 4, Reg.CORE_TALLY_TERMS_LO c.val, Reg.CORE_TALLY_TERMS_LO c.val + 4, Reg.CORE_TALLY_NO_TERM c.val,
        Reg.LEDG_SUB_TERMS_LO c.val, Reg.LEDG_SUB_TERMS_LO c.val + 4, Reg.LEDG_SAT_ADDS c.val, Reg.LEDG_SCALE_RANGE_TERMS c.val]
      Ends (exec (.slipIssue c) s) (fun t =>
        (∀ r ∈ rs, (t.core c.val).tile (p.tile + r.a) = if terms r = [] then k.tile (p.tile + r.a) else
          (terms r).foldl (fun y e => (y.addTerm e.1 e.2.1 e.2.2 true).1)
            ((k.tile (p.tile + r.a)).adopt o.precOf o.epoch (p.globalRows r.a))) ∧
        (∀ l, (∀ r ∈ rs, l ≠ p.tile + r.a) → (t.core c.val).tile l = k.tile l) ∧
        (∀ a, tabGet 0 (t.core c.val).sampleGroups a = tabGet 0 k.sampleGroups a + (rs.map (·.a)).count a) ∧
        t.core c.val = { (slipGone k o q part parts rest (fun a => { a with group := a.group + 1 })).readPails pails with
          tiles := (t.core c.val).tiles
          sampleGroups := (t.core c.val).sampleGroups } ∧
        OnlyCoreAndRegs s t c.val ∧ t.reg64 slips = (s.reg64 slips + 1) % 2 ^ 64 ∧
        t.reg64 (Reg.CORE_TALLY_TERMS_LO c.val) =
          (s.reg64 (Reg.CORE_TALLY_TERMS_LO c.val) + (rs.map (fun r => (terms r).length)).sum) % 2 ^ 64 ∧
        CountedUp s t (Reg.CORE_TALLY_NO_TERM c.val) (rs.countP (fun r => r.lanes.any (fun l => (term l).isNone))) ∧
        RegsSameBut s t counts))

/-- A lockstep freeze ends when the pail on which a STORE slip waits may be written, within the limit: the slip issues, and the
freeze's cycles add to the stall count and may raise the longest freeze (R65, R67, R69). With a limit and the pail still not
writable, FREEZE_LIMIT stops the core with TALLY.FREEZE_LIMIT. -/
def freezeEndsOrReachesItsLimit : Prop :=
  ∀ (s : State) (c : CoreId) (n : Nat) (z : Freeze) (o : SeqOp) (q : List SeqOp) (pl : Plan) (part : Part)
      (parts : List Part) (sl : Slip) (rest : List Slip),
    let k := s.core c.val
    let e := k.pailEpoch o.epoch
    let limit := s.regN (Reg.CORE_TALLY_FREEZE_LIMIT c.val)
    k.freeze = some z → slipStands s c.val o q pl part parts → part.slips = sl :: rest → rest ≠ [] → sl.kind = 4 →
    (s.pailCfg c.val sl.pail).valid = true → (s.pailCfg c.val sl.pail).producer = 0 →
    ((k.pail sl.pail).writable e = true → (limit = 0 ∨ n < limit) → n < 2 ^ 32 →
      Ends (exec (.freezeEnd c n) s) (fun t =>
        t.core c.val = { (slipGone k o q part parts rest (fun a => { a with writes := sl.pail :: a.writes })).setPail sl.pail
          ((k.pail sl.pail).firstWrite e) with freeze := none } ∧ OnlyCoreAndRegs s t c.val ∧
        t.reg64 (Reg.CORE_TALLY_STALL_LO c.val) = (s.reg64 (Reg.CORE_TALLY_STALL_LO c.val) + n) % 2 ^ 64 ∧
        t.regN (Reg.CORE_TALLY_FREEZE_MAX c.val) = max (s.regN (Reg.CORE_TALLY_FREEZE_MAX c.val)) n ∧
        t.reg64 (Reg.CORE_SEQ_SLIPS_LO c.val) = (s.reg64 (Reg.CORE_SEQ_SLIPS_LO c.val) + 1) % 2 ^ 64 ∧
        RegsSameBut s t [Reg.CORE_TALLY_STALL_LO c.val, Reg.CORE_TALLY_STALL_LO c.val + 4, Reg.CORE_TALLY_FREEZE_MAX c.val,
          Reg.CORE_SEQ_SLIPS_LO c.val, Reg.CORE_SEQ_SLIPS_LO c.val + 4])) ∧
    ((k.pail sl.pail).writable e = false → limit ≠ 0 →
      Ends (exec (.freezeLimit c) s) (fun t => StoppedWith s t c.val 0x2103)) ∧
    ((k.pail sl.pail).writable e = false → exec (.freezeEnd c n) s = .next s)

/-- Slips issue one by one, and a STORE slip may freeze the core (R65, R221). -/
def Obligations.SlipsIssueAndFreeze : Prop := slipIssueIssuesOneSlip ∧ slipsReadPairAndEndGroups ∧ freezeEndsOrReachesItsLimit

/-- An ended operation completes: it leaves the window of incomplete instructions and is counted; with status 0 its value lands in gd
and 0 in gs; a status of kind Op lands in gs where the instruction names one, and a Scratchpad or ring fault is recorded in its fault
register even so, if that held none (R176, R527); any other failure stops the core at the instruction, where an exhausted TAKE still
lands its counter's value (R217–R219, R316). The instruction on which the Clerk waits is tried again, and goes on where it now passes.
-/
def Obligations.OperationsCompleteAndTheClerkGoesOn : Prop :=
  ∀ (s : State) (c : CoreId) (o : Op) (r : OpResult) (i : Instr),
    let k := s.core c.val
    let dropped := k.ops.filter (fun x => x.id != o.id)
    (k.ended? o.id = some (o, r) → (∀ h ∈ s.hubOps, ∀ n, h ≠ .spread c.val o.id n) →
      (∀ v, r.status = 0 → (o.gd ≠ 0 → r.value = some v) → o.gs ≠ o.gd ∨ o.gd = 0 →
        Ends (exec (.opCompletion c o.id) s) (fun t =>
          (∀ x, (t.core c.val).greg x = if x = 0 then 0 else if x = o.gd then v
            else if x = o.gs ∧ o.named = true then 0 else k.greg x) ∧
          t.core c.val = { k with ops := dropped, g := (t.core c.val).g } ∧ PassedAlone s t c.val)) ∧
      (r.status ≠ 0 → r.status / 256 ≠ 0x26 → o.named = true → o.gs ≠ 0 → o.gd = 0 → takeable o.cls r.status = true →
        Ends (exec (.opCompletion c o.id) s) (fun t =>
          (∀ x, (t.core c.val).greg x = if x = o.gs then BitVec.ofNat 64 r.status else k.greg x) ∧
          t.core c.val = { k with ops := dropped, g := (t.core c.val).g } ∧ PassedAlone s t c.val)) ∧
      (r.status / 256 = 0x26 → o.named = true → o.gs ≠ 0 → o.gd = 0 → takeable o.cls r.status = true → r.stop.code = r.status →
        let x := if r.status = 0x2608 then Reg.SPAD_RING_FAULT else Reg.SPAD_FAULT c.val
        Ends (exec (.opCompletion c o.id) s) (fun t =>
          (∀ x, (t.core c.val).greg x = if x = o.gs then BitVec.ofNat 64 r.status else k.greg x) ∧
          t.core c.val = { k with ops := dropped, g := (t.core c.val).g } ∧
          (s.field x 0 8 = 0 → t.field x 0 8 = if r.status = 0x2608 then 1 else r.status % 256) ∧
          (s.field x 0 8 ≠ 0 → t.reg x = s.reg x) ∧ PassedWith s t c.val [x, Reg.SPAD_FAULT_SLIP c.val])) ∧
      (r.status ≠ 0 → (o.named = false ∨ o.gs = 0 ∨ takeable o.cls r.status = false) → r.stop.code = r.status →
        r.stop.seq = 0 → k.running = true → k.stopped = false →
        ((r.status ≠ 0x3203 ∨ o.gd = 0) →
          Ends (exec (.opCompletion c o.id) s) (fun t => StoppedWith s t c.val r.status)) ∧
        (∀ v, r.status = 0x3203 → o.gd ≠ 0 → r.value = some v →
          Ends (exec (.opCompletion c o.id) s) (fun t => StoppedWith (s.putG c.val o.gd v) t c.val r.status)))) ∧
    (k.waiting = some i → k.running = true → k.stopped = false → (clerkOf i).map (·.core) = some c.val →
      (s.setCore c.val { k with waiting := none }).passes i = true → k.hasNext = true →
      (∀ (p : Pred) (f : FmtE), i = .pwait c p f → pwaitHolds (bits f.imm.toNat 6 2) (k.pail (f.imm.toNat % 64)) = true →
        Ends (exec (.clerkWaitEnd c) s) (fun t =>
          t.core c.val = { k with waiting := none, pc := k.pc + 1 } ∧ PassedAlone s t c.val)) ∧
      (∀ (p : Pred) (f : FmtR), i = .add c p f →
        Ends (exec (.clerkWaitEnd c) s) (fun t =>
          (∀ x, (t.core c.val).greg x = if x = f.gd.toNat ∧ x ≠ 0 then k.greg f.ga.toNat + k.greg f.gb.toNat else k.greg x) ∧
          t.core c.val = { k with waiting := none, g := (t.core c.val).g, pc := k.pc + 1 } ∧ PassedAlone s t c.val)))

/-- A PSIG turns an EMPTY or FILLING pail FULL where its producer is the Clerk or remote, and a FULL or DRAINING one EMPTY where its
consumer is; any other role is a failure with SPAD.PAIL_ROLE, counted in SPAD_PORT_DENIED, and the pail stays (R176, R301). A SCLOSE
closes its stream once every earlier Sequencer operation has completed (R309). -/
def Obligations.SignalsAndClosedStreamsAct : Prop :=
  ∀ (s : State) (c : CoreId) (i id : Nat) (rest : List (Nat × Nat)),
    let k := s.core c.val
    let p := s.pailCfg c.val i
    let st := (k.pail i).st
    let fills : Prop := st = .empty ∨ st = .filling
    let left := k.psigs.filter (fun e => e.2 != id)
    let done : Core := { k with psigs := left, ops := handedOver k.ops [id] ⟨0, none, Stop.of 0⟩ }
    (k.psigs = (i, id) :: rest →
      (p.valid = true → fills → (p.producer = 1 ∨ p.producer = 3) → Ends (exec (.psigAct c) s) (fun t =>
        t.core c.val = done.setPail i { k.pail i with st := .full, err := false, kept := 0 } ∧ OnlyCore s t c.val)) ∧
      (p.valid = true → ¬ fills → (p.consumer = 1 ∨ p.consumer = 3) → Ends (exec (.psigAct c) s) (fun t =>
        t.core c.val = done.setPail i { Pail.reset with epoch := (k.pail i).epoch } ∧ OnlyCore s t c.val)) ∧
      ((p.valid = false ∨ (fills ∧ p.producer ≠ 1 ∧ p.producer ≠ 3) ∨ (¬ fills ∧ p.consumer ≠ 1 ∧ p.consumer ≠ 3)) →
        Ends (exec (.psigAct c) s) (fun t => OnlyCoreAndRegs s t c.val ∧ CountedUp s t (Reg.SPAD_PORT_DENIED c.val) 1 ∧
          RegsSameBut s t [Reg.SPAD_PORT_DENIED c.val] ∧
          ∃ x, t.core c.val = { k with psigs := left, ops := handedOver k.ops [id] x } ∧ x.status = 0x2605))) ∧
    (k.scloses = (i, id) :: rest →
      ((∀ o ∈ k.seq, id < o.id) → Ends (exec (.scloseAct c) s) (fun t =>
        t.core c.val = { k with
          streams := k.streams.filter (fun e => e.2.1 != i)
          scloses := rest
          ops := handedOver k.ops [id] ⟨0, none, Stop.of 0⟩ } ∧
        (t.core c.val).streamOpen i = none ∧ OnlyCore s t c.val)) ∧
      ((∃ o ∈ k.seq, o.id ≤ id) → exec (.scloseAct c) s = .next s))

/-- What a power request for state `p` makes of a bank (R191, R193): during a transition the last request waits; leaving On waits
for the accesses under way; a bank in that state is at rest; any other begins its transition. -/
def bankAfter (b : Bank) (p : BankPow) : Bank :=
  if b.moving.isSome then { b with next := some p }
  else if b.pow = .on ∧ p ≠ .on then { b with closing := some p }
  else if b.pow = p then ⟨p, none, none, none⟩
  else ⟨b.pow, none, some p, none⟩

/-- Scratchpad banks change power and owner as asked (R175, R191, R193, R194): a write to SPAD_BANK_PWR_REQ keeps its value and
asks each bank for the state of its code, a request for Off of a bank of a resident region asking for Retain; a closing bank acts
once no accepted access is under way; the end of a transition reaches the state, forgets the words of a bank that goes to or
comes from Off, and starts a request that came meanwhile; a waiting owner write takes effect once no accepted access is under
way, and ring operations that waited for it go on. No byte of another bank changes. That a request for On ends a close that has not
acted is the model's inference (log entry 64). -/
def Obligations.BanksChangePowerAndOwner : Prop :=
  ∀ (s : State) (r : Requester) (c : CoreId) (v : Word) (b : BankId),
    let k := s.core c.val
    let mask := s.residentMask c.val
    Ends (exec (.bankPwrReqWrite r c v) s) (fun t =>
      t.reg (Reg.SPAD_BANK_PWR_REQ c.val) = v ∧ RegsSameBut s t [Reg.SPAD_BANK_PWR_REQ c.val] ∧
      (∀ i, i < 16 → (t.core c.val).bank i = match bits v.toNat (2 * i) 2 with
        | 0 => bankAfter (k.bank i) (if bitOf mask i then .retain else .off)
        | 1 => bankAfter (k.bank i) .retain
        | 2 => bankAfter (k.bank i) .on
        | _ => k.bank i) ∧
      t.core c.val = { k with banks := (t.core c.val).banks } ∧ OnlyCoreAndRegs s t c.val) ∧
    (∀ p, (k.bank b.val).closing = some p →
      (k.writesInFlight = false → Ends (exec (.bankClose c b) s) (fun t =>
        (t.core c.val).bank b.val =
          (if (k.bank b.val).pow = p then ⟨p, none, none, none⟩ else ⟨(k.bank b.val).pow, none, some p, none⟩) ∧
        (∀ i, i ≠ b.val → (t.core c.val).bank i = k.bank i) ∧
        t.core c.val = { k with banks := (t.core c.val).banks } ∧ OnlyCore s t c.val)) ∧
      (k.writesInFlight = true → exec (.bankClose c b) s = .next s)) ∧
    (∀ p, (k.bank b.val).moving = some p → Ends (exec (.bankTransitionEnd c b) s) (fun t =>
        (t.core c.val).bank b.val = (match (k.bank b.val).next with
          | none => ⟨p, none, none, none⟩
          | some q => bankAfter ⟨p, none, none, none⟩ q) ∧
        (∀ i, i ≠ b.val → (t.core c.val).bank i = k.bank i) ∧
        (∀ x, tabGet 0 (t.core c.val).mem x =
          if bankOf x = b.val ∧ (p = .off ∨ (k.bank b.val).pow = .off) then 0 else tabGet 0 k.mem x) ∧
        t.core c.val = { k with
          banks := (t.core c.val).banks
          mem := (t.core c.val).mem
          badParity := (t.core c.val).badParity } ∧ OnlyCore s t c.val)) ∧
    (∀ w, k.ownerReq = some w →
      (k.writesInFlight = false →
        exec (.bankOwnerAct c) s = .next (s.setCore c.val { k with owner := w, ownerReq := none }).ringsMoved ∧
        ((∀ h ∈ s.hubOps, h.postRing = none) → Ends (exec (.bankOwnerAct c) s) (fun t =>
          t.core c.val = { k with owner := w, ownerReq := none } ∧ OnlyCore s t c.val))) ∧
      (k.writesInFlight = true → exec (.bankOwnerAct c) s = .next s))

/-- A verified epoch commits once no operation of it is left in the Sequencer: its shadow tiles become OPEN with their tags,
flags and words, and it is FREE (R153, R231). A squashed one ends once no transfer of it is left: its pails become EMPTY with
epoch 0, its shadow tiles CLEAR with the tags they held before, and it is FREE (R153, R232). Nothing else changes. -/
def Obligations.EpochsCommitOrVanish : Prop :=
  ∀ (s : State) (c : CoreId) (e : BitVec 4),
    let k := s.core c.val
    let n := e.toNat
    let mine (l : Nat) : Prop := (k.tile l).st = .shadow ∧ (k.tile l).epoch = n
    (k.epoch n = .endingVerify → (∀ o ∈ k.seq, o.epoch ≠ n) → Ends (exec (.epochCommit c e) s) (fun t =>
      (∀ l, l < 8 → (mine l → (t.core c.val).tile l = { k.tile l with st := .opened, epoch := 0, before := none }) ∧
        (¬ mine l → (t.core c.val).tile l = k.tile l)) ∧
      (∀ x, (t.core c.val).epoch x = if x = n then .free else k.epoch x) ∧
      t.core c.val = { k with tiles := (t.core c.val).tiles, epochs := (t.core c.val).epochs } ∧ OnlyCore s t c.val)) ∧
    (k.epoch n = .endingSquash → (∀ x ∈ k.dma, x.epoch ≠ n) → Ends (exec (.epochFree c e) s) (fun t =>
      (∀ l, l < 8 → (mine l → (t.core c.val).tile l = match (k.tile l).before with
          | some p => { Tile.reset with tagged := true, tag := p }
          | none => Tile.reset) ∧
        (¬ mine l → (t.core c.val).tile l = k.tile l)) ∧
      (∀ i, i < 64 → (t.core c.val).pail i = if (k.pail i).epoch = n then Pail.reset else k.pail i) ∧
      (∀ x, (t.core c.val).epoch x = if x = n then .free else k.epoch x) ∧
      t.core c.val = { k with
        tiles := (t.core c.val).tiles
        pails := (t.core c.val).pails
        epochs := (t.core c.val).epochs } ∧ OnlyCore s t c.val)) ∧
    ((k.epoch n ≠ .endingVerify ∨ ∃ o ∈ k.seq, o.epoch = n) → exec (.epochCommit c e) s = .next s) ∧
    ((k.epoch n ≠ .endingSquash ∨ ∃ x ∈ k.dma, x.epoch = n) → exec (.epochFree c e) s = .next s)

/-- The DMA port may reach the byte at plain offset `a` of the core's own Scratchpad: it owns the byte's bank, which is On (R174, R192). -/
def dmaReaches (k : Core) (a : Nat) : Prop := a < 0x60000 ∧ k.ownerOf (bankOf a) = 2 ∧ (k.bank (bankOf a)).usable = true

/-- Transfer `x` is the only one of core `c`, has not started, and names no pail and no grant; no owner write waits. -/
def onlyTransfer (s : State) (c : CoreId) (x : Xfer) : Prop :=
  let k := s.core c.val
  k.dma = [x] ∧ x.started = false ∧ x.discard = false ∧ x.srcPail = none ∧ x.dstPail = none ∧ x.grant = none ∧
  k.ownerReq = none ∧ s.poolMode = false

/-- The byte at plain offset `a` of core `k` once the pairs (offset, byte) of `l` have been written in order. -/
def byteAfter (k : Core) (l : List (Nat × Byte)) (a : Nat) : Byte :=
  ((l.reverse.find? (fun e => e.1 == a)).map (·.2)).getD (tabGet 0 k.mem a)

/-- Transfer `x` of core `c` has moved from `s` to `t`: the pairs of `l` have been written to the core's own Scratchpad in order, with
good parity, no other byte has changed, and the transfer waits to complete. -/
def hasMoved (s t : State) (c : CoreId) (x : Xfer) (l : List (Nat × Byte)) : Prop :=
  let k := s.core c.val
  (∀ a, tabGet 0 (t.core c.val).mem a = byteAfter k l a) ∧
  t.core c.val = { k with
    mem := (t.core c.val).mem
    badParity := k.badParity.filter (fun a => !l.any (fun e => e.1 == a))
    packed := (t.core c.val).packed
    dma := [{ x with started := true, moved := true }] }

/-- A FILL of the core's own Scratchpad, where the DMA port reaches every byte, writes its value over and over, and a COPY inside it
writes the bytes as they stood before it began, whatever its extents share; no other byte changes (R174, R180, R286). A transfer whose
moving is over completes: it leaves the queue, its destination pail becomes FULL, and its status goes to the Clerk (R187, R219, R283).
That all bytes move as the transfer starts is the model's choice (log entry 45). -/
def Obligations.TransfersMoveAndComplete : Prop :=
  ∀ (s : State) (c : CoreId) (x : Xfer) (waited : Nat),
    let k := s.core c.val
    let base := 0xF00000000000 + c.val * 0x100000
    let o := x.dstAddr - base
    let i := x.srcAddr - base
    (onlyTransfer s c x → x.len % 8 = 0 → base ≤ x.dstAddr → (∀ n, n < x.len → dmaReaches k (o + n)) →
      (x.kind = .fill → Ends (exec (.transferStart c x.id waited) s) (fun t =>
        hasMoved s t c x ((List.range x.len).map (fun n => (o + n, (leBytes x.org.toNat 8).getD (n % 8) 0))) ∧
        (t.core c.val).packed = k.packed ∧ OnlyCore s t c.val)) ∧
      (x.kind = .copy → base ≤ x.srcAddr → (∀ n, n < x.len → dmaReaches k (i + n) ∧ i + n ∉ k.badParity) →
        Ends (exec (.transferStart c x.id waited) s) (fun t =>
          hasMoved s t c x ((List.range x.len).map (fun n => (o + n, tabGet 0 k.mem (i + n)))) ∧
          (t.core c.val).packed = k.packed ∧ OnlyCore s t c.val))) ∧
    (s.xfer c.val x.id = some x → x.started = true → x.moved = true → x.discard = false → x.nest = false → x.spanWait = [] →
      x.addWait = 0 →
      Ends (exec (.transferComplete c x.id) s) (fun t =>
        (∀ i, (t.core c.val).pail i =
          if x.dstPail = some i then { k.pail i with st := .full, err := x.status != 0, kept := x.status } else k.pail i) ∧
        t.core c.val = { k with
          pails := (t.core c.val).pails
          dma := k.dma.filter (fun y => y.id != x.id)
          ops := handedOver k.ops [x.id] (if x.status = 0 then ⟨0, none, Stop.of 0⟩ else ⟨x.stop.code, none, x.stop⟩) } ∧
        OnlyCore s t c.val)) ∧
    (s.xfer c.val x.id = some x → (x.started = false ∨ x.spanWait ≠ [] ∨ x.addWait ≠ 0) →
      exec (.transferComplete c x.id) s = .next s)

/-- Plain offset of an offset in the view that a side without a pail takes of a Scratchpad (R179, R525). -/
def sidePlain (diag : Bool) (o : Nat) : Nat := if diag then diagPlain o else o

/-- The plain offset in core `c`'s own Scratchpad of byte `a` of a descriptor's storage. -/
def ownPlain (s : State) (c : CoreId) (d : Desc) (a : Nat) : Nat :=
  sidePlain d.diag (a - (s.nodeId * 2 ^ 48 + 0xF00000000000 + c.val * 0x100000))

/-- The `n` bytes at `a` of a descriptor's storage in core `c`'s own Scratchpad. -/
def ownBytes (s : State) (c : CoreId) (d : Desc) (a n : Nat) : List Byte :=
  (List.range n).map (fun i => tabGet 0 (s.core c.val).mem (ownPlain s c d (a + i)))

/-- `bs` as pairs of plain offset and byte, from `a` of a descriptor's storage on. -/
def ownPairs (s : State) (c : CoreId) (d : Desc) (a : Nat) (bs : List Byte) : List (Nat × Byte) :=
  bs.zipIdx.map (fun e => (ownPlain s c d (a + e.2), e.1))

/-- The DMA port reaches the `n` bytes at `a` of a descriptor's storage, which lies in core `c`'s own Scratchpad; a diagonal one needs
every bank (R174, R179). -/
def ownReach (s : State) (c : CoreId) (d : Desc) (a n : Nat) : Prop :=
  s.nodeId * 2 ^ 48 + 0xF00000000000 + c.val * 0x100000 ≤ a ∧ (∀ i, i < n → dmaReaches (s.core c.val) (ownPlain s c d (a + i))) ∧
  (d.diag = true → ∀ b, b < 16 → (s.core c.val).ownerOf b = 2)

/-- As `ownReach`, and every byte has good parity. -/
def ownGood (s : State) (c : CoreId) (d : Desc) (a n : Nat) : Prop :=
  ownReach s c d a n ∧ ∀ i, i < n → ownPlain s c d (a + i) ∉ (s.core c.val).badParity

/-- The boxes of a transfer (R262, R265): one, or one for each entry of its list, which lies in core `c`'s own Scratchpad. -/
def listedBoxes (s : State) (c : CoreId) (x : Xfer) : List Box :=
  let at_ := x.L.listAddr
  if x.listed = false then [x.wholeBox]
  else if x.form then
    (List.range x.cnt.toNat).map (fun i => x.rowBox i (leNat (ownBytes s c x.L (at_ + 4 * i) 4) % 2 ^ 31))
  else (List.range (leNat (ownBytes s c x.L at_ 4))).map (fun i => x.tileBox (BclEntry.of (leNat (ownBytes s c x.L (at_ + 8 + 8 * i) 8))))

/-- A tensor transfer of core `c` that meets no fault as it starts, and whose list, if it has one, the core reads from its own
Scratchpad. -/
def tensorStarts (s : State) (c : CoreId) (x : Xfer) : Prop :=
  let at_ := x.L.listAddr
  let len := if x.form then 4 * x.cnt.toNat else 8 + 8 * leNat (ownBytes s c x.L at_ 4)
  onlyTransfer s c x ∧ x.tensor = true ∧ x.nest = false ∧ s.isLocal x.S = true ∧ s.isLocal x.D = true ∧
  x.S.spadCore = some c.val ∧ x.D.spadCore = some c.val ∧ x.S.placed false = false ∧ x.D.placed true = false ∧
  x.formFault c.val = none ∧ s.startFault x = none ∧ x.noop = false ∧
  (x.listed = true → s.isLocal x.L = true ∧ ownGood s c x.L at_ len ∧ s.leavesRegion x.L.listAddr at_ len = false ∧
    s.overlaps c.val x (listedBoxes s c x) = false)

/-- The registers that a tensor transfer counts in: synthesised reads, dropped writes, and the positions that a bound value drops
(R250, R252, R253). -/
def tensorCounts (s t : State) (c : CoreId) (x : Xfer) (fills oob : Nat) : Prop :=
  let l := [Reg.CORE_DESC_FILL_READS_LO c.val, Reg.CORE_DESC_OOB_WRITES_LO c.val, Reg.CORE_DESC_DROPPED_LO c.val]
  t.reg64 (Reg.CORE_DESC_FILL_READS_LO c.val) = (s.reg64 (Reg.CORE_DESC_FILL_READS_LO c.val) + fills) % 2 ^ 64 ∧
  t.reg64 (Reg.CORE_DESC_OOB_WRITES_LO c.val) = (s.reg64 (Reg.CORE_DESC_OOB_WRITES_LO c.val) + oob) % 2 ^ 64 ∧
  t.reg64 (Reg.CORE_DESC_DROPPED_LO c.val) = (s.reg64 (Reg.CORE_DESC_DROPPED_LO c.val) +
    (x.src.shape.dropped + x.dst.shape.dropped + (if x.listed then x.list.shape.dropped else 0))) % 2 ^ 64 ∧
  RegsSameBut s t (l ++ l.map (· + 4))

/-- A tensor transfer of ROW descriptors in the core's own Scratchpad, by any of MOVE, GATHER, SCATTER, XPOSE and PERMUTE, moves element
by element: for each position of each box, in list order, dimension 0 fastest, the destination position takes the source position's
bytes, or the source's fill outside its owned extent; a padding position takes the destination's fill, and a write outside the owned
extent is dropped (R250, R252, R262, R265, R267). -/
def rowTransfersMoveElements : Prop :=
  ∀ (s : State) (c : CoreId) (x : Xfer) (waited : Nat),
    let S := x.S
    let D := x.D
    let moves := (listedBoxes s c x).flatMap (fun b => (nested b.n).map (fun q => (posAdd b.sp (unpermute x.perm q), posAdd b.dp q)))
    let landed := moves.filter (fun m => D.inOwned m.2)
    let value (m : List Nat × List Nat) : List Byte :=
      if x.dst.shape.inside m.2 = false then D.fillElem
      else if S.inOwned m.1 then ownBytes s c S (S.posAddr m.1) S.elem
      else S.fillElem
    tensorStarts s c x → S.pit = false →
    (∀ m ∈ moves, S.inOwned m.1 = true → ownGood s c S (S.posAddr m.1) S.elem) →
    (∀ m ∈ landed, ownReach s c D (D.posAddr m.2) D.elem) →
    Ends (exec (.transferStart c x.id waited) s) (fun t =>
      hasMoved s t c x (landed.flatMap (fun m => ownPairs s c D (D.posAddr m.2) (value m))) ∧
      (t.core c.val).packed = (s.core c.val).packed ∧
      tensorCounts s t c x (moves.countP (fun m => !S.inOwned m.1)) (moves.countP (fun m => !D.inOwned m.2)) ∧
      OnlyCoreAndRegs s t c.val)

/-- A MOVE, GATHER or SCATTER between dense PIT descriptors in the core's own Scratchpad, with groups of at most 64 elements along
dimension 0 and no padding where it writes, moves row by row: each plane's 64 bits of each row, or the planes of the source's fill
outside its owned extent, and each record with its scale, zero, planes_m1 and tag, its code_sum formed anew from the codes that the
destination holds (R250–R252, R262–R265). -/
def curdTransfersMoveRows : Prop :=
  ∀ (s : State) (c : CoreId) (x : Xfer) (waited : Nat),
    let S := x.S
    let D := x.D
    let k := s.core c.val
    let rows := D.tileRows
    let jobs := (listedBoxes s c x).flatMap x.boxTiles
    let known (j : TileJob) : Bool := S.inOwned (S.jobPos j.snb j.skb j.sr j.so)
    let kept := jobs.filter (fun j => D.inOwned (D.jobPos j.dnb j.dkb j.dr j.do_))
    let from_ (j : TileJob) (p i : Nat) : Nat := S.tileAddr j.snb j.skb (S.lin (0 :: 0 :: j.so)) + rows * 8 * p + 8 * (j.sr + i)
    let to_ (j : TileJob) (p i : Nat) : Nat := D.tileAddr j.dnb j.dkb (D.lin (0 :: 0 :: j.do_)) + rows * 8 * p + 8 * (j.dr + i)
    let curd := kept.flatMap (fun j => (List.range D.keptPlanes).flatMap (fun p => (List.range j.h).flatMap (fun i =>
      ownPairs s c D (to_ j p i) (if known j then ownBytes s c S (from_ j p i) 8
        else List.replicate 8 (if p + 1 = S.planes ∧ S.fillCode = 1 then 0xFF else 0)))))
    let codes (j : TileJob) (i : Nat) : Nat → Nat := planeCode ((List.range D.keptPlanes).map (fun p =>
      leNat ((List.range 8).map (fun n => byteAfter k curd (ownPlain s c D (to_ j p i + n))))))
    let recFrom (j : TileJob) (i r : Nat) : Nat :=
      S.wheyAddr (rows * j.snb + j.sr + i) (S.group (64 * j.skb) + r) (S.lin (0 :: 0 :: j.so))
    let recTo (j : TileJob) (i r : Nat) : Nat :=
      D.wheyAddr (rows * j.dnb + j.dr + i) (D.group (64 * j.dkb) + r) (D.lin (0 :: 0 :: j.do_))
    let record (j : TileJob) (i r : Nat) : Whey :=
      let w := if known j then Whey.ofNat (leNat (ownBytes s c S (recFrom j i r) 8))
        else S.fillRecord (rows * j.snb + j.sr + i) (S.group (64 * j.skb) + r)
      { w with codeSum := ((List.range D.g).map (fun e => codes j i (r * D.g + e) * 2 ^ (D.planes - D.keptPlanes))).sum }
    let whey := kept.flatMap (fun j => (List.range j.h).flatMap (fun i => (List.range (64 / D.g)).flatMap (fun r =>
      ownPairs s c D (recTo j i r) (leBytes (record j i r).toNat 8))))
    let blocks := (List.range x.cnt.toNat).map (fun i => leNat (ownBytes s c x.L (x.L.listAddr + 4 * i) 4) % 2 ^ 31)
    tensorStarts s c x → S.pit = true → S.dense = true → S.across = false → D.across = false → D.g ≤ 64 →
    (∀ j ∈ jobs, j.sr + j.h ≤ rows ∧ j.dr + j.h ≤ rows) →
    (∀ j ∈ kept, ∀ i, i < j.h → ∀ e, e < 64 → x.dst.shape.inside ((64 * j.dkb + e) :: (rows * j.dnb + j.dr + i) :: j.do_) = true) →
    (∀ j ∈ kept, known j = true → ∀ i, i < j.h →
      (∀ p, p < S.keptPlanes → ownGood s c S (from_ j p i) 8) ∧ (∀ r, r < 64 / D.g → ownGood s c S (recFrom j i r) 8)) →
    (∀ j ∈ kept, ∀ i, i < j.h →
      (∀ p, p < D.keptPlanes → ownReach s c D (to_ j p i) 8) ∧ (∀ r, r < 64 / D.g → ownReach s c D (recTo j i r) 8)) →
    (∀ e ∈ curd, ∀ f ∈ whey, e.1 ≠ f.1) →
    Ends (exec (.transferStart c x.id waited) s) (fun t =>
      hasMoved s t c x (curd ++ whey) ∧
      (t.core c.val).packed = k.packed.filter (fun e => e.1 != D.wheyBase.toNat) ++
        (if x.kind = .gather ∧ x.form ∧ D.pitW then [(D.wheyBase.toNat, blocks)] else []) ∧
      tensorCounts s t c x (jobs.countP (fun j => !known j))
        ((jobs.filter (fun j => !D.inOwned (D.jobPos j.dnb j.dkb j.dr j.do_))).map (fun j => 64 * j.h)).sum ∧
      OnlyCoreAndRegs s t c.val)

/-- What MOVE, GATHER, SCATTER, XPOSE and PERMUTE move inside a core's own Scratchpad (R250–R252, R262–R267). That all bytes move as
the transfer starts is the model's choice (log entry 45). -/
def Obligations.TensorTransfersMoveTheirElements : Prop := rowTransfersMoveElements ∧ curdTransfersMoveRows

/-- The oldest P64 add of a core reaches its tile: an OPEN tile, or a tagged CLEAR one that becomes OPEN, takes hi and then lo as
two terms (R81, R90); any other tile drops it and counts the drop (R81, R83, R152). While a store that has begun holds the
tile of the oldest add, none reaches its tile (R86). -/
def Obligations.P64AddsReachTheirTile : Prop :=
  ∀ (s : State) (c : CoreId) (tile word : Nat) (v : Dword) (rest : List LedgAdd),
    let k := s.core c.val
    let t0 := k.tile tile
    let opened := if t0.st = .clear then { t0 with st := .opened, rows := [], words := [] } else t0
    let hi := opened.addF32 word (v.extractLsb' 0 32)
    let lo := hi.1.addF32 word (v.extractLsb' 32 32)
    let n := hi.2.add lo.2
    (k.adds.head?.any k.addHeld = true → exec (.p64Add c) s = .next s) ∧
    (k.adds = ⟨.host, tile, word, v⟩ :: rest → k.addHeld ⟨.host, tile, word, v⟩ = false →
    s.span.served.all (fun v => v.left != 0) = true → s.span.winWait = [] → s.sched.st ≠ .ending →
    (∀ d, ∀ x ∈ (s.core d).dma, x.addHold = []) →
    ((t0.st = .opened ∨ (t0.st = .clear ∧ t0.tagged = true)) →
      Ends (exec (.p64Add c) s) (fun t =>
        t.core c.val = ({ k with adds := rest }).setTile tile lo.1 ∧ OnlyCoreAndRegs s t c.val ∧
        t.reg64 (Reg.LEDG_REMOTE_ADDS_LO c.val) = (s.reg64 (Reg.LEDG_REMOTE_ADDS_LO c.val) + 1) % 2 ^ 64 ∧
        t.reg64 (Reg.LEDG_SUB_TERMS_LO c.val) = (s.reg64 (Reg.LEDG_SUB_TERMS_LO c.val) + n.sub) % 2 ^ 64 ∧
        CountedUp s t (Reg.LEDG_SAT_ADDS c.val) n.sat ∧ CountedUp s t (Reg.LEDG_SCALE_RANGE_TERMS c.val) n.range ∧
        RegsSameBut s t [Reg.LEDG_REMOTE_ADDS_LO c.val, Reg.LEDG_REMOTE_ADDS_LO c.val + 4, Reg.LEDG_SUB_TERMS_LO c.val,
          Reg.LEDG_SUB_TERMS_LO c.val + 4, Reg.LEDG_SAT_ADDS c.val, Reg.LEDG_SCALE_RANGE_TERMS c.val])) ∧
    ((t0.st = .invalid ∨ t0.st = .shadow ∨ (t0.st = .clear ∧ t0.tagged = false)) →
      Ends (exec (.p64Add c) s) (fun t =>
        t.core c.val = { k with adds := rest } ∧ OnlyCoreAndRegs s t c.val ∧
        CountedUp s t (Reg.LEDG_REMOTE_DROP c.val) 1 ∧ RegsSameBut s t [Reg.LEDG_REMOTE_DROP c.val])))

/-- A tile that after its clear receives at most 2^40 terms per word, each a multiple of 2^pt below 2^(pt + 151) in magnitude,
holds in every word the exact sum of its terms; SAT and SUB stay clear, and the words do not depend on the order in which the
terms arrived (R77). -/
def Obligations.LedgerWordsAreExactSums : Prop :=
  ∀ (t : Tile) (terms : List (Nat × Int × Int × Bool)) (v : Int → Int → Int),
    t.st = .opened → t.words = [] → t.sat = false → t.sub = false →
    (∀ e ∈ terms, (e.2.1 : Rat) * (2 : Rat) ^ e.2.2.1 = (v e.2.1 e.2.2.1 : Rat) * (2 : Rat) ^ t.tag.pt.toInt ∧
      |v e.2.1 e.2.2.1| < 2 ^ 151) →
    (∀ i, (terms.filter (fun e => e.1 == i)).length ≤ 2 ^ 40) →
    let sum (l : List (Nat × Int × Int × Bool)) : Tile := l.foldl (fun t e => (t.addTerm e.1 e.2.1 e.2.2.1 e.2.2.2).1) t
    (∀ i, (sum terms).word i = ((terms.filter (fun e => e.1 == i)).map (fun e => v e.2.1 e.2.2.1)).sum) ∧
    (sum terms).sat = false ∧ (sum terms).sub = false ∧
    (∀ other : List (Nat × Int × Int × Bool), other.Perm terms → (sum other).words = (sum terms).words)

/-! Products and codes. -/

/-- The value of a held element of an operand under its record `r`, where `x` is the code's contribution at stored weight: s·(2c − 1) in
B1, else s·(c − z), a view's code against the middle of the planes that it drops (R20, R22, R25, R37). -/
def heldValue (o : Operand) (r : Whey) (x : Nat) : Rat :=
  if o.d.fmt = 0 then u16Val r.scale * (2 * (x : Rat) - 1)
  else u16Val r.scale * ((x : Rat) - (z16Val o.d.fmt r.zero - ((2 ^ o.drop - 1 : Nat) : Rat) / 2))

/-- The group term of a lane is the exact sum of the products of the values that both rows hold, at its least bit's weight; a lane emits
none exactly where that sum is zero (R24, R37, R55–R58). The weight's code_sum stands for the counted sum where R56 lets it; it is taken
to be that sum (R27). -/
def groupTermsAreExactProducts : Prop :=
  ∀ (p : Product) (w a : RowData) (rw ra : Whey),
    let held := (w.vals.zip a.vals).filterMap (fun e => match e with
      | (some x, some y) => some (x, y)
      | _ => none)
    let z := laneSums w.vals a.vals
    let sum : Rat := (held.map (fun e => heldValue p.w rw e.1 * heldValue p.a ra e.2)).sum
    w.whey = some rw → a.whey = some ra →
    (p.gt = p.w.d.g → held.length = p.gt → p.w.d.view = p.w.d.fmt → rw.codeSum = (held.map (·.1)).sum) →
    (∀ n x, p.term w a z z.p = some (n, x) → (n : Rat) * pow2 x = sum ∧ sum ≠ 0) ∧
    (p.term w a z z.p = none → sum = 0)

/-- A code of R40 is the value's nearest, or under a draw one of the two around it, held to the code range with sat; each code's own value
makes that code under every draw; a zero scale writes 0; B1 stores the sign (R24, R40). -/
def codesAreMadeFromValues : Prop :=
  ∀ (f : Nat) (scale zero : Half) (draw : Option Nat) (v : Rat),
    let s := u16Val scale
    let step := if f = 0 then 2 * s else s
    let val (c : Nat) : Rat := codeVal f s (z16Val f zero) c
    let top := 2 ^ (f + 1) - 1
    let made := codeOf f scale zero draw v
    (u16Exp scale = 0 → made = (0, false)) ∧
    (u16Exp scale ≠ 0 →
      made.1 ≤ top ∧
      (made.2 = false → ratAbs (val made.1 - v) < step) ∧
      (made.2 = false → draw = none → ratAbs (val made.1 - v) ≤ step / 2) ∧
      (made.2 = true → (made.1 = 0 ∧ v < val 0) ∨ (made.1 = top ∧ val top < v)) ∧
      (∀ c, c ≤ top → codeOf f scale zero draw (val c) = (c, false)) ∧
      (f = 0 → draw = none → made.1 = if v < 0 then 0 else 1))

/-- DYNAMIC's scale and zero over a range that holds zero saturate no Qn code of it, under any rounding, unless the scale was held at
0xFEFF; a range of zero takes a zero scale (R105). -/
def dynamicScalesHoldTheirRange : Prop :=
  ∀ (f : Nat) (lo hi mean v : Rat) (draw : Option Nat), fmtStored f = true → lo ≤ 0 → 0 ≤ hi →
    (lo = hi → dynamicScale f lo hi mean = (0, 0)) ∧
    (f ≠ 0 → lo < hi → lo ≤ v → v ≤ hi → (dynamicScale f lo hi mean).1 ≠ 0xFEFF →
      u16Exp (dynamicScale f lo hi mean).1 ≠ 0 ∧
      (codeOf f (dynamicScale f lo hi mean).1 (dynamicScale f lo hi mean).2 draw v).2 = false)

/-- What a store makes of a group and of a tile: under NEAREST and DYNAMIC, with every element in bounds, a stored Qn format and a scale
that is not held, no element saturates and none retries, and each code's value lies within half a scale of its element; the record of a
group whose elements dense tiles hold reads back with its scale, zero, format and tag and the sum of its codes; the codes of a dense tile
read back from its bit planes (R26–R28, R32, R33, R105, R106). -/
def storedGroupsAndTiles : Prop :=
  ∀ (t : StoreOp) (row j : Nat) (vs : List Rat) (bl : BclList) (m : Mv) (g : Made) (ts : List MadeTile) (x : MadeTile),
    let d := t.D
    let made := t.makeGroup none row j (vs.map some)
    let first := (d.groupSpan g.grp).1
    let a := d.wheyAddr g.row g.grp t.o
    (t.w.dynamic = true → fmtStored d.fmt = true → d.fmt ≠ 0 → made.scale ≠ 0xFEFF →
      made.sat = 0 ∧ made.retried = false ∧ made.codes.length = vs.length ∧
      ∀ i, i < vs.length → (u16Exp made.scale ≠ 0 →
        ratAbs (codeVal d.fmt (u16Val made.scale) (z16Val d.fmt made.zero) (made.codes.getD i 0) - vs.getD i 0) ≤ u16Val made.scale / 2) ∧
        (u16Exp made.scale = 0 → made.codes.getD i 0 = 0 ∧ vs.getD i 0 = 0)) ∧
    (d.bcl = false → d.fmt < 16 → g.codes.sum < 2 ^ 22 →
      (∀ i, i < g.codes.length → ∃ w ∈ ts.find? (fun w => w.nb == g.row / d.tileRows && w.kb == (first + i) / 64),
        (w.rows.getD (g.row % d.tileRows) default).held = allHeld) →
      Whey.ofNat (leNat (bytesGet 0 (t.putRecord bl ts m g).out a 8)) = ⟨g.scale, g.zero, g.codes.sum, d.fmt, d.tagOf g.row g.grp⟩ ∧
      ∀ b, b < a ∨ a + 8 ≤ b → tabFind (t.putRecord bl ts m g).out b = tabFind m.out b) ∧
    (d.dense = true → x.rows.length = d.tileRows → (∀ r ∈ x.rows, r.codes.length = 64 ∧ ∀ c ∈ r.codes, c < 2 ^ d.planes) →
      tileCodes (bytesGet 0 (t.putTile bl m x).out (d.tileAddr x.nb x.kb t.o) d.denseTile) d.tileRows d.planes = x.rows.map (·.codes) ∧
      ∀ b, b < d.tileAddr x.nb x.kb t.o ∨ d.tileAddr x.nb x.kb t.o + d.denseTile ≤ b →
        tabFind (t.putTile bl m x).out b = tabFind m.out b)

/-- Group terms, codes, scales, records and tiles (R20, R22, R24, R37, R40, R55–R58, R105, R106). -/
def Obligations.TermsAndCodesFollowTheirValues : Prop :=
  groupTermsAreExactProducts ∧ codesAreMadeFromValues ∧ dynamicScalesHoldTheirRange ∧ storedGroupsAndTiles

/-! SINT and ingest. -/

/-- MERGE gives the union of two rising key streams, each key once and in order; MATCH one record for each pair of places that hold the
same key, in key order (R141, R142). -/
def keysMatchAndMerge : Prop :=
  ∀ (a b : List Nat), rising a = true → rising b = true →
    let u := mergeKeys (a.length + b.length + 1) a b
    (u.Pairwise (· < ·) ∧ ∀ k, k ∈ u ↔ k ∈ a ∨ k ∈ b) ∧
    ∃ ps : List (Nat × Nat), matchKeys a b = ps.map (fun p => leBytes p.1 4 ++ leBytes p.2 4) ∧
      (ps.map (fun p => a.getD p.1 0)).Pairwise (· < ·) ∧
      ∀ i j, (i, j) ∈ ps ↔ i < a.length ∧ j < b.length ∧ a.getD i 0 = b.getD j 0

/-- SELECT lists every block under OFF, the active ones under LOSSY, and under AUDIT the inactive ones beside whose draw lies below
2^(24 − a), with bit 31; blocks ascend, and each is counted active or inactive (R146–R148). A score counts as active where it is a NaN or
reaches the threshold, zeros being equal (R146). -/
def selectListsBlocks : Prop :=
  (∀ (mode a : Nat) (dr : Nat → Nat) (bs : List Bool), mode < 3 → bs.length ≤ 2 ^ 31 →
    let z := selectBlocks mode a dr bs
    let on (k : Nat) : Prop := bs.getD k false = true
    let sampled (k : Nat) : Prop := mode = 2 ∧ k < bs.length ∧ ¬ on k ∧ dr k < 2 ^ (24 - a)
    (z.entries.map (· % 2 ^ 31)).Pairwise (· < ·) ∧
    (∀ k, k < 2 ^ 31 → (k ∈ z.entries ↔ k < bs.length ∧ (on k ∨ mode = 0)) ∧ (k + 2 ^ 31 ∈ z.entries ↔ sampled k)) ∧
    (∀ e ∈ z.entries, e < 2 ^ 32) ∧ (∀ k, k ∈ z.sampled ↔ sampled k) ∧
    z.active = bs.count true ∧ z.inactive = bs.count false) ∧
  (∀ w h : Word, (f32Val w = .nan → scoreActive w h = true) ∧ scoreActive w w = true ∧
    (∀ p q, f32Val w = .fin p → f32Val h = .fin q → scoreActive w h = decide (q ≤ p)) ∧
    (f32Val w = .inf false → f32Val h ≠ .nan → scoreActive w h = true))

/-- MATCH, MERGE and SELECT write what they make, up to their destination's capacity, and hand the number made to the operation's
register; what does not fit is counted, or under FAULT stops the core after what fits has been written (R142, R143). SELECT counts its
blocks and keeps those sampled with the activity threshold (R149). -/
def sintWritesItsOutputs : Prop :=
  ∀ (s : State) (c : CoreId) (o : SeqOp) (fn : Nat) (f : FmtN) (z : SintOut) (reads pails : List Nat) (out : Tab Byte),
    let k := s.core c.val
    let x := s.dp c.val o
    let d := o.descs.getLastD ⟨0, 0, 0⟩
    let extra := z.list.length - (Desc.of d.bits).owned 0
    let counts := [Reg.CORE_STRAIN_PRED_ACTIVE c.val, Reg.CORE_STRAIN_PRED_INACTIVE c.val, Reg.CORE_STRAIN_PRED_SAMPLED c.val,
      Reg.CORE_DESC_DROPPED_LO c.val, Reg.CORE_DESC_DROPPED_LO c.val + 4]
    let written := (k.readPails reads).writeOut x.epoch out pails
    k.running = true → k.stopped = false → k.ownerReq = none → k.freeze = none → k.seq = [o] → o.kind = .sint fn f → fn ≠ 2 →
    o.plan = some ⟨[plainPart 0]⟩ → o.writes = [] → (x.sint fn o.descs).run [] = .ok (z, reads) → x.outputs d z.list = .ok out →
    x.checkOut out = .ok pails →
    ((Desc.of d.bits).cap = false ∨ extra = 0 → Ends (exec (.slipIssue c) s) (fun t =>
      t.core c.val = { written with
        seq := []
        ops := handedOver k.ops [o.id] ⟨0, some (BitVec.ofNat 64 z.list.length), Stop.of 0⟩
        sampledBlocks := (z.sel.map (·.sampled)).getD k.sampledBlocks
        sampledAct := if z.sel = none then k.sampledAct else s.reg (Reg.CORE_STRAIN_PRED_ACT c.val) } ∧
      OnlyCoreAndRegs s t c.val ∧ RegsSameBut s t counts ∧
      t.reg64 (Reg.CORE_DESC_DROPPED_LO c.val) = (s.reg64 (Reg.CORE_DESC_DROPPED_LO c.val) + extra) % 2 ^ 64 ∧
      ∀ y, z.sel = some y → CountedUp s t (Reg.CORE_STRAIN_PRED_ACTIVE c.val) y.active ∧
        CountedUp s t (Reg.CORE_STRAIN_PRED_INACTIVE c.val) y.inactive ∧
        CountedUp s t (Reg.CORE_STRAIN_PRED_SAMPLED c.val) y.sampled.length)) ∧
    ((Desc.of d.bits).cap = true → 0 < extra → s.sched.st = .running → s.sched.failing = false → Ends (exec (.slipIssue c) s) (fun t =>
      (t.core c.val).stopped = true ∧ (t.core c.val).mem = written.mem ∧ (t.core c.val).g = k.g ∧
      t.sched.failing = true ∧ t.sched.primary.map (·.status) = some 0x3104))

/-- A host value that enters a ledger word (R44): a finite one is added exactly, its bits below the point truncated toward minus infinity
with SUB, a sum out of range held with SAT; an infinity sets the word to the saturated one of its sign with SAT, and a NaN sets SAT alone.
TINGEST adds each of its values so, in order, to its tile, which it opens where it is CLEAR (R81, R298). -/
def ingestAddsExactValues : Prop :=
  (∀ (t : Tile) (i : Nat) (w : Word),
    let u := (t.addF32 i w).1
    let old := (tabGet 0 t.words i).toInt
    (∀ q, f32Val w = .fin q →
      let v := (q / pow2 t.tag.point).floor
      (tabGet 0 u.words i).toInt = max wordMin (min wordMax (old + v)) ∧
      u = { t with
        words := u.words
        sat := t.sat || decide (wordMax < old + v) || decide (old + v < wordMin)
        sub := t.sub || decide (q / pow2 t.tag.point ≠ (v : Rat)) }) ∧
    (∀ neg, f32Val w = .inf neg → (tabGet 0 u.words i).toInt = (if neg then wordMin else wordMax) ∧ u = { t with words := u.words, sat := true }) ∧
    (f32Val w = .nan → u = { t with sat := true }) ∧
    ∀ n, n ≠ i → tabGet 0 u.words n = tabGet 0 t.words n) ∧
  (∀ (s : State) (c : CoreId) (o : SeqOp) (f : FmtS) (e : Nat × Word) (vs : List (Nat × Word)) (reads : List Nat),
    let k := s.core c.val
    let l := f.tile.toNat
    let first := if (k.tile l).st = .clear then (k.tile l).openWith (o.prec.getD (k.tile l).tag) else k.tile l
    k.running = true → k.stopped = false → k.ownerReq = none → k.freeze = none → k.seq = [o] → o.kind = .tingest f →
    o.plan = some ⟨[plainPart 0]⟩ → o.writes = [] → ((k.tile l).st = .opened ∨ ((k.tile l).st = .clear ∧ o.prec ≠ none)) →
    (o.ingestRead (s.dp c.val o)).run [] = .ok (e :: vs, reads) →
    Ends (exec (.slipIssue c) s) (fun t =>
      (t.core c.val).tile l = (e :: vs).foldl (fun y e => (y.addF32 e.1 e.2).1) first ∧
      (∀ n, n ≠ l → (t.core c.val).tile n = k.tile n) ∧
      t.core c.val = { k.readPails reads with
        tiles := (t.core c.val).tiles
        seq := []
        ops := handedOver k.ops [o.id] ⟨0, none, Stop.of 0⟩ } ∧
      OnlyCoreAndRegs s t c.val ∧
      RegsSameBut s t [Reg.LEDG_SUB_TERMS_LO c.val, Reg.LEDG_SUB_TERMS_LO c.val + 4, Reg.LEDG_SAT_ADDS c.val,
        Reg.LEDG_SCALE_RANGE_TERMS c.val]))

/-- SINT and TINGEST (R44, R141–R143, R146–R149, R298). -/
def Obligations.SintAndIngestFollowTheirRules : Prop :=
  keysMatchAndMerge ∧ selectListsBlocks ∧ sintWritesItsOutputs ∧ ingestAddsExactValues

/-- The completion of a submission entry, with some time since its start. -/
def completes (s t : State) (e : SubEntry) (status detail seq : Nat) : Prop :=
  ∃ elapsed full, t.hosts.cplWait = s.hosts.cplWait ++
    [⟨e.ring + 512, cplBytes e.tag status 0 e.op detail e.ring e.subHead elapsed seq 0 0 0, full⟩]

/-- The idle scheduler takes the first entry of the first non-empty ring. A task that is valid is loaded: the task's header,
mask, seed, argument, timeout, class and regions stand, each running core holds its program, g1 its core ID, g2 the argument and
zero in every other g-register, p1–p7 are 0, no precision is in force, every tile is CLEAR and untagged, every epoch FREE and
every pail EMPTY (R211, R212); a running core's pail table and bank owners are those of its tables, any other core's pail table is
empty and its owners stay; every core's banks are asked to be On where its resident mask names them or they hold a region or a pail of
the task, and else Off (R194). A task that is refused changes no core, and its completion carries the status (R209). -/
def Obligations.TaskIsTakenLoadedOrRefused : Prop :=
  ∀ (s : State) (ring : Nat) (l : Loader),
    let e := s.subOf ring (s.subRaw ring)
    let u := ((s.subTake ring).setRegN Reg.CORE_SCHED_FAULT 0).setReg64 Reg.CORE_SCHED_HEADER_LO e.addr
    let u := { u with sched := { u.sched with firstRec := 0 } }
    let cls := BitVec.ofNat 64 (u.reg64 (ringReg ring 6))
    s.taskRing = some ring → u.taskBar = none →
    (∀ z : TaskLoad, (Ld.task e.addr cls).run ⟨u, 0⟩ = .ok (z, l) →
      Ends (exec .taskTake s) (fun t =>
        t.sched.st = .loading ∧ t.sched.header = e.addr ∧ t.sched.entry = e ∧ t.sched.mask = z.h.mask ∧ t.sched.seed = z.h.seed ∧
        t.sched.argument = z.h.argument ∧ t.sched.timeout = z.h.timeout ∧ t.sched.cls = z.cls ∧ t.sched.regions = z.regions ∧
        t.sched.failing = false ∧ t.sched.primary = none ∧
        (∀ c, c < 64 →
          let k := t.core c
          (∀ i, k.tile i = Tile.reset) ∧ (∀ i, k.pail i = Pail.reset) ∧ (∀ i, k.epoch i = .free) ∧ k.streams = [] ∧
          k.precPass = none ∧ k.precHead = none ∧ k.running = false ∧ (∀ i, i ≠ 0 → k.pred i = false) ∧
          let own := z.cores.find? (fun y => y.e.core == c)
          let pails : List PailCfg := (own.map (·.pails)).getD []
          k.owner = ((own.map (·.e.owner)).getD (s.core c).owner) ∧
          (∀ i, i < 64 → t.reg (Reg.SPAD_PAIL_CFG c i) = BitVec.ofNat 32 (((own.map (·.pailWords)).getD []).getD i 0)) ∧
          (∀ b, b < 16 → k.bank b = bankAfter ((s.core c).bank b)
            (if bitOf (s.residentMask c) b ∨ bitOf (taskBanks c z.regions pails) b then .on else .off)) ∧
          (∀ x, z.cores.find? (fun y => y.e.core == c) = some x →
            k.pc = 0 ∧ k.progLen = x.e.progLen ∧ k.greg 1 = BitVec.ofNat 64 x.e.core ∧ k.greg 2 = z.h.argument ∧
            (∀ i, i ≠ 1 → i ≠ 2 → k.greg i = 0) ∧
            (∀ i, tabGet 0 k.store i = x.prog.getD i 0) ∧ (∀ i, k.dreg i = x.descs.getD i 0))))) ∧
    (∀ r : Refusal_, (Ld.task e.addr cls).run ⟨u, 0⟩ = .error (l, r) →
      Ends (exec .taskTake s) (fun t =>
        t.sched.st = .idle ∧ t.cores = s.cores ∧ ∃ seq, completes l.s t e r.status r.detail seq))

/-- Every running core starts at once when all their banks and domains are up (R211). -/
def everyRunningCoreStartsAtOnce : Prop :=
  ∀ s : State,
    (s.startReady = true → s.taskCores ≠ [] → Ends (exec .coreStart s) (fun t =>
      t.sched = { s.sched with st := .running } ∧ t = { s with cores := t.cores, sched := t.sched } ∧
      ∀ c, c < 64 → t.core c = if bitOf s.sched.mask c then { s.core c with running := true } else s.core c)) ∧
    (s.startReady = false → exec .coreStart s = .next s)

/-- A core that has executed END and has nothing left ends, and its streams close; when every running core has ended the task
ends without failure: the windows that it opened are closed, and once every request that they accepted has taken effect (R397) it
is counted, its completion carries status 0, and the scheduler is idle with every core at rest (R213). -/
def taskEndsWithItsLastCore : Prop :=
  ∀ (s : State) (c : CoreId), s.sched.st = .running → (s.core c.val).drained = true →
    let others : Prop := ∀ d ∈ s.taskCores, d ≠ c.val → (s.core d).ended = true
    (¬ others → Ends (exec (.coreEnd c) s) (fun t =>
      t.core c.val = { s.core c.val with ended := true, running := false, streams := [] } ∧ OnlyCore s t c.val)) ∧
    (others → s.span.served ≠ [] → Ends (exec (.coreEnd c) s) (fun t =>
      t.sched.st = .ending ∧ t.hosts.cplWait = s.hosts.cplWait)) ∧
    (others → (∀ w ∈ s.span.taskWins, w < 4096) → Ends (exec (.coreEnd c) s) (fun t => ∀ w ∈ s.span.taskWins, t.winOpen w = false)) ∧
    (others → s.sched.failing = false → s.hosts.discardTask = false → s.span.taskWins = [] → s.span.served = [] →
      Ends (exec (.coreEnd c) s) (fun t =>
      t.sched.st = .idle ∧ completes s t s.sched.entry 0 0 s.firstRecord ∧
      t.reg64 Reg.CORE_SCHED_DONE_LO = (s.reg64 Reg.CORE_SCHED_DONE_LO + 1) % 2 ^ 64 ∧
      ∀ d, d < 64 → (t.core d).running = false ∧ (t.core d).stopped = false ∧ (t.core d).streams = []))

/-- A task whose timeout is reached fails with CORE.TASK_TIMEOUT, which CORE_SCHED_FAULT shows, and every running core stops (R214,
R508); of a task that is failing already it is a later fault, whose record has primary clear (R509). A failed task ends once its
operations that have begun have ended: it is counted, its completion carries the status and detail of the primary fault, and the
scheduler is idle (R508, R509, R511); while a request that a window accepted has not taken effect no completion is handed over (R397).
-/
def failedTaskEndsWithItsPrimaryFault : Prop :=
  ∀ s : State,
    ((s.sched.st = .running ∨ s.sched.st = .ending) → s.sched.timeout ≠ 0 → Ends (exec .taskTimeout s) (fun t =>
      (s.field Reg.CORE_SCHED_FAULT 0 8 = 0 → t.field Reg.CORE_SCHED_FAULT 0 8 = 2) ∧
      (s.dbQueue.length < 1024 → ∃ e, t.dbQueue = s.dbQueue ++ [e] ∧ e.status = 0x3102 ∧
        bitOf (e.detail.getD 1 0).toNat 0 = !s.sched.failing) ∧
      (s.sched.failing = true → t.cores = s.cores ∧ t.sched = { s.sched with firstRec := t.sched.firstRec }))) ∧
    ((s.sched.st = .running ∨ s.sched.st = .ending) → s.sched.failing = false → s.sched.timeout ≠ 0 → Ends (exec .taskTimeout s) (fun t =>
      t.sched.st = .ending ∧ t.sched.failing = true ∧ t.sched.primary.map (·.status) = some 0x3102 ∧
      ∀ c, c < 64 → (s.core c).running = true →
        (t.core c).stopped = true ∧ (t.core c).seq = [] ∧ ∀ x ∈ (t.core c).dma, x.started = true)) ∧
    (((s.sched.st ≠ .running ∧ s.sched.st ≠ .ending) ∨ s.sched.timeout = 0) → exec .taskTimeout s = .next s) ∧
    (∀ p, s.sched.st = .ending → s.sched.failing = true → s.sched.primary = some p → s.failDrained = true →
      s.hosts.discardTask = false → s.span.taskWins = [] → s.span.served = [] → Ends (exec .taskFailComplete s) (fun t =>
        t.sched.st = .idle ∧ t.sched.failing = false ∧ t.sched.primary = none ∧
        completes s t s.sched.entry p.status p.detail p.seq ∧ CountedUp s t Reg.CORE_SCHED_FAILED 1 ∧
        ∀ c, c < 64 → (t.core c).running = false ∧ (t.core c).stopped = false ∧ (t.core c).ops = [])) ∧
    (s.span.served ≠ [] → Ends (exec .taskFailComplete s) (fun t => t.hosts.cplWait = s.hosts.cplWait)) ∧
    (s.failDrained = false → exec .taskFailComplete s = .next s)

/-- A loaded task starts, ends with its last core, or fails with its primary fault (R211, R213, R508, R511). -/
def Obligations.TasksStartAndEnd : Prop := everyRunningCoreStartsAtOnce ∧ taskEndsWithItsLastCore ∧ failedTaskEndsWithItsPrimaryFault

/-- A doorbell write from the port that an enabled HOST_SUB ring is bound to sets the ring's tail, and one to a HOST_CPL ring its
head, where the value keeps the ring's order; it is counted in HOST_DB. A value that breaks the order, and a write to a disabled
ring, are ignored and counted in HOST_DB_RANGE; a write from the wrong port is ignored, counted in HOST_DB_WRONG_PORT, and makes
one daybook entry. A read of the doorbell returns head and tail (R426, R427). -/
def Obligations.DoorbellsSetTailAndHead : Prop :=
  ∀ (s : State) (port : HostPort) (ring : RingId) (value : Dword),
    let r := ring.val
    let p := hostNum port
    let v := value.toNat % 2 ^ 32
    let sub (a b : Nat) : Nat := (a + (2 ^ 32 - b)) % 2 ^ 32
    let head := s.ringHead r
    let tail := s.ringTail r
    let tailOk : Prop := sub v head ≤ 2 ^ s.ringCountLog r ∧ sub v tail ≤ sub v head
    let headOk : Prop := sub tail v ≤ sub tail head
    let bound : Prop := s.ringKind r ≠ 0 ∧ s.ringPort r = p
    let sets (t : State) (k : Nat) : Prop := t.regN (ringReg r k) = v ∧
      t.reg64 (Reg.HOST_DB_LO p) = (s.reg64 (Reg.HOST_DB_LO p) + 1) % 2 ^ 64 ∧
      RegsSameBut s t [ringReg r k, Reg.HOST_DB_LO p, Reg.HOST_DB_LO p + 4] ∧ t = { s with regs := t.regs }
    let ranged (t : State) : Prop := CountedUp s t (Reg.HOST_DB_RANGE p) 1 ∧ RegsSameBut s t [Reg.HOST_DB_RANGE p] ∧
      t = { s with regs := t.regs }
    let wrong (t : State) : Prop := CountedUp s t (Reg.HOST_DB_WRONG_PORT p) 1 ∧
      RegsSameBut s t [Reg.HOST_DB_WRONG_PORT p, Reg.SISYN_DB_LOST] ∧
      (s.dbQueue.length < 1024 → ∃ e, t.dbQueue = s.dbQueue ++ [e])
    (ringKindOf r = 2 →
      (bound → tailOk → Ends (exec (.hostSubDoorbell port ring value) s) (sets · 4)) ∧
      (bound → ¬ tailOk → Ends (exec (.hostSubDoorbell port ring value) s) ranged) ∧
      (s.ringKind r = 0 → Ends (exec (.hostSubDoorbell port ring value) s) ranged) ∧
      (s.ringKind r ≠ 0 → s.ringPort r ≠ p → Ends (exec (.hostSubDoorbell port ring value) s) wrong)) ∧
    (ringKindOf r = 3 →
      (bound → headOk → Ends (exec (.hostCplDoorbell port ring value) s) (sets · 3)) ∧
      (bound → ¬ headOk → Ends (exec (.hostCplDoorbell port ring value) s) ranged) ∧
      (s.ringKind r = 0 → Ends (exec (.hostCplDoorbell port ring value) s) ranged) ∧
      (s.ringKind r ≠ 0 → s.ringPort r ≠ p → Ends (exec (.hostCplDoorbell port ring value) s) wrong)) ∧
    ((ringKindOf r = 2 ∨ ringKindOf r = 3) →
      (s.regView (0x0E000000 + (r - 16384) * 8)).toNat = head ∧ (s.regView (0x0E000000 + (r - 16384) * 8 + 4)).toNat = tail)

/-- An entry is taken from its ring: head advances and HOST_ENTRIES counts it. -/
def taken (s t : State) (r : Nat) : Prop :=
  t.regN (ringReg r 3) = (s.ringHead r + 1) % 2 ^ 32 ∧
  t.reg64 (Reg.HOST_ENTRIES_LO (s.ringPort r)) = (s.reg64 (Reg.HOST_ENTRIES_LO (s.ringPort r)) + 1) % 2 ^ 64

/-- The oldest entry of an enabled HOST_SUB ring is taken once the entry before it has completed. A NOP completes with 0, an
invalid entry with HOST.ENTRY_INVALID and one whose read fails with HOST.HOST_ABORT, each with its record (R428, R429). A COPY whose
local range is outside LPDDR, with the pool off, completes with HOST.COPY_RANGE and moves nothing; any other runs, and its
completion is queued when it is done, with the seq of the first daybook record that the copy caused, or 0 (R430, R431). A COPY that
nothing stops, of LPDDR whose controllers are enabled, moves every byte: COPY_IN writes each atom with the host's bytes and fresh check
symbols, COPY_OUT writes the data of atoms that read clean to host memory, and no other atom or byte changes (R430). Where
the ring's turn has not come, nothing changes; and while a completion that found its ring full waits, neither a COPY nor a task
is taken (R432). -/
def Obligations.SubmissionEntriesAreTaken : Prop :=
  ∀ (s : State) (ring : RingId) (stops : Option Nat),
    let r := ring.val
    let raw := s.subRaw r
    let e := s.subOf r raw
    (s.subReady r = true → subBad raw = false → bits raw 0 4 = 3 →
      Ends (exec (.nopEntry ring) s) (fun t => taken s t r ∧ completes s t e 0 0 0 ∧ t.cores = s.cores ∧
        ∀ x, t.hosts.cplWait.getLast? = some x → x.full = s.cplFull (r + 512))) ∧
    (s.subReady r = true → subBad raw = true →
      Ends (exec (.invalidSubmissionEntry ring false) s) (fun t =>
        taken s t r ∧ (∃ seq, completes s t e 0x7001 0 seq) ∧ t.cores = s.cores)) ∧
    (s.subReady r = true →
      Ends (exec (.invalidSubmissionEntry ring true) s) (fun t =>
        taken s t r ∧ (∃ seq, completes s t ⟨r, s.ringPort r, 0, 0, 0, 0, 0, e.subHead⟩ 0x7003 0 seq) ∧ t.cores = s.cores)) ∧
    (∀ i ∈ [(Instr.copyIn ring stops, 1), (Instr.copyOut ring stops, 2)], bits raw 0 4 = i.2 →
      (s.copyNext r = true → s.copyRangeOk e.addr e.len = false → Ends (exec i.1 s) (fun t =>
        taken s t r ∧ (∃ seq, completes s t e 0x7002 0 seq) ∧ t.cores = s.cores ∧ t.dram = s.dram ∧
        t.hosts.mem = s.hosts.mem ∧ t.hosts.copies = s.hosts.copies)) ∧
      (s.copyNext r = true → s.copyRangeOk e.addr e.len = true → Ends (exec i.1 s) (fun t =>
        t.regN (ringReg r 3) = (s.ringHead r + 1) % 2 ^ 32 ∧ t.hosts.cplWait = s.hosts.cplWait ∧
        ∃ c, t.hosts.copies = s.hosts.copies ++ [c] ∧ c.entry = e ∧ c.moved ≤ e.len ∧ (c.stopped = false → c.status = 0) ∧
          c.seq = (if t.dbNext = s.dbNext then 0 else s.dbNext) ∧
          (∀ n, stops = some n → n < e.len → c.stopped = true))) ∧
      (s.copyNext r = true → e.addr + e.len ≤ s.lpddrEnd → stops = none →
        (∀ j, j < e.len / 32 → s.atomEnabled (e.addr / 32 + j) = true) →
        (∀ j l, j < e.len / 32 → l < e.len / 32 → s.atomKey (e.addr / 32 + j) = s.atomKey (e.addr / 32 + l) → j = l) →
        let at_ (j : Nat) : Nat := e.addr / 32 + j
        let host : Nat := e.port * 2 ^ 64 + e.host
        (i.2 = 1 → Ends (exec i.1 s) (fun t =>
          (t.hosts.copies.getLast?.map (fun c => (c.moved, c.status, c.stopped))) = some (e.len, 0, false) ∧
          (∀ j, j < e.len / 32 → (t.atomStored (at_ j)).2 = rsEncode (bytesGet 0 s.hosts.mem (host + 32 * j) 32) (at_ j)) ∧
          (∀ x, (∀ j, j < e.len / 32 → s.atomKey x ≠ s.atomKey (at_ j)) → (t.atomStored x).2 = (s.atomStored x).2) ∧
          t.hosts.mem = s.hosts.mem)) ∧
        (∀ d : Nat → List Byte, i.2 = 2 → (∀ j, j < e.len / 32 → tabFind s.dram (s.atomKey (at_ j)) ≠ none ∧
            rsDecode (s.atomStored (at_ j)).2 (at_ j) = .clean (d j)) → Ends (exec i.1 s) (fun t =>
          (t.hosts.copies.getLast?.map (fun c => (c.moved, c.status, c.stopped))) = some (e.len, 0, false) ∧
          (∀ j, j < e.len / 32 → bytesGet 0 t.hosts.mem (host + 32 * j) 32 = d j) ∧
          (∀ x, (x < host ∨ host + e.len ≤ x) → tabGet 0 t.hosts.mem x = tabGet 0 s.hosts.mem x) ∧ t.dram = s.dram))) ∧
      (s.copyNext r = false → exec i.1 s = .next s)) ∧
    ((∃ x ∈ s.hosts.cplWait, x.full = true) → exec (.copyIn ring stops) s = .next s ∧ exec (.copyOut ring stops) s = .next s ∧
      exec .taskTake s = .next s) ∧
    (∀ c, s.hosts.copies.find? (fun c => c.entry.ring == r) = some c → Ends (exec (.copyDone ring) s) (fun t =>
      completes s t c.entry c.status 0 c.seq ∧ t.hosts.copies = s.hosts.copies.filter (fun d => d.entry.ring != r) ∧
      t = { s with hosts := t.hosts }))

/-- A completion is written to its HOST_CPL ring once there is room: the 32 bytes stand in host memory at the slot that tail
names, tail advances, and a ring with irq wants its MSI-X vector sent (R431–R433). A message is sent unless its vector is masked,
when its pending bit is set instead, and none while MSI-X is disabled (R433); any other byte of host memory, and every core, stays. -/
def Obligations.CompletionsAndMessagesReachTheHost : Prop :=
  ∀ (s : State) (ring : RingId) (e : CplEntry) (port : HostPort) (vector : BitVec 11),
    let r := ring.val
    let q := s.ringPort r
    let a := q * 2 ^ 64 + s.ringSlot r (s.ringTail r)
    let p := hostNum port
    let v := vector.toNat
    let pend (t : State) : Bool := bitOf (t.bar4Byte p (0x8000 + v / 8)).toNat (v % 8)
    (s.hosts.cplWait.find? (fun e => e.ring == r) = some e → s.ringIsFull r = false → s.portReady q = true →
      Ends (exec (.completionWrite ring) s) (fun t =>
        bytesGet 0 t.hosts.mem a e.bytes.length = e.bytes ∧
        (∀ x, x < a ∨ a + e.bytes.length ≤ x → tabGet 0 t.hosts.mem x = tabGet 0 s.hosts.mem x) ∧
        t.ringTail r = (s.ringTail r + 1) % 2 ^ 32 ∧ t.hosts.cplWait = s.hosts.cplWait.erase e ∧
        (s.ringIrq r = true → (q, s.ringVector r) ∈ t.hosts.msixWait) ∧
        (s.ringIrq r = false → t.hosts.msixWait = s.hosts.msixWait) ∧
        t = { s with regs := t.regs, hosts := t.hosts } ∧
        RegsSameBut s t [ringReg r 4, Reg.SPAD_RING_PUSHES_LO, Reg.SPAD_RING_PUSHES_LO + 4])) ∧
    (s.hosts.cplWait.find? (fun e => e.ring == r) = some e → (s.ringIsFull r = true ∨ s.portReady q = false) →
      exec (.completionWrite ring) s = .next s) ∧
    ((s.cfg p).msixEnable = false → exec (.msixSend port vector) s = .next s) ∧
    ((p, v) ∈ s.hosts.msixWait → s.portReady p = true → (s.cfg p).msixEnable = true →
      (s.vectorMasked p v = false → Ends (exec (.msixSend port vector) s) (fun t =>
        t.hosts.msixSent = s.hosts.msixSent ++ [⟨p, v, s.bar4Nat p (16 * v) 8, s.bar4Nat p (16 * v + 8) 4⟩] ∧
        (p, v) ∉ t.hosts.msixWait ∧ pend t = false ∧ t = { s with hosts := t.hosts })) ∧
      (s.vectorMasked p v = true → Ends (exec (.msixSend port vector) s) (fun t =>
        t.hosts.msixSent = s.hosts.msixSent ∧ t.hosts.msixWait = s.hosts.msixWait ∧
        pend t = true ∧ t = { s with hosts := t.hosts })))

/-- Writes to ring records, of one word or of two: an enabled record takes class alone, or kind 0, which keeps every other field, and
refuses any other field, and from the wrong port or from no port ignores all; a disabled record takes the written words, and a write
that would leave it enabled against a rule (its kind, entry, count, reserved bits, region, or the pairing of its host ring), or that
writes a misaligned base, is refused; so is one that would enable a ring of a reserved ID. A record that is written shows its reserved
bits as zero, and class as zero on every ring but a HOST_SUB ring (R9, R196). A refused write changes nothing in the record and is
recorded as SPAD.RING_CONFIG, which stops a core that made it (R176, R197, R424, R425). That the stop is that of the writing core, with
SPAD_RING_FAULT, that reserved bits are not kept, and that operations waiting on a ring which is disabled go on to their fault, are the
model's inferences (log entry 53). -/
def Obligations.RingRecordsAreWrittenOrRefused : Prop :=
  ∀ (s : State) (r : Requester) (ring : RingId) (word : Fin 8) (wide : Bool) (value : Dword),
    let n := ring.val
    let k := word.val
    let covers (j : Nat) : Bool := j == k || (wide && j == k + 1)
    let v (j : Nat) : Nat := value.toNat / 2 ^ (32 * (j - k)) % 2 ^ 32
    let x := ringReg n 2
    let w := (s.ringWords n).mapIdx (fun j y => if covers j then v j else y)
    let i := Instr.ringConfigWrite r ring word wide value
    let refusedIt (t : State) : Prop :=
      (∀ j, j < 8 → t.reg (ringReg n j) = s.reg (ringReg n j)) ∧ t.cores = s.cores ∧ t.sched = s.sched ∧
      (s.field Reg.SPAD_RING_FAULT 0 8 = 0 → t.regN Reg.SPAD_RING_FAULT = 2 + n * 2 ^ 8) ∧
      (s.dbQueue.length < 1024 → ∃ e, t.dbQueue = s.dbQueue ++ [e] ∧ e.status = 0x2609)
    let kept (j y : Nat) : Nat :=
      if j = 2 then y % 2 ^ 26 else if j = 5 then y % 2 ^ 16 else if 6 ≤ j ∧ ringKindOf n ≠ 2 then 0 else y
    let written (t : State) : Prop :=
      (∀ j, j < 8 → t.regN (ringReg n j) = kept j (if covers j then v j else s.regN (ringReg n j))) ∧
      RegsSameBut s t ((List.range 8).map (ringReg n)) ∧ t = { s with regs := t.regs }
    let stops : Prop := ∃ c, r = .core c ∧ (s.core c.val).running = true ∧ (s.core c.val).stopped = false
    let refused : Prop := (¬ stops → Ends (exec i s) refusedIt) ∧
      (∀ c, r = .core c → stops → Ends (exec i s) (fun t =>
        StoppedWith s t c.val 0x2609 ∧ ∀ j, j < 8 → t.reg (ringReg n j) = s.reg (ringReg n j)))
    let host : Prop := ringKindOf n = 2 ∨ ringKindOf n = 3
    let aligned : Prop := recBase w % max 64 (2 ^ recEntry w) = 0
    let bytes := 2 ^ recEntry w * 2 ^ recCount w
    let regionOut : Prop := match spadPlace (recBase w) with
      | some (c, o) => 0x60000 < o + bytes ∨ (ringKindOf n = 1 ∧ c ≠ n / 256)
      | none => s.lpddrEnd < recBase w + bytes
    let bad : Prop := recKind w ≠ ringKindOf n ∨ recEntry w < 3 ∨ 8 < recEntry w ∨ recCount w < 1 ∨ 20 < recCount w ∨
      w.getD 2 0 / 2 ^ 26 % 2 ^ 6 ≠ 0 ∨ w.getD 5 0 / 2 ^ 16 % 2 ^ 16 ≠ 0 ∨ (recKind w ≠ 2 ∧ recKind w ≠ 3 ∧ regionOut) ∨
      (recKind w = 2 ∧ (recEntry w ≠ 6 ∨ s.ringKind (n + 512) ≠ 3 ∨ s.ringPort (n + 512) ≠ recPort w)) ∨
      (recKind w = 3 ∧ recEntry w ≠ 5)
    ((wide = true ∧ k % 2 = 1) ∨ ringAbsent s.variant n = true → exec i s = .next s) ∧
    ((wide = false ∨ k % 2 = 0) → ringAbsent s.variant n = false → ringKindOf n = 0 →
      let takes : Prop := recKind w = 0 ∧ (2 ≤ k ∨ aligned)
      (takes → Ends (exec i s) written) ∧ (¬ takes → refused)) ∧
    ((wide = false ∨ k % 2 = 0) → ringAbsent s.variant n = false → ringKindOf n ≠ 0 →
    (s.ringKind n ≠ 0 → host → reqPort r = none → exec i s = .next s) ∧
    (∀ p, s.ringKind n ≠ 0 → host → reqPort r = some p → p ≠ s.ringPort n → Ends (exec i s) (fun t =>
      (∀ j, j < 8 → t.reg (ringReg n j) = s.reg (ringReg n j)) ∧ CountedUp s t (Reg.HOST_DB_WRONG_PORT p) 1 ∧
      (s.dbQueue.length < 1024 → ∃ e, t.dbQueue = s.dbQueue ++ [e]))) ∧
    (s.ringKind n ≠ 0 → (host → reqPort r = some (s.ringPort n)) →
      (6 ≤ k → Ends (exec i s) written) ∧
      (covers 2 = true → recKind w = 0 → ¬ (ringKindOf n = 3 ∧ s.ringKind (n - 512) = 2) →
        ∃ u, exec i s = .next (u.ringMoved n) ∧ u.regN x = s.regN x - s.ringKind n * 2 ^ 9 ∧ RegsSameBut s u [x] ∧
          u = { s with regs := u.regs }) ∧
      (covers 2 = true → recKind w = 0 → ringKindOf n = 3 → s.ringKind (n - 512) = 2 → refused) ∧
      (k < 6 → (covers 2 = false ∨ recKind w ≠ 0) → refused)) ∧
    (s.ringKind n = 0 →
      let takes : Prop := (recKind w = 0 ∨ ¬ bad) ∧ (aligned ∨ (2 ≤ k ∧ recKind w = 0))
      (takes → Ends (exec i s) written) ∧ (¬ takes → refused)))

/-- A write to SPAD_PAIL_CFG_i takes effect without checks while no task runs and is ignored from a host or Sisyn while one does;
the core's own Clerk rewrites an entry that is EMPTY with epoch 0, that no operation in flight names, that passes no row 383 and
that shares no row with a valid one, and any other rewrite stops the core with SPAD.PAIL_INVALID (R183). -/
def pailEntriesAreWrittenUnderR183 : Prop :=
  ∀ (s : State) (r : Requester) (c : CoreId) (i : BitVec 6) (v : Word),
    let x := Reg.SPAD_PAIL_CFG c.val i.toNat
    let e := PailCfg.of (v.toNat % 2 ^ 20)
    let k := s.core c.val
    let stored (t : State) : Prop := t.regN x = v.toNat % 2 ^ 20 ∧ RegsSameBut s t [x] ∧ t = { s with regs := t.regs }
    let legal : Prop := (k.pail i.toNat).st = .empty ∧ (k.pail i.toNat).epoch = 0 ∧ k.pailNamed i.toNat = false ∧
      e.first + e.rows ≤ 384 ∧
      ∀ j, j < 64 → j ≠ i.toNat → e.valid = true → (s.pailCfg c.val j).valid = true →
        e.first + e.rows ≤ (s.pailCfg c.val j).first ∨ (s.pailCfg c.val j).first + (s.pailCfg c.val j).rows ≤ e.first
    (r ≠ .core c →
      (s.sched.st = .idle → Ends (exec (.pailCfgWrite r c i v) s) stored) ∧
      (s.sched.st ≠ .idle → exec (.pailCfgWrite r c i v) s = .next s)) ∧
    (r = .core c →
      (legal → Ends (exec (.pailCfgWrite r c i v) s) stored) ∧
      (¬ legal → k.running = true → k.stopped = false →
        Ends (exec (.pailCfgWrite r c i v) s) (fun t => t.reg x = s.reg x ∧ StoppedWith s t c.val 0x2604)))

/-- While no task runs, SPAD_POOL_CTL.pool turns pool mode on and asks every bank of every core to be On, and 0 turns it off; a 1
during a task is refused (R201). In pool mode, with the bank On, a write of an aligned word of the pool lands in the Scratchpad
at its place, and a read of a word without parity errors returns it; an access to a bank that is not On is counted in
SPAD_OFF_DROPS and ends with SPAD.BANK_OFF (R176, R192), one outside pool mode ends with SPAD.RANGE, and neither changes a core
(R201, R202). -/
def poolModeOpensTheFlatPool : Prop :=
  ∀ (s : State) (r : Requester) (v : Word) (p : Nat) (d : Dword),
    let c := p / 589824
    let o := p % 589824
    (v.getLsbD 0 = true → s.sched.st = .idle → Ends (exec (.poolModeWrite r v) s) (fun t =>
      t.regN Reg.SPAD_POOL_CTL = 1 ∧ RegsSameBut s t [Reg.SPAD_POOL_CTL] ∧ t = { s with regs := t.regs, cores := t.cores } ∧
      ∀ c, c < 64 → (∀ b, b < 16 → (t.core c).bank b = bankAfter ((s.core c).bank b) .on) ∧
        t.core c = { s.core c with banks := (t.core c).banks })) ∧
    (v.getLsbD 0 = true → s.sched.st ≠ .idle → exec (.poolModeWrite r v) s = .next s) ∧
    (v.getLsbD 0 = false → Ends (exec (.poolModeWrite r v) s) (fun t =>
      t.regN Reg.SPAD_POOL_CTL = 0 ∧ RegsSameBut s t [Reg.SPAD_POOL_CTL] ∧ t = { s with regs := t.regs })) ∧
    (s.poolMode = true → p < 0x2400000 → p % 8 = 0 → o < 393216 → s.domainOn (c / 4) = true →
      ((s.core c).bank (bankOf o)).usable = true →
      Ends (exec (.poolAccess r p (some d)) s) (fun t =>
        bytesGet 0 (t.core c).mem o 8 = leBytes d.toNat 8 ∧
        (∀ a, a < o ∨ o + 8 ≤ a → tabGet 0 (t.core c).mem a = tabGet 0 (s.core c).mem a) ∧
        (∀ a, a ≠ c → t.core a = s.core a) ∧ t.regs = s.regs) ∧
      ((s.core c).parityBad o 8 = false → Ends (exec (.poolAccess r p none) s) (fun t =>
        tabGet 0 t.answers (reqNum r) = BitVec.ofNat 64 (leNat (bytesGet 0 (s.core c).mem o 8)) ∧ t.cores = s.cores ∧
        t.regs = s.regs))) ∧
    (s.poolMode = true → p < 0x2400000 → p % 8 = 0 → o < 393216 →
      (s.domainOn (c / 4) = false ∨ ((s.core c).bank (bankOf o)).usable = false) →
      ∀ w, Ends (exec (.poolAccess r p w) s) (fun t =>
        t.cores = s.cores ∧ tabGet default t.replies (reqNum r) = ⟨3, 0x2602, []⟩ ∧ CountedUp s t (Reg.SPAD_OFF_DROPS c) 1)) ∧
    (s.poolMode = false → Ends (exec (.poolAccess r p (some d)) s) (fun t =>
      t.cores = s.cores ∧ tabGet default t.replies (reqNum r) = ⟨3, 0x2607, []⟩))

/-- Pail entries (R183) and pool mode (R201, R202). -/
def Obligations.PailEntriesAndPoolMode : Prop := pailEntriesAreWrittenUnderR183 ∧ poolModeOpensTheFlatPool

/-- A 4-byte register write changes the bits of its one register as their access codes say: RW bits take the written bit, RW1C bits
clear on a 1, any other bit stays, and so does every other register (R9). A write to a register of an absent unit (R3), to no
register, or of 8 bytes over two registers (R11) has no effect, but that a host's write to an offset that the map assigns to
nothing is counted in HOST_UNMAPPED (R422); SPAD_BANK_OWNER waits (R175). -/
def controlWritesFollowAccessCodes : Prop :=
  ∀ (s : State) (r : Requester) (offset : BitVec 28) (value : Dword) (b : BlockAt),
    let x := offset.toNat
    let write (wide : Bool) := exec (.registerWrite r ⟨.control, offset⟩ wide value) s
    let plain : Prop := mapAssigns x = true ∨ ∀ port, r ≠ .host port
    (blockAt x = some b → reaches r b = true → x % 4 = 0 → s.blockAbsent b.kind b.inst = false →
      (b.kind = .spad ∧ b.off = 0xC → Ends (write false) (fun t =>
        t.core b.inst = { s.core b.inst with ownerReq := some (value.setWidth 32) } ∧ OnlyCore s t b.inst)) ∧
      (∀ row, ¬ (b.kind = .spad ∧ b.off = 0xC) → b.rows.find? (·.covers b.off) = some row →
        Ends (write false) (fun t =>
          (∀ i, i < 32 → (t.reg x).getLsbD i =
            (if row.rw.testBit i && !(ownBits b.kind b.off).testBit i then value.getLsbD i else (s.reg x).getLsbD i) &&
              !(value.getLsbD i && row.w1c.testBit i && !(ownBits b.kind b.off).testBit i)) ∧
          RegsSameBut s t [x] ∧ t = { s with regs := t.regs })) ∧
      (¬ (b.kind = .spad ∧ b.off = 0xC) → b.rows.find? (·.covers b.off) = none → write false = .next s)) ∧
    (blockAt x = some b → s.blockAbsent b.kind b.inst = true → write false = .next s) ∧
    (blockAt x = none → plain → write false = .next s) ∧
    ((wideInside x = false ∨ x % 8 ≠ 0) → plain → write true = .next s) ∧
    (∀ port wide, r = .host port → mapAssigns x = false → Ends (write wide) (fun t =>
      CountedUp s t (Reg.HOST_UNMAPPED (hostNum port)) 1 ∧ RegsSameBut s t [Reg.HOST_UNMAPPED (hostNum port)] ∧
      t = { s with regs := t.regs })) ∧
    (wideInside x = false → s.regRead8 x = 0)

/-- A host writes the command register, MSI-X Message Control, the two words of each base address register, Device Control and the
error reporting registers of its own port alone, once the port is ready; a payload or read request size that is not supported is not
taken, and a 1 clears an error bit; before that the request is answered with Configuration Request Retry Status (R419, R420, R433,
R438). A host's write to its BAR4 sets the address and data of a table entry, and of a vector's control its mask bit alone; the
pending-bit array takes no write (R420). The places of these fields are the model's choice (log entries 96 and 100). -/
def configurationAndTableWrites : Prop :=
  ∀ (s : State) (port : HostPort) (offset : BitVec 28) (wide : Bool) (value : Dword),
    let p := hostNum port
    let x := offset.toNat
    let n := if wide then 8 else 4
    let write (space : RegSpace) := exec (.registerWrite (.host port) ⟨space, offset⟩ wide value) s
    let cfgBecomes (c : PcieCfg) (t : State) : Prop :=
      t.cfg p = c ∧ t.cfg (1 - p) = s.cfg (1 - p) ∧ tabGet default t.replies p = ⟨0, 0, []⟩ ∧
      t = { s with hosts := { s.hosts with cfgA := t.hosts.cfgA, cfgB := t.hosts.cfgB }, replies := t.replies }
    let table (t : State) (byte : Nat → Byte) (m : Nat) : Prop :=
      (∀ i, i < m → t.bar4Byte p (x + i) = byte i) ∧
      (∀ q o, o < 2 ^ 16 → (q ≠ p ∨ o < x ∨ x + m ≤ o) → t.bar4Byte q o = s.bar4Byte q o) ∧
      t = { s with hosts := { s.hosts with bar4 := t.hosts.bar4 } }
    (s.portReady p = true →
      Ends (write .pciCommand) (cfgBecomes { s.cfg p with command := value.setWidth 16 }) ∧
      Ends (write .msixControl) (cfgBecomes { s.cfg p with msixEnable := value.getLsbD 15, functionMask := value.getLsbD 14 }) ∧
      (let k := x / 4
       let half (b : Dword) : Dword := BitVec.ofNat 64
         (if k % 2 = 1 then b.toNat % 2 ^ 32 + value.toNat % 2 ^ 32 * 2 ^ 32 else b.toNat / 2 ^ 32 * 2 ^ 32 + value.toNat % 2 ^ 32)
       Ends (write .pciBar) (cfgBecomes { s.cfg p with
         base0 := if k / 2 = 0 then half (s.cfg p).base0 else (s.cfg p).base0
         base2 := if k / 2 = 1 then half (s.cfg p).base2 else (s.cfg p).base2
         base4 := if k / 2 = 2 then half (s.cfg p).base4 else (s.cfg p).base4 })) ∧
      (let payload := value.toNat / 2 ^ 5 % 8
       let request := value.toNat / 2 ^ 12 % 8
       Ends (write .deviceControl) (cfgBecomes { s.cfg p with
         payload := if payload ≤ 2 then BitVec.ofNat 3 payload else (s.cfg p).payload
         readSize := if request ≤ 5 then BitVec.ofNat 3 request else (s.cfg p).readSize })) ∧
      (let a := (s.cfg p).aer
       let v : Word := value.setWidth 32
       Ends (write .aer) (cfgBecomes { s.cfg p with aer := {
         uncStatus := if x = 0x4 then a.uncStatus &&& ~~~v else a.uncStatus
         uncMask := if x = 0x8 then v else a.uncMask
         uncSeverity := if x = 0xC then v else a.uncSeverity
         corStatus := if x = 0x10 then a.corStatus &&& ~~~v else a.corStatus
         corMask := if x = 0x14 then v else a.corMask } }))) ∧
    (s.portReady p = false →
      ∀ space ∈ [RegSpace.pciCommand, RegSpace.msixControl, RegSpace.pciBar, RegSpace.deviceControl, RegSpace.aer], Ends (write space) (fun t =>
      tabGet default t.replies p = ⟨4, 0, []⟩ ∧ t = { s with replies := t.replies })) ∧
    (x < 0x8000 → x % 16 + n ≤ 12 → Ends (write .bar4) (fun t => table t (fun i => value.extractLsb' (8 * i) 8) n)) ∧
    (x < 0x8000 → x % 16 = 12 → wide = false → Ends (write .bar4) (fun t => table t (fun _ => value.setWidth 8 &&& 1) 1)) ∧
    (0x8000 ≤ x → write .bar4 = .next s)

/-- Register writes in control space, in configuration space and in the MSI-X table (R9, R420, R422). -/
def Obligations.RegisterWritesFollowAccessCodes : Prop := controlWritesFollowAccessCodes ∧ configurationAndTableWrites

/-- Registers with a rule of their own: a 1 clears a ledger tile's flag (R93), resident_lost (R203) and an error record's valid
bit (R351); PWR_MEMMAP_SPLIT is written only while the scheduler is IDLE (R335); a Churn's PBT registers only while no command runs or
is parked (R380); a claim only while it is free, or with zero (R436). Each such write changes that register, field or flag alone. -/
def Obligations.GuardedRegistersTakeWrites : Prop :=
  ∀ (s : State) (r : Requester) (c : CoreId) (l : TileId) (m : ChanId) (n : ChurnId) (k : Fin 16) (v : Word),
    let only (t : State) (x : Nat) : Prop := RegsSameBut s t [x] ∧ t = { s with regs := t.regs }
    let tile := (s.core c.val).tile l.val
    Ends (exec (.ledgTileFlagsWrite r c l v) s) (fun t =>
      (t.core c.val).tile l.val = { tile with
        sat := tile.sat && !v.getLsbD 0
        sub := tile.sub && !v.getLsbD 1
        range := tile.range && !v.getLsbD 2 } ∧
      (∀ j, j ≠ l.val → (t.core c.val).tile j = (s.core c.val).tile j) ∧
      t.core c.val = { s.core c.val with tiles := (t.core c.val).tiles } ∧ OnlyCore s t c.val) ∧
    (v.getLsbD 1 = true → Ends (exec (.residentLostClear r c v) s) (fun t =>
      t.field (Reg.SPAD_STATUS c.val) 1 1 = 0 ∧ only t (Reg.SPAD_STATUS c.val))) ∧
    (v.getLsbD 1 = false → exec (.residentLostClear r c v) s = .next s) ∧
    (v.getLsbD 0 = true → blockPresent s.variant .memc m.val = true → Ends (exec (.memcErrClear r m v) s) (fun t =>
      t.regN (Reg.PWR_MEMC_ERR m.val) = s.regN (Reg.PWR_MEMC_ERR m.val) / 2 * 2 ∧ only t (Reg.PWR_MEMC_ERR m.val))) ∧
    (s.sched.st = .idle → Ends (exec (.pwrMemmapSplitWrite r v) s) (fun t =>
      t.field Reg.PWR_MEMMAP_SPLIT 0 6 = v.toNat % 64 ∧ only t Reg.PWR_MEMMAP_SPLIT)) ∧
    (s.sched.st ≠ .idle → exec (.pwrMemmapSplitWrite r v) s = .next s) ∧
    (churnPresent s.variant n.val = true →
      ((s.churn n.val).running = none → (s.churn n.val).parked = [] →
        Ends (exec (.churnPbtWrite r n 0 v) s) (fun t =>
          t.regN (Reg.CHURN_PBT_COUNT n.val) = v.toNat % 2 ^ 15 ∧ only t (Reg.CHURN_PBT_COUNT n.val)) ∧
        Ends (exec (.churnPbtWrite r n 1 v) s) (fun t =>
          t.reg (Reg.CHURN_PBT_BASE_LO n.val) = v ∧ only t (Reg.CHURN_PBT_BASE_LO n.val)) ∧
        Ends (exec (.churnPbtWrite r n 2 v) s) (fun t =>
          t.regN (Reg.CHURN_PBT_BASE_HI n.val) = v.toNat % 2 ^ 16 ∧ only t (Reg.CHURN_PBT_BASE_HI n.val))) ∧
      ((s.churn n.val).running ≠ none ∨ (s.churn n.val).parked ≠ [] → ∀ i, exec (.churnPbtWrite r n i v) s = .next s)) ∧
    ((v = 0 ∨ s.reg (Reg.HOST_CLAIM k.val) = 0) → Ends (exec (.hostClaimWrite r k v) s) (fun t =>
      t.reg (Reg.HOST_CLAIM k.val) = v ∧ only t (Reg.HOST_CLAIM k.val))) ∧
    (v ≠ 0 → s.reg (Reg.HOST_CLAIM k.val) ≠ 0 → exec (.hostClaimWrite r k v) s = .next s)

/-- A read of a _LO register gives its value and latches the high half for its requester alone; a read of the _HI register gives
what that requester latched (R70); TELL_CTR_VAL and PWR_MEMC_ERR_IDX_LO latch in the same way (R331, R353). -/
def lowReadsLatchTheHighHalf : Prop :=
  ∀ (s : State) (r : Requester) (offset : BitVec 28) (ctr : BitVec 10) (m : ChanId),
    ∀ e ∈ [(Instr.counterLoRead r offset, offset.toNat), (Instr.tellCtrValRead r ctr, Reg.TELL_CTR_VAL ctr.toNat),
        (Instr.memcErrIdxRead r m, Reg.PWR_MEMC_ERR_IDX_LO m.val)],
      latchPair e.2 = true →
      Ends (exec e.1 s) (fun t =>
        tabGet 0 t.answers (reqNum r) = (s.regView e.2).setWidth 64 ∧
        t.latched r (e.2 + 4) = s.regView (e.2 + 4) ∧ (t.regRead r (e.2 + 4)).2 = s.regView (e.2 + 4) ∧
        (∀ q y, y < 2 ^ 28 → (q ≠ r ∨ y ≠ e.2 + 4) → t.latched q y = s.latched q y) ∧
        t = { s with latches := t.latches, answers := t.answers })

/-- A write of 1 to a block's _CNT_CLR register puts every counter of the block, and every requester's latches of its registers,
to zero or their reset values, and touches no other register; a write without bit 0 does nothing (R70). -/
def counterClearsReachTheirBlockAlone : Prop :=
  ∀ (s : State) (r : Requester) (c : CoreId) (q : QuadId) (m : ChanId) (n : ChurnId) (i : RimId) (sp : SpanPort) (port : HostPort)
      (v : Word),
    ∀ e ∈ ([
        (.coreTallyCntClr r c v, .tally, Reg.CORE_TALLY_ID c.val, 0x100, true),
        (.ledgCntClr r c v, .ledg, Reg.LEDG_ID c.val, 0x100, true),
        (.mintCntClr r c v, .mint, Reg.MINT_ID c.val, 0x1000, true),
        (.coreStrainCntClr r c v, .strain, Reg.CORE_STRAIN_ID c.val, 0x100, true),
        (.pwrSkimCntClr r q v, .skim, Reg.PWR_SKIM_ID q.val, 0x100, true),
        (.spadCntClr r c v, .spad, Reg.SPAD_ID c.val, 0x400, true),
        (.spadHubCntClr r v, .hub, Reg.SPAD_HUB_ID, 0x200000, true),
        (.coreClerkCntClr r c v, .clerk, Reg.CORE_CLERK_ID c.val, 0x100, true),
        (.coreSchedCntClr r v, .sched, Reg.CORE_SCHED_ID, 0x100, true),
        (.coreDescCntClr r c v, .desc, Reg.CORE_DESC_ID c.val, 0x100, true),
        (.tellCntClr r v, .tell, Reg.TELL_ID, 0x4000, true),
        (.coreRngCntClr r c v, .rng, Reg.CORE_RNG_ID c.val, 0x100, true),
        (.pwrMemcCntClr r m v, .memc, Reg.PWR_MEMC_ID m.val, 0x100, blockPresent s.variant .memc m.val),
        (.churnCntClr r n v, .churn, Reg.CHURN_ID n.val, 0x100, churnPresent s.variant n.val),
        (.churnRootCntClr r i v, .root, Reg.CHURN_ROOT_ID i.val, 0x100, rootPresent s.variant),
        (.spanCntClr r v, .span, Reg.SPAN_ID, 0x21000, spanPresent s.variant),
        (.spanPortCntClr r sp v, .spanPort, Reg.SPAN_PORT_ID sp.val, 0x100, spanPresent s.variant),
        (.hostCntClr r port v, .host, Reg.HOST_ID (portNum port), 0x1000, true),
        (.pwrCntClr r v, .pwr, Reg.PWR_ID, 0x1000, true),
        (.sisynCntClr r v, .sisyn, Reg.SISYN_ID, 0x1000, true),
        (.sisynFpCntClr r v, .fp, Reg.SISYN_FP_ID, 0x1000, true),
        (.sisynLcCntClr r v, .lc, Reg.SISYN_LC_ID, 0x1000, true)] : List (Instr × BlockKind × Nat × Nat × Bool)),
      let base := e.2.2.1
      let size := e.2.2.2.1
      let places := (clearedRegs e.2.1).map (base + ·)
      (e.2.2.2.2 = true → v.getLsbD 0 = true → Ends (exec e.1 s) (fun t =>
        (∀ x ∈ places, t.reg x = regReset s.variant x) ∧ RegsSameBut s t places ∧
        (∀ q x, x < 2 ^ 28 → t.latched q x = if base ≤ x ∧ x < base + size then 0 else s.latched q x) ∧
        t = { s with regs := t.regs, latches := t.latches })) ∧
      ((e.2.2.2.2 = false ∨ v.getLsbD 0 = false) → exec e.1 s = .next s)

/-- Reads of _LO registers latch their high half (R70), and a counter clear reaches its block alone. -/
def Obligations.LatchesAndCounterClears : Prop := lowReadsLatchTheHighHalf ∧ counterClearsReachTheirBlockAlone

/-- Of a list of operations in shared units, the BARRIERs on counter `i` wait no longer that see in state `t` another generation
than theirs, or their threshold reached: their status stands from then on (R304, R325). -/
def woken (t : State) (i : Nat) (l : List HubOp) : List HubOp :=
  l.map (fun o => match o with
    | .barrier d id j _ (some (thr, g)) =>
      if j = i then (if t.ctrGen i ≠ g then .awake d id 0x3204 else if thr ≤ t.ctrValue i then .awake d id 0 else o) else o
    | _ => o)

/-- A TAKE adds its addend to its counter and answers the value and generation before the add; an add that would pass 2^48 − 1
is not done, is counted, and ends with TELL.EXHAUSTED, answering the value and generation even so (R316). A BARRIER's TAKE adds
one and waits for the next multiple of its member count; a counter that changes ends the wait of its BARRIERs with 0 when it has
reached what they wait for, or with TELL.STALE when it is retired (R304, R325). -/
def tellerAppliesTakesAndBarriers : Prop :=
  ∀ (s : State) (c : CoreId) (op : Nat),
    let k := s.core c.val
    let ended (t : State) (st : Nat) (x : Option Dword) : Prop := t.core c.val = k.opDone op ⟨st, x, Stop.of st⟩
    let others (t : State) : Prop := ∀ d, d ≠ c.val → t.core d = s.core d
    (∀ i a, i < 1024 → s.takeWaiting c.val op = some (.take c.val op i a) →
      (s.ctrValue i + a % 2 ^ 48 < 2 ^ 48 → Ends (exec (.takeApply c op) s) (fun t =>
        t.ctrValue i = s.ctrValue i + a % 2 ^ 48 ∧ t.ctrGen i = s.ctrGen i ∧
        ended t 0 (some (BitVec.ofNat 64 (s.ctrValue i + s.ctrGen i * 2 ^ 48))) ∧
        t.reg64 Reg.TELL_TAKES_LO = (s.reg64 Reg.TELL_TAKES_LO + 1) % 2 ^ 64 ∧
        RegsSameBut s t [Reg.TELL_CTR_VAL i, Reg.TELL_CTR_VAL i + 4, Reg.TELL_TAKES_LO, Reg.TELL_TAKES_LO + 4] ∧
        t = { s with cores := t.cores, regs := t.regs, hubOps := woken t i (s.hubOps.erase (.take c.val op i a)) } ∧ others t)) ∧
      (2 ^ 48 ≤ s.ctrValue i + a % 2 ^ 48 → Ends (exec (.takeApply c op) s) (fun t =>
        CountedUp s t Reg.TELL_EXHAUSTED 1 ∧
        ended t 0x3203 (some (BitVec.ofNat 64 (s.ctrValue i + s.ctrGen i * 2 ^ 48))) ∧
        RegsSameBut s t [Reg.TELL_EXHAUSTED, Reg.TELL_FAULT] ∧
        (s.field Reg.TELL_FAULT 0 8 = 0 → t.regN Reg.TELL_FAULT = 3 + i * 2 ^ 8) ∧
        t = { s with cores := t.cores, regs := t.regs, hubOps := s.hubOps.erase (.take c.val op i a) } ∧ others t))) ∧
    (∀ i n, i < 1024 → s.takeWaiting c.val op = some (.barrier c.val op i n none) → s.ctrValue i + 1 < 2 ^ 48 →
      Ends (exec (.takeApply c op) s) (fun t =>
        t.ctrValue i = s.ctrValue i + 1 ∧ t.ctrGen i = s.ctrGen i ∧ others t ∧
        (n = 0 → ended t 0 none ∧ t.hubOps = woken t i (s.hubOps.erase (.barrier c.val op i n none))) ∧
        (n ≠ 0 → t.core c.val = k ∧ t.hubOps = woken t i (s.hubOps.erase (.barrier c.val op i n none) ++
          [.barrier c.val op i n (some ((s.ctrValue i / n + 1) * n, s.ctrGen i))])))) ∧
    (s.takeWaiting c.val op = none → exec (.takeApply c op) s = .next s) ∧
    (∀ o st, s.barrierReady c.val op = some (o, st) → Ends (exec (.barrierWake c op) s) (fun t =>
      ended t st none ∧ others t ∧ t = { s with cores := t.cores, hubOps := s.hubOps.erase o } ∧
      (o = .awake c.val op st ∨ ∃ i n thr g, o = .barrier c.val op i n (some (thr, g)) ∧
        ((s.ctrGen i ≠ g ∧ st = 0x3204) ∨ (s.ctrGen i = g ∧ thr ≤ s.ctrValue i ∧ st = 0))))) ∧
    (s.barrierReady c.val op = none → exec (.barrierWake c op) s = .next s)

/-- A RETIRE that a Clerk pushed sets its counter's value and remote_ok and raises its generation, and any other entry of a Clerk ends
with TELL.SVC_INVALID and changes no counter (R319, R320); a take entry of another node is applied where remote_ok is 1 and denied
where it is 0 (R317, R399); it is counted as it is answered (R415). Each entry is consumed, and what waits for room in its ring goes
on. TELL_RETIRE retires a counter with value 0 while no task runs (R331). -/
def tellerServesItsRings : Prop :=
  ∀ (s u : State) (svc : Fin 64) (bs : List Byte) (r : Requester) (v : Word),
    let ring := 25792 + svc.val
    let e := SvcEntry.of bs
    let sees (w : State) (st : Nat) : Prop := ∀ c id, s.svcPusher ring (s.ringHead ring) = some (c, id) →
      (w.core c).ops = ((u.core c).opDone id ⟨st, none, Stop.of st⟩).ops
    (s.svcFromClerk ring = true → s.ringTake 0xFF ring = (u, .ok bs) →
      (svcValid (u.ringEntry ring) e = true →
        ∃ w : State, exec (.retire svc) s = .next (w.ringMoved ring) ∧
          w.ctrValue e.ctr = e.value ∧ w.ctrGen e.ctr = (u.ctrGen e.ctr + 1) % 65536 ∧ w.ctrRemote e.ctr = e.remoteOk ∧
          RegsSameBut u w [Reg.TELL_CTR_VAL e.ctr, Reg.TELL_CTR_VAL e.ctr + 4, Reg.TELL_REMOTE_OK (e.ctr / 32)] ∧ sees w 0) ∧
      (svcValid (u.ringEntry ring) e = false →
        ∃ w : State, exec (.retire svc) s = .next (w.ringMoved ring) ∧ RegsSameBut u w [Reg.TELL_FAULT] ∧ sees w 0x3201)) ∧
    (s.svcFromClerk ring = false → exec (.retire svc) s = .next s) ∧
    (s.svcFromRim ring = true → s.ringTake 0xFF ring = (u, .ok bs) → e.op = 0 →
      (u.ctrRemote e.ctr = true → u.ctrValue e.ctr + e.value < 2 ^ 48 →
        ∃ w : State, exec (.takeEntry svc) s = .next ((w.spanAnswer (u.takeReqHdr e) 0 [u.takeWord e.ctr]).ringMoved ring) ∧
          w.ctrValue e.ctr = u.ctrValue e.ctr + e.value ∧ w.ctrGen e.ctr = u.ctrGen e.ctr ∧
          w.reg64 Reg.TELL_REMOTE_TAKES_LO = (u.reg64 Reg.TELL_REMOTE_TAKES_LO + 1) % 2 ^ 64 ∧
          w.reg64 Reg.SPAN_SERVED_LO = (u.reg64 Reg.SPAN_SERVED_LO + 1) % 2 ^ 64 ∧
          w = { u with regs := w.regs, hubOps := woken w e.ctr u.hubOps }) ∧
      (u.ctrRemote e.ctr = false →
        ∃ w : State, exec (.takeEntry svc) s = .next ((w.spanAnswer (u.takeReqHdr e) 7 []).ringMoved ring) ∧
          CountedUp u w Reg.TELL_REMOTE_DENIED 1 ∧ CountedUp u w Reg.SPAN_NACKS 1 ∧ w.ctrValue e.ctr = u.ctrValue e.ctr ∧ w = { u with regs := w.regs })) ∧
    (s.svcFromRim ring = false → exec (.takeEntry svc) s = .next s) ∧
    (s.sched.st = .idle → Ends (exec (.tellRetire r v) s) (fun t =>
      let i := v.toNat % 1024
      t.ctrValue i = 0 ∧ t.ctrGen i = (s.ctrGen i + 1) % 65536 ∧ t.ctrRemote i = bitOf v.toNat 10 ∧
      RegsSameBut s t [Reg.TELL_CTR_VAL i, Reg.TELL_CTR_VAL i + 4, Reg.TELL_REMOTE_OK (i / 32)] ∧
      t = { s with regs := t.regs, hubOps := woken t i s.hubOps })) ∧
    (s.sched.st ≠ .idle → exec (.tellRetire r v) s = .next s)

/-- The Teller applies takes and barriers and serves its rings (R304, R316–R320, R325, R331). -/
def Obligations.TellerAppliesAndServes : Prop := tellerAppliesTakesAndBarriers ∧ tellerServesItsRings

/-- The reply to a plain memory request. -/
def replied (t : State) (k kind status : Nat) (bs : List Byte) : Prop := tabGet default t.replies k = ⟨kind, status, bs⟩

/-- A plain read answers the atom of 32 bytes that holds its address: its data where it reads clean or corrected, a corrected
atom counted and queued to be written back, and LPDDR.UNCORRECTABLE otherwise (R341–R344); beyond the LPDDR range it answers
LPDDR.RANGE (R346), and of a controller that is not ENABLED QUIESCE.REFUSED (R459). -/
def memoryReadsAnswerTheirAtom : Prop :=
  ∀ (s u : State) (addr : BitVec 48) (st : List Byte), addr.toNat < 0xF00000000000 →
    let idx := addr.toNat / 32
    let chan := (s.memPlace (idx * 32)).chan
    (s.lpddrEnd < idx * 32 + 32 → Ends (exec (.memoryRead addr) s) (fun t =>
      ∃ bs, replied t 128 3 0x4002 bs ∧ t = { s with replies := t.replies })) ∧
    (idx * 32 + 32 ≤ s.lpddrEnd → s.atomEnabled idx = false → Ends (exec (.memoryRead addr) s) (fun t =>
      ∃ bs, replied t 128 3 0x8003 bs ∧ t = { s with replies := t.replies })) ∧
    (idx * 32 + 32 ≤ s.lpddrEnd → s.atomEnabled idx = true → s.atomStored idx = (u, st) →
      (∀ d, rsDecode st idx = .clean d → Ends (exec (.memoryRead addr) s) (fun t =>
        replied t 128 0 0 d ∧ t = { u with regs := t.regs, replies := t.replies } ∧
        t.reg64 (Reg.PWR_MEMC_READS_LO chan) = (s.reg64 (Reg.PWR_MEMC_READS_LO chan) + 1) % 2 ^ 64 ∧
        RegsSameBut s t [Reg.PWR_MEMC_READS_LO chan, Reg.PWR_MEMC_READS_LO chan + 4])) ∧
      (∀ d, rsDecode st idx = .corrected d → Ends (exec (.memoryRead addr) s) (fun t =>
        replied t 128 0 0 d ∧ (s.atomKey idx, rsEncode d idx) ∈ t.writeBacks ∧ t.dram = u.dram ∧ t.cores = s.cores ∧
        CountedUp s t (Reg.PWR_MEMC_CE chan) 1)) ∧
      (∀ a, rsDecode st idx = .bad a → Ends (exec (.memoryRead addr) s) (fun t =>
        (∃ bs, replied t 128 3 0x4001 bs) ∧ t.dram = u.dram ∧ t.cores = s.cores ∧ CountedUp s t (Reg.PWR_MEMC_UE chan) 1 ∧
        (s.dbQueue.length < 1024 → ∃ e, t.dbQueue = s.dbQueue ++ [e] ∧ e.status = 0x4001))))

/-- A plain write of a whole atom stores its 32 bytes with their check symbols, and one of part of an atom merges them into what
the atom holds; no other atom changes, and a write-back that waits for the atom is dropped (R339, R343, R345). A write-back
stores its atom. -/
def memoryWritesStoreTheirAtom : Prop :=
  ∀ (s : State) (addr : BitVec 48) (bytes : List Byte) (m : ChanId),
    let idx := addr.toNat / 32
    let off := addr.toNat % 32
    let x := Reg.PWR_MEMC_WRITES_LO m.val
    (addr.toNat < 0xF00000000000 → idx * 32 + 32 ≤ s.lpddrEnd → s.atomEnabled idx = true →
      (off = 0 → bytes.length = 32 → Ends (exec (.memoryWrite addr bytes) s) (fun t => storesAtom s t idx bytes ∧ replied t 128 0 0 [])) ∧
      (∀ u d, bytes ≠ [] → off + bytes.length ≤ 32 → bytes.length < 32 → s.atomRead idx false 0xFF = (u, .ok d) →
        Ends (exec (.memoryWrite addr bytes) s) (fun t =>
          storesAtom { u with sched := s.sched } t idx (d.take off ++ bytes ++ d.drop (off + bytes.length)) ∧ replied t 128 0 0 []))) ∧
    (∀ u st, addr.toNat < 0xF00000000000 → s.lpddrWrite addr.toNat bytes 0xFF = (u, st) →
      Ends (exec (.memoryWrite addr bytes) s) (fun t =>
        replied t 128 (if st.code = 0 then 0 else 3) st.code [] ∧ t = { u with replies := t.replies, sched := s.sched })) ∧
    (∀ w, s.writeBacks.find? (fun w => dramChan w.1 = m.val) = some w → w.2.length = 36 →
      (s.chanReady m.val = true → Ends (exec (.writeBack m) s) (fun t =>
        bytesGet 0 t.dram w.1 36 = w.2 ∧ (∀ j, j < w.1 ∨ w.1 + 36 ≤ j → tabFind t.dram j = tabFind s.dram j) ∧
        (∀ y ∈ t.writeBacks, y.1 ≠ w.1) ∧ t.reg64 x = (s.reg64 x + 1) % 2 ^ 64 ∧ RegsSameBut s t [x, x + 4] ∧
        t = { s with dram := t.dram, writeBacks := t.writeBacks, regs := t.regs })) ∧
      (s.chanReady m.val = false → exec (.writeBack m) s = .next s))

/-- The patrol scrubber reads the atoms of its channel in turn, with the read's counts, and counts a pass at the last one; a
scrub period of 0 stops it (R343). A temperature read shows the temperature and the refresh rate that it asks for (R348). -/
def controllersScrubAndReadTemperatures : Prop :=
  ∀ (s u : State) (m : ChanId) (celsius : BitVec 8) (st d : List Byte),
    let k := tabGet 0 s.scrubAt m.val
    let idx := s.chanAddress m.val (k * 32) / 32
    let x := Reg.PWR_MEMC_STATUS m.val
    (s.chanReady m.val = true → s.field Reg.PWR_MEMMAP_SCRUB 0 16 ≠ 0 → k < 402653184 → s.atomStored idx = (u, st) →
      rsDecode st idx = .clean d → Ends (exec (.scrubRead m) s) (fun t =>
        tabGet 0 t.scrubAt m.val = (k + 1) % 402653184 ∧ (∀ j, j ≠ m.val → tabGet 0 t.scrubAt j = tabGet 0 s.scrubAt j) ∧
        t.reg64 (Reg.PWR_MEMC_READS_LO m.val) = (s.reg64 (Reg.PWR_MEMC_READS_LO m.val) + 1) % 2 ^ 64 ∧
        CountedUp s t (Reg.PWR_MEMC_SCRUB_PASSES m.val) (if k + 1 = 402653184 then 1 else 0) ∧
        t = { u with regs := t.regs, scrubAt := t.scrubAt })) ∧
    ((s.chanReady m.val = false ∨ s.field Reg.PWR_MEMMAP_SCRUB 0 16 = 0) → exec (.scrubRead m) s = .next s) ∧
    (pkgPresent s.variant (m.val / 4) = true → Ends (exec (.temperatureRead m celsius) s) (fun t =>
      t.field x 4 8 = celsius.toNat ∧
      t.field x 2 2 = (if celsius.toNat ≤ 85 then 0 else if celsius.toNat ≤ 95 then 1 else 2) ∧ t.field x 0 2 = s.field x 0 2 ∧
      RegsSameBut s t [x] ∧ t = { s with regs := t.regs })) ∧
    (pkgPresent s.variant (m.val / 4) = false → exec (.temperatureRead m celsius) s = .next s)

/-- Memory controllers read, write, scrub and write back atoms (R339–R348). -/
def Obligations.MemoryControllersServeTheirAtoms : Prop := memoryReadsAnswerTheirAtom ∧ memoryWritesStoreTheirAtom ∧ controllersScrubAndReadTemperatures

/-- The local map is one to one: each byte of a present channel's 12 GiB has one local address in the LPDDR range, and the map
finds the channel, the byte and the sub-channel from it (R336, R337). -/
def Obligations.LocalMapReachesEveryByteOfAChannel : Prop :=
  ∀ (s : State) (m : ChanId) (a : Nat), pkgPresent s.variant (m.val / 4) = true → a < 12 * 2 ^ 30 →
    s.chanAddress m.val a < s.lpddrEnd ∧ s.memPlace (s.chanAddress m.val a) = ⟨m.val, a, a % 512 / 32 % 2⟩

/-- Churn `n` has taken command `c` from its ring `i`, whose turn it was, and accepts it: `u` is the state then. -/
def churnGot (s : State) (n i : Nat) (u : State) (c : ChurnCmd) : Prop :=
  ∃ v bs, s.ringTake 0xFF (churnRing n i) = (v, .ok bs) ∧ u = v.setChurn n { v.churn n with lastRing := i } ∧
    c = u.churnCmd (churnRing n i) (s.ringHead (churnRing n i)) bs ∧ u.churnEnabled n = true ∧
    s.ringEntry (churnRing n i) = 64 ∧ c.bad (leNat bs) (u.pbCount n) = false

/-- From state `u`, command `c` of Churn `n` has completed with a status: it is counted, the core that posted it receives the
status, no UPDATE operation holds its slot, and beside these only CHURN_FAULT may change. -/
def churnDone (u w : State) (n : Nat) (c : ChurnCmd) (code : Nat) : Prop :=
  w.reg64 (Reg.CHURN_CMDS_LO n) = (u.reg64 (Reg.CHURN_CMDS_LO n) + 1) % 2 ^ 64 ∧
  (∃ x : Stop, x.code = code ∧ w.core c.core = (u.core c.core).opDone c.id ⟨code, none, x⟩) ∧
  (∀ d, d ≠ c.core → w.core d = u.core d) ∧
  (∀ k id seed, HubOp.update k id c.ring c.slot seed ∉ w.hubOps) ∧
  RegsSameBut u w [Reg.CHURN_CMDS_LO n, Reg.CHURN_CMDS_LO n + 4, Reg.CHURN_FAULT n] ∧
  w = { u with cores := w.cores, regs := w.regs, hubOps := w.hubOps }

/-- The status of a command whose work ended with `r`. -/
def workStatus : Except Fail (Option Fail) → Nat
  | .ok none => 0
  | .ok (some g) => g.stop.code
  | .error g => g.stop.code

/-- Work `k` of Churn `n`, an UPDATE or a REMINT that runs in state `y`, has done at most `units` of its units, all that are left
without a number: `w` is the state then, with the command complete, or failed, or running on (R373–R376). -/
def churnWorked (y w : State) (n : Nat) (k : ChurnWork) (units : Option Nat) : Prop :=
  match (chUnits n k units).run y with
  | (.error g, x) => churnDone (x.setRunning n none) w n k.cmd g.stop.code
  | (.ok (z, true), x) => churnDone (x.setRunning n none) w n k.cmd (if z.nonfinite = none then 0 else 0x5008)
  | (.ok (z, false), x) => w = x.setRunning n (some z)

/-- A Churn takes the command at the head of the ring whose turn it is. An UPDATE whose entries' fences are met starts to run,
one whose fences are not met yet parks, and one that is refused completes with its status (R361–R365); a REMINT starts to run
(R373), and what runs does its units until it completes (R375, R376); RELEASE and ROOT end at once, ROOT by queueing two jobs for
each of its entries (R364, R377); a Churn that is not ENABLED refuses each (R376, R459). Then what waits for room in the ring goes
on. How many units run at once is the model's choice (log entry 70). -/
def churnCommandsAreTakenAndComplete : Prop :=
  ∀ (s u v x : State) (n : ChurnId) (i : Fin 4) (c : ChurnCmd) (f : Except Fail (Option Fail)) (g : Fail)
      (units : Option Nat) (k : ChurnWork),
    let r := churnRing n.val i.val
    let takes (op : Nat) : Prop := s.churnTakes n.val i.val op = true ∧ (s.churnRuns n.val i.val op = false ∨ units = some 0)
    let starts (y w : State) : Prop := churnWorked (y.setRunning n.val (some ⟨c, 0, none⟩)) w n.val ⟨c, 0, none⟩ units
    (takes 0 → churnGot s n.val i.val u c →
      (u.churnFence n.val c = (v, .refused g) →
        ∃ w : State, exec (.churnUpdate n ⟨i, units⟩) s = .next (w.ringMoved r) ∧ churnDone v w n.val c g.stop.code) ∧
      (u.churnFence n.val c = (v, .parks) →
        ∃ w : State, exec (.churnUpdate n ⟨i, units⟩) s = .next (w.ringMoved r) ∧
          w = v.setChurn n.val { v.churn n.val with parked := (v.churn n.val).parked ++ [c] }) ∧
      (u.churnFence n.val c = (v, .runs) →
        ∃ w : State, exec (.churnUpdate n ⟨i, units⟩) s = .next (w.ringMoved r) ∧ starts v w)) ∧
    (takes 2 → churnGot s n.val i.val u c →
      ∃ w : State, exec (.churnRemint n ⟨i, units⟩) s = .next (w.ringMoved r) ∧ starts u w) ∧
    ((s.churn n.val).running = some k → k.cmd.ring = r → units ≠ some 0 →
      (k.cmd.op = 0 → Ends (exec (.churnUpdate n ⟨i, units⟩) s) (fun t => churnWorked s t n.val k units)) ∧
      (k.cmd.op = 2 → Ends (exec (.churnRemint n ⟨i, units⟩) s) (fun t => churnWorked s t n.val k units))) ∧
    (s.churnTakes n.val i.val 1 = true → churnGot s n.val i.val u c → (chReleaseCmd n.val c).run u = (f, x) →
      ∃ w : State, exec (.churnRelease n i) s = .next (w.ringMoved r) ∧ churnDone x w n.val c (workStatus f)) ∧
    (∀ es, s.churnTakes n.val i.val 3 = true → churnGot s n.val i.val u c → (chEntries n.val c).run u = (.ok es, x) →
      ((∃ e ∈ es, e.2.1.kron = false) →
        ∃ w : State, exec (.churnRoot n i) s = .next (w.ringMoved r) ∧ churnDone x w n.val c 0x5002) ∧
      ((∀ e ∈ es, e.2.1.kron = true) → x.rootEnabled (n.val / 12) = true →
          (∀ m ∈ (x.root (n.val / 12)).waiting, m / 12 = n.val / 12) →
        ∃ w : State, exec (.churnRoot n i) s = .next (w.ringMoved r) ∧
          (w.rootQueued (n.val / 12)).length = (x.rootQueued (n.val / 12)).length + 2 * c.count ∧
          (w.root (n.val / 12)).cmds = (x.root (n.val / 12)).cmds ++ [⟨c.ring, c.slot, 2 * c.count, [], 0, 0, 0⟩] ∧
          w = { x with churns := w.churns, roots := w.roots })) ∧
    (∀ bs, s.ringTake 0xFF r = (u, .ok bs) → s.churnEnabled n.val = false →
      ∀ e ∈ [(0, Instr.churnUpdate n ⟨i, units⟩), (1, Instr.churnRelease n i), (2, Instr.churnRemint n ⟨i, units⟩),
          (3, Instr.churnRoot n i)],
        takes e.1 →
        let y := u.setChurn n.val { u.churn n.val with lastRing := i.val }
        ∃ w : State, exec e.2 s = .next (w.ringMoved r) ∧ churnDone y w n.val (y.churnCmd r (s.ringHead r) bs) 0x8003) ∧
    (s.churnTakes n.val i.val 0 = false → (s.churnRuns n.val i.val 0 = false ∨ units = some 0) →
      exec (.churnUpdate n ⟨i, units⟩) s = .next s) ∧
    (s.churnTakes n.val i.val 1 = false → exec (.churnRelease n i) s = .next s) ∧
    (s.churnTakes n.val i.val 2 = false → (s.churnRuns n.val i.val 2 = false ∨ units = some 0) →
      exec (.churnRemint n ⟨i, units⟩) s = .next s) ∧
    (s.churnTakes n.val i.val 3 = false → exec (.churnRoot n i) s = .next s)

/-- While a Churn runs nothing, its first parked command that no longer waits leaves its slot and starts to run, or ends with its
refusal (R363, R365); one that has been
parked for the fence timeout ends with CHURN.FENCE_TIMEOUT, and a timeout of 0 disables the limit (R365, R380). -/
def parkedCommandsStartOrTimeOut : Prop :=
  ∀ (s v : State) (n : ChurnId) (slot : Fin 8) (c : ChurnCmd) (g : Fail) (units : Option Nat),
    let u := s.unpark n.val c
    (s.parkedReady n.val = some c → s.churnEnabled n.val = true → (s.churn n.val).running = none →
      (u.churnFence n.val c = (v, .runs) → Ends (exec (.parkedStart ⟨n, units⟩) s) (fun t =>
        churnWorked (v.setRunning n.val (some ⟨c, 0, none⟩)) t n.val ⟨c, 0, none⟩ units)) ∧
      (u.churnFence n.val c = (v, .refused g) →
        Ends (exec (.parkedStart ⟨n, units⟩) s) (fun t => churnDone v t n.val c g.stop.code))) ∧
    ((s.parkedReady n.val = none ∨ s.churnEnabled n.val = false ∨ (s.churn n.val).running ≠ none) →
      exec (.parkedStart ⟨n, units⟩) s = .next s) ∧
    ((s.churn n.val).parked[slot.val]? = some c →
      (s.regN (Reg.CHURN_FENCE_TIMEOUT n.val) ≠ 0 → Ends (exec (.fenceTimeout n slot) s) (fun t =>
        churnDone u t n.val c 0x5004 ∧ (t.churn n.val).parked = (s.churn n.val).parked.erase c ∧
        t.field (Reg.CHURN_FAULT n.val) 0 8 = 4)) ∧
      (s.regN (Reg.CHURN_FENCE_TIMEOUT n.val) = 0 → exec (.fenceTimeout n slot) s = .next s)) ∧
    ((s.churn n.val).parked[slot.val]? = none → exec (.fenceTimeout n slot) s = .next s)

/-- Churn commands run, park, time out and complete (R361–R365, R373, R377). That an UPDATE or REMINT does the number of work units that
its command carries is the model's choice (log entry 70). -/
def Obligations.ChurnCommandsRunParkAndTimeOut : Prop := churnCommandsAreTakenAndComplete ∧ parkedCommandsStartOrTimeOut

/-- rn of R367: a finite result is a nearest binary32 value, of two as near the one of even pattern; each binary32 value is its own; only
an exact value of at least 2^128 − 2^103 in magnitude gives an infinity, of its sign. pow32 squares from bit 31 down and multiplies at
each set bit (R368). -/
def churnRoundsToNearest : Prop :=
  (∀ (q : Rat),
    (∀ v, f32Val (f32Round q) = .fin v →
      ∀ w u, f32Val w = .fin u → ratAbs (v - q) ≤ ratAbs (u - q) ∧ (ratAbs (v - q) = ratAbs (u - q) → u ≠ v → bitOf (f32Round q).toNat 0 = false)) ∧
    (∀ neg, f32Val (f32Round q) = .inf neg → neg = decide (q < 0) ∧ pow2 128 - pow2 103 ≤ ratAbs q) ∧
    f32Val (f32Round q) ≠ .nan ∧
    (∀ w, f32Val w = .fin q → f32Val (f32Round q) = .fin q)) ∧
  ∀ (beta : FVal) (t : Nat), pow32 beta t = (List.range 32).foldl (fun (r : FVal) i =>
    let r := (r.mul r).rn
    if bitOf t (31 - i) then (r.mul beta).rn else r) (.fin 1)

/-- One element under each rule (R369), `gg` its scaled gradient, or P for KRONECKER, and c1 and c2 the corrections of ADAPTIVE. -/
def churnRulesUpdateElements : Prop :=
  ∀ (k : Coef) (w m v gg : FVal),
    let one : FVal := .fin 1
    let c1 := (one.sub (pow32 k.b1 k.t)).rn
    let c2 := (one.sub (pow32 k.b2 k.t)).rn
    let next (d : FVal) : FVal := (w.sub (k.lr.mul (d.add (k.wd.mul w).rn).rn).rn).rn
    let heavy := ((k.b1.mul m).rn.add gg).rn
    let mean (b a g : FVal) : FVal := ((b.mul a).rn.add (((one.sub b).rn).mul g).rn).rn
    let m1 := mean k.b1 m gg
    let v1 := mean k.b2 v (gg.mul gg).rn
    correction k.b1 k.t = c1 ∧
    updateElem 0 k c1 c2 w m v gg = ⟨next heavy, heavy, v⟩ ∧
    updateElem 1 k c1 c2 w m v gg = ⟨next (((m1.div c1).rn).div (((v1.div c2).rn.sqrt.rn).add k.eps).rn).rn, m1, v1⟩ ∧
    updateElem 2 k c1 c2 w m v gg = ⟨next m1.sign, mean k.b2 m gg, v⟩ ∧
    updateElem 3 k c1 c2 w m v gg = ⟨next heavy, heavy, v⟩

/-- KRONECKER's factors and P, element by element: each sum of products exact and rounded once (R370). `l`, `r`, `lroot` and `rroot` are
square, of the entry's rows and columns, and `gg` has a row of `cols` elements for each of its `rows`. -/
def kroneckerFactorsAndP : Prop :=
  ∀ (k : Coef) (rows cols : Nat) (l r gg lroot rroot : Mat),
    let shaped (m : Mat) (a b : Nat) : Prop := m.length = a ∧ ∀ x ∈ m, x.length = b
    let at_ (m : Mat) (i j : Nat) : FVal := (m.getD i []).getD j (.fin 0)
    let dot (n : Nat) (f g : Nat → FVal) : FVal := ((List.range n).foldl (fun (a : FVal) i => a.add ((f i).mul (g i))) (.fin 0)).rn
    let mean (a g : FVal) : FVal := ((k.b2.mul a).rn.add ((((FVal.fin 1).sub k.b2).rn).mul g).rn).rn
    shaped l rows rows → shaped r cols cols → shaped gg rows cols → shaped lroot rows rows → shaped rroot cols cols →
    (∀ i j, i < rows → j < rows →
      at_ (newLeft k l gg cols rows) i j = mean (at_ l i j) (dot cols (at_ gg i) (at_ gg j))) ∧
    (∀ i j, i < cols → j < cols →
      at_ (newRight k r gg cols) i j = mean (at_ r i j) (dot rows (fun a => at_ gg a i) (fun a => at_ gg a j))) ∧
    (∀ i j, i < rows → j < cols →
      at_ (precondition lroot rroot gg cols) i j =
        dot rows (at_ lroot i) (fun a => dot cols (at_ gg a) (fun b => at_ rroot b j)))

/-- Re-quantising 128 values at b = 16: no code saturates unless the scale was held at 0xFEFF, each code's value lies within one step of
its value, within half a step under NEAREST, values that are all zero take a zero scale and codes of 0, and values that are never negative
take z = 0 (R105, R371). A draw's stream and index are those of R372. -/
def churnRequantisesBlocks : Prop :=
  (∀ (dr : Nat → Option Nat) (vs : List Rat),
    let (cs, sc, ze, sat) := requant dr vs
    cs.length = vs.length ∧ ((∀ v ∈ vs, 0 ≤ v) → ze = 0) ∧
    ((∀ v ∈ vs, v = 0) → sc = 0 ∧ (∀ c ∈ cs, c = 0) ∧ sat = 0) ∧
    (sc ≠ 0xFEFF → (∃ v ∈ vs, v ≠ 0) → sat = 0 ∧ ∀ i, i < vs.length →
      let off := ratAbs (u16Val sc * ((cs.getD i 0 : Rat) - (ze.toNat : Rat)) - vs.getD i 0)
      off < u16Val sc ∧ (dr i = none → off ≤ u16Val sc / 2))) ∧
  ∀ (x : ChurnRun) (e : Pb) (d r c : Nat),
    x.drawAt e false d r c = none ∧
    x.drawAt e true d r c = some (draw x.seed 0 ((x.stream + d) % 2 ^ 16) true ((e.row0 + r) * e.kglob + e.col0 + c))

/-- What a scale block writes of an array: its 128 codes of 2 bytes, and its record with the block's tag and, for the master, the step's
stamp (R358, R371). The compute copy of a row's 128 columns: for each group a record with the sum of its codes, its format and its tag, and
for each plane of each of the two tiles the row's 64 bits, most significant plane first (R28, R32, R373). -/
def churnWritesArraysAndCopies : Prop :=
  (∀ (x : ChurnRun) (e : Pb) (o : SbOut) (a which : Nat) (sto : Bool) (vs : List FVal),
    let i := e.sblock o.r o.j
    let (cs, sc, ze, sat) := requant (fun c => x.drawAt e sto which o.r (128 * o.j + c)) (vs.map FVal.rat)
    let stamp := if which = 0 then x.k.t % 2 ^ 24 else 0
    (x.putArray e o a which sto vs).1 =
      ([(a + 256 * i, cs.flatMap (fun c => leBytes c 2)),
        (e.recs + 24 * i + 8 * which, leBytes (BlockRec.toNat ⟨sc, ze, i % 64, stamp⟩) 8)], sat) ∧
    BlockRec.of (leNat (leBytes (BlockRec.toNat ⟨sc, ze, i % 64, stamp⟩) 8)) = ⟨sc, ze, i % 64, stamp⟩) ∧
  ∀ (x : ChurnRun) (e : Pb) (r j : Nat) (vs : List Rat) (ls : List (Option Half)),
    let n := 128 / e.g
    let ws := (x.putCopy e r j vs ls).1
    let scale (q : Nat) : Half × Half := mintScale e (ls.getD q none) ((vs.drop (e.g * q)).take e.g)
    let code (i : Nat) : Nat := (codeOf e.fmt (scale (i / e.g)).1 (scale (i / e.g)).2 (x.drawAt e e.cmSto 3 r (128 * j + i)) (vs.getD i 0)).1
    (e.g = 32 ∨ e.g = 64 ∨ e.g = 128) → vs.length = 128 → e.fmt < 16 →
    (∀ q, q < n → ∃ w : Whey,
      (e.whey + (r * e.groups + n * j + q) * 8, leBytes w.toNat 8) ∈ ws ∧ w.scale = (scale q).1 ∧ w.zero = (scale q).2 ∧
      w.codeSum = ((List.range e.g).map (fun i => code (e.g * q + i))).sum ∧ w.planesM1 = e.fmt ∧
      w.tag = wheyTag (e.row0 + r) (groupsPerRow e.kglob e.g) (e.col0 / e.g + n * j + q)) ∧
    (∀ t k, t < 2 → k ≤ e.fmt → ∃ p : Nat,
      (e.curd + (r / 64 * (e.cols / 64) + 2 * j + t) * e.tileBytes + 8 * (r % 64) + 512 * k, leBytes p 8) ∈ ws ∧ p < 2 ^ 64 ∧
      ∀ i, i < 64 → bitOf p i = bitOf (code (64 * t + i)) (e.fmt - k)) ∧
    ws.length = n + 2 * (e.fmt + 1)

/-- A unit with a non-finite gradient, P or result writes nothing: LPDDR keeps what it holds, and CHURN_NONFINITE counts it; a unit that
writes counts its blocks and no non-finite one (R376). -/
def nonfiniteUnitsWriteNothing : Prop :=
  ∀ (s t : State) (x : ChurnRun) (idx : Nat) (e : Pb) (l : Option (Nat × Pb)) (cells : List (Nat × Nat)) (bad : Bool),
    x.n < 48 →
    ((chUnit x idx e l cells).run s = (.ok bad, t) ∨ (chKron x idx e l cells).run s = (.ok bad, t)) →
    (bad = true → (∀ i, tabFind s.dram (s.atomKey i) ≠ none → (t.atomStored i).2 = (s.atomStored i).2) ∧
      CountedUp s t (Reg.CHURN_NONFINITE x.n) 1) ∧
    (bad = false → t.regN (Reg.CHURN_NONFINITE x.n) = s.regN (Reg.CHURN_NONFINITE x.n))

/-- The arithmetic of the Churn's updates and what its units write (R367–R373, R376). -/
def Obligations.ChurnUpdatesAndWrites : Prop :=
  churnRoundsToNearest ∧ churnRulesUpdateElements ∧ kroneckerFactorsAndP ∧ churnRequantisesBlocks ∧ churnWritesArraysAndCopies ∧
  nonfiniteUnitsWriteNothing

/-- A root engine that runs nothing starts its oldest queued job, unless its Churn runs a command that holds the job's entry (R363);
a job that ends is counted and leaves the engine, the first failure of a command's jobs stays with its entry, and the command whose
last job it was completes (R377, R378, R380, R381). -/
def Obligations.RootEnginesRunTheirJobs : Prop :=
  ∀ (s x : State) (i : RimId) (j : RootJob) (rest : List RootJob) (ok : Bool) (f : Fail),
    let e := s.root i.val
    let both := e.cmds.any (fun r => r.ring == j.ring && r.slot == j.slot && r.accepted.contains j.entry)
    (e.queue = j :: rest → e.running = none → s.rootEnabled i.val = true → rootPresent s.variant = true →
      s.churnHolds j.churn j.entry = false → (∀ m ∈ e.waiting, m / 12 = i.val) →
      Ends (exec (.rootJob i) s) (fun t =>
        (t.root i.val).running = some j ∧ (t.rootQueued i.val).length + 1 = (s.rootQueued i.val).length ∧
        (t.root i.val).cmds = e.cmds ∧ t = { s with churns := t.churns, roots := t.roots })) ∧
    ((e.queue = [] ∨ (∃ y ∈ e.queue.head?, s.churnHolds y.churn y.entry = true) ∨ e.running ≠ none ∨ s.rootEnabled i.val = false ∨
        rootPresent s.variant = false) →
      exec (.rootJob i) s = .next s) ∧
    (e.running = none → exec (.rootJobEnd i) s = .next s) ∧
    (e.running = some j → ∃ u : State,
      u = { s with roots := u.roots, regs := u.regs } ∧ u.root i.val = { e with running := none } ∧
      u.reg64 (Reg.CHURN_ROOT_JOBS_LO i.val) = (s.reg64 (Reg.CHURN_ROOT_JOBS_LO i.val) + 1) % 2 ^ 64 ∧
      ((chJob i.val j both).run u = (.ok ok, x) → exec (.rootJobEnd i) s = .next (x.rootJobOver i.val j none ok)) ∧
      ((chJob i.val j both).run u = (.error f, x) →
        exec (.rootJobEnd i) s = .next (x.rootJobOver i.val j (some f) false))) ∧
    (∀ r : RootCmd, (x.root i.val).cmds = [r] → r.ring = j.ring → r.slot = j.slot →
      let t := x.rootJobOver i.val j none ok
      (1 < r.left → t.root i.val = { x.root i.val with
        cmds := [{ r with left := r.left - 1, accepted := if ok then r.accepted ++ [j.entry] else r.accepted }] }) ∧
      (1 < r.left → r.status = 0 → (x.rootJobOver i.val j (some f) false).root i.val = { x.root i.val with
        cmds := [{ r with left := r.left - 1, status := f.stop.code, entry := j.entry, seq := f.seq }] }) ∧
      (r.left = 1 → r.status = 0 → (t.root i.val).cmds = [] ∧
        churnDone { x with roots := t.roots } t ((r.ring - 25600) / 4) (rootCmdOf x r) 0))

/-- The state that a request leaves at its target: the scheduler's note of a task's first record stands apart from it (log entry 57). -/
def atTarget (x t : State) : Prop := t = { x with sched := { x.sched with firstRec := t.sched.firstRec } }

/-- A request has been accepted at its target: from `u` it is counted, and the answer with status 0 and a payload is sent. -/
def answered (u t : State) (hdr : BitVec 128) (payload : List Dword) : Prop :=
  ∃ w : State, atTarget (w.spanAnswer hdr 0 payload) t ∧ w.reg64 Reg.SPAN_SERVED_LO = (u.reg64 Reg.SPAN_SERVED_LO + 1) % 2 ^ 64 ∧
    RegsSameBut u w [Reg.SPAN_SERVED_LO, Reg.SPAN_SERVED_LO + 4] ∧ w = { u with regs := w.regs }

/-- A request has been refused at its target: from `u` it is counted, and the answer with its status is sent. -/
def turnedAway (u t : State) (hdr : BitVec 128) (status : Nat) : Prop :=
  ∃ w : State, atTarget (w.spanAnswer hdr status []) t ∧ CountedUp u w Reg.SPAN_NACKS 1 ∧ RegsSameBut u w [Reg.SPAN_NACKS] ∧
    w = { u with regs := w.regs }

/-- A windowed request that arrives is checked in order: the window is open in the request's generation, else status 1; the
target lies in the window, else 2; the source is in its group and the operation is permitted, else 3. One that passes has its
effect on the target and is answered: READ with the words, WRITE with none, FADD and CAS with the old value (R399–R401). -/
def windowedRequestsAreCheckedAndServed : Prop :=
  ∀ (s u v : State) (hdr : BitVec 128) (payload : List Dword) (bs : List Byte) (old : Dword),
    let h := SpanHdr.of hdr
    let w := h.window
    let ask : List (Nat × List Dword × Instr) := [(0, [], .spanRead hdr), (1, payload, .spanWrite hdr payload),
      (2, payload, .spanFadd hdr payload), (3, payload, .spanCas hdr payload), (5, payload, .spanPartial hdr payload)]
    (∀ e ∈ ask, s.reqArrival e.1 hdr e.2.1 = none → exec e.2.2 s = .next s) ∧
    (∀ e ∈ ask, s.reqArrival e.1 hdr e.2.1 = some u →
      let live : Prop := u.winOpen w = true ∧ h.gen = u.winGeneration w
      let inside : Prop := u.winBase w ≤ h.target ∧ h.target + h.bytes ≤ u.winLimit w
      let may : Prop := u.inGroup (u.winGroup w) h.src = true ∧ bitOf (u.winPerm w) (opPerm h.op) = true
      (¬ live → Ends (exec e.2.2 s) (turnedAway u · hdr 1)) ∧
      (live → ¬ inside → Ends (exec e.2.2 s) (turnedAway u · hdr 2)) ∧
      (live → inside → ¬ may → Ends (exec e.2.2 s) (turnedAway u · hdr 3)) ∧
      (live → inside → may → kindAllows (u.winKind w) h.op = false → Ends (exec e.2.2 s) (turnedAway u · hdr 13))) ∧
    (s.reqArrival 0 hdr [] = some u → u.winCheck h = 0 → u.targetRead (u.winKind w) h.target h.bytes = (v, bs, 0) →
      Ends (exec (.spanRead hdr) s) (answered v · hdr (bytesDwords h.len bs))) ∧
    (s.reqArrival 1 hdr payload = some u → u.winCheck h = 0 →
      u.targetWrite h.target (payload.flatMap (fun x => leBytes x.toNat 8)) = (v, 0) →
      Ends (exec (.spanWrite hdr payload) s) (answered v · hdr [])) ∧
    (∀ a rest, payload = a :: rest → s.reqArrival 2 hdr payload = some u → u.winCheck h = 0 →
      u.targetAtomic h.target (fun x => some (x + a)) = (v, old, 0) →
      Ends (exec (.spanFadd hdr payload) s) (answered v · hdr [old])) ∧
    (∀ a b, payload = [a, b] → s.reqArrival 3 hdr payload = some u → u.winCheck h = 0 →
      u.targetAtomic h.target (fun x => if x = a then some b else none) = (v, old, 0) →
      Ends (exec (.spanCas hdr payload) s) (answered v · hdr [old]))

/-- PARTIAL's values enter the add-port buffer of its tile's core, which answers it once each has been added or dropped, and it keeps
its receive buffer while that has no room (R402, R404).
MSG posts its entry to a LOCAL or SPAN_MSG ring of its entry size, and is refused where the source is outside the message group, with 3,
where sizes differ, with 13, or where the ring is full, with 5 (R199, R400). TAKE leaves its entry on the ring of its source for
the Teller, which counts and answers it, and is denied with 7 where remote_ok is 0 (R317, R318, R415). -/
def partialsMessagesAndTakesReachTheirUnit : Prop :=
  ∀ (s u v : State) (hdr : BitVec 128) (payload : List Dword) (c l wd x : Nat),
    let h := SpanHdr.of hdr
    let ring := h.target % 2 ^ 15
    let size := 2 ^ (h.target / 2 ^ 15 % 8 + 3)
    let bytes := payload.flatMap (fun x => leBytes x.toNat 8)
    (s.reqArrival 5 hdr payload = some u → u.winCheck h = 0 → addViewPlace h.target = some (c, l, wd) → h.target % 8 = 0 →
      ((u.core c).adds.length + payload.length ≤ 64 → Ends (exec (.spanPartial hdr payload) s) (fun t =>
        (t.core c).adds.length = (u.core c).adds.length + payload.length ∧ (t.core c).adds.take (u.core c).adds.length = (u.core c).adds ∧
        t.core c = { u.core c with adds := (t.core c).adds } ∧ (∀ d, d ≠ c → t.core d = u.core d) ∧
        t = { u with cores := t.cores, span := { u.span with
          served := u.span.served ++ [⟨u.span.nextServed, hdr, c, payload.length, false⟩], nextServed := u.span.nextServed + 1 } })) ∧
      (64 < (u.core c).adds.length + payload.length → exec (.spanPartial hdr payload) s = .next s)) ∧
    (s.reqArrival 4 hdr payload = some u →
      let member := u.inGroup (u.field Reg.SPAN_MSG_GROUP 0 4) h.src
      (member = false → Ends (exec (.spanMsg hdr payload) s) (turnedAway u · hdr 3)) ∧
      (member = true → (size ≠ u.ringEntry ring ∨ 8 * h.len ≠ size) →
        Ends (exec (.spanMsg hdr payload) s) (turnedAway u · hdr 13)) ∧
      (member = true → size = u.ringEntry ring → 8 * h.len = size → u.ringTakesMsg ring = true →
        (u.ringIsFull ring = true → Ends (exec (.spanMsg hdr payload) s) (turnedAway (u.ringRefuse ring) · hdr 5)) ∧
        (u.ringPost 0xFF ring (ringKindOf ring) bytes = (v, .slot x) →
          Ends (exec (.spanMsg hdr payload) s) (answered v · hdr [])))) ∧
    (s.reqArrival 6 hdr payload = some u → h.len = 1 →
      let ctr := h.target % 2 ^ 10
      let svc := 25792 + h.src % 64
      (u.ctrRemote ctr = false → ∃ y : State, CountedUp u y Reg.TELL_REMOTE_DENIED 1 ∧ y = { u with regs := y.regs } ∧
        RegsSameBut u y [Reg.TELL_REMOTE_DENIED, Reg.TELL_FAULT] ∧
        Ends (exec (.spanTake hdr payload) s) (turnedAway y · hdr 7)) ∧
      (u.ctrRemote ctr = true → u.ringKind svc = 6 → u.ringEntry svc = 16 →
        u.ringPost 0xFF svc 6 (takeEntryBytes ctr (payload.headD 0).toNat h.src h.tag) = (v, .slot x) →
        Ends (exec (.spanTake hdr payload) s) (atTarget v))) ∧
    (s.reqArrival 4 hdr payload = none → exec (.spanMsg hdr payload) s = .next s) ∧
    (s.reqArrival 6 hdr payload = none → exec (.spanTake hdr payload) s = .next s)

/-- Span requests at their target (R399–R404). -/
def Obligations.SpanRequestsAreServed : Prop := windowedRequestsAreCheckedAndServed ∧ partialsMessagesAndTakesReachTheirUnit

/-- A response ends the request whose tag it carries: an instruction's operation takes its value or the fault that its status names,
with the node, the window and the Span address of the request (R506), and a write's transfer no longer waits for it, where no request
waits for the tag that is free again; one whose tag is not outstanding is discarded (R401, R402). A request that times out ends with
SPAN.TIMEOUT and its tag cools until TAG_REUSE frees it (R402). -/
def Obligations.ResponsesAndTimeoutsEndRequests : Prop :=
  ∀ (s u : State) (hdr : BitVec 128) (payload : List Dword) (tag : Half) (q : SpanReq) (c id : Nat),
    let h := SpanHdr.of hdr
    let g := SpanHdr.of q.item.hdr
    let fault (code : Nat) : Stop := if code / 256 = 0x60 then { Stop.of code with
      node := g.dst, window := g.window, addr := if g.op = 4 ∨ g.op = 6 then none else some (g.dst * 2 ^ 48 + g.target) } else Stop.of code
    (s.rspArrival hdr payload = none → exec (.rsp hdr payload) s = .next s) ∧
    (s.rspArrival hdr payload = some u →
      (u.outstanding h = none → exec (.rsp hdr payload) s = .next u) ∧
      (u.outstanding h = some q → q.use = .op c id → u.span.tagWait = [] → Ends (exec (.rsp hdr payload) s) (fun t =>
        t.core c = (u.core c).opDone id (if h.status = 0 then ⟨0, payload.head?, Stop.of 0⟩
          else ⟨spanStatusCode h.status, none, fault (spanStatusCode h.status)⟩) ∧
        (∀ d, d ≠ c → t.core d = u.core d) ∧ tabFind t.span.reqs h.tag = none ∧
        t = { u with cores := t.cores, span := { u.span with reqs := t.span.reqs } })) ∧
      (u.outstanding h = some q → q.use = .xferWrite c id → h.status = 0 → u.span.tagWait = [] → Ends (exec (.rsp hdr payload) s) (fun t =>
        t.core c = { u.core c with dma := (u.core c).dma.map (fun x =>
          if x.id = id then { x with spanWait := x.spanWait.erase h.tag } else x) } ∧
        (∀ d, d ≠ c → t.core d = u.core d) ∧ tabFind t.span.reqs h.tag = none))) ∧
    (tabFind s.span.reqs tag.toNat = some q → q.sent = true → Ends (exec (.spanTimeout tag) s) (fun t =>
      tabFind t.span.reqs tag.toNat = none ∧ t.span.cooling = s.span.cooling ++ [tag.toNat] ∧
      CountedUp s t Reg.SPAN_TIMEOUTS 1 ∧ (∀ x, x ≠ tag.toNat → tabFind t.span.reqs x = tabFind s.span.reqs x) ∧
      (q.use = .op c id → t.core c = (s.core c).opDone id ⟨0x600D, none, fault 0x600D⟩))) ∧
    ((tabFind s.span.reqs tag.toNat = none ∨ (tabFind s.span.reqs tag.toNat = some q ∧ q.sent = false)) →
      exec (.spanTimeout tag) s = .next s) ∧
    Ends (exec (.tagReuse tag) s) (fun t => tag.toNat ∉ t.span.cooling ∧
      (∀ x, x ≠ tag.toNat → (x ∈ t.span.cooling ↔ x ∈ s.span.cooling)) ∧
      (s.span.tagWait = [] → t = { s with span := { s.span with cooling := t.span.cooling } }))

/-- A manager sends its heartbeat with itself present and every node absent whose ECHO is missing for three of them, and an ECHO of
its term makes a node present again (R406, R407). A HEARTBEAT of a term below the highest accepted is refused; any other is accepted:
its term, map and manager stand, a manager of a lower term becomes a worker, a FROZEN module leaves FROZEN, and an ECHO answers
(R407–R409). -/
def heartbeatsCarryTermAndMap : Prop :=
  ∀ (s u : State) (src : Byte) (msg : BitVec 512) (word : Dword),
    let h := Heartbeat.of msg
    let node := src.toNat
    (spanPresent s.variant = true → s.spanRole = 1 → ∃ w : State, exec .heartbeatSend s = .next w.heartbeatOut ∧
      w.domainSt = 1 ∧ (∀ n, n < 256 → w.span.present.getLsbD n =
        (n == s.nodeId || (s.span.present.getLsbD n && decide (tabGet 0 s.span.missed n < 3)))) ∧
      w = { s with span := { s.span with present := w.span.present }, regs := w.regs } ∧
      w.regN Reg.SPAN_MAP_VERSION =
        (s.regN Reg.SPAN_MAP_VERSION + if w.span.present = s.span.present then 0 else 1) % 2 ^ 32) ∧
    ((spanPresent s.variant = false ∨ s.spanRole ≠ 1) → exec .heartbeatSend s = .next s) ∧
    (s.mgtArrival 0 node (numDwords msg.toNat 8) = some u →
      (h.term < u.term → exec (.heartbeat src msg) s = .next u) ∧
      (u.term ≤ h.term → ∃ w x : State,
        exec (.heartbeat src msg) s = .next (x.mgtSend node 1 [BitVec.ofNat 64 (h.term + h.version * 2 ^ 16)]) ∧
        w.term = h.term ∧ w.regN Reg.SPAN_MAP_VERSION = h.version ∧ w.span.present = h.mask ∧ w.span.manager = some h.manager ∧
        w.spanRole = (if u.spanRole = 1 ∧ u.term < h.term then 0 else u.spanRole) ∧
        (∀ n, n < 256 → w.field (Reg.SPAN_ROUTE n) 1 1 = if h.mask.getLsbD n then 0 else 1) ∧ w.cores = u.cores ∧
        ((u.frozen = true ∧ x = w.leaveFrozen ∧ x.domainSt = 1) ∨ (u.frozen = false ∧ x = w ∧ w.domainSt = 1)))) ∧
    (s.mgtArrival 1 node [word] = some u →
      (word.toNat % 2 ^ 16 = u.term → u.spanRole = 1 → Ends (exec (.echo src word) s) (fun t =>
        tabGet 0 t.span.missed node = 0 ∧ (∀ n, n < 256 → t.span.present.getLsbD n = (n == node || u.span.present.getLsbD n)) ∧
        t = { u with span := { u.span with present := t.span.present, missed := t.span.missed }, regs := t.regs })) ∧
      ((word.toNat % 2 ^ 16 ≠ u.term ∨ u.spanRole ≠ 1) → exec (.echo src word) s = .next u)) ∧
    (s.mgtArrival 0 node (numDwords msg.toNat 8) = none → exec (.heartbeat src msg) s = .next s) ∧
    (s.mgtArrival 1 node [word] = none → exec (.echo src word) s = .next s)

/-- A manager writes REGISTRY and LINK entries into its registry at their places, and any other module drops them; RESYNC is answered
with REGISTRY for every open window (R406, R410). A module other than the manager freezes when no heartbeat comes, JOINED or ALONE, and
a FROZEN standby takes over with a new term and no standby, enters its own open windows and sends RESYNC to every node that is present
(R406, R408, R409). That its standby then reads 0, and which nodes it asks, is the model's choice (log entry 110). SPAN_NODE_CTL sets
role and standby, and the node ID while no port is ACTIVE (R405); SPAN_WIN_CLOSE closes a window while no task runs (R396, R415). -/
def domainRolesAndRegistry : Prop :=
  ∀ (s u : State) (src : Byte) (window : BitVec 12) (entry : BitVec 128) (msg : Dword) (r : Requester) (v : Word),
    let node := src.toNat
    (s.mgtArrival 2 node (numDwords entry.toNat 2 ++ [BitVec.ofNat 64 (node + window.toNat * 2 ^ 8)]) = some u →
      exec (.registry src window entry) s = .next (if u.spanRole = 1 then
        (u.lpddrWrite (u.registryBase + (4096 * node + window.toNat) * 16) (leBytes entry.toNat 16) 0xFF).1 else u)) ∧
    (s.mgtArrival 4 node [msg] = some u →
      exec (.link src msg) s = .next (if u.spanRole = 1 then
        (u.lpddrWrite (u.registryBase + 0x1000000 + (16 * node + msg.toNat / 2 ^ 16 % 16) * 4) (leBytes (msg.toNat % 2 ^ 13) 4) 0xFF).1
        else u)) ∧
    (s.mgtArrival 3 node [] = some u →
      exec (.resync src) s = .next (((List.range 4096).filter u.winOpen).foldl State.registrySend u)) ∧
    (spanPresent s.variant = true → s.spanRole ≠ 1 → s.domainSt ≠ 2 → Ends (exec .managerLost s) (fun t =>
      t.domainSt = 2 ∧ t.spanRole = s.spanRole ∧ t.term = s.term ∧ RegsSameBut s t [Reg.SPAN_STATUS] ∧ t = { s with regs := t.regs })) ∧
    ((spanPresent s.variant = false ∨ s.spanRole = 1 ∨ s.domainSt = 2) → exec .managerLost s = .next s) ∧
    (spanPresent s.variant = true → s.spanRole = 2 → s.domainSt = 2 → ∃ w : State,
      let x := ((List.range 4096).filter w.winOpen).foldl State.registrySend w
      exec .takeover s = .next ((x.domainNodes.filter (x.span.present.getLsbD ·)).foldl (fun t n => t.mgtSend n 3 []) x) ∧
      w.spanRole = 1 ∧ w.standbyNode = 0 ∧ w.term = (s.term + 1) % 2 ^ 16 ∧ w.domainSt = 1 ∧ w.span.manager = some s.nodeId ∧
      w.span.present.getLsbD s.nodeId = true) ∧
    ((spanPresent s.variant = false ∨ s.spanRole ≠ 2 ∨ s.domainSt ≠ 2) → exec .takeover s = .next s) ∧
    (spanPresent s.variant = true → Ends (exec (.spanNodeCtlWrite r v) s) (fun t =>
      let role := v.toNat / 2 ^ 8 % 4
      t.nodeId = (if s.anyActive then s.nodeId else v.toNat % 2 ^ 8) ∧ t.field Reg.SPAN_NODE_CTL 8 2 = role ∧
      t.standbyNode = v.toNat / 2 ^ 10 % 2 ^ 8 ∧ t.spanRole = (if role = 3 then s.spanRole else role))) ∧
    (spanPresent s.variant = true → s.sched.st = .idle → s.winOpen (v.toNat % 4096) = true →
      Ends (exec (.spanWinClose r v) s) (fun t => t.winOpen (v.toNat % 4096) = false ∧
        t.winGeneration (v.toNat % 4096) = (s.winGeneration (v.toNat % 4096) + 1) % 65536 ∧ t.cores = s.cores)) ∧
    ((spanPresent s.variant = false ∨ s.sched.st ≠ .idle ∨ s.winOpen (v.toNat % 4096) = false) →
      exec (.spanWinClose r v) s = .next s)

/-- Heartbeats, the map, roles, the registry and windows closed by register (R396, R405–R410, R415). The bit places of HEARTBEAT, ECHO
and LINK words are the model's (log entry 77). -/
def Obligations.DomainManagementMessages : Prop := heartbeatsCarryTermAndMap ∧ domainRolesAndRegistry

/-- A damaged flit is counted, discarded and asked for again, also while the port discards (log entry 74); the DATA flit that follows
the last one accepted is accepted, counted and its transactions go on (R386, R387), with the wait for credits counted where a flit
waited for them (R416). A port that is neither ACTIVE nor DRAINING receives nothing. -/
def flitsAreAcceptedInOrder : Prop :=
  ∀ (s : State) (port : SpanPort) (flit : BitVec 2048) (corr unc : Nat),
    let q := port.val
    let p := s.port q
    let f := Flit.of flit
    ((p.st = 2 ∨ p.st = 3) → (f.good = false ∨ unc ≠ 0) → Ends (exec (.flitReceive port flit corr unc) s) (fun t =>
      CountedUp s t (Reg.SPAN_PORT_CRC_ERRS q) 1 ∧ CountedUp s t (Reg.SPAN_PORT_RETRIES q) 1 ∧
      CountedUp s t (Reg.SPAN_PORT_FEC_CORR q) corr ∧ CountedUp s t (Reg.SPAN_PORT_FEC_UNCORR q) unc ∧
      RegsSameBut s t [Reg.SPAN_PORT_CRC_ERRS q, Reg.SPAN_PORT_RETRIES q, Reg.SPAN_PORT_FEC_CORR q, Reg.SPAN_PORT_FEC_UNCORR q] ∧
      t.port q = { p with discarding := true } ∧ (∀ x, x ≠ q → t.port x = s.port x) ∧
      t = { s with regs := t.regs, span := { s.span with ports := t.span.ports } })) ∧
    ((p.st = 2 ∨ p.st = 3) → f.good = true → unc = 0 → f.retry = false → f.kind = 0 → f.seq = (p.rxSeq + 1) % 4096 →
      ∃ (w : State) (n : Nat), exec (.flitReceive port flit corr unc) s = .next ((w.itemsIn q f.vc n).portSettle q) ∧
        w.port q = { p.acked f with rxSeq := f.seq, discarding := false, rx := (w.port q).rx } ∧
        tabGet [] (w.port q).rx f.vc = tabGet [] p.rx f.vc ++ markSlots f.slots ∧
        n = (tabGet [] (w.port q).rx f.vc).length ∧
        w.reg64 (Reg.SPAN_PORT_RX_LO q) = (s.reg64 (Reg.SPAN_PORT_RX_LO q) + 1) % 2 ^ 64 ∧
        CountedUp s w (Reg.SPAN_PORT_FEC_CORR q) corr ∧
        RegsSameBut s w [Reg.SPAN_PORT_RX_LO q, Reg.SPAN_PORT_RX_LO q + 4, Reg.SPAN_PORT_FEC_CORR q, Reg.SPAN_PORT_FEC_UNCORR q,
          Reg.SPAN_PORT_CREDIT_WAIT q] ∧
        (p.starved (s.dateline q) = false → w.reg (Reg.SPAN_PORT_CREDIT_WAIT q) = s.reg (Reg.SPAN_PORT_CREDIT_WAIT q))) ∧
    (p.st ≠ 2 → p.st ≠ 3 → exec (.flitReceive port flit corr unc) s = .next s)

/-- Span ports change state as R411, R412, R414, R416 and R459 say: a drain is asked for, arrives or times out; a drain that is
cleared enables a drained port; enable 0 holds a port DOWN; INIT that has passed both ways makes it ACTIVE with full credits; a port
that goes down is counted; a port that may train enters TRAINING and sends INIT. -/
def spanPortsChangeState : Prop :=
  ∀ (s : State) (r : Requester) (port : SpanPort) (node : Byte) (peer : BitVec 4) (seq : BitVec 12) (on : Bool),
    let q := port.val
    let p := s.port q
    let ctl := Reg.SPAN_PORT_CTL q
    let fit : Prop := s.qst (244 + q) = 1 ∧ s.field (Reg.SPAN_PORT_MODULE q) 16 1 = 1 ∧ s.domainOn (24 + q / 8) = true
    let trains (t : State) : Prop := (t.port q).st = 1 ∧ (t.port q).initSent = true ∧ (t.port q).replay = []
    (spanPresent s.variant = true → (p.st = 0 ∨ p.st = 1 ∨ p.st = 2) → s.qst (244 + q) = 1 →
      ∃ w : State, exec (.spanPortDrain r port) s = .next (w.linkSend q false) ∧ w.field ctl 0 1 = 1 ∧ w.qst (244 + q) = 2 ∧
        w.port q = { p with st := 3, drainSent := true, drainSeen := false } ∧ RegsSameBut s w [ctl, Reg.PWR_QSTATE (244 + q)]) ∧
    (spanPresent s.variant = true → (p.st = 3 ∨ p.st = 4 ∨ s.qst (244 + q) ≠ 1) → Ends (exec (.spanPortDrain r port) s) (fun t =>
      t.field ctl 0 1 = 1 ∧ RegsSameBut s t [ctl] ∧ t = { s with regs := t.regs })) ∧
    (spanPresent s.variant = true → ∃ w : State, exec (.spanPortUndrain r port) s = .next (w.portEnableReq q) ∧
      w.field ctl 0 1 = 0 ∧ w.gestureDrain (q / 2) = false ∧ RegsSameBut s w [ctl, Reg.SISYN_FP_CAGE (q / 2)] ∧
      w = { s with regs := w.regs } ∧
      (s.qst (244 + q) = 3 → s.field ctl 2 1 = 1 → s.field (Reg.SPAN_PORT_MODULE q) 16 1 = 1 → s.domainOn (24 + q / 8) = true →
        (w.portEnableReq q).qst (244 + q) = 1 ∧ trains (w.portEnableReq q))) ∧
    (spanPresent s.variant = true →
      (on = true → p.st = 0 → fit → Ends (exec (.spanPortEnable r port on) s) (fun t =>
        t.field ctl 2 1 = 1 ∧ trains t ∧ RegsSameBut s t [ctl])) ∧
      (on = false → (p.st = 1 ∨ p.st = 2) → ∃ w : State, exec (.spanPortEnable r port on) s = .next (w.portFail q) ∧
        w.field ctl 2 1 = 0 ∧ RegsSameBut s w [ctl] ∧ w = { s with regs := w.regs }) ∧
      (on = false → p.st = 3 → ∃ w : State, exec (.spanPortEnable r port on) s = .next ((w.portFail q).portQuiesced q) ∧
        w.field ctl 2 1 = 0 ∧ RegsSameBut s w [ctl] ∧ w = { s with regs := w.regs }) ∧
      (on = false → p.st = 4 → Ends (exec (.spanPortEnable r port on) s) (fun t =>
        (t.port q).st = 0 ∧ t.field ctl 2 1 = 0 ∧ RegsSameBut s t [ctl] ∧ (∀ x, x ≠ q → t.port x = s.port x)))) ∧
    ((p.st = 2 ∨ p.st = 3) → s.qst (244 + q) = (if p.st = 2 then 1 else 2) →
      ∃ w : State, exec (.drain port) s = .next (w.drainCheck q) ∧ (w.port q).st = 3 ∧ (w.port q).drainSeen = true ∧
        w.qst (244 + q) = 2) ∧
    (p.st = 3 → ∃ w : State, exec (.drainTimeout port) s = .next (w.portQuiesced q) ∧ (w.port q).st = 4 ∧ (w.port q).replay = [] ∧
      (w.port q).waiting = []) ∧
    (p.st = 1 → p.initSent = true → ∃ w : State, exec (.init port node peer seq) s = .next (w.linkSend q true) ∧
      w.port q = { p with st := 2, initSeen := true, rxSeq := (seq.toNat + 4095) % 4096, credits := [] } ∧
      w.field (Reg.SPAN_PORT_STATUS q) 4 8 = node.toNat ∧ w.field (Reg.SPAN_PORT_STATUS q) 12 4 = peer.toNat ∧
      RegsSameBut s w [Reg.SPAN_PORT_STATUS q]) ∧
    ((p.st = 1 ∨ p.st = 2) → ∃ w : State, exec (.portDown port) s = .next (w.linkSend q false) ∧ (w.port q).st = 0 ∧
      CountedUp s w (Reg.SPAN_PORT_DOWNS q) (if p.st = 2 then 1 else 0)) ∧
    (p.st = 0 → on = true → Ends (exec (.trainRetry port on) s) (fun t =>
      ((fit ∧ s.field ctl 2 1 = 1) → trains t) ∧ (¬ (fit ∧ s.field ctl 2 1 = 1) → (t.port q).st = 0) ∧
      t = { s with span := { s.span with ports := t.span.ports } })) ∧
    (p.st ≠ 1 → p.st ≠ 2 → exec (.portDown port) s = .next s) ∧
    (p.st ≠ 2 → p.st ≠ 3 → exec (.drain port) s = .next s) ∧ (p.st ≠ 3 → exec (.drainTimeout port) s = .next s) ∧
    ((p.st ≠ 1 ∨ p.initSent = false) → exec (.init port node peer seq) s = .next s) ∧
    ((p.st ≠ 0 ∨ on = false) → exec (.trainRetry port on) s = .next s)

/-- A module in a cage is shown in both ports of the cage with its identifier and power, and accepted where its lanes serve and its
power is at most 5.0 W (R385, R414); one that leaves is no longer shown, and its ports that were not DRAINED are DOWN (R478). -/
def cagesShowTheirModules : Prop :=
  ∀ (s : State) (cage : CageId) (id power : Byte) (lanesOk : Bool),
    let k := cage.val
    (spanPresent s.variant = true → s.cageModule k = false →
      Ends (exec (.modulePlugged cage id power lanesOk) s) (fun t => t.cageModule k = true ∧
        (∀ q, (q = 2 * k ∨ q = 2 * k + 1) → t.field (Reg.SPAN_PORT_STATUS q) 3 1 = 1 ∧
          t.regN (Reg.SPAN_PORT_MODULE q) =
            id.toNat + power.toNat * 2 ^ 8 + (if lanesOk = true ∧ power.toNat ≤ 50 then 1 else 0) * 2 ^ 16))) ∧
    (spanPresent s.variant = true → s.cageModule k = true → Ends (exec (.moduleUnplugged cage) s) (fun t =>
      t.cageModule k = false ∧
      (∀ q, (q = 2 * k ∨ q = 2 * k + 1) → t.field (Reg.SPAN_PORT_STATUS q) 3 1 = 0 ∧ t.regN (Reg.SPAN_PORT_MODULE q) = 0 ∧
        ((s.port q).st = 1 ∨ (s.port q).st = 2 ∨ (s.port q).st = 3 → (t.port q).st = 0) ∧
        ((s.port q).st = 4 → (t.port q).st = 4)))) ∧
    ((spanPresent s.variant = false ∨ s.cageModule k = true) → exec (.modulePlugged cage id power lanesOk) s = .next s) ∧
    ((spanPresent s.variant = false ∨ s.cageModule k = false) → exec (.moduleUnplugged cage) s = .next s)

/-- Span ports receive flits and change state, and cages show their modules (R385–R387, R411–R416, R478). -/
def Obligations.SpanPortsAndCages : Prop := flitsAreAcceptedInOrder ∧ spanPortsChangeState ∧ cagesShowTheirModules

/-- Accesses through a port's BAR2 reach local memory at the aperture's base plus the offset, the base's bits below the BAR's size
taken as zero; one that reaches beyond LPDDR is counted, a read of it answered Unsupported Request and a write dropped (R420, R421),
and a read that memory fails is aborted; that both are noted in the function's error registers is log entry 100.
An unassigned BAR0 offset reads zero and ignores writes, and is counted (R422). A P64 write of 8 aligned bytes waits in the add-port
buffer of its core while that has room, and any other write to a ledger add view completes with error status (R92). -/
def aperturesAndAddViews : Prop :=
  ∀ (s u : State) (port : HostPort) (offset : BitVec 48) (len : Nat) (bytes : List Byte) (x : BitVec 28) (wr : Bool) (c : CoreId)
    (o : BitVec 16) (wide : Bool) (v : Dword) (size : BitVec 6),
    let p := hostNum port
    let z := 2 ^ s.barLog p
    let a := s.field (Reg.HOST_APT_BASE p) 0 12 / z * z * 2 ^ 30 + offset.toNat
    let ranged (t : State) : Prop := CountedUp s t (Reg.HOST_APT_RANGE p) 1 ∧ RegsSameBut s t [Reg.HOST_APT_RANGE p]
    let noted (t : State) (bit : Nat) : Prop :=
      t.cfg p = { s.cfg p with aer := { (s.cfg p).aer with uncStatus := (s.cfg p).aer.uncStatus ||| 1#32 <<< bit } } ∧
      t.cfg (1 - p) = s.cfg (1 - p)
    let cfgs (t : State) : HostState := { s.hosts with cfgA := t.hosts.cfgA, cfgB := t.hosts.cfgB }
    (0 < len → offset.toNat + len ≤ z * 2 ^ 30 →
      (s.lpddrEnd < a + len → Ends (exec (.bar2Read port offset len) s) (fun t =>
        ranged t ∧ replied t p 1 0 [] ∧ noted t 20 ∧ t = { s with regs := t.regs, replies := t.replies, hosts := cfgs t })) ∧
      (∀ bs st, a + len ≤ s.lpddrEnd → s.lpddrRead a len 0xFF = (u, bs, st) → Ends (exec (.bar2Read port offset len) s) (fun t =>
        (st.code = 0 → replied t p 0 0 bs ∧ t = { u with replies := t.replies, sched := s.sched }) ∧
        (st.code ≠ 0 → replied t p 2 0 [] ∧ (t.cfg p).aer.uncStatus.getLsbD 15 = true ∧
          t = { u with replies := t.replies, sched := s.sched, hosts := { u.hosts with cfgA := t.hosts.cfgA, cfgB := t.hosts.cfgB } })))) ∧
    (bytes ≠ [] → offset.toNat + bytes.length ≤ z * 2 ^ 30 →
      (s.lpddrEnd < a + bytes.length → Ends (exec (.bar2Write port offset bytes) s) (fun t =>
        ranged t ∧ t = { s with regs := t.regs })) ∧
      (∀ st, a + bytes.length ≤ s.lpddrEnd → s.lpddrWrite a bytes 0xFF = (u, st) →
        Ends (exec (.bar2Write port offset bytes) s) (atTarget u))) ∧
    (mapAssigns x.toNat = false → Ends (exec (.unmappedAccess port x wr) s) (fun t =>
      CountedUp s t (Reg.HOST_UNMAPPED p) 1 ∧ RegsSameBut s t [Reg.HOST_UNMAPPED p] ∧
      (wr = false → tabGet 0 t.answers p = 0) ∧ t = { s with regs := t.regs, answers := if wr then s.answers else t.answers })) ∧
    (mapAssigns x.toNat = true → exec (.unmappedAccess port x wr) s = .next s) ∧
    (wide = true → o.toNat % 8 = 0 →
      ((s.core c.val).adds.length < 64 → Ends (exec (.addViewWrite port c o wide v) s) (fun t =>
        t.core c.val = { s.core c.val with
          adds := (s.core c.val).adds ++ [⟨.host, o.toNat / 0x2000, o.toNat % 0x2000 / 8, v⟩] } ∧ OnlyCore s t c.val)) ∧
      (64 ≤ (s.core c.val).adds.length → exec (.addViewWrite port c o wide v) s = .next s)) ∧
    ((wide = false ∨ o.toNat % 8 ≠ 0) → Ends (exec (.addViewWrite port c o wide v) s) (fun t =>
      replied t p 3 0x2204 [] ∧ t = { s with replies := t.replies })) ∧
    (size.toNat ≤ 12 → s.portReady p = true → Ends (exec (.resizableBarWrite port size) s) (fun t =>
      t.cfg p = { s.cfg p with bar := if (s.cfg p).command.getLsbD 1 = true then s.barLog p else size.toNat } ∧
      t.cfg (1 - p) = s.cfg (1 - p) ∧ replied t p 0 0 [] ∧
      t = { s with hosts := cfgs t, replies := t.replies })) ∧
    (size.toNat ≤ 12 → s.portReady p = false → Ends (exec (.resizableBarWrite port size) s) (fun t =>
      replied t p 4 0 [] ∧ t = { s with replies := t.replies })) ∧
    (12 < size.toNat → exec (.resizableBarWrite port size) s = .next s)

/-- A port reset disables and empties every host ring bound to its port and no other, restores its configuration space and MSI-X table
with every vector masked, clears the port's aperture and event registers, drops what waits for its hosts, discards the completion of a
task that the port submitted, and is counted; PERST#, a hot reset and a lost link take the link down, and a Function Level Reset keeps it
(R437). PERST# released and a reference clock let the link train, and it is up with a speed and width that the port supports (R438, R439,
R515). -/
def portResetsAndLinks : Prop :=
  ∀ (s : State) (port : HostPort) (kind : PortResetKind) (refclk : Bool) (link : LinkInfo),
    let p := hostNum port
    let fits : Prop := 1 ≤ link.speed.toNat ∧ link.speed.toNat ≤ 6 ∧ link.width.toNat ∈ [1, 2, 4, 8] ∧
      (link.flit = true ↔ link.speed.toNat = 6)
    Ends (exec (.portReset port kind) s) (fun t =>
      (∀ ring, 16384 ≤ ring → ring < 17408 →
        (s.ringPort ring = p → t.ringKind ring = 0) ∧
        (s.ringPort ring ≠ p → t.ringKind ring = s.ringKind ring ∧ t.ringHead ring = s.ringHead ring ∧ t.ringTail ring = s.ringTail ring) ∧
        (s.ringPort ring = p → s.ringKind ring ≠ 0 → t.ringHead ring = 0 ∧ t.ringTail ring = 0)) ∧
      t.cfg p = ⟨0, false, false, 6, 0, 0, 0, 0, 2, ⟨0, 0x00400000, 0x00462030, 0, 0x0000E000⟩⟩ ∧ t.cfg (1 - p) = s.cfg (1 - p) ∧
      (∀ o, o < 2 ^ 16 → t.bar4Byte p o = if o < 0x8000 ∧ o % 16 = 12 then 1 else 0) ∧ t.reg (Reg.HOST_APT_BASE p) = 0 ∧ t.reg (Reg.HOST_EVENT_RING p) = 0 ∧
      CountedUp s t (Reg.HOST_RESETS p) 1 ∧
      (if kind = .functionLevel then t.reg (Reg.HOST_STATUS p) = s.reg (Reg.HOST_STATUS p) else t.reg (Reg.HOST_STATUS p) = 0) ∧
      (kind = .perst → t.perst p = true) ∧ (∀ e ∈ t.hosts.cplWait, s.ringPort e.ring ≠ p) ∧
      (∀ e ∈ t.hosts.copies, e.entry.port ≠ p) ∧ (∀ e ∈ t.hosts.msixWait, e.1 ≠ p) ∧
      t.hosts.discardTask = (s.hosts.discardTask || (s.sched.st != .idle && s.sched.entry.port == p)) ∧
      t.hosts.mem = s.hosts.mem ∧ t.cores = s.cores ∧ t.sched = s.sched) ∧
    (s.perst p = true → Ends (exec (.perstRelease port refclk) s) (fun t =>
      t.perst p = false ∧ t.refclk p = refclk ∧ t = { s with power := t.power })) ∧
    (s.perst p = false → exec (.perstRelease port refclk) s = .next s) ∧
    Ends (exec (.refclkArrival port) s) (fun t => t.refclk p = true ∧ t.perst p = s.perst p ∧ t = { s with power := t.power }) ∧
    (s.linkTrains p = true → fits → Ends (exec (.pcieLinkUp port link) s) (fun t =>
      t.field (Reg.HOST_STATUS p) 0 1 = (if s.power.loaded then 1 else 0) ∧ t.field (Reg.HOST_STATUS p) 1 1 = 1 ∧
      t.field (Reg.HOST_STATUS p) 2 1 = (if link.flit then 1 else 0) ∧ t.field (Reg.HOST_STATUS p) 3 3 = link.speed.toNat ∧
      t.field (Reg.HOST_STATUS p) 6 4 = link.width.toNat ∧ RegsSameBut s t [Reg.HOST_STATUS p] ∧ t = { s with regs := t.regs })) ∧
    ((s.linkTrains p = false ∨ ¬ fits) → exec (.pcieLinkUp port link) s = .next s)

/-- Apertures, unassigned offsets, add views, port resets and links (R92, R420–R422, R437–R439). What configuration space and the MSI-X
masks hold at reset is log entry 100, how apertures answer log entry 80, and the error of an ill-sized add-view write log entry 81. -/
def Obligations.HostPortsAccessAndReset : Prop := aperturesAndAddViews ∧ portResetsAndLinks

/-- A quiesce of an ENABLED unit begins: it is QUIESCING, and a Churn's parked commands and a root engine's queue are refused; an enable
returns a QUIESCED unit of a domain that is on to ENABLED, and waits for one that is QUIESCING; a request that names no present unit is
ignored and counted. A QUIESCING unit with no accepted work left, or whose time is over, is QUIESCED, or ENABLED where an enable waits
(R458, R459). -/
def unitsQuiesceAndEnable : Prop :=
  ∀ (s : State) (r : Requester) (v : Word) (unit : QUnit) (cut : List (CoreId × Nat)) (j : RootJob) (k : Nat),
    let named := qFind s.variant (v.toNat % 2 ^ 8) (v.toNat / 2 ^ 8 % 2 ^ 12)
    let on := bitOf v.toNat 20
    let q := qIndex unit
    let reached (t : State) (k : Nat) : Prop := t.qst k = if k ∈ s.power.enableWait then 1 else 3
    (named = none → ∀ i ∈ [(false, Instr.quiesceRequest r v), (true, .enableRequest r v)], on = i.1 → Ends (exec i.2 s) (fun t =>
      CountedUp s t Reg.PWR_REQ_IGNORED 1 ∧ RegsSameBut s t [Reg.PWR_REQ_IGNORED] ∧ t = { s with regs := t.regs })) ∧
    (named = some k → on = false →
      (s.qst k = 1 → (k < 244 ∨ (s.port (k - 244)).st < 3) → Ends (exec (.quiesceRequest r v) s) (fun t => t.qst k = 2 ∧
        (k < 48 → (t.churn k).parked = []) ∧ (48 ≤ k → k < 52 → (t.root (k - 48)).queue = []) ∧
        (52 ≤ k → k < 244 → RegsSameBut s t [Reg.PWR_QSTATE k] ∧ t = { s with regs := t.regs }))) ∧
      (s.qst k ≠ 1 → exec (.quiesceRequest r v) s = .next s)) ∧
    (named = some k → on = true → k < 244 →
      (s.domainOn (qDomain k) = true → s.qst k = 3 → Ends (exec (.enableRequest r v) s) (fun t => t.qst k = 1 ∧ t.watchRecord k = 1)) ∧
      (s.domainOn (qDomain k) = true → s.qst k = 2 → Ends (exec (.enableRequest r v) s) (fun t =>
        k ∈ t.power.enableWait ∧ t = { s with power := t.power })) ∧
      ((s.domainOn (qDomain k) = false ∨ s.qst k = 1) → exec (.enableRequest r v) s = .next s)) ∧
    (on = true → exec (.quiesceRequest r v) s = .next s) ∧ (on = false → exec (.enableRequest r v) s = .next s) ∧
    (s.qst q = 2 → s.qIdle unit = true → q < 244 → Ends (exec (.quiesceComplete unit) s) (fun t => reached t q)) ∧
    ((s.qst q ≠ 2 ∨ s.qIdle unit = false) → exec (.quiesceComplete unit) s = .next s) ∧
    (s.qst q = 2 → (q < 48 ∨ (52 ≤ q ∧ q < 244)) → Ends (exec (.quiesceTimeout ⟨unit, cut⟩) s) (fun t => reached t q)) ∧
    (∀ (i : ChurnId) w, unit = .churn i → s.qst q = 2 → (s.churn i.val).running = some w →
      Ends (exec (.quiesceTimeout ⟨unit, cut⟩) s) (fun t => (t.churn i.val).running = none ∧ reached t q ∧
        ∃ x, t.core w.cmd.core = (s.core w.cmd.core).opDone w.cmd.id ⟨0x8004, none, x⟩)) ∧
    (∀ (i : ChanId) (c : CoreId) id x, unit = .chan i → s.qst q = 2 → (c, id) ∈ cut → s.xfer c.val id = some x → x.started = true →
      x.discard = false → x.status = 0 → Ends (exec (.quiesceTimeout ⟨unit, cut⟩) s) (fun t =>
        reached t q ∧ ∃ y, t.xfer c.val id = some y ∧ y.status = 0x8004 ∧ y.moved = true)) ∧
    (∀ i : RimId, unit = .root i → s.qst q = 2 → (s.root i.val).running = some j →
      Ends (exec (.quiesceTimeout ⟨unit, cut⟩) s) (fun t => (t.root i.val).running = none ∧ reached t q)) ∧
    (s.qst q ≠ 2 → exec (.quiesceTimeout ⟨unit, cut⟩) s = .next s)

/-- A domain request that is not allowed is ignored and counted; an allowed one waits behind the one before it, and a request to turn
off quiesces every ENABLED unit of the domain and of those that depend on it (R443, R445). The domain turns off once its units are
QUIESCED, with those that depend on it, and loses all state in it, of another core only what waits for an add there; a domain that
comes up has its units ENABLED (R444–R446). -/
def domainsTurnOnAndOff : Prop :=
  ∀ (s : State) (r : Requester) (v : Word) (dom : DomainId) (failed : BitVec 192),
    let d := v.toNat % 2 ^ 5
    let on := bitOf v.toNat 5
    let reqs (t : State) (d : Nat) : List Bool := tabGet [] t.power.domReqs d
    let ask := if on then Instr.domainOnRequest r v else Instr.domainOffRequest r v
    let other := if on then Instr.domainOffRequest r v else Instr.domainOnRequest r v
    (s.domainAllowed d on = false → Ends (exec ask s) (fun t =>
      CountedUp s t Reg.PWR_REQ_IGNORED 1 ∧ RegsSameBut s t [Reg.PWR_REQ_IGNORED] ∧ t = { s with regs := t.regs })) ∧
    (s.domainAllowed d on = true → reqs s d ≠ [] → Ends (exec ask s) (fun t =>
      reqs t d = reqs s d ++ [on] ∧ t = { s with power := { s.power with domReqs := t.power.domReqs } })) ∧
    (s.domainAllowed d on = true → reqs s d = [] → on = true → s.domainOn d = false → Ends (exec ask s) (fun t =>
      reqs t d = [true] ∧ t = { s with power := { s.power with domReqs := t.power.domReqs } })) ∧
    (s.domainAllowed d on = true → reqs s d = [] → on = false → s.domainOn d = true → Ends (exec ask s) (fun t =>
      reqs t d = [false] ∧ t.domainOn d = true ∧ ∀ k ∈ unitsOf s.variant (withDependents d), s.qst k = 1 → (k < 244 ∨ (s.port (k - 244)).st < 3) → t.qst k = 2)) ∧
    exec other s = .next s ∧
    (s.domainHead dom.val = some false → s.domainOn dom.val = true → s.domainQuiet dom.val = true → s.domainFree dom.val = true →
      Ends (exec (.domainSwitch dom) s) (fun t =>
        t.domainOn dom.val = false ∧ (16 ≤ dom.val → dom.val < 20 → t.domainOn (dom.val + 4) = false) ∧
        t.domainHead dom.val ≠ some false ∧ (16 ≤ dom.val → dom.val < 20 → t.domainHead (dom.val + 4) ≠ some false) ∧
        (∀ c, c < 64 → if dom.val < 16 ∧ c / 4 = dom.val then t.core c = { Core.reset with nextOp := (s.core c).nextOp }
          else t.core c = { s.core c with ops := (t.core c).ops, dma := (t.core c).dma } ∧
            ((16 ≤ dom.val ∨ ((∀ x, x / 4 = dom.val → (s.core x).adds = []) ∧ s.span.winWait = [])) → t.core c = s.core c)) ∧
        (dom.val < 16 → ∀ c, c / 4 = dom.val → t.field (Reg.SPAD_STATUS c) 1 1 = 1))) ∧
    ((s.domainHead dom.val ≠ some false ∨ s.domainOn dom.val = false ∨ s.domainQuiet dom.val = false ∨ s.domainFree dom.val = false) →
      exec (.domainSwitch dom) s = .next s) ∧
    (reqs s dom.val = [true] → s.domainOn dom.val = false → s.domainFed dom.val = true → Ends (exec (.domainUp dom failed) s) (fun t =>
      t.domainOn dom.val = true ∧ reqs t dom.val = [] ∧ ∀ k ∈ unitsOf s.variant [dom.val], t.qst k = 1)) ∧
    ((s.domainHead dom.val ≠ some true ∨ s.domainOn dom.val = true ∨ s.domainFed dom.val = false) →
      exec (.domainUp dom failed) s = .next s)

/-- Units quiesce and return, and domains turn off and on (R443–R446, R458, R459). That a request to a unit of a domain that is off does
nothing, and that a domain that comes on enables its units, is log entry 85. -/
def Obligations.UnitsAndDomainsGoOffAndOn : Prop := unitsQuiesceAndEnable ∧ domainsTurnOnAndOff

/-- Every unit that a module reset reaches is at reset, with its cause, at step 3 of the power-up sequence with domains A and X on; host
memory, the daybook, Sisyn and the lifecycle stand (R455, R456). -/
def unitsReset (s t : State) (cause : Nat) : Prop :=
  t.cores = [] ∧ t.sched = Sched.reset ∧ t.hubOps = [] ∧ t.dram = [] ∧ t.churns = [] ∧ t.roots = [] ∧
  t.regN Reg.PWR_DOMAIN_STATE = 2 ^ 28 + 2 ^ 29 ∧ t.regN Reg.PWR_RESET_CAUSE = cause ∧ t.field Reg.PWR_STATUS 0 3 = 3 ∧
  t.hosts.mem = s.hosts.mem ∧ t.dbArea = s.dbArea ∧ t.sisyn = s.sisyn ∧ t.lc.state = s.lc.state ∧ t.lc.passbook = s.lc.passbook

/-- The power-up sequence has run to its end: firmware is loaded, and every domain that the configuration has is on (R447). -/
def poweredUp (t : State) : Prop :=
  t.power.loaded = true ∧ t.field Reg.PWR_STATUS 0 3 = 7 ∧ t.regN Reg.PWR_DOMAIN_STATE = bootDomains t.variant

/-- Power-on runs the whole sequence where Sisyn's firmware boots and counts a boot (R447, R465); losing AUX leaves the SPI NOR and the
fuses alone (R455, R517); V_IN restored and a resume after a trip run the sequence from step 3 (R453, R455). A module reset, a brown-out and
a thermal trip put every unit to reset with their cause (R449, R453, R455, R456). THERMTRIP# shows a trip until it resumes (R513), which
waits while the module is ready for removal (R518). That the sequence runs in one step, and waits in step 3 after each of these resets, is
log entry 83; what each reset keeps is log entry 84. -/
def Obligations.PowerOnAndModuleResets : Prop :=
  ∀ (s : State) (find : BootFindings) (r : Requester) (v : Word),
    (s.power.aux = false → Ends (exec (.powerOn find) s) (fun t =>
      t.power.aux = true ∧ t.power.vin = true ∧ t.dbBoot = (s.dbBoot + 1) % 65536 ∧ t.dram = [] ∧
      (t.sisyn.noFw = false → poweredUp t) ∧ (t.sisyn.noFw = true → t.power.loaded = false) ∧ t.variant = s.variant ∧
      t.sisyn.addr = find.addr)) ∧
    (s.power.aux = true → exec (.powerOn find) s = .next s ∧ Ends (exec .auxLoss s) (fun t =>
      t.power.aux = false ∧ t.power.vin = false ∧ t.power.loaded = false ∧ t.cores = [] ∧ t.dram = [] ∧ t.sched = Sched.reset ∧
      t.sisyn.nor = s.sisyn.nor ∧ t.dbArea = s.dbArea ∧ t.lc.passbook = s.lc.passbook ∧ t.lc.state = s.lc.state ∧
      t.lc.slots = s.lc.slots ∧ t.lc.nonce = none ∧ t.hosts.mem = s.hosts.mem)) ∧
    (s.power.aux = false → exec .auxLoss s = .next s) ∧
    (s.waitsVin = true → Ends (exec (.vinRestored find) s) (fun t => poweredUp t ∧ t.power.vin = true ∧ t.power.brown = false)) ∧
    (s.waitsVin = false → exec (.vinRestored find) s = .next s) ∧
    (s.power.aux = true → v.toNat % 2 ^ 16 = 0xA5C3 → Ends (exec (.moduleReset r v) s) (fun t =>
      unitsReset s t (if r = .sisyn then 4 else 2) ∧ t.lc = s.lc)) ∧
    ((s.power.aux = false ∨ v.toNat % 2 ^ 16 ≠ 0xA5C3) → exec (.moduleReset r v) s = .next s) ∧
    (s.power.aux = true → s.power.brown = false → s.power.removed = false → Ends (exec .brownOut s) (fun t =>
      unitsReset s t 1 ∧ t.power.vin = false ∧ t.power.brown = true)) ∧
    (s.power.aux = true → s.power.brown = false → s.power.removed = true → Ends (exec .brownOut s) (fun t =>
      t.power.vin = false ∧ t.power.brown = true ∧ t.cores = s.cores ∧ t.regs = s.regs ∧ t.pwrOffReq = false)) ∧
    ((s.power.aux = false ∨ s.power.brown = true) → exec .brownOut s = .next s) ∧
    (s.power.aux = true → s.domainOn 27 = true → Ends (exec .thermalTrip s) (fun t =>
      unitsReset s t 3 ∧ t.power.tripped = true ∧ t.thermTrip = true)) ∧
    ((s.power.aux = false ∨ s.domainOn 27 = false) → exec .thermalTrip s = .next s) ∧
    (s.power.aux = true → s.power.tripped = true → s.power.vin = true → s.sisyn.noFw = false → s.power.removed = false →
      Ends (exec (.tripResume find) s) (fun t =>
      poweredUp t ∧ t.power.tripped = false ∧ t.thermTrip = false)) ∧
    ((s.power.aux = false ∨ s.power.tripped = false ∨ s.power.removed = true) → exec (.tripResume find) s = .next s)

/-- A V_IN below 44.0 V warns: it is shown, counted and sets the supply's throttle demand to 4, until V_IN stands at 45.0 V (R449,
R452). A droop stretches its quad's clock until it ends, and is counted (R450). The thermal demand rises by one level, up to 7, where a
junction site is at 95 degrees or above or a package above 105, and falls by one where every site is below 90 and no package above 100;
the power demand rises where the input power exceeds PWR_LIMIT, used as 1,150 above that, and falls where it is below 95 percent of it
(R452, R460). -/
def supplyAndThrottleDemands : Prop :=
  ∀ (s : State) (mv watts : Half) (q : QuadId) (hottest : Byte),
    let th := Reg.PWR_THROTTLE
    let package (m : Nat) : Nat := s.field (Reg.PWR_MEMC_STATUS m) 4 8
    let hot : Prop := 95 ≤ hottest.toNat ∨ ∃ m, m < 192 ∧ 105 < package m
    let cool : Prop := hottest.toNat < 90 ∧ ∀ m, m < 192 → package m ≤ 100
    let limit := min (s.field Reg.PWR_LIMIT 0 11) 1150
    let moves (raise lower : Prop) (l l' : Nat) : Prop :=
      (raise → l' = min (l + 1) 7) ∧ (¬ raise → lower → l' = l - 1) ∧ (¬ raise → ¬ lower → l' = l)
    (s.power.aux = true → mv.toNat < 44000 → s.field Reg.PWR_STATUS 3 1 = 0 → Ends (exec (.vinWarn mv) s) (fun t =>
      t.regN Reg.PWR_VIN = mv.toNat ∧ t.field Reg.PWR_STATUS 3 1 = 1 ∧ t.field th 9 3 = 4 ∧ t.power = { s.power with vin := false } ∧
      CountedUp s t Reg.PWR_VIN_WARNS 1 ∧ t.cores = s.cores ∧ t.dram = s.dram)) ∧
    ((s.power.aux = false ∨ 44000 ≤ mv.toNat ∨ s.field Reg.PWR_STATUS 3 1 = 1) → exec (.vinWarn mv) s = .next s) ∧
    (s.power.aux = true → 45000 ≤ mv.toNat → s.field Reg.PWR_STATUS 3 1 = 1 → Ends (exec (.vinWarnEnd mv) s) (fun t =>
      t.regN Reg.PWR_VIN = mv.toNat ∧ t.field Reg.PWR_STATUS 3 1 = 0 ∧ t.field th 9 3 = 0 ∧
      RegsSameBut s t [Reg.PWR_VIN, Reg.PWR_STATUS, th] ∧ t = { s with regs := t.regs, power := { s.power with vin := true, brown := false } })) ∧
    ((s.power.aux = false ∨ mv.toNat < 45000 ∨ s.field Reg.PWR_STATUS 3 1 = 0) → exec (.vinWarnEnd mv) s = .next s) ∧
    (s.domainOn q.val = true → q.val ∉ s.power.stretched → Ends (exec (.droop q) s) (fun t =>
      q.val ∈ t.power.stretched ∧ q.val ∈ t.power.droopPosted ∧ t.field (Reg.PWR_DROOP q.val) 0 16 = min (s.field (Reg.PWR_DROOP q.val) 0 16 + 1) 0xFFFF ∧
      t.cores = s.cores ∧ t.dram = s.dram)) ∧
    ((s.domainOn q.val = false ∨ q.val ∈ s.power.stretched) → exec (.droop q) s = .next s) ∧
    Ends (exec (.droopEnd q) s) (fun t => q.val ∉ t.power.stretched ∧
      (∀ x, x ≠ q.val → (x ∈ t.power.stretched ↔ x ∈ s.power.stretched)) ∧
      t = { s with power := { s.power with stretched := t.power.stretched } }) ∧
    Ends (exec (.thermalDemandStep hottest) s) (fun t => moves hot cool (s.field th 3 3) (t.field th 3 3) ∧ t.field th 6 3 = s.field th 6 3 ∧
      t.field th 9 3 = s.field th 9 3 ∧ RegsSameBut s t [th] ∧ t = { s with regs := t.regs }) ∧
    Ends (exec (.powerDemandStep watts) s) (fun t =>
      moves (limit < watts.toNat) (100 * watts.toNat < 95 * limit) (s.field th 6 3) (t.field th 6 3) ∧ t.field th 3 3 = s.field th 3 3 ∧
      t.field th 9 3 = s.field th 9 3 ∧ RegsSameBut s t [th] ∧ t = { s with regs := t.regs })

/-- A quad reset fails the running task with the quad's fault, turns the quad's domain off, loses its cores' state, sets resident_lost, and
asks for the domain to come up again (R194, R455, R457). A management reset, from a sag of AUX or from Sisyn's watchdog, loses Sisyn's SRAM
and the nonce in force and leaves cores, memory and the task alone (R449, R455, R462). -/
def quadAndManagementResets : Prop :=
  ∀ (s : State) (q : QuadId) (find : BootFindings),
    let managed (t : State) : Prop := t.sisyn.sram = [] ∧ t.sisyn.debugRegs = [] ∧ t.sisyn.eids = find.eids ∧ t.lc.nonce = none ∧ t.lc.state = s.lc.state ∧ t.cores = s.cores ∧
      t.sched = s.sched ∧ t.dram = s.dram ∧ t.hubOps = s.hubOps ∧ t.dbArea = s.dbArea ∧
      (∀ n, n < 322 → t.watchRecord n = t.watchHw n) ∧ t.sisyn.addr = find.addr
    (s.domainOn q.val = true → Ends (exec (.quadReset q) s) (fun t =>
      t.domainOn q.val = false ∧ (∀ c, c / 4 = q.val → t.core c = { Core.reset with nextOp := (s.core c).nextOp } ∧ t.field (Reg.SPAD_STATUS c) 1 1 = 1) ∧
      tabGet [] t.power.domReqs q.val = true :: tabGet [] s.power.domReqs q.val ∧
      t.field (Reg.PWR_DROOP q.val) 16 16 = min (s.field (Reg.PWR_DROOP q.val) 16 16 + 1) 0xFFFF ∧ q.val ∉ t.power.stretched ∧
      ((s.sched.st = .running ∨ s.sched.st = .loading) → s.sched.failing = false →
        t.sched.st = .ending ∧ t.sched.failing = true ∧ t.sched.primary.map (·.status) = some 0x8002))) ∧
    (s.domainOn q.val = false → exec (.quadReset q) s = .next s) ∧
    (s.power.aux = true → Ends (exec (.auxSag find) s) managed ∧
      Ends (exec (.watchdog find) s) (fun t => managed t ∧ CountedUp s t Reg.SISYN_WDOG 1)) ∧
    (s.power.aux = false → exec (.auxSag find) s = .next s ∧ exec (.watchdog find) s = .next s)

/-- V_IN warnings, droops, throttle demands, quad resets and management resets (R449–R452, R455, R457, R462). -/
def Obligations.SupplyThrottleAndSmallResets : Prop := supplyAndThrottleDemands ∧ quadAndManagementResets

/-- Sisyn copies its sensors into their registers (R464), writes the oldest daybook entry into the next slot and sends one of severity WARN
or above as an event (R466, R468), and shows the entry that a port selects (R467). -/
def sensorsAndTheDaybook : Prop :=
  ∀ (s : State) (temps volts currents : List Half) (r : Requester) (k : HostPort) (seq : Word),
    let up : Prop := s.power.aux = true ∧ s.sisyn.noFw = false
    (up → Ends (exec (.sensorCopy temps volts currents) s) (fun t =>
      (∀ i x, i < 96 → temps[i]? = some x → t.regN (Reg.SISYN_TEMP i) = x.toNat) ∧
      (∀ i x, i < 40 → volts[i]? = some x → t.regN (Reg.SISYN_VOLT i) = x.toNat) ∧
      (∀ i x, i < 12 → currents[i]? = some x → t.regN (Reg.SISYN_CURR i) = x.toNat) ∧
      (∀ x, volts[37]? = some x → t.regN Reg.PWR_VIN = x.toNat) ∧ t = { s with regs := t.regs })) ∧
    (¬ up → exec (.sensorCopy temps volts currents) s = .next s ∧ exec .daybookWrite s = .next s) ∧
    (s.dbQueue = [] → exec .daybookWrite s = .next s) ∧
    (∀ e rest, up → s.dbQueue = e :: rest → Ends (exec .daybookWrite s) (fun t =>
      t.dbQueue = rest ∧ tabFind t.dbArea s.sisyn.dbSlot = some e ∧ t.sisyn.dbSlot = (s.sisyn.dbSlot + 1) % 262144 ∧
      t.sisyn.pldmEvents = s.sisyn.pldmEvents ++ (if 1 ≤ e.severity then [e.seq] else []) ∧
      (∀ x, x ≠ s.sisyn.dbSlot → x / 1024 ≠ (s.sisyn.dbSlot / 1024 + 1) % 256 → tabFind t.dbArea x = tabFind s.dbArea x) ∧
      t = { s with
        dbQueue := t.dbQueue, dbArea := t.dbArea
        sisyn := { s.sisyn with nor := t.sisyn.nor, dbSlot := t.sisyn.dbSlot, pldmEvents := t.sisyn.pldmEvents } })) ∧
    Ends (exec (.dbSelect r k seq) s) (fun t => t.reg (Reg.SISYN_DB_SEL (hostNum k)) = seq ∧
      RegsSameBut s t [Reg.SISYN_DB_SEL (hostNum k)] ∧ t = { s with regs := t.regs })

/-- Sisyn compares its record with the hardware and reads what differs three more times; a difference that goes is counted, and one that
stays is adopted, or, of a unit, is forced to QUIESCED, and counted (R481, R482). -/
def sisynComparesItsRecord : Prop :=
  ∀ (s : State) (w : Watched),
    let n := watchNum w
    let left (t : State) (n : Nat) : Nat := tabGet 0 t.sisyn.recheck n
    (s.power.aux = true → s.sisyn.noFw = false → Ends (exec .stateCompare s) (fun t =>
      (∀ n, n < 322 → left t n = if s.watchDiffers n = true ∧ left s n = 0 then 3 else left s n) ∧
      t = { s with sisyn := { s.sisyn with recheck := t.sisyn.recheck } })) ∧
    ((s.power.aux = false ∨ s.sisyn.noFw = true) → exec .stateCompare s = .next s) ∧
    (left s n = 0 → exec (.stateRecheck w) s = .next s) ∧
    (left s n ≠ 0 →
      (s.watchDiffers n = false → Ends (exec (.stateRecheck w) s) (fun t =>
        left t n = 0 ∧ t.watchRecord n = s.watchHw n ∧ CountedUp s t Reg.SISYN_DISAGREE 1 ∧ RegsSameBut s t [Reg.SISYN_DISAGREE] ∧
        t = { s with regs := t.regs, sisyn := { s.sisyn with record := t.sisyn.record, recheck := t.sisyn.recheck } })) ∧
      (s.watchDiffers n = true → 1 < left s n → Ends (exec (.stateRecheck w) s) (fun t =>
        left t n = left s n - 1 ∧ t = { s with sisyn := { s.sisyn with recheck := t.sisyn.recheck } })) ∧
      (s.watchDiffers n = true → left s n = 1 → 260 ≤ n → Ends (exec (.stateRecheck w) s) (fun t =>
        left t n = 0 ∧ t.watchRecord n = s.watchHw n ∧ t.cores = s.cores)) ∧
      (s.watchDiffers n = true → left s n = 1 → n < 260 → Ends (exec (.stateRecheck w) s) (fun t =>
        left t n = 0 ∧ t.watchRecord n = 3 ∧ CountedUp s t Reg.SISYN_FORCED 1 ∧
        (s.qst n = 1 → n < 244 → t.qst n = 2))))

/-- An update writes the firmware slot that does not run, which can boot where the image passes verification (R470–R472); activation boots
the written slot by a management reset (R472); a commit raises the anti-rollback counter to the running image's security version with a
passbook record, and is refused where the passbook has no space (R472, R500). -/
def firmwareSlotsUpdateAndCommit : Prop :=
  ∀ (s : State) (ok : Bool) (version : Word) (svn : BitVec 7) (r : Requester) (v : Word),
    let k := s.slotToWrite
    let shows (t : State) : Prop := t.reg (if k = 0 then Reg.SISYN_FW_VERSION_A else Reg.SISYN_FW_VERSION_B) = version ∧
      t.slotSvn k = svn.toNat ∧ t.slotImage (1 - k) = s.slotImage (1 - k)
    (s.power.aux = true →
      (ok = true → svn.toNat ≤ 64 → s.fuseF ≤ svn.toNat → Ends (exec (.fwUpdate ok version svn) s) (fun t =>
        shows t ∧ t.slotImage k = s.sisyn.nextImage ∧ t.sisyn.staged = true ∧ replied t 2 0 0 [])) ∧
      ((ok = false ∨ 64 < svn.toNat ∨ svn.toNat < s.fuseF) → Ends (exec (.fwUpdate ok version svn) s) (fun t =>
        shows t ∧ t.slotImage k = 0 ∧ t.sisyn.staged = false ∧ replied t 2 3 0 [])) ∧
      (s.sisyn.staged = true → s.slotImage k ≠ 0 → s.fuseF ≤ s.slotSvn k →
        Ends (exec .activateFirmware s) (fun t => t.slotActive = k ∧ t.sisyn.staged = false ∧ t.sisyn.noFw = false ∧
          t.slotCount k = 0 ∧ t.cores = s.cores ∧ t.dram = s.dram))) ∧
    (s.power.aux = false → exec (.fwUpdate ok version svn) s = .next s) ∧
    ((s.power.aux = false ∨ s.sisyn.staged = false) → exec .activateFirmware s = .next s) ∧
    (s.power.aux = true → s.sisyn.noFw = false → v.getLsbD 0 = true →
      let a := s.slotSvn s.slotActive
      (a ≤ s.fuseF → exec (.fwCommit r v) s = .next s) ∧
      (s.fuseF < a → s.lc.passbook.length + 17 ≤ 26214 → Ends (exec (.fwCommit r v) s) (fun t =>
        t.fuseF = a ∧ t.lc.passbook.length = s.lc.passbook.length + 1 ∧ t.lc.passbook.getLast?.map (·.kind) = some 8 ∧
        RegsSameBut s t [Reg.SISYN_STATUS])) ∧
      (s.fuseF < a → 26214 < s.lc.passbook.length + 17 → Ends (exec (.fwCommit r v) s) (fun t =>
        t.fuseF = s.fuseF ∧ t.lc = s.lc ∧
        (s.dbQueue.length < 1024 → ∃ e, t.dbQueue = s.dbQueue ++ [e] ∧ e.unit = 0x92 ∧ e.status = 0x9205)))) ∧
    ((s.power.aux = false ∨ s.sisyn.noFw = true ∨ v.getLsbD 0 = false) → exec (.fwCommit r v) s = .next s)

/-- Sisyn copies sensors, writes the daybook, compares its record and keeps its firmware slots (R464–R472, R481, R482). PWR_VIN from
monitor 37 is log entry 87, images as numbers with 0 for one that cannot boot log entry 90, and events sent as their entry is written
log entry 91. -/
def Obligations.SisynKeepsDaybookRecordAndFirmware : Prop := sensorsAndTheDaybook ∧ sisynComparesItsRecord ∧ firmwareSlotsUpdateAndCommit

/-- A touch and its release move the segment's bit, and a second touch crosses every hold under way but that of a stuck segment
(R475, R477). A hold makes its gesture
once: refused and counted where another hold crossed it, the strip is locked, the cage is empty with both ports DOWN or a power-off is
asked for; else both ports of the cage drain, or are enabled where a gesture had drained them (R475–R477). A segment held too long is stuck
(R477), and a confirmation ends (R474). -/
def touchStripGestures : Prop :=
  ∀ (s : State) (cage : CageId),
    let k := cage.val
    let b := s.sisyn.strip
    let has (m : BitVec 8) : Prop := m.getLsbD k = true
    let onlyStrip (t : State) : Prop := t = { s with sisyn := { s.sisyn with strip := t.sisyn.strip } }
    let held : Prop := has b.touched ∧ ¬ has b.stuck ∧ ¬ has b.done
    let refused : Prop := has b.crossed ∨ s.field Reg.SISYN_FP_CTL 0 1 = 1 ∨ s.sisyn.attn ≠ 0 ∨
      (s.cageModule k = false ∧ (s.port (2 * k)).st = 0 ∧ (s.port (2 * k + 1)).st = 0)
    let gestured : Prop := s.gestureDrain k = true ∧ (s.port (2 * k)).st = 4 ∧ (s.port (2 * k + 1)).st = 4
    (spanPresent s.variant = true → Ends (exec (.touch cage) s) (fun t => has t.sisyn.strip.touched ∧
      (∀ j, j < 8 → j ≠ k → t.sisyn.strip.touched.getLsbD j = b.touched.getLsbD j ∧
        (¬ has b.stuck → b.touched.getLsbD j = true → b.stuck.getLsbD j = false → t.sisyn.strip.crossed.getLsbD j = true) ∧
        (b.stuck.getLsbD j = true → t.sisyn.strip.crossed.getLsbD j = b.crossed.getLsbD j)) ∧ onlyStrip t)) ∧
    (spanPresent s.variant = true → Ends (exec (.touchRelease cage) s) (fun t =>
      ¬ has t.sisyn.strip.touched ∧ ¬ has t.sisyn.strip.crossed ∧ ¬ has t.sisyn.strip.stuck ∧ ¬ has t.sisyn.strip.done ∧
      (∀ j, j < 8 → j ≠ k → t.sisyn.strip.touched.getLsbD j = b.touched.getLsbD j) ∧ onlyStrip t)) ∧
    (spanPresent s.variant = true → held → refused → Ends (exec (.drainGesture cage) s) (fun t =>
      has t.sisyn.strip.done ∧ has t.sisyn.strip.refused ∧ CountedUp s t Reg.SISYN_FP_REFUSED 1 ∧
      RegsSameBut s t [Reg.SISYN_FP_REFUSED] ∧ t.span = s.span)) ∧
    (spanPresent s.variant = true → held → ¬ refused → gestured → ∃ w : State, exec (.drainGesture cage) s = .next (w.undrainCage k) ∧
      has w.sisyn.strip.done ∧ CountedUp s w Reg.SISYN_FP_GESTURES 1 ∧ RegsSameBut s w [Reg.SISYN_FP_GESTURES] ∧ w.span = s.span) ∧
    (spanPresent s.variant = true → held → ¬ refused → ¬ gestured → Ends (exec (.drainGesture cage) s) (fun t =>
      has t.sisyn.strip.done ∧ has t.sisyn.strip.confirm ∧ t.gestureDrain k = true ∧ CountedUp s t Reg.SISYN_FP_GESTURES 1 ∧
      ∀ q, (q = 2 * k ∨ q = 2 * k + 1) → t.field (Reg.SPAN_PORT_CTL q) 0 1 = 1 ∧
        ((s.port q).st ≠ 4 → s.qst (244 + q) = 1 → (t.port q).st = 3))) ∧
    ((spanPresent s.variant = false ∨ ¬ held) → exec (.drainGesture cage) s = .next s) ∧
    (spanPresent s.variant = true → has b.touched → ¬ has b.stuck → Ends (exec (.segmentStuck cage) s) (fun t =>
      has t.sisyn.strip.stuck ∧ (s.dbQueue.length < 1024 → ∃ e, t.dbQueue = s.dbQueue ++ [e] ∧ e.unit = 0x91) ∧
      t.span = s.span ∧ t.cores = s.cores)) ∧
    Ends (exec (.confirmationEnd cage) s) (fun t => ¬ has t.sisyn.strip.confirm ∧ ¬ has t.sisyn.strip.refused ∧ onlyStrip t) ∧
    (spanPresent s.variant = false → exec (.touch cage) s = .next s ∧ exec (.touchRelease cage) s = .next s ∧
      exec (.segmentStuck cage) s = .next s)

/-- A press of ATTN asks for power-off, or withdraws the request; a grant, a timeout and a long press end the wait, the last without the
running task, and a veto ends the request; a press is logged and ignored while ATTN is locked or a lifecycle transition runs. With the
request granted and no task, POWER_OFF turns the domains off and at last readies the module for removal, with PWR_OFF_REQ# asserted
(R479, R485, R513). LOCATE blinks as
its effecter says (R480). -/
def attnAsksForPowerOff : Prop :=
  ∀ (s : State) (port : HostPort) (mode : BitVec 2),
    let up : Prop := s.power.aux = true ∧ s.sisyn.noFw = false
    let ignored : Prop := s.field Reg.SISYN_FP_CTL 1 1 = 1 ∨ s.lc.zeroise ≠ none
    let asks (t : State) (v : Nat) : Prop := t.sisyn.attn = v ∧ t.lc = s.lc ∧ t.cores = s.cores ∧ t.sched = s.sched
    (up → Ends (exec .attnPress s) (fun t =>
      asks t (if s.field Reg.SISYN_FP_CTL 1 1 = 1 ∨ s.lc.zeroise.isSome then s.sisyn.attn else if s.sisyn.attn = 0 then 1
        else if s.sisyn.attn = 1 then 0 else s.sisyn.attn) ∧ t.sisyn.attnPressed = false)) ∧
    (up → ¬ ignored → s.sisyn.attn ≤ 2 → s.sched.st = .idle → Ends (exec .attnLongPress s) (fun t =>
      asks t 2 ∧ t.sisyn.attnPressed = true ∧
      (s.sisyn.attn = 0 → s.dbQueue.length < 1024 → ∃ e, t.dbQueue = s.dbQueue ++ [e] ∧ e.event = 0x020))) ∧
    (up → ¬ ignored → s.sisyn.attn ≤ 2 → s.sched.st ≠ .idle → Ends (exec .attnLongPress s) (fun t =>
      t.sisyn.attn = 2 ∧ t.sched.st = .idle ∧ t.hosts.discardTask = false ∧
      t.hosts.cplWait.map (fun e => (e.ring, e.bytes)) = s.hosts.cplWait.map (fun e => (e.ring, e.bytes)) ∧ ∀ c, c < 64 → (t.core c).running = false)) ∧
    (up → ignored → Ends (exec .attnLongPress s) (fun t => asks t s.sisyn.attn)) ∧
    (¬ up → exec .attnPress s = .next s ∧ exec .attnLongPress s = .next s) ∧
    (s.sisyn.attn = 1 → Ends (exec (.attnGrant port) s) (asks · 2) ∧ Ends (exec .attnTimeout s) (asks · 2) ∧
      Ends (exec (.attnVeto port) s) (asks · 0)) ∧
    (s.sisyn.attn ≠ 1 → exec (.attnGrant port) s = .next s ∧ exec .attnTimeout s = .next s ∧ exec (.attnVeto port) s = .next s) ∧
    (s.sisyn.attn = 2 → s.sched.st = .idle → (∀ d, d < 26 → s.domainOn d = false) → Ends (exec .powerOff s) (fun t =>
      t.sisyn.attn = 3 ∧ t.power.removed = true ∧ t.pwrOffReq = !s.power.brown ∧
      t.regN Reg.PWR_DOMAIN_STATE = 2 ^ 28 + 2 ^ 29 ∧ t.lc = s.lc)) ∧
    (s.sisyn.attn = 2 → s.sched.st = .idle → (∃ d, d < 26 ∧ s.domainOn d = true) → Ends (exec .powerOff s) (fun t =>
      t.sisyn.attn = 2 ∧ ∀ d, d < 26 → s.domainOn d = true → tabGet [] s.power.domReqs d = [] →
        tabGet [] t.power.domReqs d = [false] ∧ t.watchRecord (260 + d) = 0)) ∧
    ((s.sisyn.attn ≠ 2 ∨ s.sched.st ≠ .idle) → exec .powerOff s = .next s) ∧
    (mode.toNat < 3 → Ends (exec (.locateEffecter mode) s) (fun t => t.field Reg.SISYN_FP_CTL 2 2 = mode.toNat ∧
      t.field Reg.SISYN_FP_CTL 0 2 = s.field Reg.SISYN_FP_CTL 0 2 ∧ RegsSameBut s t [Reg.SISYN_FP_CTL] ∧ t = { s with regs := t.regs })) ∧
    (mode = 3 → exec (.locateEffecter mode) s = .next s)

/-- The touch strip, ATTN, power-off for removal and LOCATE (R474–R480). That a press is ignored in a lifecycle transition is R492;
that ATTN is held until the next press, and that POWER_OFF is issued again until every domain is off, is log entry 92. -/
def Obligations.FaceplateGesturesAndPowerOff : Prop := touchStripGestures ∧ attnAsksForPowerOff

/-- A token that is submitted consumes the nonce. It is refused with LC.BUSY, as invalid, or for want of passbook space, with its
result shown; one that is accepted ends a debug session, begins a transition that zeroises with its ZEROISE_BEGIN record, or adds or
revokes an owner key with its record (R489–R493, R500, R501). Which records a transition that zeroises writes, and with which codes, is
log entry 94. A submission of another kind or version is invalid (R491, R492). -/
def Obligations.TokensChangeTheLifecycle : Prop :=
  ∀ (s : State) (via : TokenVia) (r : Requester) (find : BootFindings),
    let tk := s.tokenVia via
    let hash := sha384 tk.bytes
    let up : Prop := s.power.vin = true ∧ s.sisyn.noFw = false ∧ s.power.tripped = false ∧ s.power.removed = false
    let forms : List (Nat × Instr) := [(1, .debugToken via r find), (2, .returnToken via r find), (3, .scrapToken via r find),
      (4, .keyAdd via r), (5, .keyRevoke via r)]
    let room : Prop := s.pbRoom tk.records.1 tk.records.2 = true
    let refused (t : State) (result status : Nat) : Prop := t.regN Reg.SISYN_LC_RESULT = result ∧ t.lc = { s.lc with nonce := none } ∧
      CountedUp s t Reg.SISYN_LC_REFUSED 1 ∧ (via ≠ .buffer → replied t 2 3 status []) ∧ t.cores = s.cores ∧ t.dram = s.dram
    let began (t : State) (to_ : LcState) : Prop := ¬ up →
      t.regN Reg.SISYN_LC_RESULT = 1 ∧ t.lc.state = s.lc.state ∧ t.lc.nonce = none ∧
      t.lc.zeroise = some ⟨to_, tk.slot, hash, tk.duration, tk.scope⟩ ∧ t.cores = [] ∧ t.dram = [] ∧
      ∃ p, t.lc.passbook = s.lc.passbook ++ [p] ∧ p.kind = 3 ∧ p.from_ = s.lc.state.code ∧ p.to_ = to_.code
    let ended (t : State) (to_ : LcState) : Prop := up →
      t.regN Reg.SISYN_LC_RESULT = 1 ∧ t.lc.state = to_ ∧ t.lc.nonce = none ∧ t.lc.zeroise = none ∧ t.dram = [] ∧ poweredUp t ∧
      ∃ a b c, t.lc.passbook = s.lc.passbook ++ [a, b, c] ∧ [a, b, c].map (·.kind) = [3, 4, 2]
    (∀ f ∈ forms, s.submits via r f.1 = true →
      (s.lcBusy = true → Ends (exec f.2 s) (refused · 3 0x9203)) ∧
      (s.lcBusy = false → s.tokenOk tk = false → Ends (exec f.2 s) (refused · 2 0x9202)) ∧
      (s.lcBusy = false → s.tokenOk tk = true → ¬ room → Ends (exec f.2 s) (refused · 4 0x9205))) ∧
    (∀ f ∈ forms, s.submits via r f.1 = false → exec f.2 s = .next s) ∧
    (s.lcBusy = false → s.tokenOk tk = true → room →
      (s.submits via r 1 = true → tk.duration ≠ 0 → Ends (exec (.debugToken via r find) s) (fun t =>
        began t .fieldDebug ∧ ended t .fieldDebug ∧ (up →
          t.lc.scope = tk.scope ∧ t.lc.debugSeen = true ∧ t.regN Reg.SISYN_LC_DEBUG_LEFT = tk.duration))) ∧
      (s.submits via r 1 = true → tk.duration = 0 → Ends (exec (.debugToken via r find) s) (fun t =>
        t.lc.state = .field ∧ t.lc.scope = 0 ∧ t.regN Reg.SISYN_LC_DEBUG_LEFT = 0 ∧ t.cores = s.cores ∧
        ∃ p, t.lc.passbook = s.lc.passbook ++ [p] ∧ p.kind = 7 ∧ p.slot = tk.slot ∧ p.digest = hash)) ∧
      (s.submits via r 2 = true → Ends (exec (.returnToken via r find) s) (fun t => began t .returned ∧ ended t .returned)) ∧
      (s.submits via r 3 = true → Ends (exec (.scrapToken via r find) s) (fun t => began t .scrap ∧ ended t .scrap ∧
        (up → t.lc.seedFuse = BitVec.allOnes 384))) ∧
      (s.submits via r 4 = true → Ends (exec (.keyAdd via r) s) (fun t =>
        t.lc.slot tk.target = ⟨1, tk.keyHash⟩ ∧ t.lc.state = s.lc.state ∧ t.cores = s.cores ∧
        ∃ p, t.lc.passbook = s.lc.passbook ++ [p] ∧ p.kind = 5 ∧ p.slot = tk.target)) ∧
      (s.submits via r 5 = true → Ends (exec (.keyRevoke via r) s) (fun t =>
        t.lc.slot tk.target = ⟨2, (s.lc.slot tk.target).hash⟩ ∧ t.lc.state = s.lc.state ∧ t.cores = s.cores ∧
        ∃ p, t.lc.passbook = s.lc.passbook ++ [p] ∧ p.kind = 6 ∧ p.slot = tk.target))) ∧
    (s.power.aux = true → s.sisyn.noFw = false → (tk.version ≠ 1 ∨ tk.kind = 0 ∨ 5 < tk.kind) →
      Ends (exec (.tokenSubmitInvalid via) s) (fun t =>
        if s.lcBusy then refused t 3 0x9203 else refused t 2 0x9202))

/-- A privileged command has its effect in BLANK, MAKER, RETURNED and a debug session whose scope opens it, and is refused with
LIFECYCLE.PRIVILEGED and a daybook entry in every other state: a raw access to the SPI NOR, a write of calibration or of a sensor's
trim, and an access to Sisyn's SRAM or its processor's debug registers (R486, R488). Where the calibration area holds them is log entry
88, and that a debug register holds what was written log entry 135. The maker fuses the identity seed of a BLANK module, with its
record; a maker-signed command that is no listed transition is refused (R489). A debug session ends (R495). Both transitions compute
the measurements afresh (R498). -/
def privilegedAndMakerCommands : Prop :=
  ∀ (s : State) (offset : BitVec 26) (place : CalPlace) (o : DebugPlace) (b fl : Byte) (seed : BitVec 384) (op : MakerOp) (sigOk : Bool)
    (find : BootFindings),
    let up : Prop := s.power.aux = true ∧ s.sisyn.noFw = false
    let opens : Prop := s.lc.state = .blank ∨ s.lc.state = .maker ∨ s.lc.state = .returned ∨
      (s.lc.state = .fieldDebug ∧ bitOf s.lc.scope 2 = true)
    let at_ := match place with
      | .quad q => 0x3500000 + 2 * q.val
      | .trim i => 0x3500000 + 2 * (16 + i.val)
    let shown (s : State) : DebugPlace → Byte
      | .sram x => tabGet 0 s.sisyn.sram x.toNat
      | .register x => tabGet 0 s.sisyn.debugRegs x.toNat
    let denied (t : State) (status : Nat) : Prop := replied t 2 3 status [] ∧ t.lc = s.lc ∧ t.sisyn = s.sisyn ∧ t.cores = s.cores
    let logged (t : State) : Prop := s.dbQueue.length < 1024 →
      ∃ e, t.dbQueue = s.dbQueue ++ [e] ∧ e.severity = 2 ∧ e.origin = 2 ∧ e.unit = 0x92 ∧ e.status = 0x9201
    let afresh (t : State) : Prop := ∀ i, 1 ≤ i → i ≤ 8 → t.measure i = some (t.measureNow i)
    let a := offset.toNat
    let i := (a - 0x3100000) / 160
    let ofBytes : List Byte := (List.range 160).map (fun j =>
      if j = (a - 0x3100000) % 160 then b else s.norByte (0x3100000 + 160 * i + j))
    let raw (t : State) : Prop := t.norByte a = b ∧ (∀ x, x ≠ a → t.norByte x = s.norByte x) ∧
      t = { s with sisyn := t.sisyn, replies := t.replies }
    let gated : List Instr := [.norRawAccess offset none, .norRawAccess offset (some b), .calibrationWrite place b fl,
      .sisynDebugAccess o none, .sisynDebugAccess o (some b), .makerCommand op sigOk find]
    (up → ¬ opens → ∀ i ∈ gated, Ends (exec i s) (fun t => denied t 0x9201 ∧ logged t)) ∧
    (¬ up → ∀ i ∈ gated, exec i s = .next s) ∧
    (up → opens →
      Ends (exec (.norRawAccess offset none) s) (fun t => replied t 2 0 0 [s.norByte offset.toNat] ∧ t = { s with replies := t.replies }) ∧
      Ends (exec (.norRawAccess offset (some b)) s) (fun t => replied t 2 0 0 [] ∧
        (a = 1 ∨ a = 2 → t.slotCount (a - 1) = b.toNat % 4 ∧ RegsSameBut s t [Reg.SISYN_BOOT] ∧
          t = { s with regs := t.regs, replies := t.replies }) ∧
        (a = 0 → t.bootActive = b.toNat % 2 ∧ t.slotActive = s.slotActive) ∧
        (a ≠ 1 → a ≠ 2 → (a < 0x2100000 ∨ 0x3500000 ≤ a) → raw t) ∧
        (0x2100000 ≤ a → a < 0x3100000 → t = { s with sisyn := t.sisyn, dbArea := t.dbArea, replies := t.replies }) ∧
        (0x3100000 ≤ a → a < 0x3500000 → i < s.lc.passbook.length →
          t = { s with lc := { s.lc with passbook := s.lc.passbook.set i (PbRecord.of ofBytes) }, replies := t.replies }) ∧
        (0x3100000 ≤ a → a < 0x3500000 → s.lc.passbook.length < i → raw t)) ∧
      Ends (exec (.calibrationWrite place b fl) s) (fun t => replied t 2 0 0 [] ∧ t.norByte at_ = b ∧ t.norByte (at_ + 1) = fl ∧
        (∀ x, x ≠ at_ → x ≠ at_ + 1 → t.norByte x = s.norByte x) ∧ t = { s with sisyn := t.sisyn, replies := t.replies }) ∧
      Ends (exec (.sisynDebugAccess o none) s) (fun t => replied t 2 0 0 [shown s o] ∧ t = { s with replies := t.replies }) ∧
      Ends (exec (.sisynDebugAccess o (some b)) s) (fun t => replied t 2 0 0 [] ∧ shown t o = b ∧
        (∀ x, x ≠ o → shown t x = shown s x) ∧
        t = { s with sisyn := { s.sisyn with sram := t.sisyn.sram, debugRegs := t.sisyn.debugRegs }, replies := t.replies }) ∧
      ((sigOk = false ∨ makerPath s.lc.state op = false) → Ends (exec (.makerCommand op sigOk find) s) (denied · 0x9202)) ∧
      (sigOk = true → s.lc.state = .maker → op = .toField seed → s.lcBusy = false → s.lc.passbook.length + 19 ≤ 26214 →
        s.power.vin = true → s.power.tripped = false → s.power.removed = false → Ends (exec (.makerCommand op sigOk find) s) (fun t =>
          t.lc.state = .field ∧ t.lc.slot 0 = ⟨1, seed⟩ ∧ t.lc.zeroise = none ∧ t.dram = [] ∧ poweredUp t ∧
          t.lc.passbook.length = s.lc.passbook.length + 3))) ∧
    (up → s.lc.state = .blank → s.lc.passbook.length + 17 ≤ 26214 → Ends (exec (.makerProvision seed) s) (fun t =>
      t.lc.state = .maker ∧ t.lc.seedFuse = seed ∧ replied t 2 0 0 [] ∧
      t = { s with lc := t.lc, sisyn := { s.sisyn with nor := t.sisyn.nor }, replies := t.replies } ∧ afresh t ∧
      ∃ p, t.lc.passbook = s.lc.passbook ++ [p] ∧ p.kind = 1)) ∧
    (up → s.lc.state ≠ .blank → Ends (exec (.makerProvision seed) s) (denied · 0x9202)) ∧
    (s.lc.state = .fieldDebug → Ends (exec .debugEnd s) (fun t =>
      t.lc.state = .field ∧ t.lc.scope = 0 ∧ t.regN Reg.SISYN_LC_DEBUG_LEFT = 0 ∧ RegsSameBut s t [Reg.SISYN_LC_DEBUG_LEFT] ∧
      afresh t ∧ (∃ p, t.lc.passbook = s.lc.passbook ++ [p] ∧ p.kind = 7 ∧ p.slot = 0xFF ∧ p.digest = 0) ∧
      t = { s with regs := t.regs, lc := t.lc, sisyn := { s.sisyn with nor := t.sisyn.nor } })) ∧
    (s.lc.state ≠ .fieldDebug → exec .debugEnd s = .next s)

/-- A challenge of slot 0 is answered with the hash of its certificate chain, a nonce, the summary asked for and the alias key's
signature of the exchange, one of an empty slot with InvalidRequest, and in SCRAP with the error Unspecified; a measurement, or a
passbook record, is answered, signed where that is asked for and the state is not SCRAP, and one that does not exist with
InvalidRequest (R497–R499). The layout of SPDM's messages is log entry 95, how a record is asked for log entry 136. A new nonce
replaces the one in force with a free value (R492), and a port selects a passbook record (R499). -/
def attestationAnswers : Prop :=
  ∀ (s : State) (ask : SpdmChallenge) (what : MeasureAsk) (index : Byte) (seq : Word) (nonce : BitVec 256) (r : Requester) (v : Word),
    let up : Prop := s.power.aux = true ∧ s.sisyn.noFw = false
    let answers (t : State) (kind status : Nat) (bs : List Byte) : Prop := replied t 2 kind status bs ∧ t = { s with replies := t.replies }
    let signed (t : State) (context : String) (request : List Byte) (response sent : List Byte → List Byte) : Prop :=
      ∃ (own : List Byte) (n : Nat), own.length = 32 ∧ t = { s with replies := t.replies, free := t.free } ∧
        replied t 2 0 0 (sent own ++ s.spdmSign n context request (response own))
    (up → s.lc.state ≠ .scrap → ask.slot = 0 → Ends (exec (.challenge ask) s) (fun t =>
      let response (own : List Byte) := [0x12, 0x03, 0, 1] ++ digestBytes (sha384 s.certChain) ++ own ++ s.summary ask.summary ++ [0, 0]
      signed t "responder-challenge_auth signing" ([0x12, 0x83, 0, ask.summary] ++ leBytes ask.nonce.toNat 32) response response)) ∧
    (up → s.lc.state ≠ .scrap → ask.slot ≠ 0 → Ends (exec (.challenge ask) s) (answers · 3 1 [])) ∧
    (up → s.lc.state = .scrap → Ends (exec (.challenge ask) s) (answers · 3 5 [])) ∧
    (∀ signed, up → (index.toNat = 0 ∨ 8 < index.toNat) → Ends (exec (.getMeasurements (.index index) signed) s) (answers · 3 1 [])) ∧
    (∀ m, up → s.measureAsked what = some m →
      Ends (exec (.getMeasurements what none) s) (answers · 0 0 m) ∧
      (s.lc.state ≠ .scrap → Ends (exec (.getMeasurements what (some nonce)) s) (fun t =>
        signed t "responder-measurements signing" ([0x12, 0xE0, 1] ++ askBytes what ++ leBytes nonce.toNat 32)
          (fun own => [0x12, 0x60, 0, 0, 1] ++ leBytes m.length 3 ++ m ++ own ++ [0, 0]) (fun own => m ++ own))) ∧
      (s.lc.state = .scrap → Ends (exec (.getMeasurements what (some nonce)) s) (answers · 3 5 []))) ∧
    (1 ≤ index.toNat → index.toNat ≤ 8 → s.measureAsked (.index index) = some (s.lc.measured.getD (index.toNat - 1) [])) ∧
    (∀ p ∈ s.lc.passbook, p.seq = seq.toNat → ∃ p ∈ s.lc.passbook, p.seq = seq.toNat ∧ s.measureAsked (.record seq) = some p.bytes) ∧
    (up → v.getLsbD 0 = true → Ends (exec (.newNonce r v) s) (fun t => t.lc = { s.lc with nonce := t.lc.nonce } ∧ t.lc.nonce ≠ none ∧
      t = { s with lc := t.lc, free := t.free })) ∧
    (v.getLsbD 0 = false → exec (.newNonce r v) s = .next s) ∧
    (¬ up → exec (.challenge ask) s = .next s ∧ (∀ signed, exec (.getMeasurements what signed) s = .next s) ∧ exec (.newNonce r v) s = .next s) ∧
    Ends (exec (.pbSelect r v) s) (fun t => t.reg Reg.SISYN_PB_SEL = v ∧ RegsSameBut s t [Reg.SISYN_PB_SEL] ∧ t = { s with regs := t.regs })

/-- Privileged and maker commands, attestation, nonces and the passbook selector (R486–R489, R492, R495–R499). -/
def Obligations.PrivilegedCommandsAndAttestation : Prop := privilegedAndMakerCommands ∧ attestationAnswers

/-- Right after reset no task runs, no core holds anything, no command waits, every identification register holds its unit kind, index
and version (R4), and the memories are in canonical form. That the part is without power here, BLANK, with every port DOWN, is the
model's choice of the moment of reset (log entry 9). -/
def Obligations.ResetStateIsAtRest : Prop :=
  let s := State.reset
  s.pending = [] ∧ s.sched.st = .idle ∧ s.memoryCanonical ∧ s.power.aux = false ∧
  (∀ c, s.core c = Core.reset) ∧ (∀ c, (s.core c).running = false) ∧
  (∀ x b, blockAt x = some b → b.off = 0 → (s.reg x).toNat = b.unit * 2 ^ 24 + b.inst * 2 ^ 12 + 1) ∧
  (∀ c i, ((s.core c).tile i).st = .clear) ∧ (∀ n, (s.churn n).parked = []) ∧ (∀ q, (s.port q).st = 0) ∧
  s.lc.state = .blank ∧ step s = .next s
end

