-- ==== Sys2Proof/Laws/Tab.lean ====
section
/-! SUPPORT. Laws of sparse tables: what a read finds after a write, and that every operation keeps the canonical form. -/

namespace Sys2Proof.Machine

variable {α : Type}

@[simp] theorem tabFind_nil (k : Nat) : tabFind ([] : Tab α) k = none := rfl

@[simp] theorem tabFind_put_same (t : Tab α) (k : Nat) (v : α) : tabFind (tabPut t k v) k = some v := by
  induction t with
  | nil => simp [tabPut, tabFind]
  | cons e r ih =>
    obtain ⟨j, w⟩ := e
    unfold tabPut
    split
    · simp [tabFind]
    · split
      · simp [tabFind]
      · rename_i _ hne
        simp [tabFind, hne, ih]

theorem tabFind_put_other (t : Tab α) {k i : Nat} (v : α) (h : i ≠ k) : tabFind (tabPut t k v) i = tabFind t i := by
  induction t with
  | nil => simp [tabPut, tabFind, Ne.symm h]
  | cons e r ih =>
    obtain ⟨j, w⟩ := e
    unfold tabPut
    split
    · simp [tabFind, Ne.symm h]
    · split
      · rename_i _ he
        subst he
        simp [tabFind, Ne.symm h]
      · simp [tabFind, ih]

@[simp] theorem tabFind_del_same (t : Tab α) (k : Nat) : tabFind (tabDel t k) k = none := by
  induction t with
  | nil => rfl
  | cons e r ih =>
    obtain ⟨j, w⟩ := e
    unfold tabDel
    split
    · exact ih
    · rename_i hne
      simp [tabFind, hne, ih]

theorem tabFind_del_other (t : Tab α) {k i : Nat} (h : i ≠ k) : tabFind (tabDel t k) i = tabFind t i := by
  induction t with
  | nil => rfl
  | cons e r ih =>
    obtain ⟨j, w⟩ := e
    unfold tabDel
    split
    · rename_i he
      subst he
      simp [tabFind, Ne.symm h, ih]
    · simp [tabFind, ih]

@[simp] theorem tabGet_nil (d : α) (k : Nat) : tabGet d [] k = d := rfl

/-- A read of what was just written. -/
@[simp] theorem tabGet_set_same [DecidableEq α] (d : α) (t : Tab α) (k : Nat) (v : α) : tabGet d (tabSet d t k v) k = v := by
  unfold tabSet
  split
  · rename_i h
    simp [tabGet, h]
  · simp [tabGet]

/-- A write leaves every other key alone. -/
theorem tabGet_set_other [DecidableEq α] (d : α) (t : Tab α) {k i : Nat} (v : α) (h : i ≠ k) :
    tabGet d (tabSet d t k v) i = tabGet d t i := by
  unfold tabSet
  split
  · simp [tabGet, tabFind_del_other t h]
  · simp [tabGet, tabFind_put_other t v h]

/-- Both laws at once. -/
theorem tabGet_set [DecidableEq α] (d : α) (t : Tab α) (k i : Nat) (v : α) :
    tabGet d (tabSet d t k v) i = if i = k then v else tabGet d t i := by
  split
  · rename_i h
    simp [h]
  · rename_i h
    exact tabGet_set_other d t v h

/-! The canonical form. -/

theorem tabRising_mono (t : Tab α) {a b : Nat} (h : a ≤ b) (r : tabRising t b = true) : tabRising t a = true := by
  cases t with
  | nil => rfl
  | cons e r' =>
    obtain ⟨j, w⟩ := e
    simp [tabRising] at r ⊢
    exact ⟨Nat.le_trans h r.1, r.2⟩

theorem tabRising_put (t : Tab α) (k : Nat) (v : α) (lo : Nat) (hk : lo ≤ k) (h : tabRising t lo = true) :
    tabRising (tabPut t k v) lo = true := by
  induction t generalizing lo with
  | nil => simp [tabPut, tabRising, hk]
  | cons e r ih =>
    obtain ⟨j, w⟩ := e
    simp [tabRising] at h
    unfold tabPut
    split
    · rename_i hlt
      simp [tabRising, hk, h.2]
      omega
    · split
      · rename_i _ he
        subst he
        simp [tabRising, hk, h.2]
      · rename_i h1 h2
        simp [tabRising, h.1]
        exact ih (j + 1) (by omega) h.2

theorem tabRising_del (t : Tab α) (k lo : Nat) (h : tabRising t lo = true) : tabRising (tabDel t k) lo = true := by
  induction t generalizing lo with
  | nil => rfl
  | cons e r ih =>
    obtain ⟨j, w⟩ := e
    simp [tabRising] at h
    unfold tabDel
    split
    · exact ih lo (tabRising_mono r (by omega) h.2)
    · simp [tabRising, h.1]
      exact ih (j + 1) h.2

theorem tabRising_filter (p : Nat × α → Bool) (t : Tab α) (lo : Nat) (h : tabRising t lo = true) :
    tabRising (t.filter p) lo = true := by
  induction t generalizing lo with
  | nil => rfl
  | cons e r ih =>
    obtain ⟨j, w⟩ := e
    simp [tabRising] at h
    rw [List.filter_cons]
    split
    · simp [tabRising, h.1]
      exact ih (j + 1) h.2
    · exact ih lo (tabRising_mono r (by omega) h.2)

theorem tabSorted_put (t : Tab α) (k : Nat) (v : α) (h : tabSorted t = true) : tabSorted (tabPut t k v) = true :=
  tabRising_put t k v 0 (Nat.zero_le k) h

theorem tabSorted_del (t : Tab α) (k : Nat) (h : tabSorted t = true) : tabSorted (tabDel t k) = true :=
  tabRising_del t k 0 h

theorem tabSorted_drop (p : Nat → Bool) (t : Tab α) (h : tabSorted t = true) : tabSorted (tabDrop p t) = true :=
  tabRising_filter _ t 0 h

theorem tabSorted_set [DecidableEq α] (d : α) (t : Tab α) (k : Nat) (v : α) (h : tabSorted t = true) :
    tabSorted (tabSet d t k v) = true := by
  unfold tabSet
  split
  · exact tabSorted_del t k h
  · exact tabSorted_put t k v h

theorem all_put (p : α → Bool) (t : Tab α) (k : Nat) (v : α) (hv : p v = true) (h : t.all (fun e => p e.2) = true) :
    (tabPut t k v).all (fun e => p e.2) = true := by
  induction t with
  | nil => simp [tabPut, hv]
  | cons e r ih =>
    obtain ⟨j, w⟩ := e
    rw [List.all_cons, Bool.and_eq_true] at h
    unfold tabPut
    split
    · rw [List.all_cons, List.all_cons]
      simp only [hv, h.1, h.2, Bool.and_self]
    · split
      · rw [List.all_cons]
        simp only [hv, h.2, Bool.and_self]
      · rw [List.all_cons, ih h.2]
        simp only [h.1, Bool.and_self]

theorem all_del (p : α → Bool) (t : Tab α) (k : Nat) (h : t.all (fun e => p e.2) = true) :
    (tabDel t k).all (fun e => p e.2) = true := by
  induction t with
  | nil => rfl
  | cons e r ih =>
    obtain ⟨j, w⟩ := e
    rw [List.all_cons, Bool.and_eq_true] at h
    unfold tabDel
    split
    · exact ih h.2
    · rw [List.all_cons, ih h.2]
      simp only [h.1, Bool.and_self]

/-- A write keeps the canonical form. -/
theorem tabWf_set [DecidableEq α] (d : α) (t : Tab α) (k : Nat) (v : α) (h : tabWf d t = true) :
    tabWf d (tabSet d t k v) = true := by
  simp only [tabWf, Bool.and_eq_true] at h ⊢
  refine ⟨tabSorted_set d t k v h.1, ?_⟩
  unfold tabSet
  split
  · exact all_del (fun x => decide (x ≠ d)) t k h.2
  · rename_i hv
    exact all_put (fun x => decide (x ≠ d)) t k v (by simpa using hv) h.2

/-- A write of bytes keeps the canonical form. -/
theorem memoryWf_bytesSet (d : Byte) (bs : List Byte) (t : Tab Byte) (a : Nat) (h : memoryWf d t = true) :
    memoryWf d (bytesSet d t a bs) = true := by
  induction bs generalizing t a with
  | nil => exact h
  | cons b bs ih => exact ih _ _ (tabWf_set d t a b h)

/-- A byte outside those written reads as before. -/
theorem tabGet_bytesSet_other (d : Byte) (bs : List Byte) (t : Tab Byte) {a i : Nat} (h : i < a ∨ a + bs.length ≤ i) :
    tabGet d (bytesSet d t a bs) i = tabGet d t i := by
  induction bs generalizing t a with
  | nil => rfl
  | cons b bs ih =>
    simp only [List.length_cons] at h
    unfold bytesSet
    rw [ih _ (by omega), tabGet_set_other d t b (by omega)]

/-- The bytes written read back. -/
theorem bytesGet_bytesSet (d : Byte) (bs : List Byte) (t : Tab Byte) (a : Nat) :
    bytesGet d (bytesSet d t a bs) a bs.length = bs := by
  induction bs generalizing t a with
  | nil => rfl
  | cons b bs ih =>
    simp only [List.length_cons, bytesGet, bytesSet]
    rw [tabGet_bytesSet_other d bs _ (Or.inl (Nat.lt_succ_self a)), tabGet_set_same, ih]

end Sys2Proof.Machine
end

