-- ==== Sys2Proof/Laws/State.lean ====
section
/-! SUPPORT. What each update of the state leaves alone, one lemma per field per update, and what a read of a core or a
register finds after a write. -/

namespace Sys2Proof.Machine

variable (s : State)

/-! setCore -/

@[simp] theorem State.setCore_pending (c : Nat) (k : Core) : (s.setCore c k).pending = s.pending := rfl
@[simp] theorem State.setCore_variant (c : Nat) (k : Core) : (s.setCore c k).variant = s.variant := rfl
@[simp] theorem State.setCore_serial (c : Nat) (k : Core) : (s.setCore c k).serial = s.serial := rfl
@[simp] theorem State.setCore_regs (c : Nat) (k : Core) : (s.setCore c k).regs = s.regs := rfl
@[simp] theorem State.setCore_latches (c : Nat) (k : Core) : (s.setCore c k).latches = s.latches := rfl
@[simp] theorem State.setCore_answers (c : Nat) (k : Core) : (s.setCore c k).answers = s.answers := rfl
@[simp] theorem State.setCore_free (c : Nat) (k : Core) : (s.setCore c k).free = s.free := rfl
@[simp] theorem State.setCore_sched (c : Nat) (k : Core) : (s.setCore c k).sched = s.sched := rfl
@[simp] theorem State.setCore_hubOps (c : Nat) (k : Core) : (s.setCore c k).hubOps = s.hubOps := rfl
@[simp] theorem State.setCore_dram (c : Nat) (k : Core) : (s.setCore c k).dram = s.dram := rfl
@[simp] theorem State.setCore_zeroed (c : Nat) (k : Core) : (s.setCore c k).zeroed = s.zeroed := rfl
@[simp] theorem State.setCore_writeBacks (c : Nat) (k : Core) : (s.setCore c k).writeBacks = s.writeBacks := rfl
@[simp] theorem State.setCore_pkgCe (c : Nat) (k : Core) : (s.setCore c k).pkgCe = s.pkgCe := rfl
@[simp] theorem State.setCore_skimOff (c : Nat) (k : Core) : (s.setCore c k).skimOff = s.skimOff := rfl
@[simp] theorem State.setCore_hosts (c : Nat) (k : Core) : (s.setCore c k).hosts = s.hosts := rfl
@[simp] theorem State.setCore_scrubAt (c : Nat) (k : Core) : (s.setCore c k).scrubAt = s.scrubAt := rfl
@[simp] theorem State.setCore_dbQueue (c : Nat) (k : Core) : (s.setCore c k).dbQueue = s.dbQueue := rfl
@[simp] theorem State.setCore_dbArea (c : Nat) (k : Core) : (s.setCore c k).dbArea = s.dbArea := rfl
@[simp] theorem State.setCore_dbNext (c : Nat) (k : Core) : (s.setCore c k).dbNext = s.dbNext := rfl
@[simp] theorem State.setCore_dbBoot (c : Nat) (k : Core) : (s.setCore c k).dbBoot = s.dbBoot := rfl
@[simp] theorem State.setCore_churns (c : Nat) (k : Core) : (s.setCore c k).churns = s.churns := rfl
@[simp] theorem State.setCore_roots (c : Nat) (k : Core) : (s.setCore c k).roots = s.roots := rfl
@[simp] theorem State.setCore_span (c : Nat) (k : Core) : (s.setCore c k).span = s.span := rfl
@[simp] theorem State.setCore_power (c : Nat) (k : Core) : (s.setCore c k).power = s.power := rfl
@[simp] theorem State.setCore_sisyn (c : Nat) (k : Core) : (s.setCore c k).sisyn = s.sisyn := rfl
@[simp] theorem State.setCore_lc (c : Nat) (k : Core) : (s.setCore c k).lc = s.lc := rfl
@[simp] theorem State.setCore_replies (c : Nat) (k : Core) : (s.setCore c k).replies = s.replies := rfl

/-! modCore -/

@[simp] theorem State.modCore_pending (c : Nat) (f : Core → Core) : (s.modCore c f).pending = s.pending := rfl
@[simp] theorem State.modCore_variant (c : Nat) (f : Core → Core) : (s.modCore c f).variant = s.variant := rfl
@[simp] theorem State.modCore_serial (c : Nat) (f : Core → Core) : (s.modCore c f).serial = s.serial := rfl
@[simp] theorem State.modCore_regs (c : Nat) (f : Core → Core) : (s.modCore c f).regs = s.regs := rfl
@[simp] theorem State.modCore_latches (c : Nat) (f : Core → Core) : (s.modCore c f).latches = s.latches := rfl
@[simp] theorem State.modCore_answers (c : Nat) (f : Core → Core) : (s.modCore c f).answers = s.answers := rfl
@[simp] theorem State.modCore_free (c : Nat) (f : Core → Core) : (s.modCore c f).free = s.free := rfl
@[simp] theorem State.modCore_sched (c : Nat) (f : Core → Core) : (s.modCore c f).sched = s.sched := rfl
@[simp] theorem State.modCore_hubOps (c : Nat) (f : Core → Core) : (s.modCore c f).hubOps = s.hubOps := rfl
@[simp] theorem State.modCore_dram (c : Nat) (f : Core → Core) : (s.modCore c f).dram = s.dram := rfl
@[simp] theorem State.modCore_zeroed (c : Nat) (f : Core → Core) : (s.modCore c f).zeroed = s.zeroed := rfl
@[simp] theorem State.modCore_writeBacks (c : Nat) (f : Core → Core) : (s.modCore c f).writeBacks = s.writeBacks := rfl
@[simp] theorem State.modCore_pkgCe (c : Nat) (f : Core → Core) : (s.modCore c f).pkgCe = s.pkgCe := rfl
@[simp] theorem State.modCore_skimOff (c : Nat) (f : Core → Core) : (s.modCore c f).skimOff = s.skimOff := rfl
@[simp] theorem State.modCore_hosts (c : Nat) (f : Core → Core) : (s.modCore c f).hosts = s.hosts := rfl
@[simp] theorem State.modCore_scrubAt (c : Nat) (f : Core → Core) : (s.modCore c f).scrubAt = s.scrubAt := rfl
@[simp] theorem State.modCore_dbQueue (c : Nat) (f : Core → Core) : (s.modCore c f).dbQueue = s.dbQueue := rfl
@[simp] theorem State.modCore_dbArea (c : Nat) (f : Core → Core) : (s.modCore c f).dbArea = s.dbArea := rfl
@[simp] theorem State.modCore_dbNext (c : Nat) (f : Core → Core) : (s.modCore c f).dbNext = s.dbNext := rfl
@[simp] theorem State.modCore_dbBoot (c : Nat) (f : Core → Core) : (s.modCore c f).dbBoot = s.dbBoot := rfl
@[simp] theorem State.modCore_churns (c : Nat) (f : Core → Core) : (s.modCore c f).churns = s.churns := rfl
@[simp] theorem State.modCore_roots (c : Nat) (f : Core → Core) : (s.modCore c f).roots = s.roots := rfl
@[simp] theorem State.modCore_span (c : Nat) (f : Core → Core) : (s.modCore c f).span = s.span := rfl
@[simp] theorem State.modCore_power (c : Nat) (f : Core → Core) : (s.modCore c f).power = s.power := rfl
@[simp] theorem State.modCore_sisyn (c : Nat) (f : Core → Core) : (s.modCore c f).sisyn = s.sisyn := rfl
@[simp] theorem State.modCore_lc (c : Nat) (f : Core → Core) : (s.modCore c f).lc = s.lc := rfl
@[simp] theorem State.modCore_replies (c : Nat) (f : Core → Core) : (s.modCore c f).replies = s.replies := rfl

/-! setReg -/

@[simp] theorem State.setReg_pending (x : Nat) (v : Word) : (s.setReg x v).pending = s.pending := rfl
@[simp] theorem State.setReg_variant (x : Nat) (v : Word) : (s.setReg x v).variant = s.variant := rfl
@[simp] theorem State.setReg_serial (x : Nat) (v : Word) : (s.setReg x v).serial = s.serial := rfl
@[simp] theorem State.setReg_latches (x : Nat) (v : Word) : (s.setReg x v).latches = s.latches := rfl
@[simp] theorem State.setReg_answers (x : Nat) (v : Word) : (s.setReg x v).answers = s.answers := rfl
@[simp] theorem State.setReg_free (x : Nat) (v : Word) : (s.setReg x v).free = s.free := rfl
@[simp] theorem State.setReg_cores (x : Nat) (v : Word) : (s.setReg x v).cores = s.cores := rfl
@[simp] theorem State.setReg_sched (x : Nat) (v : Word) : (s.setReg x v).sched = s.sched := rfl
@[simp] theorem State.setReg_hubOps (x : Nat) (v : Word) : (s.setReg x v).hubOps = s.hubOps := rfl
@[simp] theorem State.setReg_dram (x : Nat) (v : Word) : (s.setReg x v).dram = s.dram := rfl
@[simp] theorem State.setReg_zeroed (x : Nat) (v : Word) : (s.setReg x v).zeroed = s.zeroed := rfl
@[simp] theorem State.setReg_writeBacks (x : Nat) (v : Word) : (s.setReg x v).writeBacks = s.writeBacks := rfl
@[simp] theorem State.setReg_pkgCe (x : Nat) (v : Word) : (s.setReg x v).pkgCe = s.pkgCe := rfl
@[simp] theorem State.setReg_skimOff (x : Nat) (v : Word) : (s.setReg x v).skimOff = s.skimOff := rfl
@[simp] theorem State.setReg_hosts (x : Nat) (v : Word) : (s.setReg x v).hosts = s.hosts := rfl
@[simp] theorem State.setReg_scrubAt (x : Nat) (v : Word) : (s.setReg x v).scrubAt = s.scrubAt := rfl
@[simp] theorem State.setReg_dbQueue (x : Nat) (v : Word) : (s.setReg x v).dbQueue = s.dbQueue := rfl
@[simp] theorem State.setReg_dbArea (x : Nat) (v : Word) : (s.setReg x v).dbArea = s.dbArea := rfl
@[simp] theorem State.setReg_dbNext (x : Nat) (v : Word) : (s.setReg x v).dbNext = s.dbNext := rfl
@[simp] theorem State.setReg_dbBoot (x : Nat) (v : Word) : (s.setReg x v).dbBoot = s.dbBoot := rfl
@[simp] theorem State.setReg_churns (x : Nat) (v : Word) : (s.setReg x v).churns = s.churns := rfl
@[simp] theorem State.setReg_roots (x : Nat) (v : Word) : (s.setReg x v).roots = s.roots := rfl
@[simp] theorem State.setReg_span (x : Nat) (v : Word) : (s.setReg x v).span = s.span := rfl
@[simp] theorem State.setReg_power (x : Nat) (v : Word) : (s.setReg x v).power = s.power := rfl
@[simp] theorem State.setReg_sisyn (x : Nat) (v : Word) : (s.setReg x v).sisyn = s.sisyn := rfl
@[simp] theorem State.setReg_lc (x : Nat) (v : Word) : (s.setReg x v).lc = s.lc := rfl
@[simp] theorem State.setReg_replies (x : Nat) (v : Word) : (s.setReg x v).replies = s.replies := rfl

/-! setRegN -/

@[simp] theorem State.setRegN_pending (x v : Nat) : (s.setRegN x v).pending = s.pending := s.setReg_pending _ _
@[simp] theorem State.setRegN_variant (x v : Nat) : (s.setRegN x v).variant = s.variant := s.setReg_variant _ _
@[simp] theorem State.setRegN_serial (x v : Nat) : (s.setRegN x v).serial = s.serial := s.setReg_serial _ _
@[simp] theorem State.setRegN_latches (x v : Nat) : (s.setRegN x v).latches = s.latches := s.setReg_latches _ _
@[simp] theorem State.setRegN_answers (x v : Nat) : (s.setRegN x v).answers = s.answers := s.setReg_answers _ _
@[simp] theorem State.setRegN_free (x v : Nat) : (s.setRegN x v).free = s.free := s.setReg_free _ _
@[simp] theorem State.setRegN_cores (x v : Nat) : (s.setRegN x v).cores = s.cores := s.setReg_cores _ _
@[simp] theorem State.setRegN_sched (x v : Nat) : (s.setRegN x v).sched = s.sched := s.setReg_sched _ _
@[simp] theorem State.setRegN_hubOps (x v : Nat) : (s.setRegN x v).hubOps = s.hubOps := s.setReg_hubOps _ _
@[simp] theorem State.setRegN_dram (x v : Nat) : (s.setRegN x v).dram = s.dram := s.setReg_dram _ _
@[simp] theorem State.setRegN_zeroed (x v : Nat) : (s.setRegN x v).zeroed = s.zeroed := s.setReg_zeroed _ _
@[simp] theorem State.setRegN_writeBacks (x v : Nat) : (s.setRegN x v).writeBacks = s.writeBacks := s.setReg_writeBacks _ _
@[simp] theorem State.setRegN_pkgCe (x v : Nat) : (s.setRegN x v).pkgCe = s.pkgCe := s.setReg_pkgCe _ _
@[simp] theorem State.setRegN_skimOff (x v : Nat) : (s.setRegN x v).skimOff = s.skimOff := s.setReg_skimOff _ _
@[simp] theorem State.setRegN_hosts (x v : Nat) : (s.setRegN x v).hosts = s.hosts := s.setReg_hosts _ _
@[simp] theorem State.setRegN_scrubAt (x v : Nat) : (s.setRegN x v).scrubAt = s.scrubAt := s.setReg_scrubAt _ _
@[simp] theorem State.setRegN_dbQueue (x v : Nat) : (s.setRegN x v).dbQueue = s.dbQueue := s.setReg_dbQueue _ _
@[simp] theorem State.setRegN_dbArea (x v : Nat) : (s.setRegN x v).dbArea = s.dbArea := s.setReg_dbArea _ _
@[simp] theorem State.setRegN_dbNext (x v : Nat) : (s.setRegN x v).dbNext = s.dbNext := s.setReg_dbNext _ _
@[simp] theorem State.setRegN_dbBoot (x v : Nat) : (s.setRegN x v).dbBoot = s.dbBoot := s.setReg_dbBoot _ _
@[simp] theorem State.setRegN_churns (x v : Nat) : (s.setRegN x v).churns = s.churns := s.setReg_churns _ _
@[simp] theorem State.setRegN_roots (x v : Nat) : (s.setRegN x v).roots = s.roots := s.setReg_roots _ _
@[simp] theorem State.setRegN_span (x v : Nat) : (s.setRegN x v).span = s.span := s.setReg_span _ _
@[simp] theorem State.setRegN_power (x v : Nat) : (s.setRegN x v).power = s.power := s.setReg_power _ _
@[simp] theorem State.setRegN_sisyn (x v : Nat) : (s.setRegN x v).sisyn = s.sisyn := s.setReg_sisyn _ _
@[simp] theorem State.setRegN_lc (x v : Nat) : (s.setRegN x v).lc = s.lc := s.setReg_lc _ _
@[simp] theorem State.setRegN_replies (x v : Nat) : (s.setRegN x v).replies = s.replies := s.setReg_replies _ _

/-! setField -/

@[simp] theorem State.setField_pending (x lo len v : Nat) : (s.setField x lo len v).pending = s.pending := s.setRegN_pending _ _
@[simp] theorem State.setField_variant (x lo len v : Nat) : (s.setField x lo len v).variant = s.variant := s.setRegN_variant _ _
@[simp] theorem State.setField_serial (x lo len v : Nat) : (s.setField x lo len v).serial = s.serial := s.setRegN_serial _ _
@[simp] theorem State.setField_latches (x lo len v : Nat) : (s.setField x lo len v).latches = s.latches := s.setRegN_latches _ _
@[simp] theorem State.setField_answers (x lo len v : Nat) : (s.setField x lo len v).answers = s.answers := s.setRegN_answers _ _
@[simp] theorem State.setField_free (x lo len v : Nat) : (s.setField x lo len v).free = s.free := s.setRegN_free _ _
@[simp] theorem State.setField_cores (x lo len v : Nat) : (s.setField x lo len v).cores = s.cores := s.setRegN_cores _ _
@[simp] theorem State.setField_sched (x lo len v : Nat) : (s.setField x lo len v).sched = s.sched := s.setRegN_sched _ _
@[simp] theorem State.setField_hubOps (x lo len v : Nat) : (s.setField x lo len v).hubOps = s.hubOps := s.setRegN_hubOps _ _
@[simp] theorem State.setField_dram (x lo len v : Nat) : (s.setField x lo len v).dram = s.dram := s.setRegN_dram _ _
@[simp] theorem State.setField_zeroed (x lo len v : Nat) : (s.setField x lo len v).zeroed = s.zeroed := s.setRegN_zeroed _ _
@[simp] theorem State.setField_writeBacks (x lo len v : Nat) : (s.setField x lo len v).writeBacks = s.writeBacks := s.setRegN_writeBacks _ _
@[simp] theorem State.setField_pkgCe (x lo len v : Nat) : (s.setField x lo len v).pkgCe = s.pkgCe := s.setRegN_pkgCe _ _
@[simp] theorem State.setField_skimOff (x lo len v : Nat) : (s.setField x lo len v).skimOff = s.skimOff := s.setRegN_skimOff _ _
@[simp] theorem State.setField_hosts (x lo len v : Nat) : (s.setField x lo len v).hosts = s.hosts := s.setRegN_hosts _ _
@[simp] theorem State.setField_scrubAt (x lo len v : Nat) : (s.setField x lo len v).scrubAt = s.scrubAt := s.setRegN_scrubAt _ _
@[simp] theorem State.setField_dbQueue (x lo len v : Nat) : (s.setField x lo len v).dbQueue = s.dbQueue := s.setRegN_dbQueue _ _
@[simp] theorem State.setField_dbArea (x lo len v : Nat) : (s.setField x lo len v).dbArea = s.dbArea := s.setRegN_dbArea _ _
@[simp] theorem State.setField_dbNext (x lo len v : Nat) : (s.setField x lo len v).dbNext = s.dbNext := s.setRegN_dbNext _ _
@[simp] theorem State.setField_dbBoot (x lo len v : Nat) : (s.setField x lo len v).dbBoot = s.dbBoot := s.setRegN_dbBoot _ _
@[simp] theorem State.setField_churns (x lo len v : Nat) : (s.setField x lo len v).churns = s.churns := s.setRegN_churns _ _
@[simp] theorem State.setField_roots (x lo len v : Nat) : (s.setField x lo len v).roots = s.roots := s.setRegN_roots _ _
@[simp] theorem State.setField_span (x lo len v : Nat) : (s.setField x lo len v).span = s.span := s.setRegN_span _ _
@[simp] theorem State.setField_power (x lo len v : Nat) : (s.setField x lo len v).power = s.power := s.setRegN_power _ _
@[simp] theorem State.setField_sisyn (x lo len v : Nat) : (s.setField x lo len v).sisyn = s.sisyn := s.setRegN_sisyn _ _
@[simp] theorem State.setField_lc (x lo len v : Nat) : (s.setField x lo len v).lc = s.lc := s.setRegN_lc _ _
@[simp] theorem State.setField_replies (x lo len v : Nat) : (s.setField x lo len v).replies = s.replies := s.setRegN_replies _ _

/-! setReg64 -/

@[simp] theorem State.setReg64_pending (x v : Nat) : (s.setReg64 x v).pending = s.pending := (State.setRegN_pending _ _ _).trans (s.setRegN_pending _ _)
@[simp] theorem State.setReg64_variant (x v : Nat) : (s.setReg64 x v).variant = s.variant := (State.setRegN_variant _ _ _).trans (s.setRegN_variant _ _)
@[simp] theorem State.setReg64_serial (x v : Nat) : (s.setReg64 x v).serial = s.serial := (State.setRegN_serial _ _ _).trans (s.setRegN_serial _ _)
@[simp] theorem State.setReg64_latches (x v : Nat) : (s.setReg64 x v).latches = s.latches := (State.setRegN_latches _ _ _).trans (s.setRegN_latches _ _)
@[simp] theorem State.setReg64_answers (x v : Nat) : (s.setReg64 x v).answers = s.answers := (State.setRegN_answers _ _ _).trans (s.setRegN_answers _ _)
@[simp] theorem State.setReg64_free (x v : Nat) : (s.setReg64 x v).free = s.free := (State.setRegN_free _ _ _).trans (s.setRegN_free _ _)
@[simp] theorem State.setReg64_cores (x v : Nat) : (s.setReg64 x v).cores = s.cores := (State.setRegN_cores _ _ _).trans (s.setRegN_cores _ _)
@[simp] theorem State.setReg64_sched (x v : Nat) : (s.setReg64 x v).sched = s.sched := (State.setRegN_sched _ _ _).trans (s.setRegN_sched _ _)
@[simp] theorem State.setReg64_hubOps (x v : Nat) : (s.setReg64 x v).hubOps = s.hubOps := (State.setRegN_hubOps _ _ _).trans (s.setRegN_hubOps _ _)
@[simp] theorem State.setReg64_dram (x v : Nat) : (s.setReg64 x v).dram = s.dram := (State.setRegN_dram _ _ _).trans (s.setRegN_dram _ _)
@[simp] theorem State.setReg64_zeroed (x v : Nat) : (s.setReg64 x v).zeroed = s.zeroed := (State.setRegN_zeroed _ _ _).trans (s.setRegN_zeroed _ _)
@[simp] theorem State.setReg64_writeBacks (x v : Nat) : (s.setReg64 x v).writeBacks = s.writeBacks := (State.setRegN_writeBacks _ _ _).trans (s.setRegN_writeBacks _ _)
@[simp] theorem State.setReg64_pkgCe (x v : Nat) : (s.setReg64 x v).pkgCe = s.pkgCe := (State.setRegN_pkgCe _ _ _).trans (s.setRegN_pkgCe _ _)
@[simp] theorem State.setReg64_skimOff (x v : Nat) : (s.setReg64 x v).skimOff = s.skimOff := (State.setRegN_skimOff _ _ _).trans (s.setRegN_skimOff _ _)
@[simp] theorem State.setReg64_hosts (x v : Nat) : (s.setReg64 x v).hosts = s.hosts := (State.setRegN_hosts _ _ _).trans (s.setRegN_hosts _ _)
@[simp] theorem State.setReg64_scrubAt (x v : Nat) : (s.setReg64 x v).scrubAt = s.scrubAt := (State.setRegN_scrubAt _ _ _).trans (s.setRegN_scrubAt _ _)
@[simp] theorem State.setReg64_dbQueue (x v : Nat) : (s.setReg64 x v).dbQueue = s.dbQueue := (State.setRegN_dbQueue _ _ _).trans (s.setRegN_dbQueue _ _)
@[simp] theorem State.setReg64_dbArea (x v : Nat) : (s.setReg64 x v).dbArea = s.dbArea := (State.setRegN_dbArea _ _ _).trans (s.setRegN_dbArea _ _)
@[simp] theorem State.setReg64_dbNext (x v : Nat) : (s.setReg64 x v).dbNext = s.dbNext := (State.setRegN_dbNext _ _ _).trans (s.setRegN_dbNext _ _)
@[simp] theorem State.setReg64_dbBoot (x v : Nat) : (s.setReg64 x v).dbBoot = s.dbBoot := (State.setRegN_dbBoot _ _ _).trans (s.setRegN_dbBoot _ _)
@[simp] theorem State.setReg64_churns (x v : Nat) : (s.setReg64 x v).churns = s.churns := (State.setRegN_churns _ _ _).trans (s.setRegN_churns _ _)
@[simp] theorem State.setReg64_roots (x v : Nat) : (s.setReg64 x v).roots = s.roots := (State.setRegN_roots _ _ _).trans (s.setRegN_roots _ _)
@[simp] theorem State.setReg64_span (x v : Nat) : (s.setReg64 x v).span = s.span := (State.setRegN_span _ _ _).trans (s.setRegN_span _ _)
@[simp] theorem State.setReg64_power (x v : Nat) : (s.setReg64 x v).power = s.power := (State.setRegN_power _ _ _).trans (s.setRegN_power _ _)
@[simp] theorem State.setReg64_sisyn (x v : Nat) : (s.setReg64 x v).sisyn = s.sisyn := (State.setRegN_sisyn _ _ _).trans (s.setRegN_sisyn _ _)
@[simp] theorem State.setReg64_lc (x v : Nat) : (s.setReg64 x v).lc = s.lc := (State.setRegN_lc _ _ _).trans (s.setRegN_lc _ _)
@[simp] theorem State.setReg64_replies (x v : Nat) : (s.setReg64 x v).replies = s.replies := (State.setRegN_replies _ _ _).trans (s.setRegN_replies _ _)

/-! bump64 -/

@[simp] theorem State.bump64_pending (x n : Nat) : (s.bump64 x n).pending = s.pending := by unfold State.bump64; split; exacts [rfl, s.setReg64_pending _ _]
@[simp] theorem State.bump64_variant (x n : Nat) : (s.bump64 x n).variant = s.variant := by unfold State.bump64; split; exacts [rfl, s.setReg64_variant _ _]
@[simp] theorem State.bump64_serial (x n : Nat) : (s.bump64 x n).serial = s.serial := by unfold State.bump64; split; exacts [rfl, s.setReg64_serial _ _]
@[simp] theorem State.bump64_latches (x n : Nat) : (s.bump64 x n).latches = s.latches := by unfold State.bump64; split; exacts [rfl, s.setReg64_latches _ _]
@[simp] theorem State.bump64_answers (x n : Nat) : (s.bump64 x n).answers = s.answers := by unfold State.bump64; split; exacts [rfl, s.setReg64_answers _ _]
@[simp] theorem State.bump64_free (x n : Nat) : (s.bump64 x n).free = s.free := by unfold State.bump64; split; exacts [rfl, s.setReg64_free _ _]
@[simp] theorem State.bump64_cores (x n : Nat) : (s.bump64 x n).cores = s.cores := by unfold State.bump64; split; exacts [rfl, s.setReg64_cores _ _]
@[simp] theorem State.bump64_sched (x n : Nat) : (s.bump64 x n).sched = s.sched := by unfold State.bump64; split; exacts [rfl, s.setReg64_sched _ _]
@[simp] theorem State.bump64_hubOps (x n : Nat) : (s.bump64 x n).hubOps = s.hubOps := by unfold State.bump64; split; exacts [rfl, s.setReg64_hubOps _ _]
@[simp] theorem State.bump64_dram (x n : Nat) : (s.bump64 x n).dram = s.dram := by unfold State.bump64; split; exacts [rfl, s.setReg64_dram _ _]
@[simp] theorem State.bump64_zeroed (x n : Nat) : (s.bump64 x n).zeroed = s.zeroed := by unfold State.bump64; split; exacts [rfl, s.setReg64_zeroed _ _]
@[simp] theorem State.bump64_writeBacks (x n : Nat) : (s.bump64 x n).writeBacks = s.writeBacks := by unfold State.bump64; split; exacts [rfl, s.setReg64_writeBacks _ _]
@[simp] theorem State.bump64_pkgCe (x n : Nat) : (s.bump64 x n).pkgCe = s.pkgCe := by unfold State.bump64; split; exacts [rfl, s.setReg64_pkgCe _ _]
@[simp] theorem State.bump64_skimOff (x n : Nat) : (s.bump64 x n).skimOff = s.skimOff := by unfold State.bump64; split; exacts [rfl, s.setReg64_skimOff _ _]
@[simp] theorem State.bump64_hosts (x n : Nat) : (s.bump64 x n).hosts = s.hosts := by unfold State.bump64; split; exacts [rfl, s.setReg64_hosts _ _]
@[simp] theorem State.bump64_scrubAt (x n : Nat) : (s.bump64 x n).scrubAt = s.scrubAt := by unfold State.bump64; split; exacts [rfl, s.setReg64_scrubAt _ _]
@[simp] theorem State.bump64_dbQueue (x n : Nat) : (s.bump64 x n).dbQueue = s.dbQueue := by unfold State.bump64; split; exacts [rfl, s.setReg64_dbQueue _ _]
@[simp] theorem State.bump64_dbArea (x n : Nat) : (s.bump64 x n).dbArea = s.dbArea := by unfold State.bump64; split; exacts [rfl, s.setReg64_dbArea _ _]
@[simp] theorem State.bump64_dbNext (x n : Nat) : (s.bump64 x n).dbNext = s.dbNext := by unfold State.bump64; split; exacts [rfl, s.setReg64_dbNext _ _]
@[simp] theorem State.bump64_dbBoot (x n : Nat) : (s.bump64 x n).dbBoot = s.dbBoot := by unfold State.bump64; split; exacts [rfl, s.setReg64_dbBoot _ _]
@[simp] theorem State.bump64_churns (x n : Nat) : (s.bump64 x n).churns = s.churns := by unfold State.bump64; split; exacts [rfl, s.setReg64_churns _ _]
@[simp] theorem State.bump64_roots (x n : Nat) : (s.bump64 x n).roots = s.roots := by unfold State.bump64; split; exacts [rfl, s.setReg64_roots _ _]
@[simp] theorem State.bump64_span (x n : Nat) : (s.bump64 x n).span = s.span := by unfold State.bump64; split; exacts [rfl, s.setReg64_span _ _]
@[simp] theorem State.bump64_power (x n : Nat) : (s.bump64 x n).power = s.power := by unfold State.bump64; split; exacts [rfl, s.setReg64_power _ _]
@[simp] theorem State.bump64_sisyn (x n : Nat) : (s.bump64 x n).sisyn = s.sisyn := by unfold State.bump64; split; exacts [rfl, s.setReg64_sisyn _ _]
@[simp] theorem State.bump64_lc (x n : Nat) : (s.bump64 x n).lc = s.lc := by unfold State.bump64; split; exacts [rfl, s.setReg64_lc _ _]
@[simp] theorem State.bump64_replies (x n : Nat) : (s.bump64 x n).replies = s.replies := by unfold State.bump64; split; exacts [rfl, s.setReg64_replies _ _]

/-! bump32 -/

@[simp] theorem State.bump32_pending (x n : Nat) : (s.bump32 x n).pending = s.pending := by unfold State.bump32; split; exacts [rfl, s.setRegN_pending _ _]
@[simp] theorem State.bump32_variant (x n : Nat) : (s.bump32 x n).variant = s.variant := by unfold State.bump32; split; exacts [rfl, s.setRegN_variant _ _]
@[simp] theorem State.bump32_serial (x n : Nat) : (s.bump32 x n).serial = s.serial := by unfold State.bump32; split; exacts [rfl, s.setRegN_serial _ _]
@[simp] theorem State.bump32_latches (x n : Nat) : (s.bump32 x n).latches = s.latches := by unfold State.bump32; split; exacts [rfl, s.setRegN_latches _ _]
@[simp] theorem State.bump32_answers (x n : Nat) : (s.bump32 x n).answers = s.answers := by unfold State.bump32; split; exacts [rfl, s.setRegN_answers _ _]
@[simp] theorem State.bump32_free (x n : Nat) : (s.bump32 x n).free = s.free := by unfold State.bump32; split; exacts [rfl, s.setRegN_free _ _]
@[simp] theorem State.bump32_cores (x n : Nat) : (s.bump32 x n).cores = s.cores := by unfold State.bump32; split; exacts [rfl, s.setRegN_cores _ _]
@[simp] theorem State.bump32_sched (x n : Nat) : (s.bump32 x n).sched = s.sched := by unfold State.bump32; split; exacts [rfl, s.setRegN_sched _ _]
@[simp] theorem State.bump32_hubOps (x n : Nat) : (s.bump32 x n).hubOps = s.hubOps := by unfold State.bump32; split; exacts [rfl, s.setRegN_hubOps _ _]
@[simp] theorem State.bump32_dram (x n : Nat) : (s.bump32 x n).dram = s.dram := by unfold State.bump32; split; exacts [rfl, s.setRegN_dram _ _]
@[simp] theorem State.bump32_zeroed (x n : Nat) : (s.bump32 x n).zeroed = s.zeroed := by unfold State.bump32; split; exacts [rfl, s.setRegN_zeroed _ _]
@[simp] theorem State.bump32_writeBacks (x n : Nat) : (s.bump32 x n).writeBacks = s.writeBacks := by unfold State.bump32; split; exacts [rfl, s.setRegN_writeBacks _ _]
@[simp] theorem State.bump32_pkgCe (x n : Nat) : (s.bump32 x n).pkgCe = s.pkgCe := by unfold State.bump32; split; exacts [rfl, s.setRegN_pkgCe _ _]
@[simp] theorem State.bump32_skimOff (x n : Nat) : (s.bump32 x n).skimOff = s.skimOff := by unfold State.bump32; split; exacts [rfl, s.setRegN_skimOff _ _]
@[simp] theorem State.bump32_hosts (x n : Nat) : (s.bump32 x n).hosts = s.hosts := by unfold State.bump32; split; exacts [rfl, s.setRegN_hosts _ _]
@[simp] theorem State.bump32_scrubAt (x n : Nat) : (s.bump32 x n).scrubAt = s.scrubAt := by unfold State.bump32; split; exacts [rfl, s.setRegN_scrubAt _ _]
@[simp] theorem State.bump32_dbQueue (x n : Nat) : (s.bump32 x n).dbQueue = s.dbQueue := by unfold State.bump32; split; exacts [rfl, s.setRegN_dbQueue _ _]
@[simp] theorem State.bump32_dbArea (x n : Nat) : (s.bump32 x n).dbArea = s.dbArea := by unfold State.bump32; split; exacts [rfl, s.setRegN_dbArea _ _]
@[simp] theorem State.bump32_dbNext (x n : Nat) : (s.bump32 x n).dbNext = s.dbNext := by unfold State.bump32; split; exacts [rfl, s.setRegN_dbNext _ _]
@[simp] theorem State.bump32_dbBoot (x n : Nat) : (s.bump32 x n).dbBoot = s.dbBoot := by unfold State.bump32; split; exacts [rfl, s.setRegN_dbBoot _ _]
@[simp] theorem State.bump32_churns (x n : Nat) : (s.bump32 x n).churns = s.churns := by unfold State.bump32; split; exacts [rfl, s.setRegN_churns _ _]
@[simp] theorem State.bump32_roots (x n : Nat) : (s.bump32 x n).roots = s.roots := by unfold State.bump32; split; exacts [rfl, s.setRegN_roots _ _]
@[simp] theorem State.bump32_span (x n : Nat) : (s.bump32 x n).span = s.span := by unfold State.bump32; split; exacts [rfl, s.setRegN_span _ _]
@[simp] theorem State.bump32_power (x n : Nat) : (s.bump32 x n).power = s.power := by unfold State.bump32; split; exacts [rfl, s.setRegN_power _ _]
@[simp] theorem State.bump32_sisyn (x n : Nat) : (s.bump32 x n).sisyn = s.sisyn := by unfold State.bump32; split; exacts [rfl, s.setRegN_sisyn _ _]
@[simp] theorem State.bump32_lc (x n : Nat) : (s.bump32 x n).lc = s.lc := by unfold State.bump32; split; exacts [rfl, s.setRegN_lc _ _]
@[simp] theorem State.bump32_replies (x n : Nat) : (s.bump32 x n).replies = s.replies := by unfold State.bump32; split; exacts [rfl, s.setRegN_replies _ _]

/-! maxReg -/

@[simp] theorem State.maxReg_pending (x v : Nat) : (s.maxReg x v).pending = s.pending := s.setRegN_pending _ _
@[simp] theorem State.maxReg_variant (x v : Nat) : (s.maxReg x v).variant = s.variant := s.setRegN_variant _ _
@[simp] theorem State.maxReg_serial (x v : Nat) : (s.maxReg x v).serial = s.serial := s.setRegN_serial _ _
@[simp] theorem State.maxReg_latches (x v : Nat) : (s.maxReg x v).latches = s.latches := s.setRegN_latches _ _
@[simp] theorem State.maxReg_answers (x v : Nat) : (s.maxReg x v).answers = s.answers := s.setRegN_answers _ _
@[simp] theorem State.maxReg_free (x v : Nat) : (s.maxReg x v).free = s.free := s.setRegN_free _ _
@[simp] theorem State.maxReg_cores (x v : Nat) : (s.maxReg x v).cores = s.cores := s.setRegN_cores _ _
@[simp] theorem State.maxReg_sched (x v : Nat) : (s.maxReg x v).sched = s.sched := s.setRegN_sched _ _
@[simp] theorem State.maxReg_hubOps (x v : Nat) : (s.maxReg x v).hubOps = s.hubOps := s.setRegN_hubOps _ _
@[simp] theorem State.maxReg_dram (x v : Nat) : (s.maxReg x v).dram = s.dram := s.setRegN_dram _ _
@[simp] theorem State.maxReg_zeroed (x v : Nat) : (s.maxReg x v).zeroed = s.zeroed := s.setRegN_zeroed _ _
@[simp] theorem State.maxReg_writeBacks (x v : Nat) : (s.maxReg x v).writeBacks = s.writeBacks := s.setRegN_writeBacks _ _
@[simp] theorem State.maxReg_pkgCe (x v : Nat) : (s.maxReg x v).pkgCe = s.pkgCe := s.setRegN_pkgCe _ _
@[simp] theorem State.maxReg_skimOff (x v : Nat) : (s.maxReg x v).skimOff = s.skimOff := s.setRegN_skimOff _ _
@[simp] theorem State.maxReg_hosts (x v : Nat) : (s.maxReg x v).hosts = s.hosts := s.setRegN_hosts _ _
@[simp] theorem State.maxReg_scrubAt (x v : Nat) : (s.maxReg x v).scrubAt = s.scrubAt := s.setRegN_scrubAt _ _
@[simp] theorem State.maxReg_dbQueue (x v : Nat) : (s.maxReg x v).dbQueue = s.dbQueue := s.setRegN_dbQueue _ _
@[simp] theorem State.maxReg_dbArea (x v : Nat) : (s.maxReg x v).dbArea = s.dbArea := s.setRegN_dbArea _ _
@[simp] theorem State.maxReg_dbNext (x v : Nat) : (s.maxReg x v).dbNext = s.dbNext := s.setRegN_dbNext _ _
@[simp] theorem State.maxReg_dbBoot (x v : Nat) : (s.maxReg x v).dbBoot = s.dbBoot := s.setRegN_dbBoot _ _
@[simp] theorem State.maxReg_churns (x v : Nat) : (s.maxReg x v).churns = s.churns := s.setRegN_churns _ _
@[simp] theorem State.maxReg_roots (x v : Nat) : (s.maxReg x v).roots = s.roots := s.setRegN_roots _ _
@[simp] theorem State.maxReg_span (x v : Nat) : (s.maxReg x v).span = s.span := s.setRegN_span _ _
@[simp] theorem State.maxReg_power (x v : Nat) : (s.maxReg x v).power = s.power := s.setRegN_power _ _
@[simp] theorem State.maxReg_sisyn (x v : Nat) : (s.maxReg x v).sisyn = s.sisyn := s.setRegN_sisyn _ _
@[simp] theorem State.maxReg_lc (x v : Nat) : (s.maxReg x v).lc = s.lc := s.setRegN_lc _ _
@[simp] theorem State.maxReg_replies (x v : Nat) : (s.maxReg x v).replies = s.replies := s.setRegN_replies _ _

/-! latch -/

@[simp] theorem State.latch_pending (r : Requester) (x : Nat) (v : Word) : (s.latch r x v).pending = s.pending := rfl
@[simp] theorem State.latch_variant (r : Requester) (x : Nat) (v : Word) : (s.latch r x v).variant = s.variant := rfl
@[simp] theorem State.latch_serial (r : Requester) (x : Nat) (v : Word) : (s.latch r x v).serial = s.serial := rfl
@[simp] theorem State.latch_regs (r : Requester) (x : Nat) (v : Word) : (s.latch r x v).regs = s.regs := rfl
@[simp] theorem State.latch_answers (r : Requester) (x : Nat) (v : Word) : (s.latch r x v).answers = s.answers := rfl
@[simp] theorem State.latch_free (r : Requester) (x : Nat) (v : Word) : (s.latch r x v).free = s.free := rfl
@[simp] theorem State.latch_cores (r : Requester) (x : Nat) (v : Word) : (s.latch r x v).cores = s.cores := rfl
@[simp] theorem State.latch_sched (r : Requester) (x : Nat) (v : Word) : (s.latch r x v).sched = s.sched := rfl
@[simp] theorem State.latch_hubOps (r : Requester) (x : Nat) (v : Word) : (s.latch r x v).hubOps = s.hubOps := rfl
@[simp] theorem State.latch_dram (r : Requester) (x : Nat) (v : Word) : (s.latch r x v).dram = s.dram := rfl
@[simp] theorem State.latch_zeroed (r : Requester) (x : Nat) (v : Word) : (s.latch r x v).zeroed = s.zeroed := rfl
@[simp] theorem State.latch_writeBacks (r : Requester) (x : Nat) (v : Word) : (s.latch r x v).writeBacks = s.writeBacks := rfl
@[simp] theorem State.latch_pkgCe (r : Requester) (x : Nat) (v : Word) : (s.latch r x v).pkgCe = s.pkgCe := rfl
@[simp] theorem State.latch_skimOff (r : Requester) (x : Nat) (v : Word) : (s.latch r x v).skimOff = s.skimOff := rfl
@[simp] theorem State.latch_hosts (r : Requester) (x : Nat) (v : Word) : (s.latch r x v).hosts = s.hosts := rfl
@[simp] theorem State.latch_scrubAt (r : Requester) (x : Nat) (v : Word) : (s.latch r x v).scrubAt = s.scrubAt := rfl
@[simp] theorem State.latch_dbQueue (r : Requester) (x : Nat) (v : Word) : (s.latch r x v).dbQueue = s.dbQueue := rfl
@[simp] theorem State.latch_dbArea (r : Requester) (x : Nat) (v : Word) : (s.latch r x v).dbArea = s.dbArea := rfl
@[simp] theorem State.latch_dbNext (r : Requester) (x : Nat) (v : Word) : (s.latch r x v).dbNext = s.dbNext := rfl
@[simp] theorem State.latch_dbBoot (r : Requester) (x : Nat) (v : Word) : (s.latch r x v).dbBoot = s.dbBoot := rfl
@[simp] theorem State.latch_churns (r : Requester) (x : Nat) (v : Word) : (s.latch r x v).churns = s.churns := rfl
@[simp] theorem State.latch_roots (r : Requester) (x : Nat) (v : Word) : (s.latch r x v).roots = s.roots := rfl
@[simp] theorem State.latch_span (r : Requester) (x : Nat) (v : Word) : (s.latch r x v).span = s.span := rfl
@[simp] theorem State.latch_power (r : Requester) (x : Nat) (v : Word) : (s.latch r x v).power = s.power := rfl
@[simp] theorem State.latch_sisyn (r : Requester) (x : Nat) (v : Word) : (s.latch r x v).sisyn = s.sisyn := rfl
@[simp] theorem State.latch_lc (r : Requester) (x : Nat) (v : Word) : (s.latch r x v).lc = s.lc := rfl
@[simp] theorem State.latch_replies (r : Requester) (x : Nat) (v : Word) : (s.latch r x v).replies = s.replies := rfl

/-! dropLatches -/

@[simp] theorem State.dropLatches_pending (lo hi : Nat) : (s.dropLatches lo hi).pending = s.pending := rfl
@[simp] theorem State.dropLatches_variant (lo hi : Nat) : (s.dropLatches lo hi).variant = s.variant := rfl
@[simp] theorem State.dropLatches_serial (lo hi : Nat) : (s.dropLatches lo hi).serial = s.serial := rfl
@[simp] theorem State.dropLatches_regs (lo hi : Nat) : (s.dropLatches lo hi).regs = s.regs := rfl
@[simp] theorem State.dropLatches_answers (lo hi : Nat) : (s.dropLatches lo hi).answers = s.answers := rfl
@[simp] theorem State.dropLatches_free (lo hi : Nat) : (s.dropLatches lo hi).free = s.free := rfl
@[simp] theorem State.dropLatches_cores (lo hi : Nat) : (s.dropLatches lo hi).cores = s.cores := rfl
@[simp] theorem State.dropLatches_sched (lo hi : Nat) : (s.dropLatches lo hi).sched = s.sched := rfl
@[simp] theorem State.dropLatches_hubOps (lo hi : Nat) : (s.dropLatches lo hi).hubOps = s.hubOps := rfl
@[simp] theorem State.dropLatches_dram (lo hi : Nat) : (s.dropLatches lo hi).dram = s.dram := rfl
@[simp] theorem State.dropLatches_zeroed (lo hi : Nat) : (s.dropLatches lo hi).zeroed = s.zeroed := rfl
@[simp] theorem State.dropLatches_writeBacks (lo hi : Nat) : (s.dropLatches lo hi).writeBacks = s.writeBacks := rfl
@[simp] theorem State.dropLatches_pkgCe (lo hi : Nat) : (s.dropLatches lo hi).pkgCe = s.pkgCe := rfl
@[simp] theorem State.dropLatches_skimOff (lo hi : Nat) : (s.dropLatches lo hi).skimOff = s.skimOff := rfl
@[simp] theorem State.dropLatches_hosts (lo hi : Nat) : (s.dropLatches lo hi).hosts = s.hosts := rfl
@[simp] theorem State.dropLatches_scrubAt (lo hi : Nat) : (s.dropLatches lo hi).scrubAt = s.scrubAt := rfl
@[simp] theorem State.dropLatches_dbQueue (lo hi : Nat) : (s.dropLatches lo hi).dbQueue = s.dbQueue := rfl
@[simp] theorem State.dropLatches_dbArea (lo hi : Nat) : (s.dropLatches lo hi).dbArea = s.dbArea := rfl
@[simp] theorem State.dropLatches_dbNext (lo hi : Nat) : (s.dropLatches lo hi).dbNext = s.dbNext := rfl
@[simp] theorem State.dropLatches_dbBoot (lo hi : Nat) : (s.dropLatches lo hi).dbBoot = s.dbBoot := rfl
@[simp] theorem State.dropLatches_churns (lo hi : Nat) : (s.dropLatches lo hi).churns = s.churns := rfl
@[simp] theorem State.dropLatches_roots (lo hi : Nat) : (s.dropLatches lo hi).roots = s.roots := rfl
@[simp] theorem State.dropLatches_span (lo hi : Nat) : (s.dropLatches lo hi).span = s.span := rfl
@[simp] theorem State.dropLatches_power (lo hi : Nat) : (s.dropLatches lo hi).power = s.power := rfl
@[simp] theorem State.dropLatches_sisyn (lo hi : Nat) : (s.dropLatches lo hi).sisyn = s.sisyn := rfl
@[simp] theorem State.dropLatches_lc (lo hi : Nat) : (s.dropLatches lo hi).lc = s.lc := rfl
@[simp] theorem State.dropLatches_replies (lo hi : Nat) : (s.dropLatches lo hi).replies = s.replies := rfl

/-! answer -/

@[simp] theorem State.answer_pending (r : Requester) (v : Dword) : (s.answer r v).pending = s.pending := rfl
@[simp] theorem State.answer_variant (r : Requester) (v : Dword) : (s.answer r v).variant = s.variant := rfl
@[simp] theorem State.answer_serial (r : Requester) (v : Dword) : (s.answer r v).serial = s.serial := rfl
@[simp] theorem State.answer_regs (r : Requester) (v : Dword) : (s.answer r v).regs = s.regs := rfl
@[simp] theorem State.answer_latches (r : Requester) (v : Dword) : (s.answer r v).latches = s.latches := rfl
@[simp] theorem State.answer_free (r : Requester) (v : Dword) : (s.answer r v).free = s.free := rfl
@[simp] theorem State.answer_cores (r : Requester) (v : Dword) : (s.answer r v).cores = s.cores := rfl
@[simp] theorem State.answer_sched (r : Requester) (v : Dword) : (s.answer r v).sched = s.sched := rfl
@[simp] theorem State.answer_hubOps (r : Requester) (v : Dword) : (s.answer r v).hubOps = s.hubOps := rfl
@[simp] theorem State.answer_dram (r : Requester) (v : Dword) : (s.answer r v).dram = s.dram := rfl
@[simp] theorem State.answer_zeroed (r : Requester) (v : Dword) : (s.answer r v).zeroed = s.zeroed := rfl
@[simp] theorem State.answer_writeBacks (r : Requester) (v : Dword) : (s.answer r v).writeBacks = s.writeBacks := rfl
@[simp] theorem State.answer_pkgCe (r : Requester) (v : Dword) : (s.answer r v).pkgCe = s.pkgCe := rfl
@[simp] theorem State.answer_skimOff (r : Requester) (v : Dword) : (s.answer r v).skimOff = s.skimOff := rfl
@[simp] theorem State.answer_hosts (r : Requester) (v : Dword) : (s.answer r v).hosts = s.hosts := rfl
@[simp] theorem State.answer_scrubAt (r : Requester) (v : Dword) : (s.answer r v).scrubAt = s.scrubAt := rfl
@[simp] theorem State.answer_dbQueue (r : Requester) (v : Dword) : (s.answer r v).dbQueue = s.dbQueue := rfl
@[simp] theorem State.answer_dbArea (r : Requester) (v : Dword) : (s.answer r v).dbArea = s.dbArea := rfl
@[simp] theorem State.answer_dbNext (r : Requester) (v : Dword) : (s.answer r v).dbNext = s.dbNext := rfl
@[simp] theorem State.answer_dbBoot (r : Requester) (v : Dword) : (s.answer r v).dbBoot = s.dbBoot := rfl
@[simp] theorem State.answer_churns (r : Requester) (v : Dword) : (s.answer r v).churns = s.churns := rfl
@[simp] theorem State.answer_roots (r : Requester) (v : Dword) : (s.answer r v).roots = s.roots := rfl
@[simp] theorem State.answer_span (r : Requester) (v : Dword) : (s.answer r v).span = s.span := rfl
@[simp] theorem State.answer_power (r : Requester) (v : Dword) : (s.answer r v).power = s.power := rfl
@[simp] theorem State.answer_sisyn (r : Requester) (v : Dword) : (s.answer r v).sisyn = s.sisyn := rfl
@[simp] theorem State.answer_lc (r : Requester) (v : Dword) : (s.answer r v).lc = s.lc := rfl
@[simp] theorem State.answer_replies (r : Requester) (v : Dword) : (s.answer r v).replies = s.replies := rfl

/-! tick and stamp -/

@[simp] theorem State.tick_pending : s.tick.1.pending = s.pending := rfl
@[simp] theorem State.tick_variant : s.tick.1.variant = s.variant := rfl
@[simp] theorem State.tick_serial : s.tick.1.serial = s.serial := rfl
@[simp] theorem State.tick_regs : s.tick.1.regs = s.regs := rfl
@[simp] theorem State.tick_latches : s.tick.1.latches = s.latches := rfl
@[simp] theorem State.tick_answers : s.tick.1.answers = s.answers := rfl
@[simp] theorem State.tick_cores : s.tick.1.cores = s.cores := rfl
@[simp] theorem State.tick_sched : s.tick.1.sched = s.sched := rfl
@[simp] theorem State.tick_hubOps : s.tick.1.hubOps = s.hubOps := rfl
@[simp] theorem State.tick_dram : s.tick.1.dram = s.dram := rfl
@[simp] theorem State.tick_zeroed : s.tick.1.zeroed = s.zeroed := rfl
@[simp] theorem State.tick_writeBacks : s.tick.1.writeBacks = s.writeBacks := rfl
@[simp] theorem State.tick_pkgCe : s.tick.1.pkgCe = s.pkgCe := rfl
@[simp] theorem State.tick_skimOff : s.tick.1.skimOff = s.skimOff := rfl
@[simp] theorem State.tick_hosts : s.tick.1.hosts = s.hosts := rfl
@[simp] theorem State.tick_scrubAt : s.tick.1.scrubAt = s.scrubAt := rfl
@[simp] theorem State.tick_dbQueue : s.tick.1.dbQueue = s.dbQueue := rfl
@[simp] theorem State.tick_dbArea : s.tick.1.dbArea = s.dbArea := rfl
@[simp] theorem State.tick_dbNext : s.tick.1.dbNext = s.dbNext := rfl
@[simp] theorem State.tick_dbBoot : s.tick.1.dbBoot = s.dbBoot := rfl
@[simp] theorem State.tick_churns : s.tick.1.churns = s.churns := rfl
@[simp] theorem State.tick_roots : s.tick.1.roots = s.roots := rfl
@[simp] theorem State.tick_span : s.tick.1.span = s.span := rfl
@[simp] theorem State.tick_power : s.tick.1.power = s.power := rfl
@[simp] theorem State.tick_sisyn : s.tick.1.sisyn = s.sisyn := rfl
@[simp] theorem State.tick_lc : s.tick.1.lc = s.lc := rfl
@[simp] theorem State.tick_replies : s.tick.1.replies = s.replies := rfl
@[simp] theorem State.stamp_pending : s.stamp.1.pending = s.pending := rfl
@[simp] theorem State.stamp_variant : s.stamp.1.variant = s.variant := rfl
@[simp] theorem State.stamp_serial : s.stamp.1.serial = s.serial := rfl
@[simp] theorem State.stamp_regs : s.stamp.1.regs = s.regs := rfl
@[simp] theorem State.stamp_latches : s.stamp.1.latches = s.latches := rfl
@[simp] theorem State.stamp_answers : s.stamp.1.answers = s.answers := rfl
@[simp] theorem State.stamp_cores : s.stamp.1.cores = s.cores := rfl
@[simp] theorem State.stamp_sched : s.stamp.1.sched = s.sched := rfl
@[simp] theorem State.stamp_hubOps : s.stamp.1.hubOps = s.hubOps := rfl
@[simp] theorem State.stamp_dram : s.stamp.1.dram = s.dram := rfl
@[simp] theorem State.stamp_zeroed : s.stamp.1.zeroed = s.zeroed := rfl
@[simp] theorem State.stamp_writeBacks : s.stamp.1.writeBacks = s.writeBacks := rfl
@[simp] theorem State.stamp_pkgCe : s.stamp.1.pkgCe = s.pkgCe := rfl
@[simp] theorem State.stamp_skimOff : s.stamp.1.skimOff = s.skimOff := rfl
@[simp] theorem State.stamp_hosts : s.stamp.1.hosts = s.hosts := rfl
@[simp] theorem State.stamp_scrubAt : s.stamp.1.scrubAt = s.scrubAt := rfl
@[simp] theorem State.stamp_dbQueue : s.stamp.1.dbQueue = s.dbQueue := rfl
@[simp] theorem State.stamp_dbArea : s.stamp.1.dbArea = s.dbArea := rfl
@[simp] theorem State.stamp_dbNext : s.stamp.1.dbNext = s.dbNext := rfl
@[simp] theorem State.stamp_dbBoot : s.stamp.1.dbBoot = s.dbBoot := rfl
@[simp] theorem State.stamp_churns : s.stamp.1.churns = s.churns := rfl
@[simp] theorem State.stamp_roots : s.stamp.1.roots = s.roots := rfl
@[simp] theorem State.stamp_span : s.stamp.1.span = s.span := rfl
@[simp] theorem State.stamp_power : s.stamp.1.power = s.power := rfl
@[simp] theorem State.stamp_sisyn : s.stamp.1.sisyn = s.sisyn := rfl
@[simp] theorem State.stamp_lc : s.stamp.1.lc = s.lc := rfl
@[simp] theorem State.stamp_replies : s.stamp.1.replies = s.replies := rfl

/-! Cores. -/

@[simp] theorem State.core_setCore_same (c : Nat) (k : Core) : (s.setCore c k).core c = k := by
  simp [State.core, State.setCore]

theorem State.core_setCore_other {c i : Nat} (k : Core) (h : i ≠ c) : (s.setCore c k).core i = s.core i := by
  simp [State.core, State.setCore, tabGet_set_other _ _ _ h]

@[simp] theorem State.core_modCore_same (c : Nat) (f : Core → Core) : (s.modCore c f).core c = f (s.core c) :=
  s.core_setCore_same c _

theorem State.core_modCore_other {c i : Nat} (f : Core → Core) (h : i ≠ c) : (s.modCore c f).core i = s.core i :=
  s.core_setCore_other _ h

/-- An update that leaves the cores leaves each core. -/
theorem State.core_congr {s t : State} (h : t.cores = s.cores) (c : Nat) : t.core c = s.core c := by
  simp [State.core, h]

/-! Registers. -/

@[simp] theorem State.reg_setReg_same (x : Nat) (v : Word) : (s.setReg x v).reg x = v := by
  unfold State.reg State.setReg tabSet
  split
  · rename_i h
    simp [h]
  · simp

theorem State.reg_setReg_other {x y : Nat} (v : Word) (h : y ≠ x) : (s.setReg x v).reg y = s.reg y := by
  unfold State.reg State.setReg tabSet
  split
  · simp [tabFind_del_other _ h]
  · simp [tabFind_put_other _ _ h]

/-- An update that leaves the registers and the configuration leaves each register. -/
theorem State.reg_congr {s t : State} (h : t.regs = s.regs) (v : t.variant = s.variant) (x : Nat) : t.reg x = s.reg x := by
  simp [State.reg, h, v]

@[simp] theorem State.reg_setRegN_same (x v : Nat) : (s.setRegN x v).reg x = BitVec.ofNat 32 v := s.reg_setReg_same x _

theorem State.reg_setRegN_other {x y : Nat} (v : Nat) (h : y ≠ x) : (s.setRegN x v).reg y = s.reg y :=
  s.reg_setReg_other _ h

@[simp] theorem State.regN_setRegN_same (x v : Nat) : (s.setRegN x v).regN x = v % 2 ^ 32 := by
  simp [State.regN]

theorem State.reg_bump32_other {x y : Nat} (n : Nat) (h : y ≠ x) : (s.bump32 x n).reg y = s.reg y := by
  unfold State.bump32
  split
  · rfl
  · exact s.reg_setRegN_other _ h

theorem State.reg_setReg64_other {x y : Nat} (v : Nat) (h : y ≠ x) (h' : y ≠ x + 4) : (s.setReg64 x v).reg y = s.reg y := by
  unfold State.setReg64
  rw [State.reg_setRegN_other _ _ h', State.reg_setRegN_other _ _ h]

theorem State.reg_bump64_other {x y : Nat} (n : Nat) (h : y ≠ x) (h' : y ≠ x + 4) : (s.bump64 x n).reg y = s.reg y := by
  unfold State.bump64
  split
  · rfl
  · exact s.reg_setReg64_other _ h h'

theorem State.reg_maxReg_other {x y : Nat} (v : Nat) (h : y ≠ x) : (s.maxReg x v).reg y = s.reg y :=
  s.reg_setRegN_other _ h

theorem State.reg_setField_other {x y : Nat} (lo len v : Nat) (h : y ≠ x) : (s.setField x lo len v).reg y = s.reg y :=
  s.reg_setRegN_other _ h

/-- A saturating counter after an addition. -/
theorem State.regN_bump32 (x n : Nat) : (s.bump32 x n).regN x = min (s.regN x + n) 0xFFFFFFFF := by
  unfold State.bump32
  split
  · rename_i h
    have : s.regN x < 2 ^ 32 := (s.reg x).isLt
    simp [h]
    omega
  · rw [State.regN_setRegN_same]
    omega

/-- A 64-bit value reads back. -/
theorem State.reg64_setReg64 (x v : Nat) (h : v < 2 ^ 64) : (s.setReg64 x v).reg64 x = v := by
  unfold State.reg64 State.setReg64
  rw [State.regN_setRegN_same]
  unfold State.regN
  rw [State.reg_setRegN_other _ _ (by omega : x ≠ x + 4), State.reg_setRegN_same]
  simp
  omega

theorem State.reg64_lt (x : Nat) : s.reg64 x < 2 ^ 64 := by
  have h1 : s.regN x < 2 ^ 32 := (s.reg x).isLt
  have h2 : s.regN (x + 4) < 2 ^ 32 := (s.reg (x + 4)).isLt
  unfold State.reg64
  omega

/-- A wrapping counter after an addition (R70). -/
theorem State.reg64_bump64 (x n : Nat) : (s.bump64 x n).reg64 x = (s.reg64 x + n) % 2 ^ 64 := by
  unfold State.bump64
  split
  · rename_i h
    have := s.reg64_lt x
    simp [h]
    omega
  · exact s.reg64_setReg64 x _ (Nat.mod_lt _ (by decide))

/-! Registers of a state whose cores, queues or other parts changed. -/

@[simp] theorem State.reg_setCore (c : Nat) (k : Core) (x : Nat) : (s.setCore c k).reg x = s.reg x := rfl
@[simp] theorem State.reg_modCore (c : Nat) (f : Core → Core) (x : Nat) : (s.modCore c f).reg x = s.reg x := rfl
@[simp] theorem State.reg64_modCore (c : Nat) (f : Core → Core) (x : Nat) : (s.modCore c f).reg64 x = s.reg64 x := rfl
@[simp] theorem State.core_setReg (x : Nat) (v : Word) (c : Nat) : (s.setReg x v).core c = s.core c := rfl
@[simp] theorem State.core_setRegN (x v c : Nat) : (s.setRegN x v).core c = s.core c := rfl
@[simp] theorem State.core_setField (x lo len v c : Nat) : (s.setField x lo len v).core c = s.core c := rfl
@[simp] theorem State.core_setReg64 (x v c : Nat) : (s.setReg64 x v).core c = s.core c := rfl
@[simp] theorem State.core_bump64 (x n c : Nat) : (s.bump64 x n).core c = s.core c := State.core_congr (s.bump64_cores x n) c
@[simp] theorem State.core_bump32 (x n c : Nat) : (s.bump32 x n).core c = s.core c := State.core_congr (s.bump32_cores x n) c

end Sys2Proof.Machine
end

