-- ==== Sys2Proof/Laws/Clerk.lean ====
section
/-! SUPPORT. What the step of an Ngaosh instruction can do, once for all of them, and what the registers of a core read
after a write. -/

namespace Sys2Proof.Machine

/-! Steps that are enabled and steps that are not. -/

@[simp] theorem act_true (s t : State) : act true s t = .next t := rfl
@[simp] theorem act_false (s t : State) : act false s t = .next s := rfl

/-- A command's step answers a next state, its effect or the state it found. -/
theorem act_cases (b : Bool) (s t : State) : (b = true ∧ act b s t = .next t) ∨ (b = false ∧ act b s t = .next s) := by
  cases b
  · exact .inr ⟨rfl, rfl⟩
  · exact .inl ⟨rfl, rfl⟩

theorem act_next (b : Bool) (s t : State) : ∃ u, act b s t = .next u := by cases b <;> exact ⟨_, rfl⟩

/-! The Clerk. -/

/-- Everything the step of an Ngaosh instruction can do: nothing, a stop on an illegal word, a pass without effect, a wait,
or the instruction's own body, with what follows it. -/
theorem State.clerk_cases (s : State) (i : Instr) (body : State → Passed) (w : Clerked) (hw : clerkOf i = some w) :
    ((s.core w.core).takes w = false ∧ s.clerk i body = .next s) ∨
    ((s.core w.core).takes w = true ∧ ∃ p, s.clerk i body = .next (s.clerkAfter w.core i p) ∧
      ((p = .fault s Code.illegalOp ∧ (opcodeKnown (s.core w.core).opcodeAt = false ∨ w.illegal = true)) ∨
       (p = .pass s ∧ (s.core w.core).executes w.pred = false) ∨
       (p = .wait s ∧ (s.core w.core).mustWait w = true) ∨
       (p = body s ∧ s.passes i = true))) := by
  unfold State.clerk
  rw [hw]
  dsimp only
  cases ht : (s.core w.core).takes w
  · exact .inl ⟨rfl, rfl⟩
  · refine .inr ⟨rfl, _, rfl, ?_⟩
    split
    · next h => exact .inl ⟨rfl, h⟩
    · next hk =>
      split
      · next he => exact .inr (.inl ⟨rfl, he⟩)
      · next he =>
        split
        · next hm => exact .inr (.inr (.inl ⟨rfl, hm⟩))
        · next hm =>
          refine .inr (.inr (.inr ⟨rfl, ?_⟩))
          simp only [not_or, Bool.not_eq_false, Bool.not_eq_true] at hk he hm
          simp [State.passes, State.meets, hw, ht, hk.1, hk.2, he, hm]

/-- An instruction that passes has its body's effect. -/
theorem State.clerk_passes (s : State) (i : Instr) (body : State → Passed) (w : Clerked) (hw : clerkOf i = some w)
    (h : s.passes i = true) : s.clerk i body = .next (s.clerkAfter w.core i (body s)) := by
  simp only [State.passes, State.meets, hw, Bool.and_eq_true, Bool.not_eq_true'] at h
  obtain ⟨⟨⟨⟨ht, hk⟩, hi⟩, he⟩, hm⟩ := h
  simp [State.clerk, hw, ht, State.clerkGo, hk, hi, he, hm]

/-- The step of an Ngaosh instruction answers a next state. -/
theorem State.clerk_next (s : State) (i : Instr) (body : State → Passed) : ∃ t, s.clerk i body = .next t := by
  unfold State.clerk
  split
  · exact act_next _ _ _
  · exact ⟨_, rfl⟩

/-- The Clerk goes on: of the cores, only its own changes. -/
theorem State.clerkAt_core (s : State) (c pc ops : Nat) : (s.clerkAt c pc ops).core c = (s.core c).goesOnAt pc := by
  unfold State.clerkAt
  dsimp only
  split
  · rw [State.core_congr (State.bump64_cores _ _ _)]
    simp [Core.goesOnAt]
  · simp [Core.goesOnAt]

theorem State.clerkAt_core_other (s : State) {c d : Nat} (pc ops : Nat) (h : d ≠ c) :
    (s.clerkAt c pc ops).core d = s.core d := by
  unfold State.clerkAt
  dsimp only
  split
  · rw [State.core_congr (State.bump64_cores _ _ _)]
    exact s.core_modCore_other _ h
  · exact s.core_modCore_other _ h

/-! Registers of a core. -/

theorem Core.greg_setG (k : Core) (r x : Nat) (v : Dword) : (k.setG r v).greg x = if x = r ∧ x ≠ 0 then v else k.greg x := by
  unfold Core.setG Core.greg
  by_cases hx : x = 0
  · simp [hx]
  · by_cases hr : r = 0
    · have : x ≠ r := by omega
      simp [hx, hr]
    · simp [hx, hr, tabGet_set]

theorem Core.pred_setP (k : Core) (r x : Nat) (v : Bool) : (k.setP r v).pred x = if x = r ∧ x ≠ 0 then v else k.pred x := by
  unfold Core.setP Core.pred
  by_cases hx : x = 0
  · simp [hx]
  · by_cases hr : r = 0
    · have : x ≠ r := by omega
      simp [hx, hr]
    · simp [hx, hr, tabGet_set]

theorem Core.dreg_setD (k : Core) (r x : Nat) (v : BitVec 512) : (k.setD r v).dreg x = if x = r then v else k.dreg x := by
  unfold Core.setD Core.dreg
  exact tabGet_set _ _ _ _ _

end Sys2Proof.Machine
end

