-- ==== Sys2Proof/Laws/Memory.lean ====
section
/-! SUPPORT. Every operation on memory keeps its canonical form: LPDDR symbols, host memory, BAR4 and a core's Scratchpad. -/

namespace Sys2Proof.Machine

/-- Taking entries off keeps the canonical form. -/
theorem memoryWf_drop (d : Byte) (p : Nat → Bool) (t : Tab Byte) (h : memoryWf d t = true) : memoryWf d (tabDrop p t) = true := by
  simp only [memoryWf, tabWf, Bool.and_eq_true] at h ⊢
  refine ⟨tabSorted_drop p t h.1, ?_⟩
  simp only [tabDrop, List.all_eq_true, List.mem_filter] at h ⊢
  exact fun e he => h.2 e he.1

/-- Listing symbols keeps the rising order. -/
theorem tabSorted_putSymbols (bs : List Byte) (t : Tab Byte) (k : Nat) (h : tabSorted t = true) : tabSorted (putSymbols t k bs) = true := by
  induction bs generalizing t k with
  | nil => exact h
  | cons b bs ih => exact ih _ _ (tabSorted_put t k b h)

/-- The canonical form depends on the three memories alone. -/
theorem State.memoryCanonical_of_eq {s t : State} (hd : t.dram = s.dram) (hh : t.hosts = s.hosts) (h : s.memoryCanonical) :
    t.memoryCanonical := by
  unfold State.memoryCanonical at *
  rw [hd, hh]
  exact h

theorem State.memoryCanonical_reset : State.reset.memoryCanonical := ⟨rfl, rfl, rfl⟩

theorem State.spadsCanonical_reset : State.reset.spadsCanonical := fun _ => rfl

variable {s : State}

theorem State.hostWrite_canonical (p a : Nat) (bs : List Byte) (h : s.memoryCanonical) : (s.hostWrite p a bs).memoryCanonical := by
  unfold State.hostWrite
  generalize p * 2 ^ 64 + a = k
  exact ⟨h.1, memoryWf_bytesSet 0 bs s.hosts.mem k h.2.1, h.2.2⟩

theorem State.setRegN_canonical (x v : Nat) (h : s.memoryCanonical) : (s.setRegN x v).memoryCanonical :=
  State.memoryCanonical_of_eq (s.setRegN_dram x v) (s.setRegN_hosts x v) h

theorem State.setReg64_canonical (x v : Nat) (h : s.memoryCanonical) : (s.setReg64 x v).memoryCanonical :=
  State.memoryCanonical_of_eq (s.setReg64_dram x v) (s.setReg64_hosts x v) h

theorem State.setField_canonical (x lo len v : Nat) (h : s.memoryCanonical) : (s.setField x lo len v).memoryCanonical :=
  State.memoryCanonical_of_eq (s.setField_dram x lo len v) (s.setField_hosts x lo len v) h

theorem State.bump32_canonical (x n : Nat) (h : s.memoryCanonical) : (s.bump32 x n).memoryCanonical :=
  State.memoryCanonical_of_eq (s.bump32_dram x n) (s.bump32_hosts x n) h

theorem State.bump64_canonical (x n : Nat) (h : s.memoryCanonical) : (s.bump64 x n).memoryCanonical :=
  State.memoryCanonical_of_eq (s.bump64_dram x n) (s.bump64_hosts x n) h

theorem State.stamp_canonical (h : s.memoryCanonical) : s.stamp.1.memoryCanonical := h

/-- The daybook's queue and the scheduler are no part of the memories. -/
theorem State.dbQueued_canonical (q : List DbEntry) (n : Nat) (x : Sched) (h : s.memoryCanonical) :
    State.memoryCanonical { s with dbQueue := q, dbNext := n, sched := x } := h

theorem State.report_canonical (e : DbEntry) (h : s.memoryCanonical) : (s.report e).1.memoryCanonical := by
  unfold State.report; split
  · exact State.bump32_canonical _ _ h
  · have ht := State.stamp_canonical h
    revert ht
    generalize s.stamp = p
    intro ht
    exact State.dbQueued_canonical _ _ _ ht

theorem State.recordTime_canonical (p : State × Nat) (hp : p = s.recordTime) (h : s.memoryCanonical) : p.1.memoryCanonical := by
  subst hp
  unfold State.recordTime; split
  · exact State.stamp_canonical h
  · exact h

theorem State.wantMsix_canonical (p v : Nat) (h : s.memoryCanonical) : (s.wantMsix p v).memoryCanonical := by
  unfold State.wantMsix; split <;> exact h

theorem State.cplPush_canonical (r : Nat) (bs : List Byte) (h : s.memoryCanonical) : (s.cplPush r bs).memoryCanonical := by
  have h' := State.bump64_canonical (s := (s.hostWrite (s.ringPort r) (s.ringSlot r (s.ringTail r)) bs).ringAdvTail r)
    Reg.SPAD_RING_PUSHES_LO 1 (State.hostWrite_canonical _ _ bs h)
  unfold State.cplPush; dsimp only; split
  · exact State.wantMsix_canonical _ _ h'
  · exact h'

theorem State.cplSqueezed_canonical (r : Nat) (h : s.memoryCanonical) : (s.cplSqueezed r).memoryCanonical := h

theorem State.eventTo_canonical (p : Nat) (bs : List Byte) (h : s.memoryCanonical) : (s.eventTo p bs).memoryCanonical := by
  unfold State.eventTo; split
  · exact h
  · split
    · exact State.cplSqueezed_canonical _ (State.cplPush_canonical _ _ h)
    · exact State.bump32_canonical _ _ h

theorem State.postEvent_canonical (severity origin unit inst code : Nat) (detail : List Byte) (h : s.memoryCanonical) :
    (s.postEvent severity origin unit inst code detail).memoryCanonical :=
  State.eventTo_canonical _ _ (State.eventTo_canonical _ _ (State.report_canonical _ h))

/-! Atoms. -/

theorem State.dramPut_canonical (k : Nat) (w : List Byte) (h : s.memoryCanonical) : (s.dramPut k w).memoryCanonical :=
  ⟨tabSorted_putSymbols w s.dram k h.1, h.2⟩

/-- The write-back queue is no part of the memories. -/
theorem State.writeBacks_canonical (t : State) (w : List (Nat × List Byte)) (h : t.memoryCanonical) :
    State.memoryCanonical { t with writeBacks := w } := h

theorem State.placeWrite_canonical (k : Nat) (w : List Byte) (h : s.memoryCanonical) : (s.placeWrite k w).memoryCanonical :=
  State.bump64_canonical _ 1 (State.writeBacks_canonical _ _ (State.dramPut_canonical k w h))

theorem State.atomWrite_canonical (idx : Nat) (data : List Byte) (h : s.memoryCanonical) : (s.atomWrite idx data).memoryCanonical :=
  State.placeWrite_canonical _ _ h

theorem State.tick_canonical (h : s.memoryCanonical) : s.tick.1.memoryCanonical := h

theorem State.atomStored_canonical (idx : Nat) (h : s.memoryCanonical) : (s.atomStored idx).1.memoryCanonical := by
  unfold State.atomStored; dsimp only; split
  · exact h
  · split
    · exact h
    · exact State.dramPut_canonical _ _ (State.tick_canonical h)

/-- A package's count of corrected errors is no part of the memories. -/
theorem State.pkgCe_canonical (w : Tab Nat) (h : s.memoryCanonical) : State.memoryCanonical { s with pkgCe := w } := h

theorem State.countCe_canonical (c : Nat) (h : s.memoryCanonical) : (s.countCe c).memoryCanonical := by
  have h1 := State.bump32_canonical (s := s) (Reg.PWR_MEMC_CE c) 1 h
  unfold State.countCe
  revert h1
  generalize s.bump32 (Reg.PWR_MEMC_CE c) 1 = u
  intro h1
  have h2 := State.pkgCe_canonical (tabSet 0 u.pkgCe (c / 4) (tabGet 0 u.pkgCe (c / 4) + 1)) h1
  revert h2
  dsimp only
  generalize { u with pkgCe := tabSet 0 u.pkgCe (c / 4) (tabGet 0 u.pkgCe (c / 4) + 1) } = v
  intro h2
  generalize (if c / 4 < 32 then Reg.PWR_MEMMAP_WARN_LO else Reg.PWR_MEMMAP_WARN_HI) = x
  split
  · exact State.postEvent_canonical _ _ _ _ _ _ (State.setField_canonical _ _ _ _ h2)
  · exact h2

theorem State.reportUe_canonical (idx : Nat) (address scrub : Bool) (core : Nat) (h : s.memoryCanonical) :
    (s.reportUe idx address scrub core).1.memoryCanonical := by
  delta State.reportUe; extract_lets m s1 s2 p
  have h1 : s1.memoryCanonical := State.bump32_canonical _ _ h
  have h2 : s2.memoryCanonical := by
    unfold s2; split
    · exact h1
    · exact State.setRegN_canonical _ _ (State.setReg64_canonical _ _ h1)
  have h3 : p.1.memoryCanonical := State.recordTime_canonical p rfl h2
  clear_value p
  exact State.report_canonical _ h3

/-- Where an answer's state holds canonical memories. -/
def AnswerCanonical (a : State × Except Nat (List Byte)) : Prop := a.1.memoryCanonical

theorem AnswerCanonical.of (t : State) (r : Except Nat (List Byte)) (h : t.memoryCanonical) : AnswerCanonical (t, r) := h

theorem State.atomAnswer_canonical (idx chan : Nat) (scrub : Bool) (core : Nat) (r : AtomRead) (h : s.memoryCanonical) :
    AnswerCanonical (s.atomAnswer idx chan scrub core r) := by
  cases r with
  | clean d => rw [State.atomAnswer]; exact .of _ _ h
  | corrected d => rw [State.atomAnswer]; exact .of _ _ (State.writeBacks_canonical _ _ (State.countCe_canonical chan h))
  | bad address => rw [State.atomAnswer]; exact .of _ _ (State.reportUe_canonical idx address scrub core h)

theorem State.atomRead_canonical (idx : Nat) (scrub : Bool) (core : Nat) (h : s.memoryCanonical) :
    (s.atomRead idx scrub core).1.memoryCanonical :=
  State.atomAnswer_canonical _ _ _ _ _ (State.bump64_canonical _ 1 (State.atomStored_canonical idx h))

theorem State.atomsRead_canonical (n idx core : Nat) (h : s.memoryCanonical) : (s.atomsRead idx core n).1.memoryCanonical := by
  induction n generalizing s idx with
  | zero => exact h
  | succ n ih =>
    have hr := State.atomRead_canonical idx false core h
    unfold State.atomsRead; split
    · exact ih _ h
    · split
      · next heq => exact ih _ (by rw [heq] at hr; exact hr)
      · next heq => exact ih _ (by rw [heq] at hr; exact hr)

theorem State.lpddrRead_canonical (a len core : Nat) (h : s.memoryCanonical) : (s.lpddrRead a len core).1.memoryCanonical := by
  unfold State.lpddrRead; split
  · exact h
  · split
    · exact h
    · exact State.atomsRead_canonical _ _ _ h

theorem State.atomUpdate_canonical (idx off core : Nat) (f : List Byte → Option (List Byte)) (h : s.memoryCanonical) :
    (s.atomUpdate idx off core f).1.memoryCanonical := by
  have hr := State.atomRead_canonical idx false core h
  unfold State.atomUpdate; split
  · exact h
  · split
    · next heq =>
      rw [heq] at hr
      split
      · exact State.atomWrite_canonical _ _ hr
      · exact hr
    · next heq => rw [heq] at hr; exact hr

theorem State.atomMerge_canonical (idx off : Nat) (bs : List Byte) (core : Nat) (h : s.memoryCanonical) :
    (s.atomMerge idx off bs core).1.memoryCanonical := by
  unfold State.atomMerge; split
  · exact State.atomWrite_canonical _ _ h
  · exact State.atomUpdate_canonical _ _ _ _ h

theorem State.atomsWrite_canonical (n a : Nat) (bs : List Byte) (core : Nat) (h : s.memoryCanonical) :
    (s.atomsWrite a bs core n).1.memoryCanonical := by
  induction n generalizing s a bs with
  | zero => exact h
  | succ n ih =>
    unfold State.atomsWrite; split
    · exact h
    · exact ih _ _ (State.atomMerge_canonical _ _ _ _ h)

/-- A write to LPDDR keeps the canonical form of every memory. -/
theorem State.lpddrWrite_canonical (a : Nat) (bs : List Byte) (core : Nat) (h : s.memoryCanonical) :
    (s.lpddrWrite a bs core).1.memoryCanonical := by
  unfold State.lpddrWrite; split
  · exact h
  · split
    · exact h
    · exact State.atomsWrite_canonical _ _ _ _ h

/-- A write to BAR4 keeps the canonical form of every memory. -/
theorem State.setBar4_canonical (p o : Nat) (b : Byte) (h : s.memoryCanonical) : (s.setBar4 p o b).memoryCanonical :=
  ⟨h.1, h.2.1, tabWf_set 0 s.hosts.bar4 _ _ h.2.2⟩

/-- A write to a Scratchpad keeps its canonical form. -/
theorem Core.spadPut_memoryWf (k : Core) (a : Nat) (bs : List Byte) (h : memoryWf 0 k.mem = true) :
    memoryWf 0 (k.spadPut a bs).mem = true := memoryWf_bytesSet 0 bs k.mem a h

end Sys2Proof.Machine
end

