-- ==== Sys2Proof/WellFormed.lean ====
section
/-! DEFINITION. When a command's operands are of the form the manual gives it: the reserved fields of an Ngaosh
instruction are zero (11_ngaosh_instruction_reference.md R274, R275), accesses are aligned and of a legal length, and a Span
payload has the length its header names (15_span_fabric.md R398). The machine gives the others a meaning too. -/

namespace Sys2Proof

/-- A register access at a multiple of its width (R422). -/
def registerAligned (offset : Nat) (wide : Bool) : Bool := if wide then offset % 8 == 0 else offset % 4 == 0

/-- At least one byte, inside the 48-bit address range. -/
def writeFits (a : Nat) (bytes : List Byte) : Bool := !bytes.isEmpty && decide (a + bytes.length ≤ 2 ^ 48)

/-- The payload is at most the 8-byte words that the header's len names. -/
def payloadFits (hdr : BitVec 128) (payload : List Dword) : Bool := decide (payload.length ≤ hdr.toNat / 2 ^ 68 % 64)

/-- Whether a command is well formed. -/
def Instr.wf : Instr → Bool
  | .nop _ _ f => f.rsv == 0
  | .add _ _ f => f.rsv == 0
  | .sub _ _ f => f.rsv == 0
  | .and _ _ f => f.rsv == 0
  | .or _ _ f => f.rsv == 0
  | .xor _ _ f => f.rsv == 0
  | .shl _ _ f => f.rsv == 0
  | .shr _ _ f => f.rsv == 0
  | .sra _ _ f => f.rsv == 0
  | .mul _ _ f => f.rsv == 0
  | .min _ _ f => f.rsv == 0
  | .max _ _ f => f.rsv == 0
  | .addi _ _ f => f.rsv == 0
  | .andi _ _ f => f.rsv == 0
  | .lil _ _ f => f.rsv == 0
  | .lih _ _ f => f.rsv == 0
  | .shli _ _ f => f.rsv == 0
  | .shri _ _ f => f.rsv == 0
  | .cmp _ _ f => f.rsv == 0
  | .cmpi _ _ f => f.rsv == 0
  | .plog _ _ f => f.rsv == 0
  | .br _ _ f => f.rsv == 0
  | .bal _ _ f => f.rsv == 0
  | .jr _ _ f => f.rsv == 0
  | .end_ _ _ f => f.rsv == 0
  | .ld _ _ f => f.rsv == 0
  | .st _ _ f => f.rsv == 0
  | .dmake _ _ f => f.rsv == 0
  | .dget _ _ f => f.rsv == 0
  | .dput _ _ f => f.rsv == 0
  | .dcopy _ _ f => f.rsv == 0
  | .fill _ _ f => f.rsv1 == 0 && f.rsv2 == 0
  | .copy _ _ f => f.rsv1 == 0 && f.rsv2 == 0
  | .aadd _ _ f => f.rsv1 == 0 && f.rsv2 == 0
  | .acas _ _ f => f.rsv1 == 0 && f.rsv2 == 0
  | .tmul _ _ f => f.rsv == 0
  | .tmul2 _ _ f => f.rsv == 0
  | .tstore _ _ f => f.rsv == 0
  | .tclear _ _ f => f.rsv == 0
  | .tingest _ _ f => f.rsv == 0
  | .sintMatch _ _ f => f.rsv == 0
  | .sintMerge _ _ f => f.rsv == 0
  | .sintPairs _ _ f => f.rsv == 0
  | .sintSelect _ _ f => f.rsv == 0
  | .pwait _ _ f => f.rsv == 0
  | .psig _ _ f => f.rsv == 0
  | .fence _ _ f => f.rsv == 0
  | .grant _ _ f => f.rsv1 == 0 && f.rsv2 == 0
  | .barrier _ _ f => f.rsv1 == 0 && f.rsv2 == 0
  | .take _ _ f => f.rsv1 == 0 && f.rsv2 == 0
  | .push _ _ f => f.rsv1 == 0 && f.rsv2 == 0
  | .pop _ _ f => f.rsv1 == 0 && f.rsv2 == 0
  | .setprec _ _ f => f.rsv == 0
  | .setclass _ _ f => f.rsv == 0
  | .spec _ _ f => f.rsv == 0
  | .verify _ _ f => f.rsv == 0
  | .squash _ _ f => f.rsv == 0
  | .sopen _ _ f => f.rsv == 0
  | .sclose _ _ f => f.rsv == 0
  | .wopen _ _ f => f.rsv1 == 0 && f.rsv2 == 0
  | .wclose _ _ f => f.rsv1 == 0 && f.rsv2 == 0
  | .update _ _ f => f.rsv1 == 0 && f.rsv2 == 0
  | .poolAccess _ offset _ => decide (offset < 2 ^ 26) && offset % 8 == 0
  | .counterLoRead _ offset => offset.toNat % 4 == 0
  | .registerWrite _ place wide _ => registerAligned place.offset.toNat wide
  | .memoryRead addr => addr.toNat % 32 == 0
  | .memoryWrite addr bytes => writeFits addr.toNat bytes
  | .spanWrite hdr payload => payloadFits hdr payload
  | .spanFadd hdr payload => payloadFits hdr payload
  | .spanCas hdr payload => payloadFits hdr payload
  | .spanMsg hdr payload => payloadFits hdr payload
  | .spanPartial hdr payload => payloadFits hdr payload
  | .spanTake hdr payload => payloadFits hdr payload
  | .rsp hdr payload => payloadFits hdr payload
  | .bar2Read _ _ len => decide (0 < len)
  | .bar2Write _ _ bytes => !bytes.isEmpty
  | .unmappedAccess _ offset _ => offset.toNat % 4 == 0
  | .sensorCopy temps volts currents => decide (temps.length ≤ 1024) && decide (volts.length ≤ 1024) && decide (currents.length ≤ 1024)
  | .addViewWrite _ _ offset wide _ => registerAligned offset.toNat wide
  | .move _ _ _ _ | .gather _ _ _ _ | .scatter _ _ _ _ | .xpose _ _ _ _ | .permute _ _ _ _ | .planning _ _
  | .slipIssue _ | .freezeEnd _ _ | .freezeLimit _ | .clerkWaitEnd _ | .opCompletion _ _ | .psigAct _
  | .scloseAct _ | .bankOwnerAct _ | .epochCommit _ _ | .epochFree _ _ | .transferStart _ _ _
  | .transferComplete _ _ | .p64Add _ | .coreEnd _ | .taskTimeout | .taskFailComplete | .taskTake
  | .coreStart | .hostSubDoorbell _ _ _ | .hostCplDoorbell _ _ _ | .copyIn _ _ | .copyOut _ _ | .nopEntry _
  | .copyDone _ | .completionWrite _ | .msixSend _ _ | .ringConfigWrite _ _ _ _ _ | .pailCfgWrite _ _ _ _
  | .bankPwrReqWrite _ _ _ | .bankClose _ _ | .bankTransitionEnd _ _ | .poolModeWrite _ _
  | .ledgTileFlagsWrite _ _ _ _ | .residentLostClear _ _ _ | .memcErrClear _ _ _ | .tellCtrValRead _ _
  | .memcErrIdxRead _ _ | .coreTallyCntClr _ _ _ | .ledgCntClr _ _ _ | .mintCntClr _ _ _
  | .coreStrainCntClr _ _ _ | .pwrSkimCntClr _ _ _ | .spadCntClr _ _ _ | .spadHubCntClr _ _
  | .coreClerkCntClr _ _ _ | .coreSchedCntClr _ _ | .coreDescCntClr _ _ _ | .tellCntClr _ _
  | .coreRngCntClr _ _ _ | .pwrMemcCntClr _ _ _ | .churnCntClr _ _ _ | .churnRootCntClr _ _ _
  | .spanCntClr _ _ | .spanPortCntClr _ _ _ | .hostCntClr _ _ _ | .pwrCntClr _ _ | .sisynCntClr _ _
  | .sisynFpCntClr _ _ | .sisynLcCntClr _ _ | .tellRetire _ _ | .takeApply _ _ | .takeEntry _ | .retire _
  | .barrierWake _ _ | .scrubRead _ | .temperatureRead _ _ | .churnUpdate _ _ | .churnRelease _ _
  | .churnRemint _ _ | .churnRoot _ _ | .parkedStart _ | .fenceTimeout _ _ | .rootJob _ | .rootJobEnd _
  | .churnPbtWrite _ _ _ _ | .pwrMemmapSplitWrite _ _ | .flitReceive _ _ _ _ | .spanRead _ | .spanTimeout _
  | .heartbeatSend | .heartbeat _ _ | .echo _ _ | .registry _ _ _ | .resync _ | .link _ _ | .managerLost
  | .takeover | .spanPortDrain _ _ | .spanPortUndrain _ _ | .spanPortEnable _ _ _ | .drain _
  | .drainTimeout _ | .init _ _ _ _ | .portDown _ | .trainRetry _ _ | .modulePlugged _ _ _ _
  | .moduleUnplugged _ | .spanNodeCtlWrite _ _ | .spanWinClose _ _ | .hostClaimWrite _ _ _ | .portReset _ _
  | .perstRelease _ _ | .refclkArrival _ | .powerOn _ | .domainOnRequest _ _ | .domainOffRequest _ _
  | .domainSwitch _ | .domainUp _ _ | .quiesceRequest _ _ | .enableRequest _ _ | .quiesceComplete _
  | .quiesceTimeout _ | .moduleReset _ _ | .vinWarn _ | .vinWarnEnd _ | .brownOut | .droop _ | .droopEnd _
  | .quadReset _ | .auxSag _ | .auxLoss | .thermalDemandStep _ | .powerDemandStep _ | .thermalTrip
  | .tripResume _ | .watchdog _ | .daybookWrite | .dbSelect _ _ _ | .stateCompare | .stateRecheck _
  | .fwUpdate _ _ _ | .activateFirmware | .fwCommit _ _ | .touch _ | .touchRelease _ | .drainGesture _
  | .segmentStuck _ | .attnPress | .attnLongPress | .attnGrant _ | .attnVeto _ | .attnTimeout | .powerOff
  | .locateEffecter _ | .challenge _ | .getMeasurements _ _ | .newNonce _ _ | .debugToken _ _ _
  | .returnToken _ _ _ | .scrapToken _ _ _ | .keyAdd _ _ | .keyRevoke _ _ | .makerProvision _
  | .makerCommand _ _ _ | .debugEnd | .pbSelect _ _ | .norRawAccess _ _ | .calibrationWrite _ _ _
  | .sisynDebugAccess _ _ | .writeBack _ | .tagReuse _ | .vinRestored _ | .pcieLinkUp _ _
  | .invalidSubmissionEntry _ _ | .tokenSubmitInvalid _ | .confirmationEnd _ | .resizableBarWrite _ _ => true

end Sys2Proof
end

