-- ==== Sys2Proof/Tests/Slice0.lean ====
section
/-! SUPPORT. Small tests: ill-formed commands that the check refuses, effects worked out by hand from the manual, and for
every statement with hypotheses a concrete state that meets them. Where a statement names what an operation answers, its
witness says of that answer what the statement asks. -/

namespace Sys2Proof.Tests

open Sys2Proof.Machine

set_option Elab.async false

/-! Small states. -/

/-- The predicate p0. -/
def p0 : Pred := ⟨0, false⟩

/-- A running core of a program of two words, the first of them the word of `i`. -/
def coreAt (i : Instr) : Core :=
  { Core.reset with
    running := true
    progLen := 2
    store := [(0, BitVec.ofNat 64 (((clerkOf i).map (·.word)).getD 0))] }

/-- A state whose core 0 is `k`. -/
def st0 (k : Core) : State := { State.reset with cores := [(0, k)] }

/-- A state whose core 0 is about to pass `i`, with g-registers. -/
def atG (i : Instr) (g : Tab Dword) : State := st0 { coreAt i with g := g }

/-- A state whose core 0 is about to pass `i`. -/
def at0 (i : Instr) : State := atG i []

/-- With a register set. -/
def withReg (s : State) (x v : Nat) : State := s.setRegN x v

/-! Ill-formed commands. -/

def r1 : FmtR := ⟨0, 0, 0, 1⟩
def i1 : FmtI := ⟨0, 0, 1, 0⟩
def cc1 : FmtC := ⟨0, 0, 0, 0, 1, 0⟩
def b1 : FmtB := ⟨0, 0, 1, 0⟩
def m1 : FmtM := ⟨0, 0, 0, 1, 0⟩
def d1 : FmtD := ⟨0, 0, 0, 0, 1⟩
def n1 : FmtN := ⟨0, 0, 0, 0, 0, 0, 0, 0, 1⟩
def s1 : FmtS := ⟨0, 0, 0, 0, 0, 0, 0, 1⟩
def e1 : FmtE := ⟨1, 0⟩
def f1 : FmtF := ⟨0, 0, 0, 1, 0, 0, 0, 0, 0⟩
def f2 : FmtF := ⟨0, 0, 0, 0, 0, 0, 0, 0, 1⟩
def a1 : FmtA := ⟨0, 0, 0, 0, 1, 0, 0⟩
def a2 : FmtA := ⟨0, 0, 0, 0, 0, 0, 1⟩
def g1 : FmtG := ⟨0, 0, 0, 1, 0, 0, 0⟩
def g2 : FmtG := ⟨0, 0, 0, 0, 0, 1, 0⟩

theorem test_reserved_bits_of_scalars_are_refused : ([
    .nop 0 p0 e1, .add 0 p0 r1, .sub 0 p0 r1, .and 0 p0 r1, .or 0 p0 r1, .xor 0 p0 r1, .shl 0 p0 r1, .shr 0 p0 r1,
    .sra 0 p0 r1, .mul 0 p0 r1, .min 0 p0 r1, .max 0 p0 r1, .addi 0 p0 i1, .andi 0 p0 i1, .lil 0 p0 i1, .lih 0 p0 i1,
    .shli 0 p0 i1, .shri 0 p0 i1, .cmp 0 p0 cc1, .cmpi 0 p0 cc1, .plog 0 p0 ⟨0, 0, 0, 0, 1⟩, .br 0 p0 b1, .bal 0 p0 b1,
    .jr 0 p0 b1, .end_ 0 p0 e1, .ld 0 p0 m1, .st 0 p0 m1, .dmake 0 p0 d1, .dget 0 p0 d1, .dput 0 p0 d1,
    .dcopy 0 p0 d1] : List Instr).all (fun i => !i.wf) = true := by decide +kernel

theorem test_reserved_bits_of_operations_are_refused : ([
    .fill 0 p0 f1, .fill 0 p0 f2, .copy 0 p0 f1, .copy 0 p0 f2, .aadd 0 p0 a1, .aadd 0 p0 a2, .acas 0 p0 a1, .acas 0 p0 a2,
    .tmul 0 p0 ⟨0, 0, 0, 0, 0, 0, 0, 0, 0, 0, 1⟩, .tmul2 0 p0 ⟨0, 0, 0, 0, 0, 0, 0, 0, 0, 1⟩, .tstore 0 p0 s1,
    .tclear 0 p0 e1, .tingest 0 p0 s1, .sintMatch 0 p0 n1, .sintMerge 0 p0 n1, .sintPairs 0 p0 n1, .sintSelect 0 p0 n1,
    .pwait 0 p0 e1, .psig 0 p0 e1, .fence 0 p0 e1, .grant 0 p0 g1, .grant 0 p0 g2, .barrier 0 p0 g1, .barrier 0 p0 g2,
    .take 0 p0 g1, .take 0 p0 g2, .push 0 p0 g1, .push 0 p0 g2, .pop 0 p0 g1, .pop 0 p0 g2, .setprec 0 p0 e1,
    .setclass 0 p0 e1, .spec 0 p0 e1, .verify 0 p0 e1, .squash 0 p0 e1, .sopen 0 p0 e1, .sclose 0 p0 e1, .wopen 0 p0 g1,
    .wopen 0 p0 g2, .wclose 0 p0 g1, .wclose 0 p0 g2, .update 0 p0 g1, .update 0 p0 g2] :
    List Instr).all (fun i => !i.wf) = true := by decide +kernel

theorem test_misaligned_and_empty_accesses_are_refused : ([
    .poolAccess .sisyn (2 ^ 26) none, .poolAccess .sisyn 4 none, .counterLoRead .sisyn 2, .registerWrite .sisyn ⟨.control, 2⟩ false 0,
    .registerWrite .sisyn ⟨.control, 4⟩ true 0, .memoryRead 16, .memoryWrite 0 [], .memoryWrite 0xFFFFFFFFFFFF [0, 0],
    .spanWrite 0 [0], .spanFadd 0 [0], .spanCas 0 [0], .spanMsg 0 [0], .spanPartial 0 [0], .spanTake 0 [0], .rsp 0 [0],
    .bar2Read .A 0 0, .bar2Write .A 0 [], .unmappedAccess .A 2 false, .sensorCopy (List.replicate 1025 0) [] [],
    .sensorCopy [] (List.replicate 1025 0) [], .sensorCopy [] [] (List.replicate 1025 0), .addViewWrite .A 0 2 false 0,
    .addViewWrite .A 0 4 true 0] : List Instr).all (fun i => !i.wf) = true := by decide +kernel

theorem test_plain_commands_are_well_formed : ([
    .add 63 ⟨7, true⟩ ⟨31, 31, 31, 0⟩, .memoryRead 32, .memoryWrite 0xFFFFFFFFFFFF [0], .registerWrite .sisyn ⟨.control, 8⟩ true 0,
    .spanWrite (1 <<< 68) [0], .sensorCopy (List.replicate 1024 0) [] [], .taskTake, .powerOff] :
    List Instr).all (·.wf) = true := by decide +kernel

/-! The machine. -/

/-- What a command leaves. -/
def after (i : Instr) (s : State) : State :=
  match exec i s with
  | .next t => t
  | _ => s

theorem witness_StepRunsTheFrontCommand :
    (State.pending { State.reset with pending := [.taskTimeout] } = .taskTimeout :: []) ∧ State.reset.pending = [] := ⟨rfl, rfl⟩

theorem witness_EveryStepKeepsTheConfiguration : step State.reset = .next State.reset := rfl

theorem witness_EveryStepKeepsMemoryCanonical :
    (State.reset.memoryCanonical ∧ State.reset.spadsCanonical) ∧ step State.reset = .next State.reset :=
  ⟨⟨⟨rfl, rfl, rfl⟩, fun _ => rfl⟩, rfl⟩

/-! Ngaosh instructions. -/

theorem witness_NgaoshWordsReadBack : ∃ w, clerkOf (.add 63 ⟨7, true⟩ ⟨31, 30, 29, 0⟩) = some w ∧ w.core = (63 : CoreId).val :=
  ⟨_, rfl, rfl⟩

/-- ADD is opcode 0x01: gd in bits [51:47], ga in [46:42], gb in [41:37] (R275, R278). -/
theorem test_word_of_add : (clerkOf (.add 0 ⟨2, true⟩ ⟨3, 1, 2, 0⟩)).map (·.word) =
    some (0x01 * 2 ^ 56 + 2 * 2 ^ 53 + 2 ^ 52 + 3 * 2 ^ 47 + 1 * 2 ^ 42 + 2 * 2 ^ 37) := by decide +kernel

theorem witness_NgaoshWordsReadBack_layout : ∃ w, clerkOf (.jr 0 p0 ⟨0, 5, 0, 0⟩) = some w := ⟨_, rfl⟩

/-- An ADD under !p0 is a no-op; an ADD of a pending register waits. -/
theorem witness_PredicatesWaitsAndIllegalWords :
    let i : Instr := .add 0 ⟨0, true⟩ ⟨1, 2, 3, 0⟩
    let j : Instr := .add 0 p0 ⟨1, 2, 3, 0⟩
    let s := st0 { coreAt j with ops := [⟨0, 0, .dma, 2, 0, true, none⟩], nextOp := 1 }
    ((at0 i).meets i = true ∧ ((at0 i).core 0).executes ⟨0, true⟩ = false ∧ ((at0 i).core 0).hasNext = true) ∧
    (s.meets j = true ∧ (s.core 0).executes p0 = true ∧ ((clerkOf j).map (s.core 0).mustWait) = some true) := by decide +kernel

/-- A word of no known opcode, and a reserved bit. -/
theorem witness_PredicatesWaitsAndIllegalWords_illegal :
    let i : Instr := .add 0 p0 ⟨1, 2, 3, 1⟩
    let s := st0 { coreAt i with store := [(0, 0xFF00000000000000)] }
    let u : State := { at0 i with sched := { Sched.reset with st := .running } }
    ((clerkOf i).map (s.core 0).takes = some true ∧ opcodeKnown (s.core 0).opcodeAt = false) ∧
    ((clerkOf i).map (u.core 0).takes = some true ∧ (clerkOf i).map (·.illegal) = some true ∧
      u.field (Reg.CORE_CLERK_FAULT 0) 0 8 = 0 ∧ u.sched.failing = false) := by decide +kernel

theorem witness_ScalarInstructionsHaveTheirEffects : ∀ i ∈ ([
    .nop 0 p0 ⟨0, 0⟩, .add 0 p0 ⟨1, 2, 3, 0⟩, .sub 0 p0 ⟨1, 2, 3, 0⟩, .and 0 p0 ⟨1, 2, 3, 0⟩, .or 0 p0 ⟨1, 2, 3, 0⟩,
    .xor 0 p0 ⟨1, 2, 3, 0⟩, .shl 0 p0 ⟨1, 2, 3, 0⟩, .shr 0 p0 ⟨1, 2, 3, 0⟩, .sra 0 p0 ⟨1, 2, 3, 0⟩, .mul 0 p0 ⟨1, 2, 3, 0⟩,
    .min 0 p0 ⟨1, 2, 3, 0⟩, .max 0 p0 ⟨0, 2, 3, 0⟩, .addi 0 p0 ⟨1, 2, 0, 7⟩, .andi 0 p0 ⟨1, 2, 0, 7⟩, .lil 0 p0 ⟨1, 0, 0, 7⟩,
    .lih 0 p0 ⟨1, 0, 0, 7⟩, .shli 0 p0 ⟨1, 2, 0, 63⟩, .shri 0 p0 ⟨1, 2, 0, 63⟩, .cmp 0 p0 ⟨1, 5, 2, 3, 0, 0⟩,
    .cmpi 0 p0 ⟨0, 5, 2, 0, 0, 7⟩, .plog 0 p0 ⟨1, 0, 2, 3, 0⟩] : List Instr),
    (at0 i).passes i = true ∧ ((at0 i).core 0).hasNext = true := by decide +kernel

theorem test_add_wraps_and_g0_discards :
    let f : FmtR := ⟨1, 2, 3, 0⟩
    let s := atG (.add 0 p0 f) [(2, 0xFFFFFFFFFFFFFFFF), (3, 2)]
    let z := atG (.add 0 p0 { f with gd := 0 }) [(2, 5), (3, 2)]
    ((after (.add 0 p0 f) s).core 0).greg 1 = 1 ∧ ((after (.add 0 p0 { f with gd := 0 }) z).core 0).g = [(2, 5), (3, 2)] := by
  decide +kernel

theorem test_sra_keeps_the_sign_and_uses_six_bits :
    let i : Instr := .sra 0 p0 ⟨1, 2, 3, 0⟩
    ((after i (atG i [(2, 0x8000000000000000), (3, 0x44)])).core 0).greg 1 = 0xF800000000000000 := by decide +kernel

theorem test_cmp_is_signed_and_unsigned :
    let lt : Instr := .cmp 0 p0 ⟨1, 2, 2, 3, 0, 0⟩
    let ltu : Instr := .cmp 0 p0 ⟨1, 4, 2, 3, 0, 0⟩
    let g : Tab Dword := [(2, 0xFFFFFFFFFFFFFFFF), (3, 1)]
    ((after lt (atG lt g)).core 0).pred 1 = true ∧ ((after ltu (atG ltu g)).core 0).pred 1 = false := by decide +kernel

theorem test_lih_keeps_the_low_half :
    let i : Instr := .lih 0 p0 ⟨1, 0, 0, 0x12345678⟩
    ((after i (atG i [(1, 0xFFFFFFFF9ABCDEF0)])).core 0).greg 1 = 0x123456789ABCDEF0 := by decide +kernel

/-- Targets inside and at the end of a program of two words, and a fall past its end. -/
theorem witness_BranchesGoToTheirTargets :
    let br : Instr := .br 0 p0 ⟨0, 0, 0, 1⟩
    let bal : Instr := .bal 0 p0 ⟨1, 0, 0, 1⟩
    let jr : Instr := .jr 0 p0 ⟨0, 2, 0, 0⟩
    let out : Instr := .br 0 p0 ⟨0, 0, 0, 2⟩
    let bout : Instr := .bal 0 p0 ⟨1, 0, 0, 2⟩
    let nop : Instr := .nop 0 p0 ⟨0, 0⟩
    let last := st0 { coreAt nop with progLen := 1 }
    (at0 br).passes br = true ∧ (at0 bal).passes bal = true ∧ (atG jr [(2, 1)]).passes jr = true ∧
    (atG jr [(2, 2)]).passes jr = true ∧ (atG jr [(2, 0x2000)]).passes jr = true ∧ (at0 out).passes out = true ∧
    (at0 bout).passes bout = true ∧ last.passes nop = true ∧ (last.core 0).hasNext = false := by decide +kernel

/-- An ADD that falls through the end of a program of one word, with its effect done. -/
theorem witness_BranchesGoToTheirTargets_falls :
    let f : FmtR := ⟨1, 2, 3, 0⟩
    let i : Instr := .add 0 p0 f
    let s := st0 { coreAt i with progLen := 1, g := [(2, 3), (3, 4)] }
    let body := bodyR 0 f (fun a b => a + b)
    (∀ x, exec i x = x.clerk i body) ∧ (∃ w, clerkOf i = some w ∧ w.core = (0 : CoreId).val) ∧ s.passes i = true ∧
    (s.core 0).hasNext = false ∧ ∃ u, body s = .pass u ∧ (u.core 0).greg 1 = 7 ∧ (u.core 0).running = true ∧
      (u.core 0).stopped = false ∧ (u.core 0).pc = (s.core 0).pc :=
  ⟨fun _ => rfl, ⟨_, rfl, rfl⟩, by decide +kernel, by decide +kernel, _, rfl, by decide +kernel, by decide +kernel, by decide +kernel,
    by decide +kernel⟩

/-- Place `o` of core 0's Scratchpad. -/
def spad (o : Nat) : Dword := BitVec.ofNat 64 (0xF00000000000 + o)

/-- A state at `i` with every bank of core 0 owned by the port of code `own`. -/
def atOwn (i : Instr) (g : Tab Dword) (own : Word) : State :=
  withReg (st0 { coreAt i with g := g, owner := own }) Reg.SPAD_POOL_CTL 0

/-- The first and the last word below 0x60000, and gv g0. -/
theorem witness_NarrowAccessesMoveOneWordOrFault_moves :
    ∀ i ∈ ([(.ld 0 p0 ⟨1, 2, 0, 0, 0⟩, 0, 8), (.ld 0 p0 ⟨0, 2, 1, 0, 4⟩, 0x5FFF8, 4), (.st 0 p0 ⟨1, 2, 0, 0, 0⟩, 0x5FFF8, 8),
        (.st 0 p0 ⟨1, 2, 1, 0, 0xFFFFFFFC⟩, 0x40, 4)] : List (Instr × Nat × Nat)),
      let s := atOwn i.1 [(1, 7), (2, spad i.2.1)] 0x55555555
      s.passes i.1 = true ∧ (s.core 0).hasNext = true ∧ (s.core 0).ownerReq = none ∧ s.poolMode = false ∧
      (∀ b < 16, (s.core 0).ownerOf b = 1 ∧ ((s.core 0).bank b).usable = true) ∧
      (s.core 0).parityBad (i.2.1 / 8 * 8) 8 = false := by decide +kernel

/-- Aligned and misaligned accesses of the first register of core 0's Clerk, of 4 and of 8 bytes. -/
theorem witness_NarrowAccessesMoveOneWordOrFault_registers :
    ∀ e ∈ ([(0, 1), (2, 1), (0, 0), (4, 0)] : List (Nat × BitVec 1)),
      let a : Dword := BitVec.ofNat 64 (controlBase + Reg.CORE_CLERK_ID 0 + e.1)
      let i : Instr := .ld 0 p0 ⟨1, 2, e.2, 0, 0⟩
      let j : Instr := .st 0 p0 ⟨1, 2, e.2, 0, 0⟩
      (atG i [(2, a)]).passes i = true ∧ (atG j [(2, a)]).passes j = true ∧ ((atG i [(2, a)]).core 0).hasNext = true ∧
      (ownReg 0 a.toNat).isSome = true := by decide +kernel

/-- A store of 4 bytes that a register takes, one of a pail entry that its pail refuses, and accesses of 8 bytes to two words of a handle's
record. -/
theorem witness_NarrowAccessesMoveOneWordOrFault_registerStores :
    let at_ (x : Nat) : Dword := BitVec.ofNat 64 (controlBase + x)
    let st (size : BitVec 1) : Instr := .st 0 p0 ⟨1, 2, size, 0, 0⟩
    let ld : Instr := .ld 0 p0 ⟨1, 2, 0, 0, 0⟩
    let own (s : State) (x : Nat) (v : Word) : Option (State × Option Stop) := (ownReg 0 (at_ x).toNat).map (fun b => s.coreRegWrite (.core 0) b.1 b.2 v)
    let limit := atG (st 1) [(2, at_ (Reg.CORE_TALLY_FREEZE_LIMIT 0)), (1, 7)]
    let pail := st0 { coreAt (st 1) with g := [(2, at_ (Reg.SPAD_PAIL_CFG 0 63)), (1, 7)], pails := [(63, { Pail.reset with st := .full })] }
    let h := Reg.SPAN_HANDLE 0 0
    (limit.passes (st 1) = true ∧ (own limit (Reg.CORE_TALLY_FREEZE_LIMIT 0) 7).map (·.2) = some none) ∧
    (pail.passes (st 1) = true ∧ (own pail (Reg.SPAD_PAIL_CFG 0 63) 7).map (fun e => e.2.map (·.seq)) = some (some 0)) ∧
    ((ownReg 0 (at_ h).toNat).map (fun b => b.1.kind == .handle && decide (0x100 ≤ b.1.off)) = some true ∧ (at_ h).toNat % 8 = 0 ∧
      (atG (st 0) [(2, at_ h)]).passes (st 0) = true ∧ (atG ld [(2, at_ h)]).passes ld = true ∧
      (own (atG (st 0) [(2, at_ h)]) h 0).map (·.2) = some none ∧ (own (atG (st 0) [(2, at_ h)]) (h + 4) 0).map (·.2) = some none) := by
  decide +kernel

/-- Outside, misaligned, another port's bank, a bank that is Off, and a record that ends past the Scratchpad. -/
theorem witness_NarrowAccessesMoveOneWordOrFault_faults :
    let i : Instr := .ld 0 p0 ⟨1, 2, 0, 0, 0⟩
    let j : Instr := .st 0 p0 ⟨1, 2, 1, 0, 0⟩
    let d : Instr := .dmake 0 p0 ⟨1, 0, 2, 0, 0⟩
    let off : Core := { coreAt i with g := [(2, spad 0)], owner := 0x55555555, banks := [(0, ⟨.off, none, none, none⟩)] }
    (atG i [(2, 0x100)]).passes i = true ∧ ownReg 0 0x100 = none ∧ (atG j [(2, spad 0x60000)]).passes j = true ∧
    ownReg 0 (spad 0x60000).toNat = none ∧
    (atOwn i [(2, spad 4)] 0x55555555).passes i = true ∧ (atOwn j [(2, spad 2)] 0x55555555).passes j = true ∧
    ((atOwn i [(2, spad 0)] 0xAAAAAAAA).passes i = true ∧ ((atOwn i [(2, spad 0)] 0xAAAAAAAA).core 0).ownerOf 0 = 2) ∧
    ((st0 off).passes i = true ∧ ((st0 off).core 0).ownerOf 0 = 1 ∧ (((st0 off).core 0).bank 0).usable = false) ∧
    ((atG d [(2, spad 0x5FFC1)]).passes d = true) := by decide +kernel

/-- A ROW FP32 tensor of 8 elements at `addr` of node `node`, with diag. -/
def rowD (node addr : Nat) : BitVec 512 :=
  BitVec.ofNat 512 (addr + node * 2 ^ 48 + 2 ^ 64 + 2 * 2 ^ 73 + 2 ^ 82 + 2 ^ 86 + 8 * 2 ^ 192 + 2 ^ 256)

/-- A region of the Scratchpads of core 0 and one of LPDDR. -/
def regions : List Region := [⟨0xF00000000000, 0x60000, 1, true, true, false, 0⟩, ⟨0, 0x100000, 0, true, true, false, 0⟩]

/-- With those regions. -/
def inTask (s : State) : State := { s with sched := { s.sched with st := .running, regions := regions } }

theorem witness_DescriptorInstructions :
    let v := rowD 0 0xF00000000000
    let get : Instr := .dget 0 p0 ⟨0, 3, 2, 7, 0⟩
    let copy : Instr := .dcopy 0 p0 ⟨63, 3, 0, 0, 0⟩
    let put : Instr := .dput 0 p0 ⟨3, 0, 2, 0, 0⟩
    let make : Instr := .dmake 0 p0 ⟨3, 0, 2, 0, 0⟩
    let bytes := leBytes v.toNat 64
    let s := withReg (inTask (st0 { coreAt make with g := [(2, spad 0x5FFC0)], owner := 0x55555555, mem := bytesSet 0 [] 0x5FFC0 bytes })) Reg.SPAD_POOL_CTL 0
    (at0 get).passes get = true ∧ (at0 copy).passes copy = true ∧
    (let u := inTask (st0 { coreAt put with g := [(2, spad 0x40)], d := [(3, v)] })
     u.passes put = true ∧ u.descBad (Desc.of (setWord v 0 (spad 0x40))) = none) ∧
    ((atG put [(2, 1)]).passes put = true ∧ (at0 put).descBad (Desc.of (setWord 0 0 1)) ≠ none) ∧
    (s.passes make = true ∧ s.poolMode = false ∧ (s.core 0).ownerOf (bankOf 0x5FFC0) = 1 ∧ ((s.core 0).bank (bankOf 0x5FFC0)).usable = true ∧
      (s.core 0).parityBad 0x5FFC0 64 = false ∧ BitVec.ofNat 512 (leNat (bytesGet 0 (s.core 0).mem 0x5FFC0 64)) = v ∧
      s.descBad (Desc.of v) = none) ∧ s.descBad (Desc.of 0) ≠ none := by decide +kernel

/-- A core at a transfer: d1 the source, d2 the destination, d3 a list. -/
def xferCore (i : Instr) (node : Nat) : Core :=
  { coreAt i with
    d := [(1, rowD node 0xF00000000000), (2, rowD 0 0xF00000004000), (3, rowD 0 0xF00000008000)]
    g := [(4, 8), (5, 0x100), (6, 0x200), (7, 16)] }

/-- The transfer of a box that it makes. -/
def boxX (k : Core) (kind : XferKind) (f : FmtT) : Xfer :=
  { k.blankXfer kind f.epoch.toNat with
    src := k.copyD f.ds.toNat
    dst := k.copyD f.dd.toNat
    list := k.copyD f.dl.toNat
    org := k.greg f.go.toNat
    form := f.form == 1
    cnt := k.greg f.gc.toNat }

theorem witness_TransfersEnterTheDmaQueue_local :
    let f : FmtT := ⟨1, 2, 0, 0, 0, 0, 9, 0, 0, 0⟩
    let l : FmtT := { f with dl := 3 }
    let g : FmtT := { f with gc := 4 }
    ∀ e ∈ ([(.move 0 p0 false f, .move, f), (.gather 0 p0 false l, .gather, l), (.scatter 0 p0 false l, .scatter, l),
        (.xpose 0 p0 false f, .xpose, f), (.permute 0 p0 false g, .permute, g)] : List (Instr × XferKind × FmtT)),
      let k := xferCore e.1 0
      let s := inTask (st0 k)
      s.passes e.1 = true ∧ k.hasNext = true ∧ s.xferFault 0 (boxX k e.2.1 e.2.2) = none ∧
      s.xferRemote (boxX k e.2.1 e.2.2) = false := by
  decide +kernel

theorem witness_TransfersEnterTheDmaQueue_raw :
    let h : FmtF := ⟨5, 6, 7, 0, 0, 0, 0, 9, 0⟩
    let z : FmtF := ⟨5, 6, 0, 0, 0, 0, 0, 9, 0⟩
    let fill : Instr := .fill 0 p0 ⟨5, 7, 4, 0, 0, 0, 0, 9, 0⟩
    let copy : Instr := .copy 0 p0 h
    let none_ : Instr := .copy 0 p0 z
    let k := xferCore fill 0
    let x : Xfer := { k.blankXfer .fill 0 with org := 8, dstAddr := 0x100, len := 16 }
    let y : Xfer := { k.blankXfer .copy 0 with dstAddr := 0x100, srcAddr := 0x200, len := 16 }
    let s := inTask (st0 k)
    s.passes fill = true ∧ s.xferFault 0 x = none ∧ (inTask (st0 (xferCore copy 0))).passes copy = true ∧
    s.xferFault 0 y = none ∧ (inTask (st0 (xferCore none_ 0))).passes none_ = true ∧ s.xferFault 0 { y with len := 0 } = none := by
  decide +kernel

/-- A source on node 1, with Span and a handle, and without Span. -/
theorem witness_TransfersEnterTheDmaQueue_remote :
    let f : FmtT := ⟨1, 2, 0, 0, 0, 0, 9, 0, 0, 0⟩
    let i : Instr := .move 0 p0 false f
    let k := xferCore i 1
    let h := Reg.SPAN_HANDLE 0 0
    let s := withReg (withReg (withReg (inTask (st0 k)) (h + 4) (0xF000 + 2 ^ 16)) (h + 12) 0xF001) (h + 16) (2 ^ 15)
    let u : State := { s with variant := .m2304u }
    s.passes i = true ∧ s.xferFault 0 (boxX k .move f) = none ∧ s.xferRemote (boxX k .move f) = true ∧
    (s.xferWins 0 (boxX k .move f)).isSome = true ∧ spanPresent s.variant = true ∧
    u.passes i = true ∧ u.xferFault 0 (boxX k .move f) = none ∧ spanPresent u.variant = false := by decide +kernel

/-- Every memory controller ENABLED, and the atom of address 0 written with zeros. -/
def withAtom (s : State) : State :=
  let c := (s.memPlace 0).chan
  (withReg s (Reg.PWR_QSTATE (52 + c)) 1).atomWrite 0 (List.replicate 32 0)

theorem witness_AtomicsExchangeOneWord :
    let i : Instr := .aadd 0 p0 ⟨1, 2, 3, 0, 0, 9, 0⟩
    let j : Instr := .acas 0 p0 ⟨1, 2, 3, 4, 0, 9, 0⟩
    let s := withAtom (inTask (atG i [(2, 8), (3, 5)]))
    let u := withAtom (inTask (atG j [(2, 8), (3, 5)]))
    let v := withAtom (inTask (atG j [(2, 8), (3, 5), (4, 1)]))
    let t := (s.newOp 0 .dma 1 9 true).1
    s.passes i = true ∧ u.passes j = true ∧ v.passes j = true ∧ 8 / 2 ^ 48 = s.nodeId ∧
    (∀ z ∈ [s, u, v], (z.core 0).dmaQueued < 64 ∧ (z.core 0).dma = []) ∧
    (let w := withAtom (inTask (st0 { coreAt i with dma := [{ Core.reset.blankXfer .fill 0 with dstAddr := 0xF00000000000, len := 8 }] }))
     w.passes i = true ∧ ∃ y ∈ (w.core 0).dma, y.started = false ∧ (w.core 0).xferReady y = true) ∧
    regionFor s.sched.regions 8 16 = some ⟨0, 0x100000, 0, true, true, false, 0⟩ ∧
    8 + 8 ≤ s.lpddrEnd ∧ s.atomEnabled 0 = true ∧
    (match (t.atomRead 0 false 0).2 with
      | .ok d => leNat ((d.drop 8).take 8) == 0
      | .error _ => false) = true := by decide +kernel

theorem witness_SequencerInstructionsEnterTheQueue :
    let x : FmtX := ⟨1, 2, 4, 0, 0, 0, 0, 0, 0, 0, 0⟩
    let y : FmtY := ⟨1, 2, 3, 4, 4, 0, 0, 0, 0, 0⟩
    let w : FmtS := ⟨0, 1, 0, 4, 5, 0, 0, 0⟩
    let m : FmtN := ⟨1, 2, 0, 3, 6, 0, 0, 0, 0⟩
    let q : FmtN := ⟨1, 2, 3, 0, 6, 0, 0, 0, 0⟩
    let t : FmtN := ⟨1, 0, 0, 3, 6, 0, 0, 0, 0⟩
    ∀ i ∈ ([.tmul 0 p0 x, .tmul2 0 p0 y, .tstore 0 p0 w, .tclear 0 p0 ⟨0, 255⟩, .tingest 0 p0 { w with tile := 0, gw := 0 },
        .sintMatch 0 p0 m, .sintMerge 0 p0 m, .sintPairs 0 p0 q, .sintSelect 0 p0 t, .setclass 0 p0 ⟨0, 0⟩, .setprec 0 p0 ⟨0, 0⟩] :
        List Instr),
      (at0 i).passes i = true ∧ ((at0 i).core 0).hasNext = true ∧ ((at0 i).core 0).seq.length < 32 ∧
      bitOf (((at0 i).core 0).greg 5).toNat 0 = false ∧ sideOutputs 0 = false := by decide +kernel

/-- A TMUL of a NEST loop, and one of an OPEN epoch. -/
theorem witness_SequencerInstructionsEnterTheQueue_nest :
    let x : FmtX := ⟨1, 2, 29, 0, 0, 0, 0, 3, 4, 0, 0⟩
    let y : FmtX := ⟨1, 2, 4, 0, 0, 15, 0, 0, 0, 0, 0⟩
    let s := atG (.tmul 0 p0 x) [(30, 1)]
    let u := st0 { coreAt (.tmul 0 p0 y) with epochs := [(15, .opened)] }
    s.passes (.tmul 0 p0 x) = true ∧ bitOf ((s.core 0).greg 30).toNat 0 = true ∧ (s.core 0).pendingG 31 = false ∧
    u.passes (.tmul 0 p0 y) = true ∧ (u.core 0).epoch 15 = .opened := by decide +kernel

/-- An epoch that is not 0 on a SINT, on a TINGEST, and on a TSTORE to a destination that is no pail. -/
theorem witness_SequencerInstructionsEnterTheQueue_epochs :
    let m : FmtN := ⟨1, 2, 0, 3, 6, 0, 15, 0, 0⟩
    let w : FmtS := ⟨0, 1, 0, 4, 5, 15, 0, 0⟩
    let at_ (i : Instr) : State := st0 { coreAt i with epochs := [(15, .opened)] }
    (∀ i ∈ [Instr.sintMatch 0 p0 m, .sintMerge 0 p0 m, .sintSelect 0 p0 { m with db := 0, da := 1 },
        .tingest 0 p0 { w with tile := 0, gw := 0 }, .tstore 0 p0 w], (at_ i).passes i = true ∧ ((at_ i).core 0).seq.length < 32) ∧
    m.epoch ≠ 0 ∧ w.epoch ≠ 0 ∧ w.df = 0 ∧
    (at_ (.tstore 0 p0 w)).destPail 0 (Desc.of 0) = false := by decide +kernel

/-- Each condition met and not met. -/
theorem witness_PwaitAndFenceWaitForTheirCondition :
    let full : Tab Pail := [(63, { Pail.reset with st := .full })]
    let op : Op := ⟨0, 0, .tensor, 0, 0, false, none⟩
    (∀ e ∈ ([(0, [], PailSt.empty), (0, full, .full), (1, full, .full), (1, [], .empty), (2, [], .empty), (2, full, .full)] :
        List (Nat × Tab Pail × PailSt)),
      let i : Instr := .pwait 0 p0 ⟨0, BitVec.ofNat 32 (63 + 64 * e.1)⟩
      let s := st0 { coreAt i with pails := e.2.1 }
      s.passes i = true ∧ (s.core 0).hasNext = true ∧ ((s.core 0).pail 63).st = e.2.2) ∧
    (let i : Instr := .pwait 0 p0 ⟨0, 127⟩
     let s := st0 { coreAt i with pails := [(63, { Pail.reset with st := .full, epoch := 15 })] }
     s.passes i = true ∧ ((s.core 0).pail 63).st = .full ∧ ((s.core 0).pail 63).epoch ≠ 0) ∧
    (let i : Instr := .fence 0 p0 ⟨0, 4⟩
     let j : Instr := .fence 0 p0 ⟨0, 27⟩
     let s (k : Instr) := st0 { coreAt k with ops := [op], nextOp := 1 }
     (s i).passes i = true ∧ (s j).passes j = true) := by decide +kernel

theorem witness_GrantsStreamsBarriersAndTakesAtPass :
    let z : Instr := .grant 0 p0 ⟨0, 0, 0, 0, 0, 0, 0⟩
    let w : Instr := .grant 0 p0 ⟨0, 2, 0, 0, 0, 0, 0⟩
    let open_ : Instr := .sopen 0 p0 ⟨0, 0xFFFF⟩
    let places : Tab (Nat × Bool) := (List.range 16).map (fun i => (i, i, false))
    let sig : Instr := .psig 0 p0 ⟨0, 63⟩
    let close : Instr := .sclose 0 p0 ⟨0, 1⟩
    (at0 z).passes z = true ∧ (atG w [(2, 0x123)]).passes w = true ∧ (atG w [(2, 0x400)]).passes w = true ∧
    (atG w [(2, 0x1000000000)]).passes w = true ∧
    ((at0 open_).passes open_ = true ∧ (at0 open_).sampledTask = false ∧ ((at0 open_).core 0).streamOpen 0xFFFF = none ∧
      ((at0 open_).core 0).freeStream = some 0) ∧
    (let s := st0 { coreAt open_ with streams := [(0, 0xFFFF, true)] }
     s.passes open_ = true ∧ (s.core 0).streamOpen 0xFFFF ≠ none) ∧
    (let s := st0 { coreAt open_ with streams := places }
     s.passes open_ = true ∧ (s.core 0).streamOpen 0xFFFF = none ∧ (s.core 0).freeStream = none) ∧
    (let s : State := { at0 open_ with sched := { Sched.reset with st := .running, cls := 2 } }
     s.passes open_ = true ∧ s.sampledTask = true) ∧
    (at0 sig).passes sig = true ∧ (at0 close).passes close = true := by decide +kernel

theorem witness_GrantsStreamsBarriersAndTakesAtPass_teller :
    let b : Instr := .barrier 0 p0 ⟨0, 2, 0, 0, 9, 0, 1023⟩
    let t : Instr := .take 0 p0 ⟨1, 2, 3, 0, 9, 0, 0⟩
    let span (v : Variant) : State := { atG t [(2, 0x1FF03FF)] with variant := v }
    (atG b [(2, 64)]).passes b = true ∧ (atG t [(2, 1023)]).passes t = true ∧ (atG t [(2, 0x400)]).passes t = true ∧
    (atG t [(2, 0x2000000)]).passes t = true ∧ (atG t [(2, 0x10000)]).passes t = true ∧
    (span .m2304u).passes t = true ∧ (span .m2304fu).passes t = true := by decide +kernel

/-- Epochs 0 and 15, FREE, ENDING and OPEN. -/
theorem witness_EpochsOpenAndEnd_spec : ∀ e ∈ ([.free, .endingVerify, .endingSquash, .opened] : List EpochSt),
    let i : Instr := .spec 0 p0 ⟨0, 15⟩
    let s := st0 { coreAt i with epochs := [(15, e)] }
    s.passes i = true ∧ (s.core 0).hasNext = true ∧ (s.core 0).epoch 15 = e := by decide +kernel

theorem witness_EpochsOpenAndEnd : ∀ i ∈ ([.verify 0 p0 ⟨0, 15⟩, .squash 0 p0 ⟨0, 15⟩, .end_ 0 p0 ⟨0, 0⟩] : List Instr),
    let s := st0 { coreAt i with epochs := [(15, .opened)] }
    s.passes i = true ∧ (s.core 0).hasNext = true ∧ (s.core 0).epoch 15 = .opened ∧
    (at0 i).passes i = true ∧ ((at0 i).core 0).epoch 15 = .free := by decide +kernel

/-- A SQUASH of an epoch on whose pail the core is frozen, with a limit, and of one that it is not frozen on. -/
theorem witness_EpochsOpenAndEnd_frozen :
    let i : Instr := .squash 0 p0 ⟨0, 15⟩
    let s (e : Nat) := withReg (st0 { coreAt i with
      epochs := [(15, .opened)], freeze := some ⟨63⟩, pails := [(63, { Pail.reset with epoch := e })] }) (Reg.CORE_TALLY_FREEZE_LIMIT 0) 8
    (∀ e ∈ [15, 14], (s e).passes i = true ∧ ((s e).core 0).epoch 15 = .opened ∧ ((s e).core 0).freeze = some ⟨63⟩ ∧
      ((s e).core 0).seq = [] ∧ ((s e).core 0).pail 63 = { Pail.reset with epoch := e }) ∧
    (s 15).regN (Reg.CORE_TALLY_FREEZE_LIMIT 0) ≠ 0 := by decide +kernel

/-! Rings and windows. -/

/-- Ring `r` with a base, entries of 2^`e` bytes, 2^`n` slots, a kind, head and tail. -/
def withRing (s : State) (r base e n kind head tail : Nat) : State :=
  let s := withReg (withReg s (ringReg r 0) base) (ringReg r 1) (base / 2 ^ 32)
  withReg (withReg (withReg s (ringReg r 2) (e + 16 * n + 512 * kind)) (ringReg r 3) head) (ringReg r 4) tail

/-- A CORE ring of core 0 in its Scratchpad at 0x1000, one entry of 8 bytes in two slots, the counters about to wrap. -/
def coreRing (s : State) (tail : Nat) : State := withRing s 5 0xF00000001000 3 1 1 0xFFFFFFFF tail

theorem witness_RingCountersRunModulo2To32 :
    let s := coreRing (atOwn (.nop 0 p0 ⟨0, 0⟩) [] 0x55555555) 0
    s.ringUsed 5 = 1 ∧ s.ringKind 5 = ringKindOf 5 ∧ s.ringIsFull 5 = false ∧ s.slotFault (s.ringSlot 5 (s.ringTail 5)) (s.ringEntry 5) = none ∧
    (s.ringMemWrite 0 (s.ringSlot 5 (s.ringTail 5)) (leBytes 7 8)).2 = none ∧ 1 ≤ 2 ^ s.ringCountLog 5 := by decide +kernel

theorem witness_PushUpdateAndPopMoveOneEntry :
    let push : Instr := .push 0 p0 ⟨0, 2, 3, 0, 9, 0, 0⟩
    let pop : Instr := .pop 0 p0 ⟨0, 2, 3, 0, 0, 0, 0⟩
    let upd : Instr := .update 0 p0 ⟨0, 2, 3, 0, 9, 0, 0⟩
    let s := coreRing (atOwn push [(2, 5), (3, spad 8)] 0x55555555) 0xFFFFFFFF
    let svc := withRing (atOwn push [(2, 25792), (3, spad 16)] 0x55555555) 25792 0xF00000001000 4 1 6 0 0
    let ch := withRing (atOwn upd [(2, 25600), (3, spad 64)] 0x55555555) 25600 0xF00000001000 6 1 5 0 0
    let some_ := coreRing (atOwn pop [(2, 5), (3, spad 8)] 0x55555555) 0
    let empty_ := coreRing (atOwn pop [(2, 5), (3, spad 8)] 0x55555555) 0xFFFFFFFF
    (s.passes push = true ∧ entryPlace 0 (spad 8).toNat (s.ringEntry 5) = .ok 8 ∧ (s.spadReadN 0 .clerk 8 8 2).2 = .done (leBytes 0 8) ∧
      s.ringIsFull 5 = false ∧ (s.ringPost 0 5 1 (leBytes 0 8)).2 = .slot 0xFFFFFFFF) ∧
    (svc.passes push = true ∧ svc.ringKind 25792 = 6 ∧ (svc.ringPost 0 25792 6 (leBytes 0 16)).2 = .slot 0) ∧
    (ch.passes upd = true ∧ ch.ringKind 25600 = 5 ∧ ringAbsent ch.variant 25600 = false ∧
      (ch.ringPost 0 25600 5 (leBytes 0 64)).2 = .slot 0) ∧
    (empty_.passes pop = true ∧ empty_.ringEmpty 5 = true) ∧
    (some_.passes pop = true ∧ some_.ringEmpty 5 = false ∧ (some_.ringTake 0 5).2 = .ok (leBytes 0 8) ∧
      ((some_.ringTake 0 5).1.spadWriteN 0 .clerk 8 (leBytes 0 8) 2).2 = .done []) ∧
    s.ringSettled 5 = true ∧ svc.ringSettled 25792 = true ∧ ch.ringSettled 25600 = true ∧ some_.ringSettled 5 = true ∧
    (let w := some_.modCore 0 (fun k => { k with ownerReq := some 0 })
     w.passes pop = true ∧ w.ringSettled 5 = false) ∧
    (let span : State := { atG pop [(2, 17408)] with variant := .m2304u }
     span.passes pop = true ∧ ringAbsent span.variant 17408 = true) := by decide +kernel

/-- A window record of a window of 64 bytes at 0. -/
def winBytes : List Byte := leBytes 0 8 ++ leBytes 64 8 ++ leBytes 0 16

theorem witness_WindowsOpenAndClose :
    let o : Instr := .wopen 0 p0 ⟨0, 2, 3, 0, 9, 0, 0⟩
    let c : Instr := .wclose 0 p0 ⟨0, 2, 0, 0, 9, 0, 0⟩
    let base := inTask (atOwn o [(2, 4095), (3, spad 0)] 0x55555555)
    let s : State := base.modCore 0 (fun k => { k with mem := bytesSet 0 [] 0 winBytes })
    let u := withReg (atG c [(2, 4095)]) (Reg.SPAN_WIN 4095 + 20) 1
    (s.passes o = true ∧ (s.spadReadN 0 .clerk 0 32 3).2 = .done winBytes ∧
      (s.spadReadN 0 .clerk 0 32 3).1.winBad (WinRec.of winBytes) = false ∧ s.winOpen 4095 = false ∧
      (s.spadWriteN 0 .clerk 18 (leBytes 0 2) 3).2 = .done []) ∧
    (u.passes c = true ∧ u.winOpen 4095 = true ∧ u.winBusy 4095 = false) ∧
    (atG o [(2, 4096)]).passes o = true ∧ (atG c [(2, 4096)]).passes c = true ∧
    (let v : State := { s with variant := .m1152u }
     v.passes o = true ∧ spanPresent v.variant = false) := by decide +kernel

/-! The Sequencer, completions, banks, epochs and transfers. -/

/-- A running core whose queue holds one operation. -/
def coreSeq (o : SeqOp) : Core := { coreAt (.nop 0 p0 ⟨0, 0⟩) with seq := [o], nextOp := 1 }

/-- A TCLEAR of every tile, and a TMUL whose descriptors hold nothing. -/
def clearOp : SeqOp := Core.reset.seqEntry (.tclear 255) 0 0 [] [] []
def badOp : SeqOp := Core.reset.seqEntry (.tmul ⟨1, 2, 4, 0, 0, 0, 0, 0, 0, 0, 0⟩) 0 0 [1, 2] [4, 5] []

theorem witness_PlanningPlansTheFirstUnplanned :
    let s := st0 (coreSeq clearOp)
    let u := st0 (coreSeq badOp)
    (s.core 0).toPlan = some clearOp ∧ s.plan 0 clearOp = some (Planned.of [plainPart 0]) ∧
    (u.core 0).toPlan = some badOp ∧ ((u.plan 0 badOp).bind (·.fault)).map (·.seq) = some 0 := by decide +kernel

/-- A slip of a kind that names pail 63. -/
def slipK (k : Nat) : Slip := { (default : Slip) with kind := k, pail := 63 }
/-- A begun part with a slip of that kind and an IDLE one after it. -/
def partK (k : Nat) : Part := { plainPart 0 with slips := [slipK k, slipK 0] }
/-- A TSTORE whose part stands at that slip. -/
def storeOp (k : Nat) : SeqOp :=
  { Core.reset.seqEntry (.tstore ⟨0, 1, 0, 4, 5, 0, 0, 0⟩) 0 0 [1] [4, 5] [] with started := true, begun := true, plan := some ⟨[partK k]⟩ }
/-- Pail 63 valid, with the Sequencer as its producer. -/
def withPail (s : State) : State := withReg s (Reg.SPAD_PAIL_CFG 0 63) (2 ^ 19)

theorem witness_SlipsIssueAndFreeze :
    (∀ k ∈ [0, 4], slipStands (withPail (st0 (coreSeq (storeOp k)))) 0 (storeOp k) [] ⟨[partK k]⟩ (partK k) []) ∧
    (let s := withPail (st0 (coreSeq (storeOp 4)))
     (s.core 0).freeze = none ∧ (s.pailCfg 0 63).valid = true ∧ (s.pailCfg 0 63).producer = 0 ∧
       ((s.core 0).pail 63).writable 0 = true) ∧
    (let s := withPail (st0 { coreSeq (storeOp 4) with pails := [(63, { Pail.reset with st := .full })] })
     ((s.core 0).pail 63).writable 0 = false) ∧
    (let o : SeqOp := { clearOp with plan := some ⟨[plainPart 0]⟩ }
     let s := st0 (coreSeq o)
     (s.core 0).seq = [o] ∧ (∀ l, l < 8 → bitOf 255 l = true → ((s.core 0).tile l).st ≠ .shadow) ∧ (s.core 0).adds = []) := by
  unfold slipStands
  decide +kernel

/-- A descriptor of the core's own Scratchpad at `o`, of two dimensions of `e0` and `e1` elements, of a layout, stored format and group code,
with its records `w` units of 8 bytes behind. -/
def dims (o layout fmt gsize w e0 e1 : Nat) : BitVec 512 :=
  BitVec.ofNat 512 (0xF00000000000 + o + 2 ^ 64 + fmt * 2 ^ 65 + fmt * 2 ^ 69 + layout * 2 ^ 73 + gsize * 2 ^ 76 + 2 ^ 82 + 0x3F80 * 2 ^ 96 +
    w * 2 ^ 112 + e0 * 2 ^ 192 + e1 * 2 ^ 256)

/-- A TMUL of 32 elements of two channels and one token, with records of scale 1, in its core. -/
def mulF : FmtX := ⟨1, 2, 4, 0, 0, 0, 0, 0, 0, 0, 0⟩
def mulCore : Core :=
  let w := dims 0 1 3 0 0x200 32 2
  let a := dims 0x2000 0 3 0 0x200 32 1
  let rec_ (d : BitVec 512) (r : Nat) : List Byte := leBytes (Whey.toNat ⟨0x7F00, 0, 0, 3, (Desc.of d).tagOf r 0⟩) 8
  let m := bytesSet 0 (bytesSet 0 (bytesSet 0 [] 0x1000 (rec_ w 0 ++ rec_ w 1)) 0x3000 (rec_ a 0)) 0x200 (leBytes 5 8)
  { coreAt (.nop 0 p0 ⟨0, 0⟩) with mem := bytesSet 0 m 0x2000 (leBytes 7 8), d := [(1, w), (2, a)], owner := 0 }
/-- The operation at a part with those slips. -/
def mulOp (part : Part) : SeqOp :=
  { mulCore.seqEntry (.tmul mulF) 0 0 [1, 2] [4, 5] [] with started := true, begun := true, plan := some ⟨[part]⟩ }
/-- A state whose core is at it, with pail 63 of 4 rows FULL, which the Sequencer consumes. -/
def mulSt (part : Part) : State :=
  let k : Core := { mulCore with seq := [mulOp part], nextOp := 1, pails := [(63, { Pail.reset with st := .full })] }
  withReg (withReg (inTask (st0 k)) Reg.SPAD_POOL_CTL 0) (Reg.SPAD_PAIL_CFG 0 63) (2 ^ 19 + 3)

/-- A READ slip that is the last of its pail and one that is not. -/
theorem witness_SlipsIssueAndFreeze_read : ∀ last ∈ [true, false],
    let sl : Slip := { slipK 1 with rows := 2, last := last }
    let part : Part := { plainPart 0 with slips := [sl, slipK 0] }
    let s := mulSt part
    let k := s.core 0
    k.freeze = none ∧ slipStands s 0 (mulOp part) [] ⟨[part]⟩ part [] ∧ (s.pailCfg 0 63).valid = true ∧ (s.pailCfg 0 63).consumer = 0 ∧
    (k.pail 63).readable (k.pailEpoch 0) = true ∧ (k.pail 63).err = false ∧ (s.dp 0 (mulOp part)).slipWords sl ≠ [] ∧
    (∀ a ∈ (s.dp 0 (mulOp part)).slipWords sl, (k.bank (bankOf a)).usable = true ∧ k.parityBad a 64 = false) := by
  unfold slipStands
  decide +kernel

/-- The first PAIR slip of a chunk, and a second one. -/
theorem witness_SlipsIssueAndFreeze_pair : ∀ n ∈ [0, 1],
    let part : Part := { plainPart 0 with slips := [slipK 2, slipK 0], pairs := 2, uses := [⟨[0], [0], [(0, Reg.CORE_STRAIN_RAW_LO 0, 1)]⟩] }
    let o : SeqOp := { mulOp part with checked := n }
    let s := (mulSt part).modCore 0 (fun k => { k with seq := [o] })
    let w := s.work 0 o 0
    slipStands s 0 o [] ⟨[part]⟩ part [] ∧ o.chunkStart w.planePairs = decide (n = 0) ∧
    (match (w.consume (s.dp 0 o) (if n = 0 then part.uses.headD default else default)).run [] with
      | .ok _ => true
      | .error _ => false) = true := by
  unfold slipStands
  decide +kernel

/-- A slip that ends the one group: channel 0 emits a term, and channel 1 none. -/
theorem witness_SlipsIssueAndFreeze_group : ∀ kind ∈ [3, 5],
    let part : Part := { plainPart 0 with slips := [slipK kind, slipK 0] }
    let o := mulOp part
    let s := mulSt part
    let p := s.tmulProduct 0 o mulF
    slipStands s 0 o [] ⟨[part]⟩ part [] ∧ o.group < p.groups ∧ (s.core 0).classHead.1 ≠ 2 ∧ (s.core 0).classHead.2 = 0 ∧
    (match (p.readGroup (s.dp 0 o) 0).run [] with
      | .ok z => decide (z.1.map (fun r => (r.a, r.lanes.map (fun l =>
          (p.term l.w l.a (laneSums l.w.vals l.a.vals) (laneSums l.w.vals l.a.vals).p).isSome))) = [(0, [true, false])])
      | .error _ => false) = true := by
  unfold slipStands
  decide +kernel

theorem witness_SlipsIssueAndFreeze_freeze :
    let s (p : Tab Pail) (limit : Nat) := withReg (withPail (st0 { coreSeq (storeOp 4) with freeze := some ⟨63⟩, pails := p }))
      (Reg.CORE_TALLY_FREEZE_LIMIT 0) limit
    let full : Tab Pail := [(63, { Pail.reset with st := .full })]
    (((s [] 0).core 0).freeze = some ⟨63⟩ ∧ (((s [] 0).core 0).pail 63).writable 0 = true ∧
      (s [] 0).regN (Reg.CORE_TALLY_FREEZE_LIMIT 0) = 0) ∧
    ((s [] 8).regN (Reg.CORE_TALLY_FREEZE_LIMIT 0) = 8) ∧
    ((((s full 8).core 0).pail 63).writable 0 = false ∧ (s full 8).regN (Reg.CORE_TALLY_FREEZE_LIMIT 0) ≠ 0) := by decide +kernel

/-- An ended operation with a value, one with a status that a register takes, and two that stop the core. -/
theorem witness_OperationsCompleteAndTheClerkGoesOn :
    let op (gd gs : Nat) (named : Bool) (cls : OpClass) (st : Nat) (v : Option Dword) : Op × OpResult :=
      (⟨7, 0, cls, gd, gs, named, some ⟨st, v, Stop.of st⟩⟩, ⟨st, v, Stop.of st⟩)
    let s (o : Op) := st0 { coreAt (.nop 0 p0 ⟨0, 0⟩) with ops := [o], nextOp := 8 }
    (∀ e ∈ [op 31 9 true .sync 0 (some 5), op 0 9 true .dma 0x2804 none, op 0 0 false .tensor 0x2804 none,
        op 0 9 true .dma 0x2604 none], ((s e.1).core 0).ended? 7 = some e ∧ (s e.1).hubOps = []) ∧
    takeable .dma 0x4001 = true ∧ takeable .dma 0x2604 = false ∧
    (∀ e ∈ [op 0 9 true .sync 0x2601 none, op 0 9 true .sync 0x2608 none, op 5 9 true .sync 0x3203 (some 7), op 0 0 false .sync 0x3203 none],
      ((s e.1).core 0).ended? 7 = some e) ∧
    takeable .sync 0x2601 = true ∧ takeable .sync 0x2608 = true ∧ (s (op 0 9 true .sync 0x2601 none).1).field (Reg.SPAD_FAULT 0) 0 8 = 0 ∧
    (withReg State.reset (Reg.SPAD_FAULT 0) 5).field (Reg.SPAD_FAULT 0) 0 8 ≠ 0 ∧
    (let i : Instr := .pwait 0 p0 ⟨0, 63⟩
     let j : Instr := .add 0 p0 ⟨1, 2, 3, 0⟩
     (∀ x ∈ [i, j], let w := st0 { coreAt x with waiting := some x }
       (w.setCore 0 { w.core 0 with waiting := none }).passes x = true) ∧
     pwaitHolds (bits 63 6 2) Pail.reset = true) := by decide +kernel

theorem witness_SignalsAndClosedStreamsAct :
    let s (st : PailSt) (cfg : Nat) := withReg (st0 { coreAt (.nop 0 p0 ⟨0, 0⟩) with
      psigs := [(63, 5)], pails := [(63, { Pail.reset with st := st })] }) (Reg.SPAD_PAIL_CFG 0 63) cfg
    (∀ st ∈ [PailSt.empty, .filling, .full, .draining], ∀ role ∈ [1, 3], ((s st (2 ^ 19 + role * 2 ^ 15 + role * 2 ^ 17)).core 0).psigs =
      [(63, 5)] ∧ ((s st (2 ^ 19 + role * 2 ^ 15 + role * 2 ^ 17)).pailCfg 0 63) = ⟨0, 1, role, role, true⟩) ∧
    ((s .empty 0).pailCfg 0 63).valid = false ∧ ((s .empty (2 ^ 19)).pailCfg 0 63).producer = 0 ∧
    (let k : Core := { coreSeq clearOp with scloses := [(3, 5)] }
     (k.scloses = [(3, 5)] ∧ ∃ o ∈ k.seq, o.id ≤ 5) ∧ ∀ o ∈ ({ k with seq := [] } : Core).seq, 5 < o.id) := by decide +kernel

/-- The states of a bank, with and without an access under way. -/
theorem witness_BanksChangePowerAndOwner :
    let x : Xfer := { (default : Xfer) with started := true }
    let k : Core := { Core.reset with
      banks := [(0, ⟨.on, some .off, none, none⟩), (14, ⟨.on, none, some .off, none⟩), (15, ⟨.off, none, some .on, some .retain⟩)]
      ownerReq := some 0 }
    ((k.bank 0).closing = some .off ∧ k.writesInFlight = false) ∧ ({ k with dma := [x] } : Core).writesInFlight = true ∧
    State.reset.hubOps = [] ∧ (k.bank 14).moving = some .off ∧ ((k.bank 15).moving = some .on ∧ (k.bank 15).next = some .retain) ∧ k.ownerReq = some 0 := by
  decide +kernel

theorem witness_EpochsCommitOrVanish : ∀ e ∈ ([.endingVerify, .endingSquash] : List EpochSt),
    let k : Core := { coreSeq clearOp with
      epochs := [(15, e)], tiles := [(7, { Tile.reset with st := .shadow, epoch := 15 })], pails := [(63, { Pail.reset with epoch := 15 })] }
    k.epoch 15 = e ∧ (∀ o ∈ k.seq, o.epoch ≠ 15) ∧ (∀ x ∈ k.dma, x.epoch ≠ 15) ∧ (k.tile 7).st = .shadow ∧ (k.tile 7).epoch = 15 := by
  decide +kernel

/-- A state whose core 0 has that one transfer, of the DMA port's banks. -/
def movesSt (x : Xfer) (mem : Tab Byte) : State :=
  withReg (inTask (st0 { coreAt (.nop 0 p0 ⟨0, 0⟩) with dma := [x], owner := 0xAAAAAAAA, mem := mem })) Reg.SPAD_POOL_CTL 0

/-- A FILL of three words that end below 0x60000, a COPY of four onto a place that overlaps them, moved transfers with and without a status,
and one that waits. -/
theorem witness_TransfersMoveAndComplete :
    let base := 0xF00000000000
    let x : Xfer := { Core.reset.blankXfer .fill 0 with dstAddr := base + 0x5FFE8, org := 9, len := 24 }
    let z : Xfer := { Core.reset.blankXfer .copy 0 with srcAddr := base, dstAddr := base + 8, len := 32 }
    let y (st : Nat) : Xfer := { x with started := true, moved := true, dstPail := some 63, status := st, stop := Stop.of st }
    let t (z : Xfer) := st0 { coreAt (.nop 0 p0 ⟨0, 0⟩) with dma := [z] }
    (onlyTransfer (movesSt x []) 0 x ∧ x.len % 8 = 0 ∧ ∀ n, n < x.len → dmaReaches ((movesSt x []).core 0) (0x5FFE8 + n)) ∧
    (onlyTransfer (movesSt z []) 0 z ∧ z.len % 8 = 0 ∧ (∀ n, n < z.len → dmaReaches ((movesSt z []).core 0) (8 + n)) ∧
      ∀ n, n < z.len → dmaReaches ((movesSt z []).core 0) n ∧ n ∉ ((movesSt z []).core 0).badParity) ∧
    (∀ z ∈ [y 0, y 0x2804], (t z).xfer 0 z.id = some z ∧ z.spanWait = [] ∧ z.addWait = 0 ∧ z.nest = false) ∧
    ((t x).xfer 0 x.id = some x ∧ x.started = false) := by
  unfold onlyTransfer dmaReaches
  decide +kernel

/-! What the statement about transfers asks, decided. -/

def decReach (s : State) (c : CoreId) (d : Desc) (a n : Nat) : Decidable (ownReach s c d a n) := by
  unfold ownReach dmaReaches; infer_instance
def decGood (s : State) (c : CoreId) (d : Desc) (a n : Nat) : Decidable (ownGood s c d a n) := by
  letI := decReach s c d a n; unfold ownGood; infer_instance
def decStarts (s : State) (c : CoreId) (x : Xfer) : Decidable (tensorStarts s c x) := by
  letI := decGood s c; unfold tensorStarts onlyTransfer; infer_instance

/-- A ROW descriptor of binary32 at `o`, of `e0` by `e1` elements of which `p0` and `p1` stand before its shard. -/
def rows (o e0 e1 q0 q1 : Nat) (diag : Bool) : BitVec 512 :=
  BitVec.ofNat 512 (0xF00000000000 + o + 2 ^ 64 + 2 * 2 ^ 73 + 2 ^ 82 + (if diag then 2 ^ 86 else 0) + 0x3F80 * 2 ^ 96 + e0 * 2 ^ 192 +
    q0 * 2 ^ 216 + e1 * 2 ^ 256 + q1 * 2 ^ 280)

/-- A transfer of a kind between two descriptors, its list, if it has one, at 0x2000. -/
def tensorX (kind : XferKind) (side : Bool) (S D : BitVec 512) (org cnt : Nat) (form : Bool) : Xfer :=
  { Core.reset.blankXfer kind 0 with
    side := side
    src := ⟨1, S, 0⟩
    dst := ⟨2, D, 0⟩
    list := ⟨3, BitVec.ofNat 512 (0xF00000002000 + 2 ^ 64 + 5 * 2 ^ 73 + 64 * 2 ^ 192), 0⟩
    org := BitVec.ofNat 64 org
    cnt := BitVec.ofNat 64 cnt
    form := form }

/-- A list of three rows, the first sampled, and a list of two blocks. -/
def rowList : Tab Byte := bytesSet 0 [] 0x2000 (leBytes (1 + 2 ^ 31) 4 ++ leBytes 0 4 ++ leBytes 7 4)
def tileList : Tab Byte := bytesSet 0 [] 0x2000 (leBytes 1 8 ++ leBytes 0 8)

/-- A MOVE whose box leaves both shards, an XPOSE of a diagonal source, a PERMUTE, and a GATHER and a SCATTER of listed rows. -/
theorem witness_TensorTransfersMoveTheirElements_rows : ∀ e ∈ ([
      (tensorX .move false (rows 0 5 3 2 1 false) (rows 0x1000 4 4 1 1 false) (1 + 2 ^ 24) 0 false, []),
      (tensorX .xpose false (rows 0 5 3 2 1 true) (rows 0x1000 4 4 1 1 false) (1 + 2 ^ 24) 0 false, []),
      (tensorX .permute false (rows 0 4 4 0 0 false) (rows 0x1000 4 4 0 0 true) 0 1 false, []),
      (tensorX .gather false (rows 0 5 3 0 0 false) (rows 0x1000 5 3 0 0 false) 0 3 true, rowList),
      (tensorX .scatter true (rows 0 5 3 0 0 false) (rows 0x1000 5 9 0 0 false) 0 3 true, rowList)] : List (Xfer × Tab Byte)),
    let x := e.1
    let s := movesSt x e.2
    let moves := (listedBoxes s 0 x).flatMap (fun b => (nested b.n).map (fun q => (posAdd b.sp (unpermute x.perm q), posAdd b.dp q)))
    tensorStarts s 0 x ∧ x.S.pit = false ∧ moves ≠ [] ∧
    (∀ m ∈ moves, x.S.inOwned m.1 = true → ownGood s 0 x.S (x.S.posAddr m.1) x.S.elem) ∧
    (∀ m ∈ moves.filter (fun m => x.D.inOwned m.2), ownReach s 0 x.D (x.D.posAddr m.2) x.D.elem) := by
  refine @of_decide_eq_true _ (by letI := decReach; letI := decGood; letI := decStarts; infer_instance) ?_
  decide +kernel

/-- A MOVE of one row of tiles, a GATHER of listed row blocks into a weight, and a SCATTER of a listed block. -/
theorem witness_TensorTransfersMoveTheirElements_tiles : ∀ e ∈ ([
      (tensorX .move false (dims 0 0 0 2 0x100 64 32) (dims 0x1000 0 0 2 0x100 64 16) (16 * 2 ^ 24) 0 false, []),
      (tensorX .gather false (dims 0 1 0 2 0x100 64 64) (dims 0x1000 1 0 2 0x100 64 64) 0 2 true, rowList),
      (tensorX .scatter false (dims 0 0 0 2 0x100 64 16) (dims 0x1000 0 0 2 0x100 64 16) 0 1 false, tileList)] : List (Xfer × Tab Byte)),
    let x := e.1
    let s := movesSt x e.2
    let S := x.S
    let D := x.D
    let rows := D.tileRows
    let jobs := (listedBoxes s 0 x).flatMap x.boxTiles
    let known (j : TileJob) : Bool := S.inOwned (S.jobPos j.snb j.skb j.sr j.so)
    let kept := jobs.filter (fun j => D.inOwned (D.jobPos j.dnb j.dkb j.dr j.do_))
    let from_ (j : TileJob) (p i : Nat) : Nat := S.tileAddr j.snb j.skb (S.lin (0 :: 0 :: j.so)) + rows * 8 * p + 8 * (j.sr + i)
    let to_ (j : TileJob) (p i : Nat) : Nat := D.tileAddr j.dnb j.dkb (D.lin (0 :: 0 :: j.do_)) + rows * 8 * p + 8 * (j.dr + i)
    let recFrom (j : TileJob) (i r : Nat) : Nat :=
      S.wheyAddr (rows * j.snb + j.sr + i) (S.group (64 * j.skb) + r) (S.lin (0 :: 0 :: j.so))
    let recTo (j : TileJob) (i r : Nat) : Nat :=
      D.wheyAddr (rows * j.dnb + j.dr + i) (D.group (64 * j.dkb) + r) (D.lin (0 :: 0 :: j.do_))
    let curd := kept.flatMap (fun j => (List.range D.keptPlanes).flatMap (fun p => (List.range j.h).flatMap (fun i =>
      (List.range 8).map (fun n => ownPlain s 0 D (to_ j p i + n)))))
    let whey := kept.flatMap (fun j => (List.range j.h).flatMap (fun i => (List.range (64 / D.g)).flatMap (fun r =>
      (List.range 8).map (fun n => ownPlain s 0 D (recTo j i r + n)))))
    tensorStarts s 0 x ∧ S.pit = true ∧ S.dense = true ∧ S.across = false ∧ D.across = false ∧ D.g ≤ 64 ∧ kept ≠ [] ∧
    (∀ j ∈ jobs, j.sr + j.h ≤ rows ∧ j.dr + j.h ≤ rows) ∧
    (∀ j ∈ kept, ∀ i, i < j.h → ∀ e, e < 64 → x.dst.shape.inside ((64 * j.dkb + e) :: (rows * j.dnb + j.dr + i) :: j.do_) = true) ∧
    (∀ j ∈ kept, known j = true → ∀ i, i < j.h →
      (∀ p, p < S.keptPlanes → ownGood s 0 S (from_ j p i) 8) ∧ (∀ r, r < 64 / D.g → ownGood s 0 S (recFrom j i r) 8)) ∧
    (∀ j ∈ kept, ∀ i, i < j.h →
      (∀ p, p < D.keptPlanes → ownReach s 0 D (to_ j p i) 8) ∧ (∀ r, r < 64 / D.g → ownReach s 0 D (recTo j i r) 8)) ∧
    (∀ a ∈ curd, a < 0x1800) ∧ (∀ a ∈ whey, 0x1800 ≤ a) := by
  refine @of_decide_eq_true _ (by letI := decReach; letI := decGood; letI := decStarts; infer_instance) ?_
  decide +kernel

theorem witness_P64AddsReachTheirTile :
    let s (st : TileSt) (tag : Bool) := st0 { Core.reset with
      adds := [⟨.host, 7, 4095, 0x3F8000003F800000⟩], tiles := [(7, { Tile.reset with st := st, tagged := tag })] }
    (∀ e ∈ [(TileSt.opened, false), (.clear, true), (.invalid, true), (.shadow, true)],
      ((s e.1 e.2).core 0).adds = ⟨.host, 7, 4095, 0x3F8000003F800000⟩ :: [] ∧ ((s e.1 e.2).core 0).tile 7 =
        { Tile.reset with st := e.1, tagged := e.2 }) ∧
    (((s .clear false).core 0).tile 7).tagged = false ∧ ((s .opened false).core 0).addHeld ⟨.host, 7, 4095, 0x3F8000003F800000⟩ = false ∧
    (s .opened false).span.served = [] ∧ (s .opened false).span.winWait = [] ∧ (s .opened false).sched.st ≠ .ending ∧
    ((s .opened false).core 0).dma = [] ∧
    (let k : Core := { coreSeq (storeOp 4) with adds := [⟨.host, 0, 0, 0⟩] }
     k.adds.head?.any k.addHeld = true) := by decide +kernel

/-- Two terms of 1 and −1 at point tag 0, and the greatest. -/
theorem witness_LedgerWordsAreExactSums :
    let t : Tile := { Tile.reset with st := .opened }
    t.st = .opened ∧ t.words = [] ∧ t.sat = false ∧ t.sub = false ∧
    (∀ e ∈ ([(0, 1, 0, false), (4095, -1, 0, false), (4095, 2 ^ 151 - 1, 0, false)] : List (Nat × Int × Int × Bool)),
      |e.2.1| < 2 ^ 151 ∧ e.2.2.1 = t.tag.pt.toInt) := by decide +kernel

theorem test_ledger_word_takes_a_term :
    let t : Tile := { Tile.reset with st := .opened, tagged := true }
    (t.addTerm 4095 (-3) 0 false).1.word 4095 = -3 ∧ (t.addTerm 0 3 1 false).1.word 0 = 6 := by decide +kernel

/-! Products and codes. -/

/-- A lane whose rows both hold two of three elements, whose weight's sum is counted, and one that holds a whole group of 32, whose record's
sum stands for it. -/
theorem witness_TermsAndCodesFollowTheirValues_terms :
    let p := (mulSt (plainPart 0)).tmulProduct 0 (mulOp (plainPart 0)) mulF
    let q : Product := { p with w := { p.w with d := Desc.of (dims 0 1 3 1 0x200 32 2) } }
    let r : Whey := ⟨0x7F00, 0x80, 96, 3, 0⟩
    let z : Whey := { r with scale := 0 }
    let short : List (Option Nat) := [some 3, none, some 15]
    let whole : List (Option Nat) := List.replicate 32 (some 3)
    p.gt = 128 ∧ p.w.d.g = 128 ∧ q.gt = q.w.d.g ∧ q.w.d.view = q.w.d.fmt ∧ q.gt = 32 ∧ (whole.filterMap id).sum = r.codeSum ∧
    (p.term ⟨short, some r⟩ ⟨short, some r⟩ (laneSums short short) (laneSums short short).p).isSome = true ∧
    (p.term ⟨short, some r⟩ ⟨short, some z⟩ (laneSums short short) (laneSums short short).p) = none ∧
    (q.term ⟨whole, some r⟩ ⟨whole, some r⟩ (laneSums whole whole) (laneSums whole whole).p).isSome = true := by decide +kernel

/-- Codes inside, above and below the range, with a draw and without; B1; a zero scale. -/
theorem witness_TermsAndCodesFollowTheirValues_codes :
    u16Exp (0 : Half) = 0 ∧ u16Exp (0x7F00 : Half) ≠ 0 ∧ codeOf 3 0x7F00 0 none (13 / 4) = (3, false) ∧
    codeOf 3 0x7F00 0 (some 0) (13 / 4) = (4, false) ∧ (codeOf 3 0x7F00 0 none 16).2 = true ∧ (codeOf 3 0x7F00 0 none (-2)).2 = true ∧
    (codeOf 0 0x7F00 0 none (-1)).1 = 0 ∧ (codeOf 0 0x7F00 0 none 0).1 = 1 := by decide +kernel

theorem witness_TermsAndCodesFollowTheirValues_scales :
    fmtStored 3 = true ∧ fmtStored 0 = true ∧ (dynamicScale 3 (-1) 2 0).1 ≠ 0xFEFF ∧ u16Exp (dynamicScale 3 (-1) 2 0).1 ≠ 0 ∧
    dynamicScale 3 0 0 0 = (0, 0) := by decide +kernel

/-- A DYNAMIC store into Q4 weights of groups of 32, in tiles of 64 rows. -/
def dynStore : StoreOp := storeAt (2 ^ 8) 0 ⟨1, dims 0 1 3 1 0x200 64 64, 0⟩ ⟨0, 0, 0⟩ ⟨0, 0, 0, 0⟩ [] []

theorem witness_TermsAndCodesFollowTheirValues_stores :
    let g : Made := { (default : Made) with row := 5, grp := 1, codes := List.replicate 32 7, scale := 0x7F00 }
    let ts : List MadeTile := [⟨0, 0, List.replicate 64 ⟨List.replicate 64 7, allHeld, 0⟩, false⟩]
    let made := dynStore.makeGroup none 0 0 [some (-1), some 2, some 0]
    let zero := dynStore.makeGroup none 0 0 [some 0, some 0]
    dynStore.w.dynamic = true ∧ fmtStored dynStore.D.fmt = true ∧ dynStore.D.fmt ≠ 0 ∧ made.scale ≠ 0xFEFF ∧ u16Exp made.scale ≠ 0 ∧
    u16Exp zero.scale = 0 ∧ zero.scale ≠ 0xFEFF ∧
    (dynStore.D.bcl = false ∧ dynStore.D.fmt < 16 ∧ g.codes.sum < 2 ^ 22 ∧
      ∀ i, i < g.codes.length → ∃ w ∈ ts.find? (fun w => w.nb == g.row / dynStore.D.tileRows &&
        w.kb == ((dynStore.D.groupSpan g.grp).1 + i) / 64), (w.rows.getD (g.row % dynStore.D.tileRows) default).held = allHeld) ∧
    (dynStore.D.dense = true ∧ ∀ x ∈ ts, x.rows.length = dynStore.D.tileRows ∧
      ∀ r ∈ x.rows, r.codes.length = 64 ∧ ∀ c ∈ r.codes, c < 2 ^ dynStore.D.planes) := by decide +kernel

/-! SINT and ingest. -/

/-- A MATCH, MERGE or SELECT of the keys 1, 5, 9 and 0, 5, 7, 9 in its core, into a destination of `n` elements of a layout, under FAULT where
`cap` holds. -/
def sintSt (fn n layout : Nat) (cap : Bool) : State × SeqOp :=
  let row (o n layout : Nat) (cap : Bool) : BitVec 512 :=
    BitVec.ofNat 512 (0xF00000000000 + o + 2 ^ 64 + layout * 2 ^ 73 + (if cap then 2 ^ 85 else 0) + n * 2 ^ 192)
  let mem := bytesSet 0 (bytesSet 0 [] 0 ([1, 5, 9].flatMap (leBytes · 4))) 0x400 ([0, 5, 7, 9].flatMap (leBytes · 4))
  let k : Core := { coreAt (.nop 0 p0 ⟨0, 0⟩) with
    mem := mem
    d := [(1, row 0 3 2 false), (2, row 0x400 4 2 false), (3, row 0x800 n layout cap)]
    owner := 0 }
  let o : SeqOp := { k.seqEntry (.sint fn ⟨3, 2, 1, 6, 0, 0, 0, 0, 0⟩) 0 0 [1, 2, 3] [] [] with plan := some ⟨[plainPart 0]⟩ }
  (withReg (inTask (st0 { k with seq := [o] })) Reg.SPAD_POOL_CTL 0, o)

/-- Outputs that fit, that do not fit and are counted, and that stop the core. -/
theorem witness_SintAndIngestFollowTheirRules_outputs : ∀ e ∈ ([(0, 8, 4, false, 2, 0), (0, 1, 4, false, 2, 1), (0, 1, 4, true, 2, 1),
      (1, 2, 2, false, 5, 3), (1, 2, 2, true, 5, 3), (3, 8, 2, false, 1, 0)] : List (Nat × Nat × Nat × Bool × Nat × Nat)),
    let s := (sintSt e.1 e.2.1 e.2.2.1 e.2.2.2.1).1
    let o := (sintSt e.1 e.2.1 e.2.2.1 e.2.2.2.1).2
    let k := s.core 0
    let x := s.dp 0 o
    let d := o.descs.getLastD ⟨0, 0, 0⟩
    (k.running = true ∧ k.stopped = false ∧ k.ownerReq = none ∧ k.freeze = none ∧ k.seq = [o] ∧ o.plan = some ⟨[plainPart 0]⟩ ∧
      o.writes = [] ∧ s.sched.st = .running ∧ s.sched.failing = false ∧ (Desc.of d.bits).cap = e.2.2.2.1) ∧
    (match (x.sint e.1 o.descs).run [] with
      | .ok z => z.1.list.length == e.2.2.2.2.1 && z.1.list.length - (Desc.of d.bits).owned 0 == e.2.2.2.2.2 && (match x.outputs d z.1.list with
        | .ok out => (match x.checkOut out with
          | .ok _ => true
          | .error _ => false)
        | .error _ => false)
      | .error _ => false) = true := by decide +kernel

theorem witness_SintAndIngestFollowTheirRules_keys :
    rising [1, 5, 9] = true ∧ rising [0, 5, 7, 9] = true ∧ matchKeys [1, 5, 9] [0, 5, 7, 9] = [leBytes 1 4 ++ leBytes 1 4, leBytes 2 4 ++ leBytes 3 4] ∧
    mergeKeys 8 [1, 5, 9] [0, 5, 7, 9] = [0, 1, 5, 7, 9] := by decide +kernel

/-- Every mode of a SELECT; a score above, at and below the threshold, an infinity and a NaN. -/
theorem witness_SintAndIngestFollowTheirRules_select :
    (∀ mode ∈ [0, 1, 2], mode < 3) ∧ ([true, false, false] : List Bool).length ≤ 2 ^ 31 ∧
    (selectBlocks 2 1 (fun k => if k = 1 then 0 else 2 ^ 24 - 1) [true, false, false]).entries = [0, 1 + 2 ^ 31] ∧
    (∀ e ∈ [((0x40000000 : Word), 2), (0x3F800000, 1), (0x80000000, 0)], f32Val e.1 = .fin e.2) ∧
    f32Val (0x7F800000 : Word) = .inf false ∧ f32Val (0xFF800000 : Word) = .inf true ∧ f32Val (0x7FC00000 : Word) = .nan := by decide +kernel

/-- A TINGEST of two elements, 1.0 and 2.5, into an OPEN tile and into a CLEAR one. -/
theorem witness_SintAndIngestFollowTheirRules_ingest : ∀ st ∈ [TileSt.opened, TileSt.clear],
    let f : FmtS := ⟨7, 1, 0, 0, 4, 0, 0, 0⟩
    let k : Core := { coreAt (.nop 0 p0 ⟨0, 0⟩) with
      mem := bytesSet 0 [] 0 (leBytes (0x3F800000 + 0x40200000 * 2 ^ 32) 8)
      d := [(1, BitVec.ofNat 512 (0xF00000000000 + 2 ^ 64 + 2 * 2 ^ 73 + 2 * 2 ^ 192))]
      owner := 0
      tiles := [(7, { Tile.reset with st := st })] }
    let o : SeqOp := { k.seqEntry (.tingest f) 0 0 [1] [4] [] with prec := some default, plan := some ⟨[plainPart 0]⟩ }
    let s := withReg (inTask (st0 { k with seq := [o] })) Reg.SPAD_POOL_CTL 0
    (s.core 0).seq = [o] ∧ o.kind = .tingest f ∧ o.writes = [] ∧ o.prec ≠ none ∧ ((s.core 0).tile 7).st = st ∧
    (match (o.ingestRead (s.dp 0 o)).run [] with
      | .ok z => z.1 == [(0, 0x3F800000), (16, 0x40200000)]
      | .error _ => false) = true := by decide +kernel

/-! Tasks and host rings. -/

/-- HOST_SUB ring 16384 of port A, with room for 2^20 entries of 64 bytes, and its HOST_CPL ring, with an entry of those
bytes at head; port A ready. -/
def withSub (s : State) (bytes : List Byte) : State :=
  let s := withRing (withRing s 16384 0x100000 6 20 2 0xFFFFFFFF 0) 16896 0 5 1 3 0 0
  withReg ((s.hostWrite 0 (s.ringSlot 16384 0xFFFFFFFF) bytes)) (Reg.HOST_STATUS 0) 1

/-- A task of one core whose program is one word: header, region, core entry and program, as the manual lays them out
(R206–R208). -/
def taskBytes : List Byte :=
  leBytes 1 4 ++ leBytes 1 4 ++ leBytes 128 8 ++ leBytes 192 8 ++ leBytes 1 8 ++ leBytes 5 16 ++ leBytes 77 8 ++ leBytes 0 72 ++
  leBytes 0xF00000000000 8 ++ leBytes 0x60000 8 ++ leBytes 0x0D 16 ++ leBytes 0 32 ++
  leBytes 256 8 ++ leBytes 1 56 ++ leBytes 0x0100000000000000 32

/-- Every controller ENABLED, loaded firmware, FIELD, and the task's bytes at address 0. -/
def withTask (s : State) : State :=
  let s := (List.range 192).foldl (fun s m => withReg s (Reg.PWR_QSTATE (52 + m)) 1) s
  let s : State := { s with power := { s.power with loaded := true }, lc := { s.lc with state := .field } }
  (withReg s Reg.SPAD_POOL_CTL 0).lpddrWrite 0 taskBytes 0xFF |>.1

/-- The state in which the scheduler reads the task that the entry at the head of ring 16384 names. -/
def reading (s : State) (addr : Nat) : State :=
  let u := ((s.subTake 16384).setRegN Reg.CORE_SCHED_FAULT 0).setReg64 Reg.CORE_SCHED_HEADER_LO addr
  { u with sched := { u.sched with firstRec := 0 } }

/-- The task's entry, and one whose header is misplaced, beyond LPDDR. -/
theorem witness_TaskIsTakenLoadedOrRefused :
    let s := withSub (withTask State.reset) (leBytes 0 8 ++ leBytes 9 8 ++ leBytes 0 48)
    let b := withSub (withTask State.reset) (leBytes 0 8 ++ leBytes 9 8 ++ leBytes 0x7FFFFFFFFFC0 8 ++ leBytes 0 40)
    (s.taskRing = some 16384 ∧ s.taskBar = none ∧ (reading s 0).taskBar = none ∧
      (match (Ld.task 0 0).run ⟨reading s 0, 0⟩ with
        | .ok (t, _) => decide (t.h.mask = 1 ∧ t.cores.length = 1)
        | .error _ => false) = true) ∧
    (b.taskRing = some 16384 ∧
      (match (Ld.task 0x7FFFFFFFFFC0 0).run ⟨reading b 0x7FFFFFFFFFC0, 0⟩ with
        | .ok _ => false
        | .error (_, r) => decide (r = invalidTask 6)) = true) := by decide +kernel

/-- A task of core 63 that is being loaded, with its domain on and off; it runs; its last core has drained; it has failed. -/
theorem witness_TasksStartAndEnd :
    let q (st : SchedSt) : Sched := { Sched.reset with st := st, mask := 2 ^ 63, timeout := 1 }
    let s : State := { State.reset with sched := q .loading }
    let on := withReg s Reg.PWR_DOMAIN_STATE (2 ^ 15)
    let k : Core := { Core.reset with running := true, ending := true }
    let run : State := { State.reset with sched := q .running, cores := [(63, k)] }
    let two : State := { run with sched := { q .running with mask := 2 ^ 63 + 1 } }
    let fail : State := { run with sched := { q .ending with failing := true, primary := some ⟨0x3102, 0, 1⟩ } }
    (on.startReady = true ∧ on.taskCores = [63] ∧ s.startReady = false) ∧
    ((run.core 63).drained = true ∧ run.taskCores = [63] ∧ run.hosts.discardTask = false) ∧
    ((two.core 63).drained = true ∧ two.taskCores = [0, 63] ∧ (two.core 0).ended = false) ∧
    (run.sched.failing = false ∧ run.sched.timeout ≠ 0 ∧ run.dbQueue.length < 1024 ∧ run.field Reg.CORE_SCHED_FAULT 0 8 = 0) ∧
    (fail.failDrained = true ∧ fail.hosts.discardTask = false) ∧
    (fail.sched.st = .ending ∧ fail.sched.failing = true ∧ fail.sched.timeout ≠ 0 ∧ (q .ending).failing = false ∧ (q .ending).timeout ≠ 0) ∧
    (run.span.taskWins = [] ∧ run.span.served = [] ∧ fail.span.taskWins = [] ∧ fail.span.served = []) ∧
    (let wins : State := { run with span := { run.span with taskWins := [4095], served := [default] } }
     wins.span.served ≠ [] ∧ ∀ w ∈ wins.span.taskWins, w < 4096) ∧
    ({ fail with cores := [(63, { k with dma := [default] })] } : State).failDrained = false := by decide +kernel

/-- Values at both ends of what a ring allows, and one past each. -/
theorem witness_DoorbellsSetTailAndHead :
    let s := withRing (withRing State.reset 16384 0 6 1 2 0xFFFFFFFF 0) 16896 0 5 1 3 0 2
    let sub (a b : Nat) : Nat := (a + (2 ^ 32 - b)) % 2 ^ 32
    (s.ringKind 16384 ≠ 0 ∧ s.ringPort 16384 = hostNum .A ∧ ringKindOf 16384 = 2) ∧
    (∀ v ∈ [0, 1], sub v (s.ringHead 16384) ≤ 2 ^ s.ringCountLog 16384 ∧
      sub (s.ringTail 16384) (s.ringHead 16384) ≤ sub v (s.ringHead 16384)) ∧
    (∀ v ∈ [2, 0xFFFFFFFF], ¬ (sub v (s.ringHead 16384) ≤ 2 ^ s.ringCountLog 16384 ∧
      sub v (s.ringTail 16384) ≤ sub v (s.ringHead 16384))) ∧
    (s.ringKind 16896 ≠ 0 ∧ s.ringPort 16896 = hostNum .A ∧ ringKindOf 16896 = 3) ∧
    (∀ v ∈ [0, 2], sub (s.ringTail 16896) v ≤ sub (s.ringTail 16896) (s.ringHead 16896)) ∧
    (¬ sub (s.ringTail 16896) 3 ≤ sub (s.ringTail 16896) (s.ringHead 16896)) ∧
    State.reset.ringKind 17407 = 0 ∧ s.ringPort 16384 ≠ hostNum .B := by decide +kernel

/-- NOP, an entry with a reserved bit, and COPY entries inside and outside LPDDR. -/
theorem witness_SubmissionEntriesAreTaken :
    let nop := withSub State.reset (leBytes 3 8 ++ leBytes 9 56)
    let bad := withSub State.reset (leBytes 0x13 8 ++ leBytes 9 56)
    let copy (op loc : Nat) := withReg (withSub State.reset (leBytes op 4 ++ leBytes 64 4 ++ leBytes 9 8 ++ leBytes loc 8 ++ leBytes 0 40))
      Reg.SPAD_POOL_CTL 0
    let c : HostCopy := { (default : HostCopy) with entry := ⟨16384, 0, 9, 1, 0, 0, 64, 0⟩ }
    (nop.subReady 16384 = true ∧ subBad (nop.subRaw 16384) = false ∧ bits (nop.subRaw 16384) 0 4 = 3) ∧
    (bad.subReady 16384 = true ∧ subBad (bad.subRaw 16384) = true) ∧
    (∀ op ∈ [1, 2], (copy op 0).copyNext 16384 = true ∧ bits ((copy op 0).subRaw 16384) 0 4 = op ∧ (copy op 0).copyRangeOk 0 64 = true ∧
      (copy op 0x7FFFFFFFFFC0).copyNext 16384 = true ∧ (copy op 0x7FFFFFFFFFC0).copyRangeOk 0x7FFFFFFFFFC0 64 = false) ∧
    (let x : CplEntry := ⟨16896, leBytes 0 32, true⟩
     let w : State := { nop with hosts := { nop.hosts with cplWait := [x] } }
     ∃ x ∈ w.hosts.cplWait, x.full = true) ∧
    State.reset.copyNext 16384 = false ∧ [c].find? (fun c => c.entry.ring == 16384) = some c := by decide +kernel

/-- A COPY of two atoms whose controllers are enabled, which hold `d` and `e`. -/
def copySt (op : Nat) (d e : List Byte) : State :=
  let s := withReg (withSub State.reset (leBytes op 4 ++ leBytes 64 4 ++ leBytes 9 8 ++ leBytes 0 48)) Reg.SPAD_POOL_CTL 0
  let s := withReg (withReg s (Reg.PWR_QSTATE (52 + (s.memPlace 0).chan)) 1) (Reg.PWR_QSTATE (52 + (s.memPlace 32).chan)) 1
  { s with dram := putSymbols (putSymbols [] (s.atomKey 0) (rsEncode d 0)) (s.atomKey 1) (rsEncode e 1) }

theorem witness_SubmissionEntriesAreTaken_bytes : ∀ op ∈ [1, 2],
    let d (j : Nat) : List Byte := List.replicate 32 (BitVec.ofNat 8 (j + 5))
    let s := copySt op (d 0) (d 1)
    let e := s.subOf 16384 (s.subRaw 16384)
    bits (s.subRaw 16384) 0 4 = op ∧ s.copyNext 16384 = true ∧ e.len = 64 ∧ e.addr + e.len ≤ s.lpddrEnd ∧
    (∀ j, j < e.len / 32 → s.atomEnabled (e.addr / 32 + j) = true) ∧
    (∀ j, j < e.len / 32 → ∀ l, l < e.len / 32 → s.atomKey (e.addr / 32 + j) = s.atomKey (e.addr / 32 + l) → j = l) ∧
    (∀ j, j < e.len / 32 → tabFind s.dram (s.atomKey (e.addr / 32 + j)) ≠ none ∧
      rsDecode (s.atomStored (e.addr / 32 + j)).2 (e.addr / 32 + j) = .clean (d j)) := by decide +kernel

/-- The last vector, masked and not; a ring with room, and a full one. -/
theorem witness_CompletionsAndMessagesReachTheHost :
    let e : CplEntry := ⟨17407, leBytes 1 32, false⟩
    let ring (s : State) (tail : Nat) := withReg (withRing s 17407 0 5 1 3 0xFFFFFFFF tail) (Reg.HOST_STATUS 0) 1
    let s (tail : Nat) : State := { ring State.reset tail with hosts := { State.reset.hosts with
      cplWait := [e], msixWait := [(0, 2047)], cfgA := { PcieCfg.reset with msixEnable := true } } }
    let clear := (s 0).setBar4 0 (16 * 2047 + 12) 0
    ((s 0).hosts.cplWait.find? (fun e => e.ring == 17407) = some e ∧ (s 0).ringIsFull 17407 = false ∧ (s 0).portReady ((s 0).ringPort 17407) = true) ∧
    ((s 1).ringIsFull 17407 = true) ∧ (0, 2047) ∈ (s 0).hosts.msixWait ∧ ((s 0).cfg 0).msixEnable = true ∧
    (s 0).vectorMasked 0 2047 = true ∧ clear.vectorMasked 0 2047 = false ∧ (0, 2047) ∈ clear.hosts.msixWait ∧
    (State.reset.cfg 0).msixEnable = false := by decide +kernel

/-- A record written word by word: class and kind of an enabled one, any field of a disabled one, and words that are refused. -/
theorem witness_RingRecordsAreWrittenOrRefused :
    let s := withRing (withRing State.reset 16384 0x100000 6 20 2 0 0) 16896 0 5 1 3 0 0
    let w := (State.reset.ringWords 16384).mapIdx (fun i y => if i = 0 then 0x40 else y)
    let x := (State.reset.ringWords 16384).mapIdx (fun i y => if i = 2 then 512 * 3 else y)
    let cpl := (State.reset.ringWords 16896).mapIdx (fun i y => if i = 2 then 5 + 16 + 512 * 3 else y)
    let at_ (n : Nat) (l : List (Nat × Nat)) : List Nat := (State.reset.ringWords n).mapIdx (fun i y => tabGet y l i)
    (ringKindOf 32767 = 0 ∧ ringAbsent s.variant 32767 = false ∧ recKind (at_ 32767 [(2, 512)]) ≠ 0 ∧
      recBase (at_ 32767 [(0, 0x41)]) % max 64 (2 ^ recEntry (at_ 32767 [(0, 0x41)])) ≠ 0 ∧ recKind (at_ 32767 [(0, 0x40)]) = 0) ∧
    ringAbsent .m2304u 17408 = true ∧ ((7 : Fin 8).val % 2 = 1) ∧ ((6 : Fin 8).val % 2 = 0) ∧
    (∀ l ∈ [[(2, 3 + 16 + 512), (0, 0x41)], [(2, 3 + 16 + 512 + 2 ^ 26)], [(2, 3 + 16 + 512), (5, 2 ^ 16)], [(2, 2 + 16 + 512)],
        [(2, 9 + 16 + 512)], [(2, 3 + 512)], [(2, 3 + 16 * 21 + 512)], [(2, 3 + 16 + 1024)]],
      State.reset.ringRecordBad 5 (at_ 5 l) = true ∨ baseBad (at_ 5 l) = true) ∧
    (spadPlace (recBase (at_ 5 [(0, 0x5FFF8), (1, 0xF000)])) = some (0, 0x5FFF8) ∧ 0x60000 < 0x5FFF8 + 2 ^ 3 * 2 ^ 1 ∧
      spadPlace (recBase (at_ 5 [(0, 0x100000), (1, 0xF000)])) = some (1, 0) ∧ ringKindOf 5 = 1 ∧ 5 / 256 = 0 ∧
      spadPlace (recBase (at_ 5 [(0, 0xFFFFFFC0), (1, 0x7FFF)])) = none ∧ s.lpddrEnd < 0x7FFFFFFFFFC0) ∧
    reqPort .sisyn = none ∧ s.ringKind (16896 - 512) = 2 ∧ ringKindOf 16896 = 3 ∧ s.ringKind 16896 ≠ 0 ∧
    ringAbsent s.variant 16384 = false ∧ ringKindOf 16384 = 2 ∧ s.ringKind 16384 ≠ 0 ∧
    (reqPort (.host .A) = some (s.ringPort 16384) ∧ reqPort (.host .B) ≠ some (s.ringPort 16384)) ∧
    ¬ (ringKindOf 16384 = 3 ∧ s.ringKind (16384 - 512) = 2) ∧
    (State.reset.ringKind 16384 = 0 ∧ recKind w = 0 ∧ recBase w % max 64 (2 ^ recEntry w) = 0) ∧
    (recKind x ≠ 0 ∧ recKind x ≠ ringKindOf 16384) ∧
    ((coreRing (at0 (.nop 0 p0 ⟨0, 0⟩)) 0).ringKind 5 ≠ 0 ∧ ringKindOf 5 = 1 ∧ ((at0 (.nop 0 p0 ⟨0, 0⟩)).core 0).running = true ∧
      ((at0 (.nop 0 p0 ⟨0, 0⟩)).core 0).stopped = false ∧ (State.reset.core 0).running = false) ∧
    (State.reset.ringRecordBad 16896 cpl = false ∧ recKind cpl = 3) := by decide +kernel

/-- Rows that end at row 383, and rows that pass it. -/
theorem witness_PailEntriesAndPoolMode_entries :
    let ok := PailCfg.of (2 ^ 19 + 63 * 2 ^ 9 + 320)
    let long := PailCfg.of (2 ^ 19 + 63 * 2 ^ 9 + 321)
    let s := st0 (coreAt (.nop 0 p0 ⟨0, 0⟩))
    ok.first + ok.rows ≤ 384 ∧ ¬ long.first + long.rows ≤ 384 ∧ ((s.core 0).pail 63).st = .empty ∧ (s.core 0).pailNamed 63 = false ∧
    (∀ j, j < 64 → j ≠ 63 → (s.pailCfg 0 j).valid = false) ∧ s.sched.st = .idle ∧ (s.core 0).running = true ∧
    (inTask s).sched.st ≠ .idle := by decide +kernel

/-- The first and the last word of the pool, pool mode on and off. -/
theorem witness_PailEntriesAndPoolMode_pool :
    (withReg State.reset Reg.PWR_DOMAIN_STATE 0xFFFF).poolMode = true ∧ State.reset.domainOn (63 / 4) = false ∧
    (∀ c ∈ [0, 63], (withReg State.reset Reg.PWR_DOMAIN_STATE 0xFFFF).domainOn (c / 4) = true) ∧
    (({ State.reset with cores := [(63, { Core.reset with banks := [(15, ⟨.off, none, none, none⟩)] })] } : State).core 63).bank 15 =
      ⟨.off, none, none, none⟩ ∧ (⟨.off, none, none, none⟩ : Bank).usable = false ∧
    State.reset.poolMode = true ∧ (withReg State.reset Reg.SPAD_POOL_CTL 0).poolMode = false ∧
    (∀ p ∈ [0, 63 * 589824 + 393208], p < 0x2400000 ∧ p % 8 = 0 ∧ p % 589824 < 393216 ∧
      ((State.reset.core (p / 589824)).bank (bankOf (p % 589824))).usable = true ∧
      (State.reset.core (p / 589824)).parityBad (p % 589824) 8 = false) ∧
    State.reset.sched.st = .idle ∧ (inTask State.reset).sched.st ≠ .idle := by decide +kernel

/-! Registers. -/

/-- A register with an access code, the owner register, a hole of a block, an absent unit, no block, and a wide place. -/
theorem witness_RegisterWritesFollowAccessCodes :
    let row (x : Nat) := (blockAt x).bind (fun b => b.rows.find? (·.covers b.off))
    (∀ x ∈ [Reg.SISYN_DB_SEL 0, Reg.CORE_TALLY_FREEZE_LIMIT 63], (blockAt x).isSome = true ∧ (row x).isSome = true ∧
      (blockAt x).map (reaches (.host .B)) = some true ∧ (blockAt x).map (fun b => State.reset.blockAbsent b.kind b.inst) = some false) ∧
    ((blockAt (Reg.SPAD_BANK_OWNER 63)).map (fun b => (b.kind, b.off)) = some (.spad, 0xC)) ∧
    ((blockAt (Reg.CORE_TALLY_ID 0 + 0xFC)).isSome = true ∧ row (Reg.CORE_TALLY_ID 0 + 0xFC) = none) ∧
    ((blockAt (Reg.CHURN_ID 0)).map (fun b => ({ State.reset with variant := .m2304f } : State).blockAbsent b.kind b.inst) = some true) ∧
    blockAt 0xFFFFFFC = none ∧ wideInside (Reg.SISYN_DB_SEL 0) = false ∧ mapAssigns 0xFFFFFFC = false ∧
    (blockAt 0x100 = none ∧ mapAssigns 0x100 = true ∧ wideInside 0x100 = false) := by decide +kernel

/-- A port that is ready and one that is not; the last vector of the table, its control, and the pending-bit array. -/
theorem witness_RegisterWritesFollowAccessCodes_table :
    (withReg State.reset (Reg.HOST_STATUS 1) 1).portReady 1 = true ∧ State.reset.portReady 1 = false ∧
    (∀ e ∈ [(16 * 2047, 8), (16 * 2047 + 8, 4)], e.1 < 0x8000 ∧ e.1 % 16 + e.2 ≤ 12) ∧
    (16 * 2047 + 12 < 0x8000 ∧ (16 * 2047 + 12) % 16 = 12) ∧ 0x8000 ≤ 0x80FF := by decide +kernel

theorem witness_GuardedRegistersTakeWrites :
    let s := withReg State.reset (Reg.HOST_CLAIM 15) 7
    let c : State := { State.reset with churns := [(47, { ChurnSt.reset with parked := [default] })] }
    blockPresent State.reset.variant .memc 191 = true ∧ churnPresent State.reset.variant 47 = true ∧
    (State.reset.churn 47).parked = [] ∧ (c.churn 47).parked ≠ [] ∧ (State.reset.churn 47).running = none ∧
    (({ State.reset with churns := [(47, { ChurnSt.reset with running := some default })] } : State).churn 47).running ≠ none ∧ s.reg (Reg.HOST_CLAIM 15) ≠ 0 ∧
    State.reset.reg (Reg.HOST_CLAIM 15) = 0 ∧ State.reset.sched.st = .idle ∧ (inTask State.reset).sched.st ≠ .idle := by decide +kernel

theorem witness_LatchesAndCounterClears :
    latchPair (Reg.CORE_CLERK_INSTR_LO 63) = true ∧ latchPair (Reg.TELL_CTR_VAL 1023) = true ∧
    latchPair (Reg.PWR_MEMC_ERR_IDX_LO 191) = true ∧
    blockPresent .m2304fu .memc 191 = true ∧ churnPresent .m2304fu 47 = true ∧ rootPresent .m2304fu = true ∧ spanPresent .m2304fu = true ∧
    churnPresent .m2304f 47 = false ∧ spanPresent .m2304u = false := by decide +kernel

/-! The Teller. -/

/-- A take at the greatest sum and one past it, a barrier that waits and one that does not, and one ready to wake. -/
theorem witness_TellerAppliesAndServes_takes :
    let s (o : HubOp) (v : Nat) : State := { State.reset.setCtr 1023 v 5 with hubOps := [o] }
    (∀ a ∈ [0, 7, 8], (s (.take 0 3 1023 a) (2 ^ 48 - 8)).takeWaiting 0 3 = some (.take 0 3 1023 a) ∧
      (s (.take 0 3 1023 a) (2 ^ 48 - 8)).ctrValue 1023 = 2 ^ 48 - 8) ∧
    (∀ n ∈ [0, 2], (s (.barrier 0 3 1023 n none) 1).takeWaiting 0 3 = some (.barrier 0 3 1023 n none)) ∧
    (s (.barrier 0 3 1023 2 (some (2, 5))) 2).barrierReady 0 3 = some (.barrier 0 3 1023 2 (some (2, 5)), 0) ∧
    (s (.barrier 0 3 1023 2 (some (2, 4))) 1).barrierReady 0 3 = some (.barrier 0 3 1023 2 (some (2, 4)), 0x3204) ∧
    (s (.awake 0 3 0x3204) 1).barrierReady 0 3 = some (.awake 0 3 0x3204, 0x3204) ∧
    (s (.barrier 0 3 1023 2 (some (2, 5))) 1).barrierReady 0 3 = none ∧ State.reset.takeWaiting 0 3 = none := by decide +kernel

/-- A TELLER_SVC ring of entries of 16 bytes in core 0's Scratchpad, with an entry of those bytes. -/
def withSvc (bs : List Byte) (pushed : Bool) : State :=
  let s := withRing (st0 { Core.reset with owner := 0x55555555, mem := bytesSet 0 [] 0x1000 bs }) 25855 0xF00000001000 4 1 6 0 1
  let s := withReg s Reg.SPAD_POOL_CTL 0
  { s with hubOps := if pushed then [.service 0 3 25855 0] else [] }

theorem witness_TellerAppliesAndServes_rings :
    let retire := leBytes (1 + 1023 * 16 + 2 ^ 14 + 9 * 2 ^ 16) 16
    let take := leBytes (1023 * 16 + 2 * 2 ^ 16) 8 ++ leBytes (3 + 7 * 2 ^ 16) 8
    (∀ bs ∈ [retire, take], (withSvc bs true).svcFromClerk 25855 = true ∧ ((withSvc bs true).ringTake 0xFF 25855).2 = .ok bs) ∧
    svcValid 16 (SvcEntry.of retire) = true ∧ svcValid 16 (SvcEntry.of take) = false ∧
    ((withSvc take false).svcFromRim 25855 = true ∧ ((withSvc take false).ringTake 0xFF 25855).2 = .ok take ∧ (SvcEntry.of take).op = 0 ∧
      ((withSvc take false).ringTake 0xFF 25855).1.ctrRemote 1023 = false ∧
      (((withSvc take false).setRemote 1023 true).ringTake 0xFF 25855).1.ctrRemote 1023 = true) ∧
    State.reset.svcFromClerk 25855 = false ∧ State.reset.svcFromRim 25855 = false ∧ State.reset.sched.st = .idle := by decide +kernel

/-! Memory, Churn and the root engines. -/

/-- A ready controller 0 whose atom 0 holds those 36 symbols. -/
def withSymbols (st : List Byte) : State :=
  let s := withReg (withReg State.reset (Reg.PWR_QSTATE 52) 1) (Reg.PWR_MEMC_STATUS 0) 2
  { s with dram := putSymbols [] (s.atomKey 0) st }

/-- An atom that reads clean, one of a wrong byte, one of two, and one of another place's address; beyond LPDDR, and a
controller that is not ENABLED. -/
theorem witness_MemoryControllersServeTheirAtoms_reads :
    let d := leBytes 0xA5 32
    let good := rsEncode d 0
    let ask (st : List Byte) : AtomRead := rsDecode ((withSymbols st).atomStored 0).2 0
    (∀ st ∈ [good, good.set 0 7, (good.set 0 7).set 9 9, rsEncode d 5], ((withSymbols st).memPlace 0).chan = 0 ∧
      32 ≤ (withSymbols st).lpddrEnd ∧ (withSymbols st).atomEnabled 0 = true) ∧
    ask good = .clean d ∧ ask (good.set 0 7) = .corrected d ∧ ask (good.set 35 7) = .corrected d ∧
    ask ((good.set 0 7).set 9 9) = .bad false ∧ ask (rsEncode d 5) = .bad true ∧
    (withSymbols good).lpddrEnd < 0xF00000000000 ∧
    (withReg State.reset (Reg.PWR_QSTATE 52) 0).atomEnabled 0 = false := by decide +kernel

/-- A part of the atom at its end, and a write-back of the controller. -/
theorem witness_MemoryControllersServeTheirAtoms_writes :
    let d := leBytes 0xA5 32
    let w : Nat × List Byte := (State.reset.atomKey 0, rsEncode d 0)
    let s : State := { withSymbols (rsEncode d 0) with writeBacks := [w] }
    (match (s.atomRead 0 false 0xFF).2 with
      | .ok x => x == d
      | .error _ => false) = true ∧ s.atomEnabled 0 = true ∧ 31 % 32 + 1 ≤ 32 ∧
    s.writeBacks.find? (fun w => dramChan w.1 = 0) = some w ∧ s.chanReady 0 = true ∧ w.2.length = 36 ∧
    (withReg s (Reg.PWR_QSTATE 52) 0).chanReady 0 = false := by decide +kernel

/-- The scrubber at the first atom and at the last one of a channel; no scrub period; a package that is absent. -/
theorem witness_MemoryControllersServeTheirAtoms_scrubs :
    let d := leBytes 0xA5 32
    let s := withReg (withSymbols (rsEncode d 0)) Reg.PWR_MEMMAP_SCRUB 1
    let n := s.chanAddress 0 (402653183 * 32) / 32
    let last : State := { s with scrubAt := [(0, 402653183)], dram := putSymbols [] (s.atomKey n) (rsEncode d n) }
    (s.chanReady 0 = true ∧ s.field Reg.PWR_MEMMAP_SCRUB 0 16 ≠ 0 ∧ s.chanAddress 0 0 = 0 ∧
      rsDecode (s.atomStored 0).2 0 = .clean d) ∧
    (last.chanReady 0 = true ∧ rsDecode (last.atomStored n).2 n = .clean d) ∧
    (withReg s Reg.PWR_MEMMAP_SCRUB 0).field Reg.PWR_MEMMAP_SCRUB 0 16 = 0 ∧
    pkgPresent .m2304fu (191 / 4) = true ∧ pkgPresent .m1152u (191 / 4) = false := by decide +kernel

/-- The first and the last channel, and the last byte of a channel. -/
theorem witness_LocalMapReachesEveryByteOfAChannel :
    (∀ m ∈ [0, 191], pkgPresent State.reset.variant (m / 4) = true) ∧ 12 * 2 ^ 30 - 1 < 12 * 2 ^ 30 ∧
    pkgPresent .m1152u (95 / 4) = false ∧ pkgPresent .m1152u (23 / 4) = true := by decide +kernel

/-- A parameter block entry of 64 × 128 elements whose step is `rel`, of rule KRONECKER where `kron` holds, FROZEN. -/
def pbBytes (rel : Nat) (kron : Bool) : List Byte :=
  let a := 0x1000
  leBytes (a + a * 2 ^ 64 + a * 2 ^ 192 + a * 2 ^ 256 + a * 2 ^ 384 + a * 2 ^ 448 + (if kron then a * 2 ^ 512 else 0) + 64 * 2 ^ 576 +
    128 * 2 ^ 608 + 128 * 2 ^ 704 + 3 * 2 ^ 736 + 2 ^ 740 + (if kron then 3 * 2 ^ 744 else 0) + 2 ^ 750 + rel * 2 ^ 800) 128

/-- Churn 0, ENABLED, with that entry, and a command of operation `op` and a step in its first ring. -/
def withChurn (op step rel : Nat) (kron : Bool) : State :=
  let cmd := leBytes (op + 2 ^ 32 + step * 2 ^ 64) 64
  let s := withRing (st0 { Core.reset with owner := 0x55555555, mem := bytesSet 0 [] 0x1000 cmd }) 25600 0xF00000001000 6 1 5 0 1
  let s := withReg (withReg (withReg s Reg.SPAD_POOL_CTL 0) (Reg.CHURN_PBT_COUNT 0) 1) Reg.PWR_MEMMAP_SPLIT 0
  let s := withReg (withReg (withReg s (Reg.PWR_QSTATE 52) 1) (Reg.PWR_QSTATE 0) 1) (Reg.PWR_QSTATE 48) 1
  let atom (i : Nat) : List Byte := rsEncode (((pbBytes rel kron).drop (32 * i)).take 32) i
  { s with hubOps := [.update 0 3 25600 0 0], dram := putSymbols [] 0 (atom 0 ++ atom 1 ++ atom 2 ++ atom 3) }

/-- The state after Churn 0 has taken the command, and the command. -/
def churnTook (s : State) : State × ChurnCmd × Bool :=
  let p := s.ringTake 0xFF 25600
  match p.2 with
  | .ok bs =>
    let u := p.1.setChurn 0 { p.1.churn 0 with lastRing := 0 }
    let c := u.churnCmd 25600 (s.ringHead 25600) bs
    (u, c, u.churnEnabled 0 && s.ringEntry 25600 == 64 && !c.bad (leNat bs) (u.pbCount 0))
  | .error _ => (s, default, false)

/-- What the fence says of the command: 0 refused, 1 parks, 2 runs. -/
def fenceSays (s : State) : Nat :=
  match ((churnTook s).1.churnFence 0 (churnTook s).2.1).2 with
  | .refused _ => 0
  | .parks => 1
  | .runs => 2

/-- An UPDATE that runs, one that parks and one that is stale, each with its entry; a Churn that is not ENABLED. -/
theorem witness_ChurnCommandsRunParkAndTimeOut_updates :
    (∀ e ∈ [(1, 2), (0, 1), (2, 0)],
      (churnTook (withChurn 0 1 e.1 false)).2.2 = true ∧ fenceSays (withChurn 0 1 e.1 false) = e.2) ∧
    (withChurn 0 1 1 false).churnTakes 0 0 0 = true ∧
    (let s := withReg (withChurn 0 1 1 false) (Reg.PWR_QSTATE 0) 0
     s.churnTakes 0 0 0 = true ∧ s.churnEnabled 0 = false ∧ (churnTook s).2.1.op = 0) := by decide +kernel

/-- A RELEASE, a REMINT, a ROOT of a KRONECKER entry and one of another. -/
theorem witness_ChurnCommandsRunParkAndTimeOut_others :
    (∀ e ∈ [(1, 1, false), (2, 0, false), (3, 0, true), (3, 0, false)],
      let s := withChurn e.1 e.2.1 0 e.2.2
      s.churnTakes 0 0 e.1 = true ∧ (churnTook s).2.2 = true ∧ s.churnTakes 0 1 e.1 = false ∧
      (match (chEntries 0 (churnTook s).2.1).run (churnTook s).1 with
        | (.ok es, x) => es.length == 1 && es.all (fun y => y.2.1.kron == e.2.2) && x.rootEnabled 0
        | (.error _, _) => false) = true) ∧
    State.reset.churnTakes 47 3 0 = false := by decide +kernel

/-- A command that runs, of each op that has work units. -/
theorem witness_ChurnCommandsRunParkAndTimeOut_running : ∀ op ∈ [0, 2],
    let k : ChurnWork := ⟨{ (default : ChurnCmd) with ring := 25791, op := op }, 0, none⟩
    let s := State.reset.setRunning 47 (some k)
    (s.churn 47).running = some k ∧ k.cmd.ring = churnRing 47 3 ∧ s.churnRuns 47 3 op = true ∧
    State.reset.churnRuns 47 3 op = false ∧ s.churnTakes 47 3 op = false := by decide +kernel

/-- A parked command that is ready, with its fence met and stale, and one that has waited for its limit. -/
theorem witness_ChurnCommandsRunParkAndTimeOut_parked :
    (∀ e ∈ [(1, 2), (2, 0)],
      let s := withChurn 0 1 e.1 false
      let c := (churnTook s).2.1
      let p := s.setChurn 0 { s.churn 0 with parked := [c] }
      p.parkedReady 0 = some c ∧ p.churnEnabled 0 = true ∧ (p.churn 0).running = none ∧ (p.churn 0).parked[0]? = some c ∧
      (p.churn 0).parked[7]? = none ∧
      (match ((p.unpark 0 c).churnFence 0 c).2 with
        | .refused _ => e.2 == 0
        | .parks => false
        | .runs => e.2 == 2) = true) ∧
    State.reset.parkedReady 47 = none ∧
    (∀ t ∈ [0, 1], (withReg State.reset (Reg.CHURN_FENCE_TIMEOUT 47) t).regN (Reg.CHURN_FENCE_TIMEOUT 47) = t) := by decide +kernel

/-- An entry of one row whose gradient, or whose factor area, is that atom. -/
def unitPb (grad factor : Nat) : Pb :=
  { Pb.of 0 with
    recs := 0x1000
    master := 0x2000
    mom1 := 0x2800
    grad := grad
    factor := factor
    gradFmt := 1
    fmt := 3
    g := 64
    rows := 1
    cols := 1
    kglob := 128 }

/-- Values that round down, to the even of two, to themselves, and to an infinity. -/
theorem witness_ChurnUpdatesAndWrites_rounding :
    f32Round (1 + 1 / 2 ^ 25) = 0x3F800000 ∧ f32Round (1 + 3 / 2 ^ 24) = 0x3F800002 ∧ f32Val 0x3F800000 = .fin 1 ∧
    f32Val (f32Round (-2 ^ 128)) = .inf true ∧ f32Val (f32Round (2 ^ 128 - 2 ^ 104)) = .fin (2 ^ 128 - 2 ^ 104) := by decide +kernel

theorem witness_ChurnUpdatesAndWrites_factors :
    let shaped (m : Mat) (a b : Nat) : Prop := m.length = a ∧ ∀ x ∈ m, x.length = b
    shaped [[.fin 1]] 1 1 ∧ shaped [[.fin 1, .fin 0], [.fin 0, .fin 1]] 2 2 ∧ shaped [[.fin 2, .fin 3]] 1 2 := by decide +kernel

/-- A block of zeros, one of values that are never negative, and one of both signs; group sizes of a compute copy. -/
theorem witness_ChurnUpdatesAndWrites_blocks :
    (∀ v ∈ (List.replicate 128 0 : List Rat), v = 0) ∧ (∀ v ∈ ([1, 2] : List Rat), 0 ≤ v) ∧ (∃ v ∈ ([1, -2] : List Rat), v ≠ 0) ∧
    (List.replicate 128 (1 : Rat)).length = 128 ∧ (unitPb 0 0).fmt < 16 ∧ ((unitPb 0 0).g = 32 ∨ (unitPb 0 0).g = 64 ∨ (unitPb 0 0).g = 128) := by
  decide +kernel

/-- Zeroised LPDDR with every controller ENABLED, but one atom, at 0x3000, which holds `g`. -/
def unitSt (g : Nat) : State :=
  let s := (List.range 192).foldl (fun s m => withReg s (Reg.PWR_QSTATE (52 + m)) 1) (withReg State.reset Reg.PWR_MEMMAP_SPLIT 0)
  { s with
    zeroed := (List.range 192).map (fun m => (m, 0))
    dram := putSymbols [] (s.atomKey (0x3000 / 32)) (rsEncode (leBytes g 32) (0x3000 / 32)) }

/-- A unit of a gradient that begins with a NaN, a KRONECKER unit whose Lroot does, and units of each kind that end without. -/
theorem witness_ChurnUpdatesAndWrites_units :
    let x (t : Nat) : ChurnRun := ⟨0, 0, 0, ⟨t, .fin 1, .fin 0, .fin 0, .fin 0, .fin 1, .fin 1⟩, false, false⟩
    let ends (w : Ch Bool) (g : Nat) (bad : Bool) : Bool := match (w.run (unitSt g)).1 with
      | .ok b => b == bad
      | .error _ => false
    (x 1).n < 48 ∧ ends (chUnit (x 1) 0 (unitPb 0x3000 0x4000) none [(0, 0)]) 0x7FC0 true = true ∧
    ends (chKron (x 1) 0 (unitPb 0x5000 0x2FF8) none []) 0x7FC00000 true = true ∧
    ends (chUnit (x 0) 0 (unitPb 0x3000 0x4000) none [(0, 0)]) 0 false = true ∧
    ends (chKron (x 1) 0 (unitPb 0x5000 0x2FF8) none []) 0 false = true := by decide +kernel

/-- An engine with a job that waits and one that runs; the last job of a command, and one that is not; work that ends and
work whose controller refuses it. -/
theorem witness_RootEnginesRunTheirJobs :
    let j : RootJob := ⟨0, 0, false, 0, 25600, 0⟩
    let s (r : RootSt) : State := (withChurn 3 0 0 true).setRoot 0 r
    let wait := s { RootSt.reset with queue := [j] }
    let run (left : Nat) := s { RootSt.reset with running := some j, cmds := [⟨25600, 0, left, [], 0, 0, 0⟩] }
    ((wait.root 0).queue = [j] ∧ (wait.root 0).running = none ∧ wait.rootEnabled 0 = true ∧ rootPresent wait.variant = true ∧
      wait.churnHolds 0 0 = false ∧ (wait.root 0).waiting = []) ∧
    (wait.setRunning 0 (some ⟨{ (default : ChurnCmd) with count := 1 }, 0, none⟩)).churnHolds 0 0 = true ∧
    (∀ n ∈ [1, 2], ((run n).root 0).running = some j ∧ ((run n).root 0).cmds = [⟨25600, 0, n, [], 0, 0, 0⟩]) ∧
    (∀ e ∈ [(1, true), (0, false)],
      let u := ((withReg (withReg State.reset (Reg.PWR_QSTATE 52) e.1) Reg.PWR_MEMMAP_SPLIT 0).lpddrWrite 0 (leBytes 0 128) 0xFF).1
      let v := if e.1 = 1 then u else withReg (withChurn 3 0 0 true) (Reg.PWR_QSTATE 52) 0
      (match ((chJob 0 j false).run v).1 with
        | .ok ok => ok && e.2
        | .error _ => !e.2) = true) ∧
    (State.reset.root 3).queue = [] ∧ (State.reset.root 3).running = none ∧ rootPresent .m2304f = false := by decide +kernel

/-! Span. -/

/-- Window 4095 over [lo, hi) of a kind, with permissions and group 15, which holds nodes 0 to 31; open, generation 0. -/
def withWin (s : State) (lo hi kind perm : Nat) : State :=
  let x := Reg.SPAN_WIN 4095
  let s := withReg (withReg ((s.setReg64 x lo).setReg64 (x + 8) hi) (x + 16) (kind + 4 * perm + 256 * 15)) (x + 20) 1
  withReg s (Reg.SPAN_GROUP 15 0) 0xFFFFFFFF

/-- A header to node 0. -/
def hdr (op src gen len target : Nat) : BitVec 128 := SpanHdr.pack ⟨op, 0, 0, src, 9, 4095, gen, len, target, 0⟩

/-- The READ, WRITE, FADD, CAS and PARTIAL of those headers. -/
def asks (src gen target : Nat) : List (Nat × BitVec 128 × List Dword) :=
  [(0, hdr 0 src gen 1 target, []), (1, hdr 1 src gen 1 target, [7]), (2, hdr 2 src gen 2 target, [1, 0]),
   (3, hdr 3 src gen 2 target, [0, 5]), (5, hdr 5 src gen 1 target, [7])]

/-- The checks pass at the window's last word; the generation is another; the range passes the limit, or begins before the base;
the source is in no group; the permission is missing; the kind has no such operation; the header is for another node. -/
theorem witness_SpanRequestsAreServed_checks :
    let s (kind perm : Nat) := withWin State.reset 0x40 0x80 kind perm
    let chk (s : State) (e : Nat × BitVec 128 × List Dword) : Option Nat :=
      (s.reqArrival e.1 e.2.1 e.2.2).map (fun u => u.winCheck (SpanHdr.of e.2.1))
    ((asks 31 0 0x78).map (chk (s 0 7)) = [some 0, some 0, some 0, some 0, some 13]) ∧
    ((asks 31 0 0x78).map (chk (s 2 7)) = [some 0, some 13, some 13, some 13, some 0]) ∧
    ((asks 31 1 0x78).map (chk (s 0 7)) = [some 1, some 1, some 1, some 1, some 1]) ∧
    ((asks 31 0 0x7C).map (chk (s 0 7)) = [some 2, some 2, some 2, some 2, some 2]) ∧
    ((asks 31 0 0x38).map (chk (s 0 7)) = [some 2, some 2, some 2, some 2, some 2]) ∧
    ((asks 32 0 0x40).map (chk (s 0 7)) = [some 3, some 3, some 3, some 3, some 3]) ∧
    ((asks 31 0 0x40).map (chk (s 0 0)) = [some 3, some 3, some 3, some 3, some 3]) ∧
    (∀ e ∈ asks 31 0 0x40, (withReg (s 0 7) Reg.SPAN_NODE_CTL 1).reqArrival e.1 e.2.1 e.2.2 = none) := by decide +kernel

/-- The target answers. -/
theorem witness_SpanRequestsAreServed_targets :
    let s := withWin (withSymbols (rsEncode (leBytes 0 32) 0)) 0 0x40 0 7
    let h := SpanHdr.of
    (∀ e ∈ (asks 31 0 0x18).take 4, (s.reqArrival e.1 e.2.1 e.2.2).isSome = true ∧ s.winCheck (h e.2.1) = 0) ∧
    (s.targetRead 0 0x18 8).2 = (leBytes 0 8, 0) ∧ (s.targetWrite 0x18 (leBytes 7 8)).2 = 0 ∧
    (s.targetAtomic 0x18 (fun x => some (x + 1))).2 = (0, 0) ∧
    (s.targetAtomic 0x18 (fun x => if x = 0 then some 5 else none)).2 = (0, 0) := by decide +kernel

/-- A tile word of core 63, with room for the last add and with none; a MSG that fits, that finds the ring full, of another size,
and from outside its group. -/
theorem witness_SpanRequestsAreServed_partialsAndMessages :
    let a := controlBase + 63 * 0x100000 + 7 * 0x2000 + 8 * 1023
    let s := withWin State.reset (controlBase + 63 * 0x100000) (controlBase + 63 * 0x100000 + 0x10000) 2 2
    let busy (n : Nat) : State := s.modCore 63 (fun k => { k with adds := List.replicate n default })
    let i := hdr 5 31 0 1 a
    let ring (tail : Nat) : State := withReg (coreRing (atOwn (.nop 0 p0 ⟨0, 0⟩) [] 0x55555555) tail) (Reg.SPAN_GROUP 0 0) 2
    let m (src x len : Nat) := hdr 4 src 0 len x
    (s.winCheck (SpanHdr.of i) = 0 ∧ addViewPlace a = some (63, 7, 1023) ∧ a % 8 = 0) ∧
    (∀ n ∈ [63, 64], ((busy n).reqArrival 5 i [7]).isSome = true ∧ ((busy n).core 63).adds.length = n) ∧
    (∀ e ∈ [(0, 1, 5, 1, true, true), (1, 1, 5, 1, true, true), (0, 2, 5, 1, false, true), (0, 1, 5 + 2 ^ 15, 2, true, false)],
      let s := ring e.1
      let p : List Dword := List.replicate e.2.2.2.1 7
      (s.reqArrival 4 (m e.2.1 e.2.2.1 e.2.2.2.1) p).isSome = true ∧
      s.inGroup (s.field Reg.SPAN_MSG_GROUP 0 4) e.2.1 = e.2.2.2.2.1 ∧
      decide (8 * 2 ^ (e.2.2.1 / 2 ^ 15) = s.ringEntry 5) = e.2.2.2.2.2 ∧ s.ringTakesMsg 5 = true ∧
      s.ringIsFull 5 = decide (e.1 = 1)) ∧
    ((ring 0).ringPost 0xFF 5 (ringKindOf 5) (leBytes 7 8)).2 = .slot 0 := by decide +kernel

/-- A TAKE of a counter that others may take from, and of one that they may not. -/
theorem witness_SpanRequestsAreServed_takes :
    let s := withSvc [] false
    let h := hdr 6 63 0 1 1023
    (s.reqArrival 6 h [8]).isSome = true ∧ (SpanHdr.of h).len = 1 ∧ (SpanHdr.of h).target % 2 ^ 10 = 1023 ∧
    s.ctrRemote 1023 = false ∧ (s.setRemote 1023 true).ctrRemote 1023 = true ∧
    s.ringKind 25855 = 6 ∧ s.ringEntry 25855 = 16 ∧
    ((withReg (s.setRemote 1023 true) (ringReg 25855 4) 0).ringPost 0xFF 25855 6 (takeEntryBytes 1023 8 63 9)).2 = .slot 0 ∧
    s.reqArrival 4 h [8] = none := by decide +kernel

/-- Responses of an operation and of a write, one that fails, and one of a tag that is not outstanding. -/
theorem witness_ResponsesAndTimeoutsEndRequests :
    let q (use : SpanUse) (sent : Bool) : SpanReq := ⟨use, ⟨hdr 0 0 0 1 0, []⟩, sent⟩
    let w : SpanReq := ⟨.xferWrite 63 4, ⟨hdr 1 0 0 1 0, [7]⟩, true⟩
    let s (q : SpanReq) : State := { State.reset with span := { SpanSt.reset with reqs := [(9, q)] } }
    let r (st : Nat) : BitVec 128 := SpanHdr.pack ⟨8, st, 0, 0, 9, 0, 0, 0, 0, 0⟩
    let o := q (.op 63 4) true
    ((s o).rspArrival (r 0) [7]).isSome = true ∧ (s o).outstanding (SpanHdr.of (r 0)) = some o ∧
    ((s o).rspArrival (r 13) []).isSome = true ∧
    ((s w).rspArrival (r 0) []).isSome = true ∧ (s w).outstanding (SpanHdr.of (r 0)) = some w ∧ (SpanHdr.of (r 0)).status = 0 ∧
    (State.reset.rspArrival (r 0) []).isSome = true ∧ State.reset.outstanding (SpanHdr.of (r 0)) = none ∧
    (s o).rspArrival (r 0) [] = none ∧
    tabFind (s o).span.reqs 9 = some o ∧ o.sent = true ∧ tabFind (s (q (.op 63 4) false)).span.reqs 9 = some (q (.op 63 4) false) ∧
    tabFind State.reset.span.reqs 65535 = none := by decide +kernel

/-- A HEARTBEAT of a term below, at and above the highest accepted, in a worker, a manager and a FROZEN module; an ECHO of the
term and of another. -/
theorem witness_DomainManagementMessages_heartbeats :
    let st (role dom term : Nat) : State := withReg State.reset Reg.SPAN_STATUS (dom + 4 * role + 16 * term)
    let msg (term : Nat) : BitVec 512 := BitVec.ofNat 512 (Heartbeat.pack ⟨term, 255, 1, 3, 5⟩)
    spanPresent .m2304u = false ∧ spanPresent State.reset.variant = true ∧ (st 1 0 0).spanRole = 1 ∧ (st 0 0 0).spanRole ≠ 1 ∧
    (∀ t ∈ [0, 7, 0xFFFF], (Heartbeat.of (msg t)).term = t ∧ ((st 1 2 7).mgtArrival 0 255 (numDwords (msg t).toNat 8)).isSome = true) ∧
    (st 1 2 7).term = 7 ∧ (st 1 2 7).frozen = true ∧ (st 1 1 7).frozen = false ∧
    ((st 1 1 7).mgtArrival 1 255 [7]).isSome = true ∧ ((7 : Dword).toNat % 2 ^ 16 = (st 1 1 7).term) ∧
    (∀ i ∈ [(0, numDwords (msg 0).toNat 8), (1, [7])], ({ State.reset with variant := .m2304u } : State).mgtArrival i.1 255 i.2 = none) := by
  decide +kernel

theorem witness_DomainManagementMessages_roles :
    let st (role dom : Nat) : State := withReg State.reset Reg.SPAN_STATUS (dom + 4 * role)
    let w := withReg State.reset (Reg.SPAN_WIN 4095 + 20) 1
    let act : State := State.reset.setPort 15 { PortSt.reset with st := 2 }
    (State.reset.mgtArrival 2 255 (numDwords 0 2 ++ [BitVec.ofNat 64 (255 + 4095 * 2 ^ 8)])).isSome = true ∧
    (State.reset.mgtArrival 4 255 [0xF1FFF]).isSome = true ∧ (State.reset.mgtArrival 3 255 []).isSome = true ∧
    ((st 0 1).spanRole ≠ 1 ∧ (st 0 1).domainSt = 1) ∧ ((st 1 1).spanRole = 1 ∧ (st 0 0).domainSt ≠ 1) ∧
    ((st 2 2).spanRole = 2 ∧ (st 2 2).domainSt = 2) ∧ act.anyActive = true ∧ State.reset.anyActive = false ∧
    w.sched.st = .idle ∧ w.winOpen 4095 = true ∧ State.reset.winOpen 4095 = false := by decide +kernel

/-- A flit of kind DATA with one slot of zeros: sequence number 0, and a CRC of 252 bytes. -/
def dataFlit (crc : Nat) : BitVec 2048 := BitVec.ofNat 2048 (2 ^ 64 + crc * 2 ^ 2016)

theorem dataFlit_toNat {c : Nat} (h : c < 2 ^ 32) : (dataFlit c).toNat = 2 ^ 64 + c * 2 ^ 2016 := by
  rw [dataFlit, BitVec.toNat_ofNat, Nat.mod_eq_of_lt (by omega)]

/-- What that flit says. -/
theorem dataFlit_fields {c : Nat} (h : c < 2 ^ 32) :
    let f := Flit.of (dataFlit c)
    (f.good = decide ((crc32 (leBytes (2 ^ 64) 252)).toNat = c)) ∧ f.seq = (PortSt.reset.rxSeq + 1) % 4096 ∧ f.retry = false ∧
    f.kind = 0 := by
  have e := dataFlit_toNat h
  refine ⟨?_, ?_, ?_, ?_⟩
  · show decide _ = decide _
    rw [e, show (2 ^ 64 + c * 2 ^ 2016) % 2 ^ 2016 = 2 ^ 64 by omega, show (2 ^ 64 + c * 2 ^ 2016) / 2 ^ 2016 = c by omega]
  · show bits (dataFlit c).toNat 0 12 = 0
    rw [e, bits]; omega
  · show bitOf (dataFlit c).toNat 29 = false
    rw [e, bitOf]; simp; omega
  · show bits (dataFlit c).toNat 27 2 = 0
    rw [e, bits]; omega

/-- The flit with its right CRC is good, the next one in order after reset and DATA; with another CRC it is not good. -/
theorem witness_SpanPortsAndCages_flits :
    let c := (crc32 (leBytes (2 ^ 64) 252)).toNat
    let f := Flit.of (dataFlit c)
    f.good = true ∧ f.seq = (PortSt.reset.rxSeq + 1) % 4096 ∧ f.retry = false ∧ f.kind = 0 ∧
    (Flit.of (dataFlit ((c + 1) % 2 ^ 32))).good = false := by
  intro c f
  have h : c < 2 ^ 32 := (crc32 (leBytes (2 ^ 64) 252)).isLt
  refine ⟨by rw [(dataFlit_fields h).1]; exact decide_eq_true rfl, (dataFlit_fields h).2.1, (dataFlit_fields h).2.2.1,
    (dataFlit_fields h).2.2.2, ?_⟩
  rw [(dataFlit_fields (Nat.mod_lt _ (by omega))).1]
  exact decide_eq_false (by show c ≠ _; omega)

theorem witness_SpanPortsAndCages_receiving : ∀ st ∈ [0, 1, 2, 3, 4],
    ((State.reset.setPort 15 { PortSt.reset with st := st }).port 15).st = st := by decide +kernel

/-- Port 15 in each state, with a module and its domain on. -/
theorem witness_SpanPortsAndCages_ports :
    let s (st q : Nat) : State :=
      let p : PortSt := { PortSt.reset with st := st, initSent := true }
      let s := withReg ((State.reset.setPort 15 p).setField Reg.PWR_DOMAIN_STATE 25 1 1) (Reg.PWR_QSTATE 259) q
      withReg (withReg s (Reg.SPAN_PORT_MODULE 15) (2 ^ 16)) (Reg.SPAN_PORT_CTL 15) 4
    (∀ st ∈ [0, 1, 2, 3, 4], ((s st 1).port 15).st = st ∧ ((s st 1).port 15).initSent = true) ∧
    (∀ q ∈ [1, 2, 3], (s 0 q).qst (244 + 15) = q) ∧ (s 0 1).field (Reg.SPAN_PORT_CTL 15) 2 1 = 1 ∧
    (s 0 1).field (Reg.SPAN_PORT_MODULE 15) 16 1 = 1 ∧ (s 0 1).domainOn (24 + 15 / 8) = true ∧
    State.reset.domainOn 25 = false := by decide +kernel

theorem witness_SpanPortsAndCages_cages :
    let s := withReg State.reset (Reg.SISYN_FP_CAGE 7) 16
    s.cageModule 7 = true ∧ State.reset.cageModule 7 = false ∧
    (∀ st ∈ [1, 2, 3, 4], ((s.setPort 14 { PortSt.reset with st := st }).port 14).st = st) := by decide +kernel

/-! Host ports, power, Sisyn, the faceplate and the lifecycle. -/

/-- With AUX and V_IN. -/
def upSt : State := { State.reset with power := { PowerSt.reset with aux := true, vin := true } }

/-- The aperture's last byte below the end of LPDDR, its base at the last GiB, and one byte more; the last place of a ledger's add
view, its buffer full and with room; an unassigned offset. -/
theorem witness_HostPortsAccessAndReset_accesses :
    let s := withReg State.reset (Reg.HOST_APT_BASE 1) 2303
    let s : State := { s with hosts := { s.hosts with cfgB := { PcieCfg.reset with bar := 0, command := 2 } } }
    let full : State := s.modCore 63 (fun k => { k with adds := List.replicate 64 default })
    let room : State := s.modCore 63 (fun k => { k with adds := List.replicate 63 default })
    let a := s.field (Reg.HOST_APT_BASE 1) 0 12 / 1 * 1 * 2 ^ 30
    a + 2 ^ 30 = s.lpddrEnd ∧ s.lpddrEnd < (withReg s (Reg.HOST_APT_BASE 1) 2304).field (Reg.HOST_APT_BASE 1) 0 12 * 2 ^ 30 + 1 ∧
    (full.core 63).adds.length = 64 ∧ (room.core 63).adds.length = 63 ∧ 0xFFF8 % 8 = 0 ∧ 0xFFF8 / 0x2000 = 7 ∧
    mapAssigns 0xFFFFFFC = false ∧ mapAssigns 0 = true ∧ (withReg s (Reg.HOST_STATUS 1) 1).portReady 1 = true ∧
    s.portReady 1 = false ∧ (s.cfg 1).command.getLsbD 1 = true ∧ (s.cfg 0).command.getLsbD 1 = false := by decide +kernel

/-- An aperture read and write that memory answers, and ones that fail. -/
theorem witness_HostPortsAccessAndReset_memory :
    let d := leBytes 0xA5 32
    let good := rsEncode d 0
    let s (st : List Byte) : State := withSymbols st
    let a := (s good).field (Reg.HOST_APT_BASE 0) 0 12 * 2 ^ 30
    a = 0 ∧ 0 + 8 ≤ 2 ^ (s good).barLog 0 * 2 ^ 30 ∧ 8 ≤ (s good).lpddrEnd ∧
    ((s good).lpddrRead 0 8 0xFF).2.2.code = 0 ∧ ((s ((good.set 0 7).set 9 9)).lpddrRead 0 8 0xFF).2.2.code ≠ 0 ∧
    ((s good).lpddrWrite 0 [1] 0xFF).2.code = 0 ∧ ((s ((good.set 0 7).set 9 9)).lpddrWrite 0 [1] 0xFF).2.code ≠ 0 := by decide +kernel

/-- A ring of port A, one of port B, a task of port A, and a link that trains. -/
theorem witness_HostPortsAccessAndReset_resets :
    let s := withRing (withReg State.reset Reg.PWR_DOMAIN_STATE (2 ^ 26)) 16384 0x100000 6 20 2 3 4
    let t : State := { s with sched := { Sched.reset with st := .running, entry := { Sched.reset.entry with ring := 16384, port := 0 } } }
    let up : State := { s with power := { s.power with perstA := false } }
    s.ringPort 16384 = hostNum .A ∧ s.ringKind 16384 ≠ 0 ∧ s.ringPort 17407 = hostNum .A ∧ (t.sched.st ≠ .idle) ∧
    t.sched.entry.port = 0 ∧ linkValid ⟨6, 8, true⟩ = true ∧ linkValid ⟨7, 8, false⟩ = false ∧ linkValid ⟨5, 3, false⟩ = false ∧
    s.perst 0 = true ∧ s.perst 1 = true ∧ up.perst 0 = false ∧ up.linkTrains 0 = true ∧
    s.linkTrains 0 = false := by decide +kernel

/-- Places of every kind of unit, and the states that the rules tell apart. -/
theorem witness_UnitsAndDomainsGoOffAndOn_units :
    let v := State.reset.variant
    let s (k q : Nat) : State := withReg (withReg State.reset Reg.PWR_DOMAIN_STATE 0x3FFFFFFF) (Reg.PWR_QSTATE k) q
    let j : RootJob := ⟨0, 0, false, 0, 25600, 0⟩
    qFind v 0x50 48 = none ∧ qFind v 0x50 47 = some 47 ∧ qFind v 0x51 3 = some 51 ∧ qFind v 0x40 191 = some 243 ∧
    qFind v 0x61 15 = some 259 ∧ qFind .m1152u 0x61 15 = none ∧ qFind .m2304f 0x50 47 = none ∧
    (∀ k ∈ [0, 47, 51, 243, 259], ∀ q ∈ [1, 2, 3], (s k q).qst k = q) ∧ ((s 259 1).port 15).st < 3 ∧
    (∀ k ∈ [47, 51, 243], (s k 3).domainOn (qDomain k) = true) ∧ State.reset.domainOn (qDomain 243) = false ∧
    (s 47 2).qIdle (.churn 47) = true ∧ (s 51 2).qIdle (.root 3) = true ∧ (s 243 2).qIdle (.chan 191) = true ∧
    ((s 51 2).setRoot 3 { RootSt.reset with running := some j }).qIdle (.root 3) = false ∧
    ((s 47 2).setRunning 47 (some default)).qIdle (.churn 47) = false ∧
    (let x : Xfer := { (default : Xfer) with id := 3, started := true }
     ((s 243 2).modCore 0 (fun k => { k with dma := [x] })).xfer 0 3 = some x ∧ x.discard = false ∧ x.status = 0) := by decide +kernel

/-- A request that is not allowed, and one that is, for a domain that is on and for one that is off; a domain that switches off,
and one that comes up. -/
theorem witness_UnitsAndDomainsGoOffAndOn_domains :
    let s (n : Nat) : State := withReg State.reset Reg.PWR_DOMAIN_STATE (2 ^ 27 + n)
    let on := s (2 ^ 15 + 2 ^ 25)
    let req (s : State) (d : Nat) (l : List Bool) : State := { s with power := { s.power with domReqs := [(d, l)] } }
    (∀ d ∈ [26, 31], ∀ o ∈ [true, false], on.domainAllowed d o = false) ∧ (inTask on).domainAllowed 15 false = false ∧
    State.reset.domainAllowed 0 true = false ∧
    (∀ d ∈ [15, 25], on.domainAllowed d false = true ∧ on.domainOn d = true ∧ tabGet [] on.power.domReqs d = []) ∧
    (∀ d ∈ [0, 16], on.domainAllowed d true = true ∧ on.domainOn d = false) ∧ on.domainAllowed 20 true = false ∧
    (let t := req on 15 [false]
     t.domainHead 15 = some false ∧ t.domainOn 15 = true ∧ t.domainQuiet 15 = true ∧ t.domainFree 15 = true ∧
     (inTask t).domainFree 15 = false) ∧
    (let t := req (s 0) 19 [true]
     tabGet [] t.power.domReqs 19 = [true] ∧ t.domainOn 19 = false ∧ t.domainFed 19 = true) ∧
    State.reset.domainHead 0 = none ∧ on.domainQuiet 25 = false := by decide +kernel

/-- Each supply state that the rules tell apart. -/
theorem witness_PowerOnAndModuleResets :
    let on := withReg upSt Reg.PWR_DOMAIN_STATE (2 ^ 27)
    let noVin : State := { upSt with power := { upSt.power with vin := false } }
    let gone : State := { upSt with power := { upSt.power with removed := true } }
    let trip : State := { upSt with power := { upSt.power with tripped := true } }
    State.reset.power.aux = false ∧ upSt.power.aux = true ∧ noVin.waitsVin = true ∧ on.waitsVin = false ∧
    (0xFFFFA5C3 : Word).toNat % 2 ^ 16 = 0xA5C3 ∧ upSt.power.vin = true ∧
    noVin.power.brown = false ∧ ({ noVin.power with brown := true } : PowerSt).brown = true ∧ upSt.power.removed = false ∧ gone.power.removed = true ∧
    on.domainOn 27 = true ∧ upSt.domainOn 27 = false ∧ trip.power.tripped = true ∧ trip.sisyn.noFw = false ∧
    noVin.power.vin = false := by decide +kernel

theorem witness_SupplyThrottleAndSmallResets :
    let warn := withReg upSt Reg.PWR_STATUS 8
    let on := withReg upSt Reg.PWR_DOMAIN_STATE (2 ^ 15)
    let str : State := { on with power := { on.power with stretched := [15] } }
    upSt.field Reg.PWR_STATUS 3 1 = 0 ∧ warn.field Reg.PWR_STATUS 3 1 = 1 ∧ (43999 : Half).toNat < 44000 ∧ 45000 ≤ (45000 : Half).toNat ∧
    on.domainOn 15 = true ∧ 15 ∉ on.power.stretched ∧ 15 ∈ str.power.stretched ∧ (inTask on).sched.st = .running ∧
    (inTask on).sched.failing = false ∧ upSt.domainOn 15 = false ∧ 105 < (withReg upSt (Reg.PWR_MEMC_STATUS 191) (106 * 16)).field (Reg.PWR_MEMC_STATUS 191) 4 8 ∧
    (∀ m < 192, upSt.field (Reg.PWR_MEMC_STATUS m) 4 8 ≤ 100) ∧
    (withReg upSt Reg.PWR_LIMIT 2047).field Reg.PWR_LIMIT 0 11 = 2047 := by decide +kernel

/-- What waits for the daybook; a difference that is found, read again, and gone; the slots of an update and a commit. -/
theorem witness_SisynKeepsDaybookRecordAndFirmware :
    let e := dbEvent 1 0 0x91 0 0 0 []
    let dq : State := { upSt with dbQueue := [e] }
    let re (s : State) (n left : Nat) : State := { s with sisyn := { s.sisyn with recheck := [(n, left)] } }
    let d := withReg upSt (Reg.PWR_QSTATE 243) 1
    let same : State := { d with sisyn := { d.sisyn with record := [(243, 1)] } }
    let fw (s : State) : State := { s with sisyn := { s.sisyn with staged := true } }
    let svn := withReg upSt Reg.SISYN_FW_SVN 64
    let full : State := { svn with lc := { svn.lc with passbook := List.replicate 26198 default } }
    (upSt.sisyn.noFw = false ∧ dq.dbQueue = [e] ∧ upSt.dbQueue = []) ∧
    (d.watchDiffers 243 = true ∧ same.watchDiffers 243 = false ∧ (∀ n ∈ [1, 3], tabGet 0 (re d 243 n).sisyn.recheck 243 = n ∧
      (re d 243 n).watchDiffers 243 = true ∧ (re same 243 n).watchDiffers 243 = false) ∧ d.qst 243 = 1) ∧
    (let s := re (withReg upSt Reg.PWR_DOMAIN_STATE (2 ^ 25)) 285 1
     s.watchDiffers 285 = true ∧ tabGet 0 s.sisyn.recheck 285 = 1 ∧ watchNum (.domain 25) = 285) ∧
    (upSt.slotToWrite = 1 ∧ upSt.fuseF = 0 ∧ (fw upSt).slotImage 1 ≠ 0 ∧ (fw upSt).fuseF ≤ (fw upSt).slotSvn 1 ∧
      (fw upSt).slotCount 1 < 3 ∧ (64 : BitVec 7).toNat ≤ 64) ∧
    (svn.slotActive = 0 ∧ svn.slotSvn 0 = 64 ∧ svn.fuseF < svn.slotSvn 0 ∧ svn.lc.passbook.length + 17 ≤ 26214 ∧
      26214 < full.lc.passbook.length + 17 ∧ upSt.slotSvn upSt.slotActive ≤ upSt.fuseF) := by decide +kernel

/-- A hold of the last cage: crossed, on a locked strip, in an empty cage, with a module, and where a gesture drained it. -/
theorem witness_FaceplateGesturesAndPowerOff_strip :
    let hold (s : State) (crossed : BitVec 8) : State := { s with sisyn := { s.sisyn with strip := ⟨0x80, crossed, 0, 0, 0, 0⟩ } }
    let m := withReg upSt (Reg.SISYN_FP_CAGE 7) 16
    let g := withReg upSt (Reg.SISYN_FP_CAGE 7) 24
    let g := (g.setPort 14 { PortSt.reset with st := 4 }).setPort 15 { PortSt.reset with st := 4 }
    let held (s : State) : Bool := s.sisyn.strip.touched.getLsbD 7 && !s.sisyn.strip.stuck.getLsbD 7 && !s.sisyn.strip.done.getLsbD 7
    held (hold m 0) = true ∧ held upSt = false ∧ (hold m 0x80).sisyn.strip.crossed.getLsbD 7 = true ∧
    (withReg upSt Reg.SISYN_FP_CTL 1).field Reg.SISYN_FP_CTL 0 1 = 1 ∧ upSt.cageModule 7 = false ∧ (upSt.port 15).st = 0 ∧
    (hold m 0).cageModule 7 = true ∧ (hold m 0).sisyn.strip.crossed.getLsbD 7 = false ∧ (hold m 0).field Reg.SISYN_FP_CTL 0 1 = 0 ∧
    (hold m 0).sisyn.attn = 0 ∧ (hold m 0).gestureDrain 7 = false ∧
    (hold g 0).gestureDrain 7 = true ∧ ((hold g 0).port 14).st = 4 ∧ ((hold g 0).port 15).st = 4 ∧ (hold g 0).cageModule 7 = true ∧
    (hold m 0).dbQueue.length < 1024 ∧ (withReg (hold m 0) (Reg.PWR_QSTATE 259) 1).qst (244 + 15) = 1 := by decide +kernel

/-- ATTN in each of its states, with a task and without, the switch locked, and a domain on. -/
theorem witness_FaceplateGesturesAndPowerOff_attn :
    let s (a : Nat) : State := { upSt with sisyn := { upSt.sisyn with attn := a } }
    let z : State := { upSt with lc := { upSt.lc with zeroise := some ⟨.field, 0, 0, 0, 0⟩ } }
    (∀ a ∈ [0, 1, 2, 3], (s a).sisyn.attn = a) ∧ upSt.lc.zeroise = none ∧ z.lc.zeroise ≠ none ∧ (s 1).sched.st = .idle ∧
    (inTask (s 1)).sched.st ≠ .idle ∧ (withReg upSt Reg.SISYN_FP_CTL 2).field Reg.SISYN_FP_CTL 1 1 = 1 ∧
    upSt.field Reg.SISYN_FP_CTL 1 1 = 0 ∧ (∀ d, d < 26 → (s 2).domainOn d = false) ∧
    (withReg (s 2) Reg.PWR_DOMAIN_STATE (2 ^ 25)).domainOn 25 = true := by decide +kernel

/-- The digest of three bytes, as FIPS 180-4 gives it for "abc". -/
theorem test_sha384_of_abc : sha384 [0x61, 0x62, 0x63] =
    0xCB00753F45A35E8BB5A03D699AC65007272C32AB0EDED1631A8B605A43FF5BED8086072BA1E7CC2358BAECA134C825A7#384 := by decide +kernel

/-- A public key on brainpoolP384r1, as its 96 bytes stand in a token, least significant byte first; its private key, outside the model, signed
the tokens below. -/
def ownerKey : Nat :=
  0xEDC2134DD323F92FF5422769EFE7E3A81DC829EC4284493A04CB8FEE0F2010B7D56AB9D572FAD88FE59E8AE68ED89B44 * 2 ^ 384 +
  0x1694168A06C396C1DBC01468821FDDC0C877BDB302DF53B5AB87CD31F23ED650307DB202C81EB219BD00AC1FE24BB845

/-- SHA-384 of that key, computed outside the model. -/
def ownerHash : BitVec 384 :=
  0x1EDFA57F6E63389E179DE13A6FAFFC840D61D0C58F4205AF8CE7F9651D601549E283A764BAAB61FF7652D6893C097244

/-- A token of a kind, with a duration and a target, for the module of serial number 5, owner slot 0 and nonce 7, as R490 lays it out, with the
bytes of its signature. -/
def tokenWord (kind duration target : Nat) (sig : Nat × Nat) : TokenVia :=
  .mctp (BitVec.ofNat 2560 (1 + kind * 2 ^ 16 + 5 * 2 ^ 32 + 7 * 2 ^ 96 + duration * 2 ^ 224 + target * 2 ^ 272 + ownerKey * 2 ^ 1024 +
    (sig.1 * 2 ^ 384 + sig.2) * 2 ^ 1792))

/-- The module of serial number 5 in a state, with V_IN or without, whose owner slot 0 holds that key's digest, with slot 1 empty or a key, and
nonce 7. -/
def ownerSt (st : LcState) (other : Nat) (vin : Bool) : State :=
  { upSt with
    serial := 5
    power := { upSt.power with vin := vin }
    lc := { upSt.lc with state := st, slots := [(0, ⟨1, ownerHash⟩), (1, ⟨other, 5⟩)], nonce := some 7 } }

/-- What the statement asks of a token that is accepted. -/
def accepts (kind duration target : Nat) (sig : Nat × Nat) (st : LcState) (other : Nat) : Bool :=
  let s := ownerSt st other true
  let via := tokenWord kind duration target sig
  let t := s.tokenVia via
  s.submits via .sisyn kind && s.tokenOk t && !s.lcBusy && s.pbRoom t.records.1 t.records.2 && t.duration == duration

/-- Whether a token is accepted does not hang on V_IN. -/
theorem accepts_vin (st : LcState) (other : Nat) :
    (ownerSt st other false).tokenOk = (ownerSt st other true).tokenOk := rfl

/-- A token of 60 seconds begins a debug session from FIELD. -/
theorem witness_TokensChangeTheLifecycle_begins_a_session : accepts 1 60 0
    (0xE9FA1761C910264997B7C5DAA8530A55518522347C8641C31EAAE7F10145601873F57CFAB60512F2CEAA45501568FC18,
      0x0E606F487F093187909E65E6F8EF6CDF798128773913F76AFFE929FAE216B0BE0846585D1A575A3FDA2CE23E65537C7B) .field 1 = true := by decide +kernel

/-- One of duration 0 ends a session. -/
theorem witness_TokensChangeTheLifecycle_ends_a_session : accepts 1 0 0
    (0x0066B47AF9492FB014A6296F878B8412F764D22EEA42E409429C8F19C370CBE75F8A9F872FC5A77715C9FCB1D347E647,
      0x56FBE5993B3C1DF386D8E53B1090B755BBE98C8DEEFA39F3743FAEC751A2C3877E1C4878CCF90346EB5E234FB32E2F2B) .fieldDebug 1 = true := by decide +kernel

/-- A RETURN token. -/
theorem witness_TokensChangeTheLifecycle_returns : accepts 2 0 0
    (0x0B0EDEF0CDE5E17840BDA6605FA6D329666E3C45FB5CA66E9E631E125B7706CCA4AA72253015FAC42129B65DA492A55B,
      0xBAD543006BD6582A9FB9A8E3736227177AC815FCE7D35CACD183236193277967E6A462D6C55909A91EF1A3FA3A63A506) .field 1 = true := by decide +kernel

/-- A SCRAP token. -/
theorem witness_TokensChangeTheLifecycle_scraps : accepts 3 0 0
    (0xD9EB64BB8D4592501C0FEECC07E4C18771C65014B90A031F8BCB2E6606DBB07A640D3F1ED4DFD18319AACB8B709BBA0C,
      0xA5CECE82C9F6284BB2052D8EDEFA20A32692A91AB6B6B5AE7D78DA4AAF75B5048DB2F21F52A0E535ADFA047375555486) .field 1 = true := by decide +kernel

/-- A KEY_ADD token for an empty slot. -/
theorem witness_TokensChangeTheLifecycle_adds_a_key : accepts 4 0 1
    (0xFD7E789C08FBD095704B30A8371248CFC764402B3C29BE63C3DBA104C342B11F076E2673972B0DA3802434E0B7FC8166,
      0xF4E57B2BBA35471A3FFB3EB05A73EAC9C896B792C1DDF87B83AB6ACF8468E952CF462C81A60DC792866BDBC227026020) .field 0 = true := by decide +kernel

/-- A KEY_REVOKE token of another slot than the owner's. -/
theorem witness_TokensChangeTheLifecycle_revokes_a_key : accepts 5 0 1
    (0xD4E8C81C4AAF65BBF7166987429BEFA07B220823B0E3447AAD71243AD8CC15E9BE71A4353BE0A20CBC1D68D37C429639,
      0x8D8A1528A34C77006F5135DD98DF8621F03438838B24CE0F09C6B084EEB2D7250878EB31D33F28D6C299539F80D00A33) .field 1 = true := by decide +kernel

/-- Submissions of each kind, and of a kind and a version that are refused; a busy module, a full passbook. -/
theorem witness_TokensChangeTheLifecycle_refused :
    let via (k v : Nat) : TokenVia := .mctp (BitVec.ofNat 2560 (v + k * 2 ^ 16))
    let s : State := upSt
    let z : State := { s with lc := { s.lc with zeroise := some ⟨.field, 0, 0, 0, 0⟩ } }
    let full : State := { s with lc := { s.lc with passbook := List.replicate 26214 default } }
    (∀ k ∈ [1, 2, 3, 4, 5], s.submits (via k 1) .sisyn k = true ∧ s.submits (via k 2) .sisyn k = false ∧
      (s.tokenVia (via k 1)).kind = k ∧ s.tokenOk (s.tokenVia (via k 1)) = false ∧ State.reset.submits .buffer (.core 63) k = false) ∧
    s.lcBusy = false ∧ z.lcBusy = true ∧ (∀ k ∈ [(4, true), (3, true), (1, false)], full.pbRoom k.1 k.2 = false) ∧
    (s.tokenVia (via 0 1)).kind = 0 ∧ 5 < (s.tokenVia (via 6 1)).kind ∧ (s.tokenVia (via 1 2)).version ≠ 1 := by decide +kernel

/-- The lifecycle states that open privileged commands and those that refuse them. -/
theorem witness_PrivilegedCommandsAndAttestation :
    let s (st : LcState) : State := { upSt with lc := { upSt.lc with state := st } }
    let dbg : State := { s .fieldDebug with lc := { (s .fieldDebug).lc with scope := 4 } }
    upSt.power.aux = true ∧ upSt.sisyn.noFw = false ∧ upSt.lc.state = .blank ∧ (s .field).lc.state = .field ∧ dbg.lc.state = .fieldDebug ∧
    bitOf dbg.lc.scope 2 = true ∧ bitOf (s .fieldDebug).lc.scope 2 = false ∧ (s .scrap).lc.state = .scrap ∧
    (∀ a ∈ [(0x3100000, 0), (0x34FFFFF, 26214)], 0x3100000 ≤ a.1 ∧ a.1 < 0x3500000 ∧ (a.1 - 0x3100000) / 160 = a.2) ∧
    0 < (List.replicate 26214 (default : PbRecord)).length ∧ ([] : List PbRecord).length < 26214 ∧
    makerPath .maker (.toField 5) = true ∧ makerPath .field (.toField 5) = false ∧ (s .maker).lcBusy = false ∧
    (s .maker).lc.passbook.length + 19 ≤ 26214 ∧ (s .maker).power.vin = true ∧ (1 : Word).getLsbD 0 = true ∧
    (∀ i ∈ [1, 2, 3, 4, 5, 6, 7, 8], (upSt.measure i).isSome = true) ∧ (∀ i ∈ [0, 9, 255], (upSt.measure i).isSome = false) := by
  decide +kernel

/-- Challenges of the first slot and of an empty one, the measurements of both ends of their range, the records at both ends of the
passbook, and a nonce asked for and not. -/
theorem witness_PrivilegedCommandsAndAttestation_answers :
    let rec_ (n : Nat) : PbRecord := { (default : PbRecord) with seq := n }
    let s : State := { upSt with lc := { upSt.lc with passbook := [rec_ 0, rec_ (2 ^ 32 - 1)] } }
    let ask (slot : BitVec 8) : SpdmChallenge := ⟨slot, 0xFF, 5⟩
    s.power.aux = true ∧ s.sisyn.noFw = false ∧ s.lc.state ≠ .scrap ∧ (ask 0).slot = 0 ∧ (ask 1).slot ≠ 0 ∧ (ask 255).slot ≠ 0 ∧
    (∀ i ∈ [1, 8], (s.measureAsked (.index i)).isSome = true) ∧ (∀ i ∈ [0, 9, 255], (s.measureAsked (.index i)).isSome = false) ∧
    (∀ p ∈ [rec_ 0, rec_ (2 ^ 32 - 1)], p ∈ s.lc.passbook) ∧ (rec_ (2 ^ 32 - 1)).seq = (0xFFFFFFFF : Word).toNat ∧
    (s.measureAsked (.record 0)).isSome = true ∧ (0 : Word).getLsbD 0 = false ∧ upSt.lc.state = .blank ∧
    upSt.lc.passbook.length + 17 ≤ 26214 ∧ State.reset.sisyn.noFw = false := by decide +kernel

/-- Places of calibration and of Sisyn's debug access at both ends. -/
theorem test_privileged_places :
    (∀ q ∈ [(0 : Fin 16), 15], let t := after (.calibrationWrite (.quad q) 7 9) upSt;
      (t.norByte (0x3500000 + 2 * q.val), t.norByte (0x3500000 + 2 * q.val + 1)) = (7, 9)) ∧
    (let t := after (.calibrationWrite (.trim 147) 7 9) upSt; (t.norByte 0x3500146, t.norByte 0x3500147) = (7, 9)) ∧
    (let t := after (.sisynDebugAccess (.register 0xFFF) (some 7)) upSt;
      (tabGet 0 t.sisyn.debugRegs 0xFFF, tabGet 0 t.sisyn.sram 0xFFF) = (7, 0)) := by decide +kernel

end Sys2Proof.Tests
end

section
/-! SUPPORT. The family 00_scope.md: what every step keeps, and the state after reset. -/

namespace Sys2Proof.Machine

/-! Losing AUX. -/

/-- The part without power is built from the reset state, whose serial number is the free value of the configuration, whatever
number the part had before. -/
@[simp] theorem State.bare_serial (s : State) : s.bare.serial = Config.serialNumber := rfl

/-- A part with AUX power and a serial number of its own, about to lose AUX. -/
def ownSerialSt : State :=
  { State.reset with
    pending := [.auxLoss]
    serial := Config.serialNumber + 1
    power := { PowerSt.reset with aux := true } }

theorem step_ownSerialSt : ∃ t, step ownSerialSt = .next t ∧ t.serial = Config.serialNumber :=
  ⟨_, rfl, State.bare_serial _⟩

/-- Refutes O3: AUX_LOSS puts the Device Serial Number of the reset state (log entry 84) in the place of the part's own, so a part
whose number is another one does not keep it. -/
theorem not_everyStepKeepsTheConfiguration : ¬ Obligations.EveryStepKeepsTheConfiguration := by
  unfold Obligations.EveryStepKeepsTheConfiguration
  intro h
  obtain ⟨t, hstep, hserial⟩ := step_ownSerialSt
  obtain ⟨-, hkept, -⟩ := h _ t hstep
  have hown : Config.serialNumber = Config.serialNumber + 1 := hserial.symm.trans hkept
  bv_omega

/-! Identification registers (R4). -/

/-- Every block row has an 8-bit unit_kind and at most 192 units, each of a positive pitch. -/
theorem blockTable_small : ∀ b ∈ blockTable, b.unit < 256 ∧ b.count ≤ 192 ∧ 0 < b.stride := by decide

/-- A block place has an 8-bit unit_kind and a unit number below 192. -/
theorem blockAt_small {x : Nat} {b : BlockAt} (h : blockAt x = some b) : b.unit < 256 ∧ b.inst < 192 := by
  obtain ⟨row, hrow, hin⟩ := List.exists_of_findSome?_eq_some h
  obtain ⟨hunit, hcount, hstride⟩ := blockTable_small row hrow
  unfold blockIn at hin
  split at hin
  · next hx =>
    obtain ⟨hlo, hhi, -⟩ := hx
    cases hin
    refine ⟨hunit, lt_of_lt_of_le (Nat.div_lt_of_lt_mul ?_) hcount⟩
    omega
  · cases hin

/-- An identification register holds unit kind, index and version after reset (R4). -/
theorem regReset_id {v : Variant} {x : Nat} {b : BlockAt} (h : blockAt x = some b) (hid : b.off = 0) :
    (regReset v x).toNat = b.unit * 2 ^ 24 + b.inst * 2 ^ 12 + 1 := by
  obtain ⟨hunit, hinst⟩ := blockAt_small h
  simp only [regReset, h, hid, if_true, BitVec.toNat_ofNat]
  omega

/-- Settles O60: every part of the state after reset is its own rest state, and an unlisted register reads as its reset value. -/
theorem resetStateIsAtRest : Obligations.ResetStateIsAtRest :=
  ⟨rfl, rfl, State.memoryCanonical_reset, rfl, fun _ => rfl, fun _ => rfl, fun _ _ h hid => regReset_id h hid, fun _ _ => rfl,
    fun _ => rfl, fun _ => rfl, rfl, rfl⟩

end Sys2Proof.Machine
end

section
/-! SUPPORT. The family 00_scope.md: register writes in control space, in configuration space and in the MSI-X table. -/

namespace Sys2Proof.Machine

/-! Writes in control space (R9, R11, R422). -/

theorem exec_registerWrite_control (s : State) (r : Requester) (offset : BitVec 28) (wide : Bool) (value : Dword) :
    exec (.registerWrite r ⟨.control, offset⟩ wide value) s = .next (s.controlWrite r offset.toNat wide value) := by
  cases r <;> rfl

/-- A register block lies at an offset that the map assigns. -/
theorem mapAssigns_of_blockAt {x : Nat} {b : BlockAt} (h : blockAt x = some b) : mapAssigns x = true := by
  simp [mapAssigns, h]

/-- A write that the map assigns, or that no host makes, reaches the registers. -/
theorem State.controlWrite_plain (s : State) {r : Requester} {x : Nat} (wide : Bool) (v : Dword)
    (h : mapAssigns x = true ∨ ∀ port, r ≠ .host port) :
    s.controlWrite r x wide v =
      if wide then
        (if x % 8 = 0 ∧ wideInside x then (s.regWrite r x (v.setWidth 32)).regWrite r (x + 4) ((v >>> 32).setWidth 32) else s)
      else s.regWrite r x (v.setWidth 32) := by
  unfold State.controlWrite
  split
  · next port hm =>
    rcases h with h | h
    · rw [h] at hm; cases hm
    · exact absurd rfl (h port)
  · rfl

/-- A host's write to an offset that the map does not assign is counted alone. -/
theorem State.controlWrite_unmapped (s : State) (port : HostPort) {x : Nat} (wide : Bool) (v : Dword) (h : mapAssigns x = false) :
    s.controlWrite (.host port) x wide v = s.bump32 (Reg.HOST_UNMAPPED (hostNum port)) 1 := by
  simp [State.controlWrite, h]

theorem State.controlWrite_narrow (s : State) {r : Requester} {x : Nat} {b : BlockAt} (v : Dword) (h : blockAt x = some b) :
    s.controlWrite r x false v = s.regWrite r x (v.setWidth 32) :=
  s.controlWrite_plain false v (.inl (mapAssigns_of_blockAt h))

theorem State.regWrite_plainWrite (s : State) {r : Requester} {x : Nat} {b : BlockAt} (v : Word) (h : blockAt x = some b)
    (hr : reaches r b = true) (hx : x % 4 = 0) : s.regWrite r x v = s.plainWrite b x v := by
  simp [State.regWrite, h, hr, hx]

theorem State.regWrite_absent (s : State) (r : Requester) {x : Nat} {b : BlockAt} (v : Word) (h : blockAt x = some b)
    (ha : s.blockAbsent b.kind b.inst = true) : s.regWrite r x v = s := by
  simp [State.regWrite, h, State.plainWrite, ha]

theorem State.regWrite_noBlock (s : State) (r : Requester) {x : Nat} (v : Word) (h : blockAt x = none) : s.regWrite r x v = s := by
  simp [State.regWrite, h]

theorem ownBits_lt (k : BlockKind) (o : Nat) : ownBits k o < 2 ^ 32 := by
  unfold ownBits
  cases k <;> dsimp only <;> (try split) <;> decide

/-- A row of the map without the bits that have a command of their own. -/
theorem testBit_withoutOwn (rw own i : Nat) (h : own < 2 ^ 32) (hi : i < 32) :
    (rw &&& (0xFFFFFFFF - own)).testBit i = (rw.testBit i && !own.testBit i) := by
  have hsub : 0xFFFFFFFF - own = 2 ^ 32 - (own + 1) := by omega
  rw [Nat.testBit_and, hsub, Nat.testBit_two_pow_sub_succ h]
  simp [hi]

/-- A bit of a register after a write under its access code (R9). -/
theorem State.getLsbD_maskedWrite (s : State) (x : Nat) (row : RegRow) (v : Word) {i : Nat} (hi : i < 32) :
    ((s.maskedWrite x row v).reg x).getLsbD i =
      ((if row.rw.testBit i then v.getLsbD i else (s.reg x).getLsbD i) && !(v.getLsbD i && row.w1c.testBit i)) := by
  simp only [State.maskedWrite, State.reg_setReg_same, BitVec.getLsbD_and, BitVec.getLsbD_or, BitVec.getLsbD_not,
    BitVec.getLsbD_ofNat, hi, decide_true, Bool.true_and]
  cases row.rw.testBit i <;> simp

/-- Every bit that a 1 clears has a command of its own (R93, R203, R351). -/
theorem blockTable_w1c_owned : ∀ b ∈ blockTable, ∀ row ∈ b.rows, row.w1c ≠ 0 → ∀ j < row.count,
    row.w1c &&& ownBits b.kind (row.off + row.stride * j) = row.w1c := by
  decide

/-- A register that a row covers is one of the row's registers, at its stride. -/
theorem RegRow.exists_of_covers {row : RegRow} {o : Nat} (h : row.covers o = true) : ∃ j < row.count, o = row.off + row.stride * j := by
  simp only [RegRow.covers, Bool.and_eq_true, decide_eq_true_eq, beq_iff_eq] at h
  obtain ⟨⟨hle, hlt⟩, hmod⟩ := h
  have hdiv : row.stride * ((o - row.off) / row.stride) = o - row.off := Nat.mul_div_cancel' (Nat.dvd_of_mod_eq_zero hmod)
  exact ⟨(o - row.off) / row.stride, Nat.lt_of_mul_lt_mul_left (a := row.stride) (by omega), by omega⟩

theorem exists_blockRow_of_blockAt {x : Nat} {b : BlockAt} (h : blockAt x = some b) :
    ∃ br ∈ blockTable, br.kind = b.kind ∧ br.rows = b.rows := by
  obtain ⟨br, hmem, hin⟩ := List.exists_of_findSome?_eq_some h
  refine ⟨br, hmem, ?_⟩
  unfold blockIn at hin
  split at hin
  · cases hin; exact ⟨rfl, rfl⟩
  · cases hin

/-- No plain write clears a bit by a 1. -/
theorem w1c_withoutOwn_testBit {x : Nat} {b : BlockAt} {row : RegRow} (i : Nat) (hb : blockAt x = some b)
    (hrow : b.rows.find? (·.covers b.off) = some row) :
    (row.w1c.testBit i && !(ownBits b.kind b.off).testBit i) = false := by
  obtain ⟨br, hmem, hkind, hrows⟩ := exists_blockRow_of_blockAt hb
  have hcovers : row.covers b.off = true := List.find?_some (p := fun row : RegRow => row.covers b.off) hrow
  obtain ⟨j, hj, hoff⟩ := RegRow.exists_of_covers hcovers
  by_cases h0 : row.w1c = 0
  · simp [h0]
  · have hand := blockTable_w1c_owned br hmem row (hrows ▸ List.mem_of_find?_eq_some hrow) h0 j hj
    rw [hkind, ← hoff] at hand
    have hbit : (row.w1c.testBit i && (ownBits b.kind b.off).testBit i) = row.w1c.testBit i := by
      rw [← Nat.testBit_and, hand]
    revert hbit
    cases row.w1c.testBit i <;> simp

theorem State.maskedWrite_regsSameBut (s : State) (x : Nat) (row : RegRow) (v : Word) : RegsSameBut s (s.maskedWrite x row v) [x] :=
  fun _ hy => s.reg_setReg_other _ (by simpa using hy)

theorem State.bump32_regsSameBut (s : State) (x n : Nat) : RegsSameBut s (s.bump32 x n) [x] :=
  fun _ hy => s.reg_bump32_other _ (by simpa using hy)

theorem State.bump32_eq (s : State) (x n : Nat) : s.bump32 x n = { s with regs := (s.bump32 x n).regs } := by
  unfold State.bump32; split <;> rfl

/-- A 4-byte write to a register of a present unit, by the access codes of its bits. -/
theorem State.plainWrite_row (s : State) {b : BlockAt} {row : RegRow} (x : Nat) (v : Word)
    (ha : s.blockAbsent b.kind b.inst = false) (ho : ¬ (b.kind = .spad ∧ b.off = 0xC))
    (hrow : b.rows.find? (·.covers b.off) = some row) :
    s.plainWrite b x v = s.maskedWrite x { row with
      rw := row.rw &&& (0xFFFFFFFF - ownBits b.kind b.off), w1c := row.w1c &&& (0xFFFFFFFF - ownBits b.kind b.off) } v := by
  simp only [State.plainWrite, ha, if_neg ho, hrow]
  rfl

theorem State.plainWrite_hole (s : State) {b : BlockAt} (x : Nat) (v : Word) (ha : s.blockAbsent b.kind b.inst = false)
    (ho : ¬ (b.kind = .spad ∧ b.off = 0xC)) (hrow : b.rows.find? (·.covers b.off) = none) : s.plainWrite b x v = s := by
  simp only [State.plainWrite, ha, if_neg ho, hrow]
  rfl

theorem State.plainWrite_owner (s : State) {b : BlockAt} (x : Nat) (v : Word) (ha : s.blockAbsent b.kind b.inst = false)
    (ho : b.kind = .spad ∧ b.off = 0xC) : s.plainWrite b x v = s.ownerWrite b.inst v := by
  simp only [State.plainWrite, ha, if_pos ho]
  rfl

/-- In the frozen statement `=` binds more tightly than `&&`, so its second factor says by itself that no plain write clears a bit by
a 1; both factors hold, by `w1c_withoutOwn_testBit`. -/
theorem controlWritesFollowAccessCodes_holds : controlWritesFollowAccessCodes := by
  intro s r offset value b
  dsimp only
  simp only [exec_registerWrite_control]
  refine ⟨fun hb hr hx ha => ⟨fun ho => ?_, fun row ho hrow => ?_, fun ho hrow => ?_⟩, fun hb ha => ?_, fun hb hp => ?_,
    fun hw hp => ?_, fun port wide hport hm => ?_, fun hw => ?_⟩
  · rw [s.controlWrite_narrow value hb, s.regWrite_plainWrite _ hb hr hx, s.plainWrite_owner _ _ ha ho]
    exact ⟨_, rfl, s.core_modCore_same _ _, rfl, fun d hd => s.core_modCore_other _ hd⟩
  · rw [s.controlWrite_narrow value hb, s.regWrite_plainWrite _ hb hr hx, s.plainWrite_row _ _ ha ho hrow]
    refine ⟨_, rfl, fun i hi => ?_, s.maskedWrite_regsSameBut _ _ _, rfl⟩
    have hown := ownBits_lt b.kind b.off
    rw [State.getLsbD_maskedWrite _ _ _ _ hi]
    have hw1c := w1c_withoutOwn_testBit i hb hrow
    simp [testBit_withoutOwn _ _ _ hown hi, hi, hw1c, Bool.and_assoc]
  · rw [s.controlWrite_narrow value hb, s.regWrite_plainWrite _ hb hr hx, s.plainWrite_hole _ _ ha ho hrow]
  · rw [s.controlWrite_narrow value hb, s.regWrite_absent r _ hb ha]
  · rw [s.controlWrite_plain false value hp, if_neg (by decide), s.regWrite_noBlock r _ hb]
  · have hin : ¬ (offset.toNat % 8 = 0 ∧ wideInside offset.toNat = true) := by
      rcases hw with hw | hw <;> simp [hw]
    rw [s.controlWrite_plain true value hp, if_pos rfl, if_neg hin]
  · subst hport
    rw [s.controlWrite_unmapped port wide value hm]
    exact ⟨_, rfl, s.regN_bump32 _ _, s.bump32_regsSameBut _ _, s.bump32_eq _ _⟩
  · simp [State.regRead8, hw]

/-! Writes in configuration space (R419, R433, R438). -/

theorem State.reply_same (s : State) (k kind status : Nat) (bs : List Byte) :
    tabGet default (s.reply k kind status bs).replies k = ⟨kind, status, bs⟩ :=
  tabGet_set_same _ _ _ _

/-- A configuration request to a port that is ready: its configuration space alone changes, and it is answered. -/
theorem State.configWrite_ready (s : State) (port : HostPort) (f : PcieCfg → PcieCfg) (h : s.portReady (hostNum port) = true) :
    let p := hostNum port
    let t := s.configWrite p f
    t.cfg p = f (s.cfg p) ∧ t.cfg (1 - p) = s.cfg (1 - p) ∧ tabGet default t.replies p = ⟨0, 0, []⟩ ∧
      t = { s with hosts := { s.hosts with cfgA := t.hosts.cfgA, cfgB := t.hosts.cfgB }, replies := t.replies } := by
  simp only [State.configWrite, h, if_true]
  refine ⟨?_, ?_, State.reply_same _ _ _ _ _, ?_⟩ <;> cases port <;> rfl

/-- Before the port is ready the request is answered with retry status. -/
theorem State.configWrite_notReady (s : State) (p : Nat) (f : PcieCfg → PcieCfg) (h : s.portReady p = false) :
    s.configWrite p f = s.reply p 4 0 [] := by
  rw [State.configWrite, h, if_neg Bool.false_ne_true]

/-- A write of one of the six base address words, with each base as the word leaves it. -/
theorem PcieCfg.writeBar_eq (c : PcieCfg) (k : Nat) (v : Word) :
    c.writeBar k v = { c with
      base0 := if k / 2 = 0 then setHalf c.base0 (k % 2 == 1) v else c.base0
      base2 := if k / 2 = 1 then setHalf c.base2 (k % 2 == 1) v else c.base2
      base4 := if k / 2 = 2 then setHalf c.base4 (k % 2 == 1) v else c.base4 } := by
  have h0 : k < 2 ↔ k / 2 = 0 := by omega
  have h1 : k < 4 ↔ k / 2 ≤ 1 := by omega
  have h2 : k < 6 ↔ k / 2 ≤ 2 := by omega
  simp only [PcieCfg.writeBar, h0, h1, h2]
  generalize k / 2 = j
  match j with
  | 0 => simp
  | 1 => simp
  | 2 => simp
  | j + 3 => simp

theorem setHalf_setWidth (base value : Dword) (k : Nat) :
    setHalf base (k % 2 == 1) (value.setWidth 32) = BitVec.ofNat 64
      (if k % 2 = 1 then base.toNat % 2 ^ 32 + value.toNat % 2 ^ 32 * 2 ^ 32
       else base.toNat / 2 ^ 32 * 2 ^ 32 + value.toNat % 2 ^ 32) := by
  by_cases h : k % 2 = 1 <;> simp [setHalf, h]

/-- A size field of Device Control as a number. -/
theorem toNat_sizeField (value : Dword) (lo : Nat) (h : lo + 3 ≤ 16) :
    ((value.setWidth 16).extractLsb' lo 3).toNat = value.toNat / 2 ^ lo % 8 := by
  have hw : (value.setWidth 16).extractLsb' lo 3 = value.extractLsb' lo 3 := by
    ext i hi
    simp only [BitVec.getElem_extractLsb', BitVec.getLsbD_setWidth]
    simp
    omega
  rw [hw, BitVec.extractLsb'_toNat, Nat.shiftRight_eq_div_pow]

theorem PcieCfg.writeDevice_eq (c : PcieCfg) (value : Dword) :
    c.writeDevice (value.setWidth 16) = { c with
      payload := if value.toNat / 2 ^ 5 % 8 ≤ 2 then BitVec.ofNat 3 (value.toNat / 2 ^ 5 % 8) else c.payload
      readSize := if value.toNat / 2 ^ 12 % 8 ≤ 5 then BitVec.ofNat 3 (value.toNat / 2 ^ 12 % 8) else c.readSize } := by
  rw [← toNat_sizeField value 5 (by decide), ← toNat_sizeField value 12 (by decide)]
  simp only [PcieCfg.writeDevice, BitVec.ofNat_toNat, BitVec.setWidth_eq]

theorem PcieCfg.writeAer_eq (c : PcieCfg) (o : Nat) (v : Word) :
    c.writeAer o v = { c with aer := {
      uncStatus := if o = 0x4 then c.aer.uncStatus &&& ~~~v else c.aer.uncStatus
      uncMask := if o = 0x8 then v else c.aer.uncMask
      uncSeverity := if o = 0xC then v else c.aer.uncSeverity
      corStatus := if o = 0x10 then c.aer.corStatus &&& ~~~v else c.aer.corStatus
      corMask := if o = 0x14 then v else c.aer.corMask } } := by
  unfold PcieCfg.writeAer
  split
  · next h => subst h; rfl
  split
  · next h => subst h; rfl
  split
  · next h => subst h; rfl
  split
  · next h => subst h; rfl
  split
  · next h => subst h; rfl
  rfl

/-! The MSI-X table (R420). -/

theorem State.bar4Byte_setBar4_same (s : State) (p o : Nat) (b : Byte) : (s.setBar4 p o b).bar4Byte p o = b := by
  simp only [State.bar4Byte, State.setBar4, tabGet_set_same, BitVec.xor_assoc, BitVec.xor_self, BitVec.xor_zero]

theorem State.bar4Byte_setBar4_other (s : State) {p q o o' : Nat} (b : Byte) (ho : o < 2 ^ 16) (ho' : o' < 2 ^ 16)
    (h : q ≠ p ∨ o' ≠ o) : (s.setBar4 p o b).bar4Byte q o' = s.bar4Byte q o' := by
  have hne : q * 2 ^ 16 + o' ≠ p * 2 ^ 16 + o := by omega
  simp only [State.bar4Byte, State.setBar4, tabGet_set_other _ _ _ hne]

/-- The bytes of port `p`'s BAR4 from `x` on are `bs`, and every other byte and the rest of the state are as they were. -/
structure State.Bar4Holds (s t : State) (p x : Nat) (bs : List Byte) : Prop where
  written : ∀ i (h : i < bs.length), t.bar4Byte p (x + i) = bs[i]
  others : ∀ q o, o < 2 ^ 16 → (q ≠ p ∨ o < x ∨ x + bs.length ≤ o) → t.bar4Byte q o = s.bar4Byte q o
  rest : t = { s with hosts := { s.hosts with bar4 := t.hosts.bar4 } }

theorem State.Bar4Holds.nil (s : State) (p x : Nat) : s.Bar4Holds s p x [] :=
  ⟨fun _ h => absurd h (Nat.not_lt_zero _), fun _ _ _ _ => rfl, rfl⟩

theorem State.Bar4Holds.cons {s t : State} {p x : Nat} {b : Byte} {bs : List Byte} (hx : x < 2 ^ 16)
    (h : (s.setBar4 p x b).Bar4Holds t p (x + 1) bs) : s.Bar4Holds t p x (b :: bs) where
  written
    | 0, _ => by
      rw [h.others p (x + 0) hx (.inr (.inl (by omega)))]
      exact s.bar4Byte_setBar4_same p x b
    | i + 1, hi => by
      have := h.written i (by simpa using hi)
      simpa [Nat.add_comm, Nat.add_left_comm] using this
  others q o ho hq := by
    rw [List.length_cons] at hq
    rw [h.others q o ho (by omega), s.bar4Byte_setBar4_other b hx ho (by omega)]
  rest := h.rest

/-- Bytes written inside a table entry's address and data. -/
theorem State.bar4Stores_hold (p x : Nat) (bs : List Byte) (k : Nat) (s : State)
    (h : ∀ i, i < bs.length → x + k + i < 0x8000 ∧ (x + k + i) % 16 < 12) :
    s.Bar4Holds ((bs.zipIdx k).foldl (fun s e => s.bar4Store p (x + e.2) e.1) s) p (x + k) bs := by
  induction bs generalizing k s with
  | nil => exact .nil s p _
  | cons b bs ih =>
    obtain ⟨hx, hm⟩ := h 0 (by simp)
    have hstore : s.bar4Store p (x + k) b = s.setBar4 p (x + k) b := by
      rw [State.bar4Store, if_neg (by omega), if_pos (by omega)]
    rw [List.zipIdx_cons, List.foldl_cons, hstore]
    refine .cons (by omega) (ih (k + 1) _ fun i hi => ?_)
    have := h (i + 1) (by simpa using hi)
    rw [show x + (k + 1) + i = x + k + (i + 1) by omega]
    exact this

/-- Bytes written past the table change nothing: the pending-bit array takes no write. -/
theorem State.bar4Stores_past (p x : Nat) (bs : List Byte) (k : Nat) (s : State) (h : 0x8000 ≤ x) :
    (bs.zipIdx k).foldl (fun s e => s.bar4Store p (x + e.2) e.1) s = s := by
  induction bs generalizing k s with
  | nil => rfl
  | cons b bs ih =>
    have hstore : s.bar4Store p (x + k) b = s := by rw [State.bar4Store, if_pos (by omega)]
    rw [List.zipIdx_cons, List.foldl_cons, hstore, ih]

@[simp] theorem length_leBytes (v n : Nat) : (leBytes v n).length = n := by
  induction n generalizing v with
  | zero => rfl
  | succ n ih => rw [leBytes, List.length_cons, ih]

theorem getElem_leBytes (v n i : Nat) (h : i < (leBytes v n).length) : (leBytes v n)[i] = BitVec.ofNat 8 (v / 2 ^ (8 * i)) := by
  induction n generalizing v i with
  | zero => exact absurd h (Nat.not_lt_zero _)
  | succ n ih =>
    match i with
    | 0 => simp [leBytes]
    | i + 1 =>
      simp only [leBytes, List.getElem_cons_succ, ih, Nat.div_div_eq_div_mul]
      rw [show 8 * (i + 1) = 8 + 8 * i by omega, Nat.pow_add]

/-- A write of a vector's control: its mask bit is the one bit that changes. -/
theorem State.bar4Write_control (s : State) (p x : Nat) (v : Dword) (hx : x < 0x8000) (hm : x % 16 = 12) :
    s.bar4Write p x (leBytes v.toNat 4) = s.setBar4 p x (v.setWidth 8 &&& 1) := by
  have hb : BitVec.ofNat 8 v.toNat = v.setWidth 8 := by simp
  have hskip (t : State) (i : Nat) (b : Byte) (hi : 1 ≤ i ∧ i < 4) : t.bar4Store p (x + i) b = t := by
    unfold State.bar4Store
    rw [if_neg (by omega : ¬ (x + i) % 16 < 12), if_neg (by omega : ¬ (x + i) % 16 = 12), ite_self]
  have hstore : s.bar4Store p x (BitVec.ofNat 8 v.toNat) = s.setBar4 p x (v.setWidth 8 &&& 1) := by
    rw [State.bar4Store, if_neg (by omega), if_neg (by omega), if_pos hm, hb]
  simp only [State.bar4Write, leBytes, List.zipIdx_cons, List.zipIdx_nil, List.foldl_cons, List.foldl_nil, Nat.add_zero, Nat.zero_add,
    hstore, hskip _ _ _ (by decide : 1 ≤ 1 ∧ 1 < 4), hskip _ _ _ (by decide : 1 ≤ 1 + 1 ∧ 1 + 1 < 4),
    hskip _ _ _ (by decide : 1 ≤ 1 + 1 + 1 ∧ 1 + 1 + 1 < 4)]

theorem configurationAndTableWrites_holds : configurationAndTableWrites := by
  intro s port offset wide value
  dsimp only
  refine ⟨fun hr => ⟨?_, ?_, ?_, ?_, ?_⟩, fun hr space hs => ?_, fun hx hn => ?_, fun hx hm hw => ?_, fun hx => ?_⟩
  · exact ⟨_, rfl, s.configWrite_ready port _ hr⟩
  · exact ⟨_, rfl, s.configWrite_ready port _ hr⟩
  · simp only [← setHalf_setWidth, ← PcieCfg.writeBar_eq]
    exact ⟨_, rfl, s.configWrite_ready port _ hr⟩
  · rw [← PcieCfg.writeDevice_eq]
    exact ⟨_, rfl, s.configWrite_ready port _ hr⟩
  · rw [← PcieCfg.writeAer_eq]
    exact ⟨_, rfl, s.configWrite_ready port _ hr⟩
  · have hretry (f : PcieCfg → PcieCfg) : s.configWrite (hostNum port) f = s.reply (hostNum port) 4 0 [] :=
      s.configWrite_notReady _ f hr
    refine ⟨s.reply (hostNum port) 4 0 [], ?_, s.reply_same _ _ _ _, rfl⟩
    simp only [List.mem_cons, List.not_mem_nil, or_false] at hs
    rcases hs with rfl | rfl | rfl | rfl | rfl <;> exact congrArg Host.Outcome.next (hretry _)
  · have hexec : exec (.registerWrite (.host port) ⟨.bar4, offset⟩ wide value) s =
        .next (s.bar4Write (hostNum port) offset.toNat (leBytes value.toNat (if wide then 8 else 4))) :=
      congrArg Host.Outcome.next (if_pos (show offset.toNat < 2 ^ 16 by omega))
    generalize (if wide then 8 else 4) = n at hexec hn ⊢
    have h := s.bar4Stores_hold (hostNum port) offset.toNat (leBytes value.toNat n) 0
      (fun i hi => by rw [length_leBytes] at hi; omega)
    obtain ⟨hwritten, hothers, hrest⟩ := h
    rw [length_leBytes] at hothers
    refine ⟨_, hexec, fun i hi => ?_, hothers, hrest⟩
    refine (hwritten i (by rwa [length_leBytes])).trans ?_
    rw [getElem_leBytes]
    simp [BitVec.extractLsb', Nat.shiftRight_eq_div_pow]
  · subst hw
    refine ⟨_, congrArg Host.Outcome.next (if_pos (show offset.toNat < 2 ^ 16 by omega)), ?_⟩
    rw [if_neg Bool.false_ne_true, s.bar4Write_control _ _ _ hx hm]
    refine ⟨fun i hi => ?_, fun q o ho hq => s.bar4Byte_setBar4_other _ (by omega) ho (by omega), rfl⟩
    rw [Nat.lt_one_iff.mp hi]
    exact s.bar4Byte_setBar4_same _ _ _
  · have hpast := s.bar4Stores_past (hostNum port) offset.toNat (leBytes value.toNat (if wide then 8 else 4)) 0 hx
    by_cases h16 : offset.toNat < 2 ^ 16
    · exact congrArg Host.Outcome.next ((if_pos h16).trans hpast)
    · exact congrArg Host.Outcome.next (if_neg h16)

/-- Settles O39, from the equations of a write in control space and of a write to each host space. -/
theorem registerWritesFollowAccessCodes : Obligations.RegisterWritesFollowAccessCodes :=
  ⟨controlWritesFollowAccessCodes_holds, configurationAndTableWrites_holds⟩

end Sys2Proof.Machine
end

section
/-! SUPPORT. What a report, a recorded fault and a stop change, and what they leave (R466, R506–R508, R527). -/

namespace Sys2Proof.Machine

/-! Registers. -/

theorem RegsSameBut.refl (s : State) (l : List Nat) : RegsSameBut s s l := fun _ _ => rfl

theorem RegsSameBut.trans {s t u : State} {l : List Nat} (h : RegsSameBut s t l) (h' : RegsSameBut t u l) : RegsSameBut s u l :=
  fun x hx => (h' x hx).trans (h x hx)

/-! The daybook queue. -/

@[simp] theorem State.report_cores (s : State) (e : DbEntry) : (s.report e).1.cores = s.cores := by
  unfold State.report
  split
  · exact s.bump32_cores _ _
  · rfl

/-- A report leaves the scheduler as it was, but for the task's first record (R467). -/
theorem State.report_sched (s : State) (e : DbEntry) :
    (s.report e).1.sched = { s.sched with firstRec := (s.report e).1.sched.firstRec } := by
  unfold State.report
  split
  · rw [s.bump32_sched]
  · rfl

/-- A report changes at most the count of lost entries. -/
theorem State.report_reg_other (s : State) (e : DbEntry) {x : Nat} (h : x ≠ Reg.SISYN_DB_LOST) : (s.report e).1.reg x = s.reg x := by
  unfold State.report
  split
  · exact s.reg_bump32_other _ h
  · rfl

/-- While the buffer has room the entry joins it. -/
theorem State.report_dbQueue (s : State) (e : DbEntry) (h : s.dbQueue.length < 1024) :
    ∃ e', (s.report e).1.dbQueue = s.dbQueue ++ [e'] ∧ e'.status = e.status := by
  unfold State.report
  rw [if_neg (Nat.not_le.mpr h)]
  exact ⟨_, rfl, rfl⟩

/-- The time of a record takes a time stamp at most. -/
theorem State.recordTime_eq (s : State) : s.recordTime.1 = { s with free := s.recordTime.1.free } := by
  unfold State.recordTime
  split <;> rfl

@[simp] theorem State.recordTime_cores (s : State) : s.recordTime.1.cores = s.cores := by rw [s.recordTime_eq]
@[simp] theorem State.recordTime_sched (s : State) : s.recordTime.1.sched = s.sched := by rw [s.recordTime_eq]
@[simp] theorem State.recordTime_dbQueue (s : State) : s.recordTime.1.dbQueue = s.dbQueue := by rw [s.recordTime_eq]
@[simp] theorem State.recordTime_reg (s : State) (x : Nat) : s.recordTime.1.reg x = s.reg x := by rw [s.recordTime_eq]; rfl

/-! Fault registers. -/

/-- The first fault since the last clear alone is written: registers beside the fault register stay. -/
theorem State.firstFault_reg_other (s : State) {x y : Nat} (v : Nat) (h : y ≠ x) : (s.firstFault x v).reg y = s.reg y := by
  unfold State.firstFault
  split
  · exact s.reg_setRegN_other _ h
  · rfl

theorem State.firstFault_eq (s : State) (x v : Nat) : s.firstFault x v = { s with regs := (s.firstFault x v).regs } := by
  unfold State.firstFault
  split <;> rfl

@[simp] theorem State.firstFault_cores (s : State) (x v : Nat) : (s.firstFault x v).cores = s.cores := by rw [s.firstFault_eq]
@[simp] theorem State.firstFault_sched (s : State) (x v : Nat) : (s.firstFault x v).sched = s.sched := by rw [s.firstFault_eq]
@[simp] theorem State.firstFault_dbQueue (s : State) (x v : Nat) : (s.firstFault x v).dbQueue = s.dbQueue := by rw [s.firstFault_eq]

theorem State.faultExtra_eq (s : State) (c : Nat) (st : Stop) : s.faultExtra c st = { s with regs := (s.faultExtra c st).regs } := by
  simp only [State.faultExtra]
  split_ifs <;> rfl

/-- A recorded fault changes registers alone. -/
theorem State.recordFault_eq (s : State) (c : Nat) (st : Stop) : s.recordFault c st = { s with regs := (s.recordFault c st).regs } := by
  simp only [State.recordFault]
  split_ifs
  · rfl
  · rw [State.faultExtra_eq]; rfl
  · rfl

/-- The record of a core's fault leaves the cores as they were. -/
@[simp] theorem State.errorRecord_cores (s : State) (c : Nat) (st : Stop) : (s.errorRecord c st).1.cores = s.cores := by
  simp only [State.errorRecord, State.report_cores, State.recordTime_cores]

theorem State.errorRecord_sched (s : State) (c : Nat) (st : Stop) :
    (s.errorRecord c st).1.sched = { s.sched with firstRec := (s.errorRecord c st).1.sched.firstRec } := by
  simp only [State.errorRecord]
  rw [State.report_sched, s.recordTime_sched]

theorem State.errorRecord_reg_other (s : State) (c : Nat) (st : Stop) {x : Nat} (h : x ≠ Reg.SISYN_DB_LOST) :
    (s.errorRecord c st).1.reg x = s.reg x := by
  simp only [State.errorRecord, State.report_reg_other _ _ h, State.recordTime_reg]

/-! What a stop leaves of a core. -/

/-- A core keeps its pc, its registers and its Scratchpad, and stays stopped where it was (R176, R508). -/
structure Core.HeldAs (k k' : Core) : Prop where
  pc : k'.pc = k.pc
  g : k'.g = k.g
  d : k'.d = k.d
  p : k'.p = k.p
  mem : k'.mem = k.mem
  running : k'.running = k.running
  stopped : k.stopped = true → k'.stopped = true

theorem Core.HeldAs.refl (k : Core) : k.HeldAs k := ⟨rfl, rfl, rfl, rfl, rfl, rfl, id⟩

theorem Core.HeldAs.trans {a b c : Core} (h : a.HeldAs b) (h' : b.HeldAs c) : a.HeldAs c :=
  ⟨h'.pc.trans h.pc, h'.g.trans h.g, h'.d.trans h.d, h'.p.trans h.p, h'.mem.trans h.mem,
    h'.running.trans h.running, fun hs => h'.stopped (h.stopped hs)⟩

theorem Core.heldAs_stopNow (k : Core) : k.HeldAs k.stopNow := by
  refine ⟨rfl, rfl, rfl, rfl, rfl, rfl, fun h => ?_⟩
  simp [Core.stopNow, h]

/-- Every core is held. -/
def State.CoresHeld (s t : State) : Prop := ∀ c, (s.core c).HeldAs (t.core c)

theorem State.CoresHeld.of_cores {s t : State} (h : t.cores = s.cores) : s.CoresHeld t := fun c => by
  rw [State.core_congr h]; exact .refl _

theorem State.CoresHeld.trans {s t u : State} (h : s.CoresHeld t) (h' : t.CoresHeld u) : s.CoresHeld u :=
  fun c => (h c).trans (h' c)

theorem State.coresHeld_modCore (s : State) (c : Nat) {f : Core → Core} (hf : (s.core c).HeldAs (f (s.core c))) :
    s.CoresHeld (s.modCore c f) := fun d => by
  by_cases h : d = c
  · rw [h, State.core_modCore_same]; exact hf
  · rw [s.core_modCore_other f h]; exact .refl _

/-- Steps that each hold the cores hold them together. -/
theorem State.coresHeld_foldl {α : Type} (g : State → α → State) (hg : ∀ (s : State) a, s.CoresHeld (g s a)) (l : List α) (s : State) :
    s.CoresHeld (l.foldl g s) := by
  induction l generalizing s with
  | nil => exact .of_cores rfl
  | cons a l ih => exact (hg s a).trans (ih _)

theorem State.coresHeld_allCores_stopNow (s : State) : s.CoresHeld (s.allCores Core.stopNow) :=
  State.coresHeld_foldl (fun t c => State.modCore t c Core.stopNow)
    (fun t c => State.coresHeld_modCore t c (t.core c).heldAs_stopNow) _ s

/-- A freeze that is cut short counts its cycles and holds every core. -/
theorem State.coresHeld_freezeCut (s : State) (c : Nat) : s.CoresHeld (s.freezeCut c) := by
  unfold State.freezeCut
  split
  · exact .of_cores rfl
  · simp only [State.countFreeze]
    refine .trans (.of_cores ?_) (State.coresHeld_modCore _ _ ⟨rfl, rfl, rfl, rfl, rfl, rfl, id⟩)
    rw [State.maxReg_cores, State.bump64_cores, State.tick_cores]

@[simp] theorem State.freezeCut_sched (s : State) (c : Nat) : (s.freezeCut c).sched = s.sched := by
  unfold State.freezeCut
  split
  · rfl
  · simp only [State.countFreeze, State.modCore_sched, State.maxReg_sched, State.bump64_sched, State.tick_sched]

theorem lt_of_mem_coreList {c : Nat} (h : c ∈ coreList) : c < 64 := List.mem_range.mp (by simpa only [coreList] using h)

theorem mem_coreList {c : Nat} (h : c < 64) : c ∈ coreList := by simpa only [coreList] using List.mem_range.mpr h

/-- The registers that count the freezes of the cores (R69). -/
def freezeRegs : List Nat := coreList.flatMap (fun c =>
  [Reg.CORE_TALLY_STALL_LO c, Reg.CORE_TALLY_STALL_LO c + 4, Reg.CORE_TALLY_FREEZE_MAX c])

theorem State.freezeCut_regsSameBut (s : State) {c : Nat} (hc : c < 64) : RegsSameBut s (s.freezeCut c) freezeRegs := by
  intro x hx
  have hne : ∀ y ∈ [Reg.CORE_TALLY_STALL_LO c, Reg.CORE_TALLY_STALL_LO c + 4, Reg.CORE_TALLY_FREEZE_MAX c], x ≠ y := by
    intro y hy hxy
    exact hx (List.mem_flatMap.mpr ⟨c, mem_coreList hc, hxy ▸ hy⟩)
  unfold State.freezeCut
  split
  · rfl
  · simp only [State.countFreeze, State.reg_modCore]
    rw [State.reg_maxReg_other _ _ (hne _ (by simp)), State.reg_bump64_other _ _ (hne _ (by simp)) (hne _ (by simp))]
    rfl

/-! The failing of a task (R508). -/

theorem State.foldl_freezeCut_sched (l : List Nat) (s : State) : (l.foldl State.freezeCut s).sched = s.sched := by
  induction l generalizing s with
  | nil => rfl
  | cons c l ih => rw [List.foldl_cons, ih, s.freezeCut_sched]

theorem State.foldl_freezeCut_regsSameBut {l : List Nat} (hl : ∀ c ∈ l, c < 64) (s : State) :
    RegsSameBut s (l.foldl State.freezeCut s) freezeRegs := by
  induction l generalizing s with
  | nil => exact .refl s _
  | cons c l ih =>
    exact (s.freezeCut_regsSameBut (hl c (List.mem_cons_self ..))).trans (ih (fun d hd => hl d (List.mem_cons_of_mem c hd)) _)

theorem State.coresHeld_failTask (s : State) (status detail seq : Nat) : s.CoresHeld (s.failTask status detail seq) := by
  unfold State.failTask
  split
  · have hcut := State.coresHeld_foldl _ State.coresHeld_freezeCut coreList s
    dsimp only
    generalize coreList.foldl State.freezeCut s = u at hcut ⊢
    have hall := u.coresHeld_allCores_stopNow
    generalize u.allCores Core.stopNow = w at hall ⊢
    exact hcut.trans hall
  · exact .of_cores rfl

theorem State.failTask_regsSameBut (s : State) (status detail seq : Nat) :
    RegsSameBut s (s.failTask status detail seq) freezeRegs := by
  unfold State.failTask
  split
  · have hcut := State.foldl_freezeCut_regsSameBut (fun _ => lt_of_mem_coreList) s
    dsimp only
    generalize coreList.foldl State.freezeCut s = u at hcut ⊢
    generalize u.allCores Core.stopNow = w
    exact hcut
  · exact .refl s _

/-- A running task that is not failing yet fails with the fault as its primary. -/
theorem State.failTask_sched (s : State) (status detail seq : Nat) (hr : s.sched.st = .running) (hf : s.sched.failing = false) :
    (s.failTask status detail seq).sched =
      { s.sched with failing := true, primary := some ⟨status, detail, seq⟩, st := .ending } := by
  have hp : s.primaryNow = true := by simp [State.primaryNow, hr, hf]
  simp only [State.failTask, hp, if_true, State.foldl_freezeCut_sched]

/-! The stop of a core (R176, R507, R508). -/

/-- A running core stops on a fault without an entry of its own: the fault is recorded, the record written, and the task fails. -/
theorem State.stopCore_running (s : State) {c : Nat} (st : Stop) (hr : (s.core c).running = true) (hs : (s.core c).stopped = false)
    (hq : st.seq = 0) : s.stopCore c st =
      ((((s.recordFault c st).errorRecord c st).1.freezeCut c).modCore c Core.stopNow).failTask st.code st.detail
        ((s.recordFault c st).errorRecord c st).2 := by
  simp [State.stopCore, hr, hs, hq]

/-- A core that stops keeps its pc and its registers, and the running task fails with the fault's status. -/
theorem State.stopCore_stoppedWith (s : State) {c : Nat} (st : Stop) (hr : (s.core c).running = true)
    (hs : (s.core c).stopped = false) (hq : st.seq = 0) : StoppedWith s (s.stopCore c st) c st.code := by
  rw [s.stopCore_running st hr hs hq]
  have hcores : ((s.recordFault c st).errorRecord c st).1.cores = s.cores := by rw [State.errorRecord_cores, s.recordFault_eq]
  have hsched : ((s.recordFault c st).errorRecord c st).1.sched =
      { s.sched with firstRec := ((s.recordFault c st).errorRecord c st).1.sched.firstRec } := by
    rw [State.errorRecord_sched, s.recordFault_eq]
  generalize ((s.recordFault c st).errorRecord c st).2 = seq
  generalize ((s.recordFault c st).errorRecord c st).1 = t at hcores hsched ⊢
  have hcut : s.CoresHeld (t.freezeCut c) := (State.CoresHeld.of_cores hcores).trans (t.coresHeld_freezeCut c)
  have hheld := (hcut.trans (State.coresHeld_modCore _ c (Core.heldAs_stopNow _))).trans
    (State.coresHeld_failTask ((t.freezeCut c).modCore c Core.stopNow) st.code st.detail seq) c
  obtain ⟨hpc, hg, hd, hp, hmem, -, -⟩ := hheld
  refine ⟨?_, hpc, hg, hd, hp, hmem, fun hrun hfail => ?_⟩
  · refine (State.coresHeld_failTask _ _ _ _ c).stopped ?_
    simp [Core.stopNow, (hcut c).running, hr]
  · have hst : t.sched.st = .running := by rw [hsched]; exact hrun
    have hfl : t.sched.failing = false := by rw [hsched]; exact hfail
    rw [State.failTask_sched _ _ _ _ (by simpa using hst) (by simpa using hfl)]
    exact ⟨rfl, rfl, rfl⟩

/-- Beside the fault's own registers a stop changes at most the count of lost entries and the counts of freezes. -/
theorem State.stopCore_reg_other (s : State) {c : Nat} (st : Stop) (hc : c < 64) (hr : (s.core c).running = true)
    (hs : (s.core c).stopped = false) (hq : st.seq = 0) {x : Nat} (hx : x ∉ Reg.SISYN_DB_LOST :: freezeRegs) :
    (s.stopCore c st).reg x = (s.recordFault c st).reg x := by
  have hlost : x ≠ Reg.SISYN_DB_LOST := fun h => hx (h ▸ List.mem_cons_self ..)
  have hfreeze : x ∉ freezeRegs := fun h => hx (List.mem_cons_of_mem _ h)
  rw [s.stopCore_running st hr hs hq, State.failTask_regsSameBut _ _ _ _ x hfreeze, State.reg_modCore,
    State.freezeCut_regsSameBut _ hc x hfreeze, State.errorRecord_reg_other _ _ _ hlost]

end Sys2Proof.Machine
end

section
/-! SUPPORT. Writes to ring records (R176, R196, R197, R424, R425). -/

namespace Sys2Proof.Machine

/-! The words of a record. -/

theorem ringReg_inj {n a b : Nat} (h : ringReg n a = ringReg n b) : a = b := by
  unfold ringReg at h
  omega

/-- A ring record lies above the fault register of the rings. -/
theorem ringReg_ne_fault (n j : Nat) : ringReg n j ≠ Reg.SPAD_RING_FAULT := by
  unfold ringReg Reg.SPAD_RING_CFG Reg.SPAD_RING_FAULT
  omega

/-- A ring record lies below the registers of power and Sisyn and above those of the cores. -/
theorem ringReg_notMem_stopRegs {n j : Nat} (hn : n < 32768) (hj : j < 8) : ringReg n j ∉ Reg.SISYN_DB_LOST :: freezeRegs := by
  have hx : 0x04300000 ≤ ringReg n j ∧ ringReg n j < 0x04400000 := by
    unfold ringReg Reg.SPAD_RING_CFG
    omega
  generalize ringReg n j = x at hx
  intro hmem
  rcases List.mem_cons.mp hmem with hlost | hfreeze
  · unfold Reg.SISYN_DB_LOST at hlost
    omega
  · obtain ⟨c, hc, hin⟩ := List.mem_flatMap.mp hfreeze
    have hlt := lt_of_mem_coreList hc
    simp only [List.mem_cons, List.not_mem_nil, or_false, Reg.CORE_TALLY_STALL_LO, Reg.CORE_TALLY_FREEZE_MAX] at hin
    omega

theorem ringWord_le (n k v : Nat) : ringWord n k v ≤ v := by
  unfold ringWord
  split_ifs
  · exact Nat.mod_le _ _
  · exact Nat.mod_le _ _
  · exact Nat.zero_le _
  · exact le_rfl

/-- Words stored one after another, each where its number says. -/
def State.storeRingWords (s : State) (n : Nat) (f : Nat → Nat) (l : List Nat) : State :=
  l.foldl (fun t k => t.setRegN (ringReg n k) (f k)) s

theorem State.setRing_eq (s : State) (n : Nat) (w : List Nat) :
    s.setRing n w = s.storeRingWords n (fun k => ringWord n k (w.getD k 0)) (List.range 8) := rfl

theorem State.storeRingWords_regsSameBut (n : Nat) (f : Nat → Nat) (l : List Nat) (s : State) :
    RegsSameBut s (s.storeRingWords n f l) (l.map (ringReg n)) := by
  induction l generalizing s with
  | nil => exact .refl s _
  | cons k l ih =>
    intro x hx
    rw [List.map_cons, List.mem_cons, not_or] at hx
    exact (ih _ x hx.2).trans (s.reg_setRegN_other _ hx.1)

theorem State.storeRingWords_eq (n : Nat) (f : Nat → Nat) (l : List Nat) (s : State) :
    s.storeRingWords n f l = { s with regs := (s.storeRingWords n f l).regs } := by
  induction l generalizing s with
  | nil => rfl
  | cons k l ih => exact ih (s.setRegN (ringReg n k) (f k))

theorem State.storeRingWords_regN (n : Nat) (f : Nat → Nat) {l : List Nat} {j : Nat} (hl : l.Nodup) (hj : j ∈ l) (s : State) :
    (s.storeRingWords n f l).regN (ringReg n j) = f j % 2 ^ 32 := by
  induction l generalizing s with
  | nil => cases hj
  | cons k l ih =>
    rw [List.nodup_cons] at hl
    by_cases hjl : j ∈ l
    · exact ih hl.2 hjl _
    · obtain rfl : j = k := (List.mem_cons.mp hj).resolve_right hjl
      have hout : ringReg n j ∉ l.map (ringReg n) := fun h => by
        obtain ⟨i, hi, hij⟩ := List.mem_map.mp h
        exact hjl (ringReg_inj hij ▸ hi)
      have hkeep := State.storeRingWords_regsSameBut n f l (s.setRegN (ringReg n j) (f j)) _ hout
      exact (congrArg BitVec.toNat hkeep).trans (s.regN_setRegN_same _ _)

/-- Whether a write of word `k`, or of it and the next, covers word `j`. -/
def ringCovers (k : Nat) (wide : Bool) (j : Nat) : Bool := j == k || (wide && j == k + 1)

/-- The words of a record with the covered ones replaced. -/
def State.ringRewritten (s : State) (n k : Nat) (wide : Bool) (value : Nat) : List Nat :=
  (s.ringWords n).mapIdx (fun j y => if ringCovers k wide j then bits value (32 * (j - k)) 32 else y)

theorem State.getD_ringRewritten (s : State) (n k : Nat) (wide : Bool) (value : Nat) {j : Nat} (hj : j < 8) :
    (s.ringRewritten n k wide value).getD j 0 =
      if ringCovers k wide j then bits value (32 * (j - k)) 32 else s.regN (ringReg n j) := by
  simp [State.ringRewritten, State.ringWords, hj]

theorem State.regN_lt (s : State) (x : Nat) : s.regN x < 2 ^ 32 := (s.reg x).isLt

/-- A record with its covered words replaced, as it reads after a write. -/
def RingWritten (s t : State) (n k : Nat) (wide : Bool) (value : Nat) : Prop :=
  (∀ j, j < 8 → t.regN (ringReg n j) =
    ringWord n j (if ringCovers k wide j then bits value (32 * (j - k)) 32 else s.regN (ringReg n j))) ∧
  RegsSameBut s t ((List.range 8).map (ringReg n)) ∧ t = { s with regs := t.regs }

theorem State.setRing_written (s : State) (n k : Nat) (wide : Bool) (value : Nat) :
    RingWritten s (s.setRing n (s.ringRewritten n k wide value)) n k wide value := by
  rw [State.setRing_eq]
  refine ⟨fun j hj => ?_, State.storeRingWords_regsSameBut _ _ _ s, State.storeRingWords_eq _ _ _ s⟩
  rw [State.storeRingWords_regN _ _ List.nodup_range (List.mem_range.mpr hj), s.getD_ringRewritten _ _ _ _ hj]
  refine Nat.mod_eq_of_lt (lt_of_le_of_lt (ringWord_le _ _ _) ?_)
  split
  · exact Nat.mod_lt _ (by decide)
  · exact s.regN_lt _

/-! A refused write. -/

/-- A refused write is recorded, and changes neither the record nor a core (R197). -/
def RingRefused (s t : State) (n : Nat) : Prop :=
  (∀ j, j < 8 → t.reg (ringReg n j) = s.reg (ringReg n j)) ∧ t.cores = s.cores ∧ t.sched = s.sched ∧
  (s.field Reg.SPAD_RING_FAULT 0 8 = 0 → t.regN Reg.SPAD_RING_FAULT = 2 + n * 2 ^ 8) ∧
  (s.dbQueue.length < 1024 → ∃ e, t.dbQueue = s.dbQueue ++ [e] ∧ e.status = 0x2609)

/-- The record of a refused write: the rings' fault register, a time stamp and an entry of its own. -/
theorem State.exists_ringConfigRecord (s : State) (n : Nat) : ∃ e : DbEntry, e.status = 0x2609 ∧
    let t := ((s.firstFault Reg.SPAD_RING_FAULT (2 + n * 2 ^ 8)).recordTime.1.report e).1
    s.ringConfigRecord n = { t with sched := { t.sched with firstRec := s.sched.firstRec } } :=
  ⟨_, rfl, rfl⟩

theorem State.ringConfigRecord_refused (s : State) {n : Nat} (hn : n < 32768) : RingRefused s (s.ringConfigRecord n) n := by
  obtain ⟨e, hstatus, hrec⟩ := s.exists_ringConfigRecord n
  have hcores := (State.recordTime_cores _).trans (s.firstFault_cores Reg.SPAD_RING_FAULT (2 + n * 2 ^ 8))
  have hsched := (State.recordTime_sched _).trans (s.firstFault_sched Reg.SPAD_RING_FAULT (2 + n * 2 ^ 8))
  have hqueue := (State.recordTime_dbQueue _).trans (s.firstFault_dbQueue Reg.SPAD_RING_FAULT (2 + n * 2 ^ 8))
  have hreg := State.recordTime_reg (s.firstFault Reg.SPAD_RING_FAULT (2 + n * 2 ^ 8))
  rw [hrec]
  generalize (s.firstFault Reg.SPAD_RING_FAULT (2 + n * 2 ^ 8)).recordTime.1 = u at hcores hsched hqueue hreg ⊢
  have hrec_reg {x : Nat} (hx : x ≠ Reg.SISYN_DB_LOST) :
      (u.report e).1.reg x = (s.firstFault Reg.SPAD_RING_FAULT (2 + n * 2 ^ 8)).reg x :=
    (u.report_reg_other e hx).trans (hreg x)
  refine ⟨fun j hj => ?_, (u.report_cores e).trans hcores, ?_, fun hclear => ?_, fun hroom => ?_⟩
  · have hlost : ringReg n j ≠ Reg.SISYN_DB_LOST := fun h => ringReg_notMem_stopRegs hn hj (h ▸ List.mem_cons_self ..)
    exact (hrec_reg hlost).trans (s.firstFault_reg_other _ (ringReg_ne_fault n j))
  · dsimp only
    rw [u.report_sched, hsched]
  · refine (congrArg BitVec.toNat (hrec_reg (by decide))).trans ?_
    rw [State.firstFault, if_pos hclear]
    exact (s.regN_setRegN_same _ _).trans (Nat.mod_eq_of_lt (by omega))
  · obtain ⟨e', hadd, he'⟩ := u.report_dbQueue e (by rw [hqueue]; exact hroom)
    exact ⟨e', hadd.trans (by rw [hqueue]), he'.trans hstatus⟩

/-- SPAD.RING_CONFIG of a core goes to the rings' fault register (R527). -/
theorem State.recordFault_ringConfig (s : State) (c n : Nat) (pc : Option Nat) :
    s.recordFault c { Stop.of Code.ringConfig with row := n, pc := pc } =
      s.firstFault Reg.SPAD_RING_FAULT (2 + n * 2 ^ 8 + c * 2 ^ 23) := by
  have hreg : faultReg c { Stop.of Code.ringConfig with row := n, pc := pc } =
      (Reg.SPAD_RING_FAULT, 2 + n * 2 ^ 8 + c * 2 ^ 23) := by
    simp [faultReg, Stop.of, Code.ringConfig]
  have hextra (t : State) : t.faultExtra c { Stop.of Code.ringConfig with row := n, pc := pc } = t := by
    simp [State.faultExtra, Stop.of, Code.ringConfig, ofDescBlock, Code.descInvalid, Code.shapeOver, Code.nestFit]
  unfold State.recordFault State.firstFault
  rw [hreg]
  dsimp only
  rw [hextra, if_neg (by decide)]

/-- A running core that made the write stops with SPAD.RING_CONFIG, and the record stays (R176). -/
theorem State.stopCore_ringConfig (s : State) {n c : Nat} (pc : Option Nat) (hn : n < 32768) (hc : c < 64)
    (hr : (s.core c).running = true) (hs : (s.core c).stopped = false) :
    let t := s.stopCore c { Stop.of Code.ringConfig with row := n, pc := pc }
    StoppedWith s t c 0x2609 ∧ ∀ j, j < 8 → t.reg (ringReg n j) = s.reg (ringReg n j) := by
  refine ⟨s.stopCore_stoppedWith _ hr hs rfl, fun j hj => ?_⟩
  rw [s.stopCore_reg_other _ hc hr hs rfl (ringReg_notMem_stopRegs hn hj), s.recordFault_ringConfig]
  exact s.firstFault_reg_other _ (ringReg_ne_fault n j)

/-- Whether a running core made the write. -/
def State.ringStops (s : State) (r : Requester) : Prop :=
  ∃ c, r = .core c ∧ (s.core c.val).running = true ∧ (s.core c.val).stopped = false

theorem State.ringConfigFault_refused (s : State) {r : Requester} {n : Nat} (hn : n < 32768) (h : ¬ s.ringStops r) :
    RingRefused s (s.ringConfigFault r n) n := by
  have hrec : s.ringConfigFault r n = s.ringConfigRecord n := by
    unfold State.ringConfigFault
    split
    · next c =>
      refine if_neg fun hrun => h ⟨c, rfl, ?_⟩
      simpa using hrun
    · rfl
  rw [hrec]
  exact s.ringConfigRecord_refused hn

theorem State.ringConfigFault_stops (s : State) {c : CoreId} {n : Nat} (hn : n < 32768) (h : s.ringStops (.core c)) :
    StoppedWith s (s.ringConfigFault (.core c) n) c.val 0x2609 ∧
      ∀ j, j < 8 → (s.ringConfigFault (.core c) n).reg (ringReg n j) = s.reg (ringReg n j) := by
  obtain ⟨d, hcd, hr, hs⟩ := h
  obtain rfl : c = d := Requester.core.inj hcd
  have hstop : s.ringConfigFault (.core c) n =
      s.stopCore c.val { Stop.of Code.ringConfig with row := n, pc := some (s.core c.val).pc } := by
    simp [State.ringConfigFault, hr, hs]
  rw [hstop]
  exact s.stopCore_ringConfig _ hn c.isLt hr hs

/-! The rules of a record (R197, R424). -/

theorem baseBad_iff (w : List Nat) : baseBad w = true ↔ ¬ recBase w % max 64 (2 ^ recEntry w) = 0 := by
  simp [baseBad]

/-- The region of a record, unfolded before it meets its arguments: at them the kernel would run through the base, a product
by 2^32. -/
theorem State.ringRegionOk_spad (s : State) {n c o : Nat} {w : List Nat} (h : spadPlace (recBase w) = some (c, o)) :
    s.ringRegionOk n w = false ↔ 0x60000 < o + 2 ^ recEntry w * 2 ^ recCount w ∨ (ringKindOf n = 1 ∧ c ≠ n / 256) := by
  have hdef : State.ringRegionOk = State.ringRegionOk := rfl
  conv at hdef => rhs; delta State.ringRegionOk
  rw [congrFun (congrFun (congrFun hdef s) n) w]
  dsimp only
  rw [h, Nat.add_sub_cancel_left, Bool.and_eq_false_iff, decide_eq_false_iff_not, Nat.not_le]
  simp only [Bool.or_eq_false_iff, bne_eq_false_iff_eq, beq_eq_false_iff_ne, ne_eq]

theorem State.ringRegionOk_lpddr (s : State) {n : Nat} {w : List Nat} (h : spadPlace (recBase w) = none) :
    s.ringRegionOk n w = false ↔ s.lpddrEnd < recBase w + 2 ^ recEntry w * 2 ^ recCount w := by
  have hdef : State.ringRegionOk = State.ringRegionOk := rfl
  conv at hdef => rhs; delta State.ringRegionOk
  rw [congrFun (congrFun (congrFun hdef s) n) w]
  dsimp only
  rw [h, decide_eq_false_iff_not, Nat.not_le]

theorem State.ringRecordBad_iff (s : State) (n : Nat) (w : List Nat) {regionOut : Prop}
    (hout : s.ringRegionOk n w = false ↔ regionOut) :
    s.ringRecordBad n w = true ↔
      (recKind w ≠ ringKindOf n ∨ recEntry w < 3 ∨ 8 < recEntry w ∨ recCount w < 1 ∨ 20 < recCount w ∨
      w.getD 2 0 / 2 ^ 26 % 2 ^ 6 ≠ 0 ∨ w.getD 5 0 / 2 ^ 16 % 2 ^ 16 ≠ 0 ∨
      (recKind w ≠ 2 ∧ recKind w ≠ 3 ∧ regionOut) ∨
      (recKind w = 2 ∧ (recEntry w ≠ 6 ∨ s.ringKind (n + 512) ≠ 3 ∨ s.ringPort (n + 512) ≠ recPort w)) ∨
      (recKind w = 3 ∧ recEntry w ≠ 5)) := by
  simp only [State.ringRecordBad, Bool.or_eq_true, Bool.and_eq_true, bne_iff_ne, decide_eq_true_eq, beq_iff_eq, Bool.not_eq_true',
    Bool.or_eq_false_iff, beq_eq_false_iff_ne, hout, bits, or_assoc, and_assoc]

/-! The write, by the state of its record. -/

/-- The words that a write covers. -/
def ringCovered (k : Nat) (wide : Bool) : List Nat := (List.range (if wide then 2 else 1)).map (· + k)

theorem map_range_eq_ringCovered (k : Nat) (wide : Bool) :
    (List.range (if wide then 2 else 1)).map (· + k) = ringCovered k wide := rfl

theorem State.mapIdx_eq_ringRewritten (s : State) (n k : Nat) (wide : Bool) (value : Nat) :
    (s.ringWords n).mapIdx (fun j y => if ringCovers k wide j then bits value (32 * (j - k)) 32 else y) =
      s.ringRewritten n k wide value := rfl

theorem contains_covered (k : Nat) (wide : Bool) (j : Nat) : (ringCovered k wide).contains j = ringCovers k wide j := by
  cases wide <;> simp [ringCovered, ringCovers, List.range_succ, Nat.add_comm, Bool.beq_eq_decide_eq]

theorem all_covered (k : Nat) (wide : Bool) :
    (ringCovered k wide).all (fun j => decide (6 ≤ j)) = decide (6 ≤ k) := by
  cases wide <;> simp [ringCovered, List.range_succ]; omega

theorem ringCovers_low_iff (k : Nat) (wide : Bool) : ringCovers k wide 0 = true ∨ ringCovers k wide 1 = true ↔ k < 2 := by
  cases wide <;> simp [ringCovers] <;> omega

theorem lt_six_of_ringCovers_two {k : Nat} {wide : Bool} (h : ringCovers k wide 2 = true) : k < 6 := by
  cases wide <;> simp [ringCovers] at h <;> omega

section
variable (s : State) (r : Requester) {n k : Nat} {wide : Bool} {value : Nat}

theorem State.ringConfig_absent (m : Nat) (h : ringAbsent s.variant n = true) : s.ringConfig r n k m value = s := by
  simp only [State.ringConfig, h, if_true]

/-- A ring of a reserved ID: a write that leaves it disabled is taken, and another is refused. -/
theorem State.ringConfig_reserved (ha : ringAbsent s.variant n = false) (h0 : ringKindOf n = 0) :
    s.ringConfig r n k (if wide then 2 else 1) value =
      if recKind (s.ringRewritten n k wide value) = 0 ∧ (k < 2 → baseBad (s.ringRewritten n k wide value) = false) then
        s.setRing n (s.ringRewritten n k wide value)
      else s.ringConfigFault r n := by
  simp only [State.ringConfig, ha, Bool.false_eq_true, if_false, if_pos h0, map_range_eq_ringCovered, contains_covered,
    ringCovers_low_iff, State.mapIdx_eq_ringRewritten]

/-- A disabled ring: a write that breaks a rule is refused. -/
theorem State.ringConfig_disabled (ha : ringAbsent s.variant n = false) (h0 : ringKindOf n ≠ 0) (hk : s.ringKind n = 0) :
    s.ringConfig r n k (if wide then 2 else 1) value =
      if (recKind (s.ringRewritten n k wide value) ≠ 0 ∧ s.ringRecordBad n (s.ringRewritten n k wide value) = true) ∨
          ((k < 2 ∨ recKind (s.ringRewritten n k wide value) ≠ 0) ∧ baseBad (s.ringRewritten n k wide value) = true) then
        s.ringConfigFault r n
      else s.setRing n (s.ringRewritten n k wide value) := by
  simp only [State.ringConfig, ha, Bool.false_eq_true, if_false, if_neg h0, hk, ne_eq, not_true, map_range_eq_ringCovered,
    contains_covered, ← or_assoc, ringCovers_low_iff, State.mapIdx_eq_ringRewritten]

/-- An enabled ring that the requester may write: a host ring only through its port. -/
theorem State.ringConfig_enabled (ha : ringAbsent s.variant n = false) (h0 : ringKindOf n ≠ 0) (hk : s.ringKind n ≠ 0)
    (hp : ringKindOf n = 2 ∨ ringKindOf n = 3 → reqPort r = some (s.ringPort n)) :
    s.ringConfig r n k (if wide then 2 else 1) value =
      s.ringWriteEnabled r n (ringCovered k wide) (s.ringRewritten n k wide value) := by
  simp only [State.ringConfig, ha, Bool.false_eq_true, if_false, if_neg h0, if_pos hk, map_range_eq_ringCovered, contains_covered,
    State.mapIdx_eq_ringRewritten]
  by_cases hh : ringKindOf n = 2 ∨ ringKindOf n = 3
  · simp only [if_pos hh, hp hh, if_true]
  · simp only [if_neg hh]

theorem State.ringConfig_noPort (ha : ringAbsent s.variant n = false) (h0 : ringKindOf n ≠ 0) (hk : s.ringKind n ≠ 0)
    (hh : ringKindOf n = 2 ∨ ringKindOf n = 3) (hp : reqPort r = none) :
    s.ringConfig r n k (if wide then 2 else 1) value = s := by
  simp only [State.ringConfig, ha, Bool.false_eq_true, if_false, if_neg h0, if_pos hk, if_pos hh, hp]

theorem State.ringConfig_wrongPort (ha : ringAbsent s.variant n = false) (h0 : ringKindOf n ≠ 0) (hk : s.ringKind n ≠ 0)
    (hh : ringKindOf n = 2 ∨ ringKindOf n = 3) {p : Nat} (hp : reqPort r = some p) (hne : p ≠ s.ringPort n) :
    s.ringConfig r n k (if wide then 2 else 1) value = s.wrongPort p n := by
  simp only [State.ringConfig, ha, Bool.false_eq_true, if_false, if_neg h0, if_pos hk, if_pos hh, hp, if_neg hne]

/-! An enabled record. -/

theorem State.ringWriteEnabled_class (w : List Nat) (h : 6 ≤ k) : s.ringWriteEnabled r n (ringCovered k wide) w = s.setRing n w := by
  simp only [State.ringWriteEnabled, all_covered, h, decide_true, if_true]

theorem State.ringWriteEnabled_disable {w : List Nat} (hc : ringCovers k wide 2 = true) (hw : recKind w = 0) :
    s.ringWriteEnabled r n (ringCovered k wide) w =
      if ringKindOf n = 3 ∧ s.ringKind (n - 512) = 2 then s.ringConfigFault r n
      else (s.setField (ringReg n 2) 9 4 0).ringMoved n := by
  have hlt : ¬ 6 ≤ k := Nat.not_le.mpr (lt_six_of_ringCovers_two hc)
  simp only [State.ringWriteEnabled, all_covered, hlt, contains_covered, hc, hw, decide_false, Bool.false_eq_true, if_false, and_self,
    if_true]

theorem State.ringWriteEnabled_other {w : List Nat} (hk : k < 6) (h : ringCovers k wide 2 = false ∨ recKind w ≠ 0) :
    s.ringWriteEnabled r n (ringCovered k wide) w = s.ringConfigFault r n := by
  have hno : ¬ (ringCovers k wide 2 = true ∧ recKind w = 0) := by
    rintro ⟨hc, hw⟩
    rcases h with h | h
    · rw [h] at hc; cases hc
    · exact h hw
  simp only [State.ringWriteEnabled, all_covered, Nat.not_le.mpr hk, contains_covered, if_neg hno, decide_false, Bool.false_eq_true,
    if_false]

end

/-- kind 0 is written, and every other bit of the word stays. -/
theorem State.regN_setRingKind (s : State) (n : Nat) :
    (s.setField (ringReg n 2) 9 4 0).regN (ringReg n 2) = s.regN (ringReg n 2) - s.ringKind n * 2 ^ 9 := by
  have hset : (s.setField (ringReg n 2) 9 4 0).regN (ringReg n 2) = (s.regN (ringReg n 2) - s.ringKind n * 2 ^ 9) % 2 ^ 32 :=
    s.regN_setRegN_same _ _
  rw [hset]
  exact Nat.mod_eq_of_lt (lt_of_le_of_lt (Nat.sub_le _ _) (s.regN_lt _))

/-- A write from the wrong port is counted and reported, and the record stays (R425). -/
theorem State.wrongPort_counted (s : State) {n : Nat} (p : Nat) (hn : n < 32768) :
    (∀ j, j < 8 → (s.wrongPort p n).reg (ringReg n j) = s.reg (ringReg n j)) ∧
    CountedUp s (s.wrongPort p n) (Reg.HOST_DB_WRONG_PORT p) 1 ∧
    (s.dbQueue.length < 1024 → ∃ e, (s.wrongPort p n).dbQueue = s.dbQueue ++ [e]) := by
  have hdef : s.wrongPort p n = ((s.bump32 (Reg.HOST_DB_WRONG_PORT p) 1).report (dbEvent 1 2 0x70 p 0 0 (leBytes n 8))).1 := rfl
  rw [hdef]
  refine ⟨fun j hj => ?_, ?_, fun hroom => ?_⟩
  · have hlost : ringReg n j ≠ Reg.SISYN_DB_LOST := fun h => ringReg_notMem_stopRegs hn hj (h ▸ List.mem_cons_self ..)
    have hport : ringReg n j ≠ Reg.HOST_DB_WRONG_PORT p := by
      unfold ringReg Reg.SPAD_RING_CFG Reg.HOST_DB_WRONG_PORT
      omega
    rw [State.report_reg_other _ _ hlost, s.reg_bump32_other _ hport]
  · have hlost : Reg.HOST_DB_WRONG_PORT p ≠ Reg.SISYN_DB_LOST := by
      unfold Reg.HOST_DB_WRONG_PORT Reg.SISYN_DB_LOST
      omega
    exact (congrArg BitVec.toNat (State.report_reg_other _ _ hlost)).trans (s.regN_bump32 _ _)
  · have hqueue := s.bump32_dbQueue (Reg.HOST_DB_WRONG_PORT p) 1
    obtain ⟨e, hadd, -⟩ := State.report_dbQueue (s.bump32 (Reg.HOST_DB_WRONG_PORT p) 1) (dbEvent 1 2 0x70 p 0 0 (leBytes n 8))
      (by rw [hqueue]; exact hroom)
    exact ⟨e, hadd.trans (by rw [hqueue])⟩

/-- A write to a disabled record is refused exactly where it is not taken: of a kind, a broken rule, an aligned base and a word past
the base. -/
theorem refuses_iff_not_takes (kindZero bad aligned past : Prop) :
    ¬ kindZero ∧ bad ∨ (¬ past ∨ ¬ kindZero) ∧ ¬ aligned ↔ ¬ ((kindZero ∨ ¬ bad) ∧ (aligned ∨ past ∧ kindZero)) := by
  by_cases hkind : kindZero <;> by_cases haligned : aligned <;> simp [hkind, haligned]

/-- Settles O37, by the kind of the ring, the state of its record and the port of the writer. -/
theorem ringRecordsAreWrittenOrRefused : Obligations.RingRecordsAreWrittenOrRefused := by
  unfold Obligations.RingRecordsAreWrittenOrRefused
  intro s r ring word wide value n k covers v x w i refusedIt kept written stops refused host aligned bytes regionOut bad
  have hn : n < 32768 := ring.isLt
  have hexec : exec i s =
      act (!wide || k % 2 == 0) s (s.ringConfig r n k (if wide then 2 else 1) value.toNat) := rfl
  have hwritten : written (s.setRing n w) := s.setRing_written n k wide value.toNat
  have hrefused : exec i s = .next (s.ringConfigFault r n) → refused := fun h =>
    ⟨fun hgo => ⟨_, h, s.ringConfigFault_refused hn hgo⟩,
     fun c hc hstop => ⟨_, h, by subst hc; exact s.ringConfigFault_stops hn hstop⟩⟩
  have hbase : baseBad w = true ↔ ¬ aligned := baseBad_iff w
  have hout : s.ringRegionOk n w = false ↔ regionOut := by
    simp only [regionOut]
    cases hplace : spadPlace (recBase w) with
    | none => exact s.ringRegionOk_lpddr hplace
    | some place => exact s.ringRegionOk_spad hplace
  have hbad : s.ringRecordBad n w = true ↔ bad := s.ringRecordBad_iff n w hout
  have hready : wide = false ∨ k % 2 = 0 → exec i s = .next (s.ringConfig r n k (if wide then 2 else 1) value.toNat) := fun h => by
    have hact : (!wide || k % 2 == 0) = true := by simpa using h
    rw [hexec, hact, act_true]
  refine ⟨?_, fun hword ha h0 => ?_, fun hword ha h0 => ⟨fun hk hh hp => ?_, fun p hk hh hp hne => ?_, fun hk hp => ?_, fun hk => ?_⟩⟩
  · rintro (⟨hwide, hodd⟩ | ha)
    · have hact : (!wide || k % 2 == 0) = false := by simp [hwide, hodd]
      rw [hexec, hact, act_false]
    · rw [hexec, s.ringConfig_absent r _ ha]
      rcases act_cases (!wide || k % 2 == 0) s s with ⟨-, h⟩ | ⟨-, h⟩ <;> exact h
  · have hres := s.ringConfig_reserved (value := value.toNat) (k := k) (wide := wide) r ha h0
    have htakes : recKind w = 0 ∧ (k < 2 → baseBad w = false) ↔ recKind w = 0 ∧ (2 ≤ k ∨ aligned) := by
      rw [← Bool.not_eq_true, hbase]
      omega
    refine ⟨fun ht => ⟨_, ?_, hwritten⟩, fun ht => hrefused ?_⟩
    · exact (hready hword).trans (congrArg _ (hres.trans (if_pos (htakes.mpr ht))))
    · exact (hready hword).trans (congrArg _ (hres.trans (if_neg (fun h => ht (htakes.mp h)))))
  · rw [hready hword, s.ringConfig_noPort r ha h0 hk hh hp]
  · exact ⟨_, (hready hword).trans (congrArg _ (s.ringConfig_wrongPort r ha h0 hk hh hp hne)), s.wrongPort_counted p hn⟩
  · have hen := (hready hword).trans (congrArg _ (s.ringConfig_enabled r ha h0 hk hp))
    refine ⟨fun h6 => ⟨_, ?_, hwritten⟩, fun hc hw hpair => ⟨s.setField x 9 4 0, ?_, s.regN_setRingKind n, ?_, rfl⟩,
      fun hc hw h3 h2 => hrefused ?_, fun h6 hc => hrefused ?_⟩
    · exact hen.trans (congrArg _ (s.ringWriteEnabled_class r w h6))
    · exact hen.trans (congrArg _ ((s.ringWriteEnabled_disable r hc hw).trans (if_neg hpair)))
    · exact fun y hy => s.reg_setField_other _ _ _ (by simpa using hy)
    · exact hen.trans (congrArg _ ((s.ringWriteEnabled_disable r hc hw).trans (if_pos ⟨h3, h2⟩)))
    · exact hen.trans (congrArg _ (s.ringWriteEnabled_other r h6 hc))
  · have hdis := s.ringConfig_disabled (value := value.toNat) (k := k) (wide := wide) r ha h0 hk
    have hrefuses : (recKind w ≠ 0 ∧ s.ringRecordBad n w = true) ∨ ((k < 2 ∨ recKind w ≠ 0) ∧ baseBad w = true) ↔
        ¬ ((recKind w = 0 ∨ ¬ bad) ∧ (aligned ∨ (2 ≤ k ∧ recKind w = 0))) := by
      rw [hbad, hbase, ← Nat.not_le]
      exact refuses_iff_not_takes _ _ _ _
    refine ⟨fun ht => ⟨_, ?_, hwritten⟩, fun ht => hrefused ?_⟩
    · exact (hready hword).trans (congrArg _ (hdis.trans (if_neg (fun h => hrefuses.mp h ht))))
    · exact (hready hword).trans (congrArg _ (hdis.trans (if_pos (hrefuses.mpr ht))))

end Sys2Proof.Machine
end

section
/-! SUPPORT. Powers of two, floors, and the rounding of U16 scales (R22, R40, R105). -/

namespace Sys2Proof.Machine

theorem pow2_eq_zpow (e : Int) : pow2 e = (2 : ℚ) ^ e := by
  unfold pow2
  split
  · next h =>
    obtain ⟨n, rfl⟩ := Int.eq_ofNat_of_zero_le h
    simp
  · next h =>
    obtain ⟨n, hn⟩ := Int.eq_ofNat_of_zero_le (show 0 ≤ -e by omega)
    obtain rfl : e = -(n : Int) := by omega
    simp [zpow_neg]

theorem pow2_pos (e : Int) : 0 < pow2 e := by
  rw [pow2_eq_zpow]
  positivity

theorem pow2_add (a b : Int) : pow2 (a + b) = pow2 a * pow2 b := by
  simp only [pow2_eq_zpow, zpow_add₀ (two_ne_zero' ℚ)]

theorem pow2_natCast (n : Nat) : pow2 n = (2 : ℚ) ^ n := by
  rw [pow2_eq_zpow, zpow_natCast]

theorem pow2_le_pow2 {a b : Int} (h : a ≤ b) : pow2 a ≤ pow2 b := by
  rw [pow2_eq_zpow, pow2_eq_zpow]
  exact zpow_le_zpow_right₀ one_le_two h

theorem ratAbs_eq_abs (q : ℚ) : ratAbs q = |q| := by
  unfold ratAbs
  split
  · next h => exact (abs_of_neg h).symm
  · next h => exact (abs_of_nonneg (not_lt.mp h)).symm

/-- The model's floor is Mathlib's. -/
theorem ratFloor_eq (q : ℚ) : q.floor = ⌊q⌋ := rfl

theorem ratCeil_eq (q : ℚ) : q.ceil = ⌈q⌉ := by
  rw [Rat.ceil_eq_neg_floor_neg, ratFloor_eq, Int.floor_neg, neg_neg]

/-- `ilog2` is the exponent of the leading bit. -/
theorem ilog2_spec {q : ℚ} (h : 0 < q) : pow2 (ilog2 q) ≤ q ∧ q < pow2 (ilog2 q + 1) := by
  have hn0 : 0 < q.num := Rat.num_pos.mpr h
  obtain ⟨n, hn⟩ := Int.eq_ofNat_of_zero_le hn0.le
  have hn' : n ≠ 0 := by omega
  have hq : q = (n : ℚ) / (q.den : ℚ) := by
    have := (Rat.num_div_den q).symm
    rwa [hn, Int.cast_natCast] at this
  have hlow : pow2 ((Nat.log2 n : Int) - (Nat.log2 q.den : Int) - 1) ≤ q := by
    have h1 : (2 : ℚ) ^ Nat.log2 n ≤ n := by exact_mod_cast Nat.log2_self_le hn'
    have h2 : (q.den : ℚ) ≤ 2 ^ (Nat.log2 q.den + 1) := by exact_mod_cast Nat.lt_log2_self.le
    have hd : (0 : ℚ) < q.den := by exact_mod_cast q.den_pos
    calc pow2 ((Nat.log2 n : Int) - (Nat.log2 q.den : Int) - 1)
        = (2 : ℚ) ^ Nat.log2 n / 2 ^ (Nat.log2 q.den + 1) := by
          rw [pow2_eq_zpow, sub_sub, zpow_sub₀ two_ne_zero, zpow_natCast]
          norm_cast
      _ ≤ n / q.den := by gcongr
      _ = q := hq.symm
  have hhigh : q < pow2 ((Nat.log2 n : Int) - (Nat.log2 q.den : Int) + 1) := by
    have h1 : (n : ℚ) < 2 ^ (Nat.log2 n + 1) := by exact_mod_cast Nat.lt_log2_self
    have h2 : (2 : ℚ) ^ Nat.log2 q.den ≤ q.den := by exact_mod_cast Nat.log2_self_le q.den_ne_zero
    calc q = n / q.den := hq
      _ < 2 ^ (Nat.log2 n + 1) / 2 ^ Nat.log2 q.den := by gcongr
      _ = pow2 ((Nat.log2 n : Int) - (Nat.log2 q.den : Int) + 1) := by
          rw [pow2_eq_zpow, show (Nat.log2 n : Int) - (Nat.log2 q.den : Int) + 1 = ((Nat.log2 n + 1 : Nat) : Int) - (Nat.log2 q.den : Int) by
            push_cast; ring, zpow_sub₀ two_ne_zero, zpow_natCast, zpow_natCast]
  unfold ilog2
  simp only [hn, Int.toNat_natCast]
  split
  · next hc => exact ⟨hc, hhigh⟩
  · next hc =>
    rw [sub_add_cancel]
    exact ⟨hlow, not_le.mp hc⟩

theorem roundNat_up {q : ℚ} (h : 0 ≤ q) : roundNat .up q = ⌈q⌉₊ := by
  have hf : q.floor.toNat = ⌊q⌋₊ := by rw [ratFloor_eq, Int.floor_toNat]
  simp only [roundNat, hf]
  split
  · next hz =>
    have hq : q = (⌊q⌋₊ : ℚ) := by linarith
    rw [hq, Nat.ceil_natCast, ← hq]
  · next hz =>
    refine ((Nat.ceil_eq_iff (Nat.succ_ne_zero _)).mpr ⟨?_, (Nat.lt_floor_add_one q).le.trans_eq (by push_cast; rfl)⟩).symm
    exact lt_of_le_of_ne (Nat.floor_le h) (fun he => hz (by rw [Nat.succ_sub_one] at he; linarith))

/-! U16 scales. -/

theorem u16Exp_ofNat {b : Nat} (h : b < 0x10000) : u16Exp (BitVec.ofNat 16 b) = b / 256 := by
  simp only [u16Exp, bits, BitVec.toNat_ofNat]
  omega

theorem u16Frac_ofNat (b : Nat) : u16Frac (BitVec.ofNat 16 b) = b % 256 := by
  simp only [u16Frac, bits, BitVec.toNat_ofNat]
  omega

theorem u16Val_of_exp_zero {h : Half} (he : u16Exp h = 0) : u16Val h = 0 := by simp [u16Val, he]

theorem u16Val_of_exp_ne {h : Half} (he : u16Exp h ≠ 0) :
    u16Val h = ((256 + u16Frac h : Nat) : ℚ) * pow2 ((u16Exp h : Int) - 135) := by simp [u16Val, he]

theorem u16Val_pos {h : Half} (he : u16Exp h ≠ 0) : 0 < u16Val h := by
  rw [u16Val_of_exp_ne he]
  have := pow2_pos ((u16Exp h : Int) - 135)
  positivity

/-- The pattern `b` counts significands of 9 bits from 0x0100 on: its value is that of its significand `m` and exponent. -/
theorem u16Val_ofNat {b : Nat} (hlo : 0x100 ≤ b) (hhi : b < 0x10000) :
    u16Exp (BitVec.ofNat 16 b) ≠ 0 ∧
    u16Val (BitVec.ofNat 16 b) = ((256 + b % 256 : Nat) : ℚ) * pow2 (((b / 256 : Nat) : Int) - 135) := by
  have he : u16Exp (BitVec.ofNat 16 b) ≠ 0 := by rw [u16Exp_ofNat hhi]; omega
  refine ⟨he, ?_⟩
  rw [u16Val_of_exp_ne he, u16Exp_ofNat hhi, u16Frac_ofNat]

/-- u16_up of a positive value: the pattern of a significand `m`, of nine bits or 512, that is at least the value, under the range
rules (R105). -/
theorem u16Up_eq {q : ℚ} (h : 0 < q) :
    ∃ m : Nat, 256 ≤ m ∧ m ≤ 512 ∧ q ≤ (m : ℚ) * pow2 (ilog2 q - 8) ∧
      u16Up q = if (ilog2 q + 126) * 256 + (m : Int) > 0xFEFF then 0xFEFF
        else if (ilog2 q + 126) * 256 + (m : Int) < 0x0100 then 0x0100
        else BitVec.ofNat 16 ((ilog2 q + 126) * 256 + (m : Int)).toNat := by
  obtain ⟨hlo, hhi⟩ := ilog2_spec h
  have hp := pow2_pos (ilog2 q - 8)
  have e8 : pow2 (ilog2 q) = 256 * pow2 (ilog2 q - 8) := by
    rw [show ilog2 q = (8 : Nat) + (ilog2 q - 8) by push_cast; ring, pow2_add, pow2_natCast]
    norm_num
  have e9 : pow2 (ilog2 q + 1) = 512 * pow2 (ilog2 q - 8) := by
    rw [pow2_add, e8, show (1 : Int) = ((1 : Nat) : Int) by rfl, pow2_natCast]
    ring
  have hm : roundNat .up (q / pow2 (ilog2 q - 8)) = ⌈q / pow2 (ilog2 q - 8)⌉₊ := roundNat_up (div_pos h hp).le
  have hge : q / pow2 (ilog2 q - 8) ≤ (roundNat .up (q / pow2 (ilog2 q - 8)) : ℚ) := hm ▸ Nat.le_ceil _
  refine ⟨roundNat .up (q / pow2 (ilog2 q - 8)), ?_, ?_, (div_le_iff₀ hp).mp hge, if_neg (not_le.mpr h)⟩
  · have h256 : ((256 : Nat) : ℚ) ≤ q / pow2 (ilog2 q - 8) := (le_div_iff₀ hp).mpr (by rw [e8] at hlo; exact_mod_cast hlo)
    exact_mod_cast h256.trans hge
  · rw [hm, Nat.ceil_le]
    exact (div_le_iff₀ hp).mpr (by rw [e9] at hhi; exact_mod_cast hhi.le)

/-- u16_up is at least the value, unless it is held at 0xFEFF (R105). -/
theorem le_u16Val_u16Up {q : ℚ} (h : 0 < q) (hh : u16Up q ≠ 0xFEFF) : u16Exp (u16Up q) ≠ 0 ∧ q ≤ u16Val (u16Up q) := by
  obtain ⟨m, hm1, hm2, hq, he⟩ := u16Up_eq h
  have hlog := (ilog2_spec h).2
  rw [he] at hh ⊢
  clear he
  generalize ilog2 q = e at *
  revert hh
  split
  · exact fun hh => absurd rfl hh
  · next hbig =>
    intro _
    split
    · next hsmall =>
      have hval := u16Val_ofNat (b := 0x100) (by norm_num) (by norm_num)
      refine ⟨hval.1, ?_⟩
      calc q ≤ pow2 (-126) := hlog.le.trans (pow2_le_pow2 (by omega))
        _ = u16Val (BitVec.ofNat 16 0x100) := by
          rw [hval.2, show (-126 : Int) = (8 : Nat) + (((0x100 / 256 : Nat) : Int) - 135) by norm_num, pow2_add, pow2_natCast]
          norm_num
    · next hsmall =>
      obtain ⟨b, hb⟩ := Int.eq_ofNat_of_zero_le (show 0 ≤ (e + 126) * 256 + (m : Int) by omega)
      rw [hb, Int.toNat_natCast]
      obtain ⟨hexp, hval⟩ := u16Val_ofNat (b := b) (by omega) (by omega)
      refine ⟨hexp, hq.trans_eq ?_⟩
      rw [hval]
      by_cases hm : m = 512
      · obtain rfl : e = ((b / 256 : Nat) : Int) - 128 := by omega
        have h0 : b % 256 = 0 := by omega
        rw [hm, h0, show ((b / 256 : Nat) : Int) - 128 - 8 = (((b / 256 : Nat) : Int) - 135) + -1 by ring, pow2_add]
        rw [pow2_eq_zpow (-1)]
        norm_num
        ring
      · have h0 : m = 256 + b % 256 := by omega
        rw [h0, show e - 8 = ((b / 256 : Nat) : Int) - 135 by omega]

end Sys2Proof.Machine
end

section
/-! SUPPORT. Codes made from values, and DYNAMIC's scales (R24, R40, R105). -/

namespace Sys2Proof.Machine

/-! Rounding a code. -/

/-- The integer that R40 makes of a value in units of a code: the nearest, or under a draw the floor or the next. -/
def roundCode (draw : Option Nat) (t : ℚ) : Int :=
  match draw with
  | none => ⌊t + 1 / 2⌋
  | some r => ⌊t⌋ + if (r : Int) < ⌊(t - (⌊t⌋ : ℚ)) * ((2 ^ 24 : Nat) : ℚ) + 1 / 2⌋ then 1 else 0

theorem floor_le_roundCode (draw : Option Nat) (t : ℚ) : ⌊t⌋ ≤ roundCode draw t := by
  cases draw with
  | none => exact Int.floor_mono (by linarith)
  | some r =>
    simp only [roundCode]
    split <;> omega

/-- An integer is rounded to itself under every draw. -/
theorem roundCode_intCast (draw : Option Nat) (n : Int) : roundCode draw (n : ℚ) = n := by
  have hhalf : ⌊(1 / 2 : ℚ)⌋ = 0 := by norm_num
  cases draw with
  | none => simp only [roundCode, Int.floor_intCast_add, hhalf, add_zero]
  | some r =>
    simp only [roundCode, Int.floor_intCast, sub_self, zero_mul, zero_add, hhalf]
    rw [if_neg (by omega), add_zero]

theorem roundCode_le_ceil (draw : Option Nat) (t : ℚ) : roundCode draw t ≤ ⌈t⌉ := by
  rcases eq_or_lt_of_le (Int.floor_le t) with he | hlt
  · rw [← he, roundCode_intCast, Int.ceil_intCast]
  · have hc : ⌊t⌋ + 1 ≤ ⌈t⌉ := Int.lt_ceil.mpr hlt
    cases draw with
    | none =>
      refine le_trans (Int.floor_le_iff.mpr ?_) hc
      have := Int.lt_floor_add_one t
      push_cast
      linarith
    | some r =>
      simp only [roundCode]
      split <;> omega

/-- A rounded code is less than one code away. -/
theorem abs_roundCode_sub_lt (draw : Option Nat) (t : ℚ) : |(roundCode draw t : ℚ) - t| < 1 := by
  have h1 : ((⌊t⌋ : Int) : ℚ) ≤ (roundCode draw t : ℚ) := by exact_mod_cast floor_le_roundCode draw t
  have h2 : (roundCode draw t : ℚ) ≤ ((⌈t⌉ : Int) : ℚ) := by exact_mod_cast roundCode_le_ceil draw t
  have h3 := Int.lt_floor_add_one t
  have h4 := Int.ceil_lt_add_one t
  rw [abs_lt]
  constructor <;> linarith

/-- Rounded to nearest, a code is at most half a code away. -/
theorem abs_roundCode_none_sub_le (t : ℚ) : |(roundCode none t : ℚ) - t| ≤ 1 / 2 := by
  have h1 := Int.floor_le (t + 1 / 2)
  have h2 := Int.lt_floor_add_one (t + 1 / 2)
  rw [abs_le]
  simp only [roundCode]
  constructor <;> linarith

/-! One code (R40). -/

/-- The value of one code more (R20). -/
def codeStep (f : Nat) (s : ℚ) : ℚ := if f = 0 then 2 * s else s

/-- The place of the value zero in units of codes. -/
def codeMid (f : Nat) (z : ℚ) : ℚ := if f = 0 then 1 / 2 else z

/-- The largest code. -/
def codeTop (f : Nat) : Nat := 2 ^ (f + 1) - 1

theorem codeStep_pos (f : Nat) {s : ℚ} (h : 0 < s) : 0 < codeStep f s := by
  unfold codeStep
  split <;> linarith

theorem codeVal_eq (f : Nat) (s z : ℚ) (c : Nat) : codeVal f s z c = codeStep f s * ((c : ℚ) - codeMid f z) := by
  unfold codeVal codeStep codeMid
  split <;> ring

theorem codeTop_cast (f : Nat) : (codeTop f : Int) = if f = 0 then 1 else (2 : Int) ^ (f + 1) - 1 := by
  have hp : 1 ≤ 2 ^ (f + 1) := Nat.one_le_two_pow
  unfold codeTop
  split
  · next h => simp [h]
  · push_cast [hp]
    rfl

/-- A code is the rounded place of its value, held to the range of codes. -/
theorem makeCode_eq (f : Nat) (s z : ℚ) (draw : Option Nat) (v : ℚ) :
    makeCode f s z draw v =
      ((min (max (roundCode draw (v / codeStep f s + codeMid f z)) 0) (codeTop f : Int)).toNat,
        decide (roundCode draw (v / codeStep f s + codeMid f z) < 0 ∨ (codeTop f : Int) < roundCode draw (v / codeStep f s + codeMid f z))) := by
  rw [codeTop_cast]
  cases draw <;> rfl

theorem codeOf_zero_scale {f : Nat} {scale : Half} (h : u16Exp scale = 0) (zero : Half) (draw : Option Nat) (v : ℚ) :
    codeOf f scale zero draw v = (0, false) := if_pos h

theorem codeOf_eq {f : Nat} {scale : Half} (h : u16Exp scale ≠ 0) (zero : Half) (draw : Option Nat) (v : ℚ) :
    codeOf f scale zero draw v = makeCode f (u16Val scale) (z16Val f zero) draw v := if_neg h

section
variable {f : Nat} {s : ℚ} (hs : 0 < s) (z : ℚ) (draw : Option Nat) (v : ℚ)

theorem makeCode_le_top : (makeCode f s z draw v).1 ≤ codeTop f := by
  rw [makeCode_eq]
  omega

/-- Without sat the code is the rounded place. -/
theorem makeCode_cast (h : (makeCode f s z draw v).2 = false) :
    ((makeCode f s z draw v).1 : Int) = roundCode draw (v / codeStep f s + codeMid f z) := by
  rw [makeCode_eq] at h ⊢
  simp only [decide_eq_false_iff_not] at h
  omega

/-- A value whose place lies in the range of codes is not held. -/
theorem makeCode_not_held (hlo : 0 ≤ v / codeStep f s + codeMid f z) (hhi : v / codeStep f s + codeMid f z ≤ codeTop f) :
    (makeCode f s z draw v).2 = false := by
  rw [makeCode_eq]
  have h1 : 0 ≤ roundCode draw (v / codeStep f s + codeMid f z) := (Int.floor_nonneg.mpr hlo).trans (floor_le_roundCode _ _)
  have h2 : roundCode draw (v / codeStep f s + codeMid f z) ≤ codeTop f :=
    (roundCode_le_ceil _ _).trans (Int.ceil_le.mpr (by exact_mod_cast hhi))
  simp only [decide_eq_false_iff_not]
  omega

include hs

/-- A code's value and a value differ as their places do. -/
theorem codeVal_sub (c : Nat) : codeVal f s z c - v = codeStep f s * ((c : ℚ) - (v / codeStep f s + codeMid f z)) := by
  have hp := (codeStep_pos f hs).ne'
  rw [codeVal_eq]
  field_simp
  ring

theorem abs_codeVal_sub (c : Nat) :
    ratAbs (codeVal f s z c - v) = codeStep f s * |(c : ℚ) - (v / codeStep f s + codeMid f z)| := by
  rw [ratAbs_eq_abs, codeVal_sub hs, abs_mul, abs_of_pos (codeStep_pos f hs)]

/-- The place of a code's own value is the code. -/
theorem place_codeVal (c : Nat) : codeVal f s z c / codeStep f s + codeMid f z = c := by
  rw [codeVal_eq, mul_div_cancel_left₀ _ (codeStep_pos f hs).ne']
  ring

/-- A code that is not held lies less than a step from its value. -/
theorem makeCode_near (h : (makeCode f s z draw v).2 = false) :
    ratAbs (codeVal f s z (makeCode f s z draw v).1 - v) < codeStep f s := by
  have hp := codeStep_pos f hs
  rw [abs_codeVal_sub hs]
  have hc : (((makeCode f s z draw v).1 : Nat) : ℚ) = (roundCode draw (v / codeStep f s + codeMid f z) : ℚ) := by
    exact_mod_cast makeCode_cast z draw v h
  rw [hc]
  exact (mul_lt_iff_lt_one_right hp).mpr (abs_roundCode_sub_lt _ _)

/-- Without a draw it lies at most half a step away. -/
theorem makeCode_nearest (h : (makeCode f s z none v).2 = false) :
    ratAbs (codeVal f s z (makeCode f s z none v).1 - v) ≤ codeStep f s / 2 := by
  have hp := codeStep_pos f hs
  rw [abs_codeVal_sub hs]
  have hc : (((makeCode f s z none v).1 : Nat) : ℚ) = (roundCode none (v / codeStep f s + codeMid f z) : ℚ) := by
    exact_mod_cast makeCode_cast z none v h
  rw [hc, div_eq_mul_one_div (codeStep f s)]
  exact mul_le_mul_of_nonneg_left (abs_roundCode_none_sub_le _) hp.le

/-- A held code is the end of the range that the value lies beyond. -/
theorem makeCode_held (h : (makeCode f s z draw v).2 = true) :
    ((makeCode f s z draw v).1 = 0 ∧ v < codeVal f s z 0) ∨
    ((makeCode f s z draw v).1 = codeTop f ∧ codeVal f s z (codeTop f) < v) := by
  have hp := codeStep_pos f hs
  have hlow := codeVal_sub hs z v (f := f) 0
  have hhigh := codeVal_sub hs z v (f := f) (codeTop f)
  rw [makeCode_eq] at h ⊢
  generalize v / codeStep f s + codeMid f z = t at *
  rcases of_decide_eq_true h with hneg | htop
  · have ht : t < 0 := by
      have : ⌊t⌋ < 0 := (floor_le_roundCode draw t).trans_lt hneg
      exact Int.floor_lt_zero.mp this
    refine .inl ⟨by omega, ?_⟩
    have : 0 < codeStep f s * (((0 : Nat) : ℚ) - t) := mul_pos hp (by simpa using ht)
    linarith
  · have ht : (codeTop f : ℚ) < t := by
      have : (codeTop f : Int) < ⌈t⌉ := htop.trans_le (roundCode_le_ceil draw t)
      exact_mod_cast Int.lt_ceil.mp this
    refine .inr ⟨by omega, ?_⟩
    have : codeStep f s * ((codeTop f : ℚ) - t) < 0 := mul_neg_of_pos_of_neg hp (by linarith)
    linarith

/-- A code's own value makes that code. -/
theorem makeCode_codeVal {c : Nat} (hc : c ≤ codeTop f) : makeCode f s z draw (codeVal f s z c) = (c, false) := by
  have hr : roundCode draw (codeVal f s z c / codeStep f s + codeMid f z) = c := by
    rw [place_codeVal hs]
    exact_mod_cast roundCode_intCast draw c
  rw [makeCode_eq, hr]
  simp only [Prod.mk.injEq, decide_eq_false_iff_not]
  omega

end

/-- B1 stores the sign (R24). -/
theorem makeCode_sign {s : ℚ} (hs : 0 < s) (z v : ℚ) : (makeCode 0 s z none v).1 = if v < 0 then 0 else 1 := by
  have hp : 0 < 2 * s := by linarith
  have hr : roundCode none (v / codeStep 0 s + codeMid 0 z) = ⌊v / (2 * s)⌋ + 1 := by
    simp only [roundCode, codeStep, codeMid, if_true]
    rw [← Int.floor_add_one]
    ring_nf
  have ht : codeTop 0 = 1 := rfl
  rw [makeCode_eq, hr, ht]
  split
  · next h =>
    have : ⌊v / (2 * s)⌋ < 0 := Int.floor_lt_zero.mpr (div_neg_of_neg_of_pos h hp)
    dsimp only
    omega
  · next h =>
    have : 0 ≤ ⌊v / (2 * s)⌋ := Int.floor_nonneg.mpr (div_nonneg (not_lt.mp h) hp.le)
    dsimp only
    omega

theorem codesAreMadeFromValues_holds : codesAreMadeFromValues := by
  intro f scale zero draw v
  refine ⟨fun h => codeOf_zero_scale h zero draw v, fun h => ?_⟩
  have hs := u16Val_pos h
  simp only [codeOf_eq h]
  exact ⟨makeCode_le_top _ draw v, makeCode_near hs _ draw v, fun hh hd => by subst hd; exact makeCode_nearest hs _ v hh,
    makeCode_held hs _ draw v, fun c hc => makeCode_codeVal hs _ draw hc, fun hf hd => by subst hf hd; exact makeCode_sign hs _ v⟩

/-! DYNAMIC (R105). -/

theorem dynamicScale_empty (f : Nat) (lo mean : ℚ) : dynamicScale f lo lo mean = (0, 0) := if_pos rfl

/-- The unit of a zero point (R25). -/
def zeroUnit (f : Nat) : ℚ := 1 / ((2 ^ zetaBits f : Nat) : ℚ)

theorem dynamicScale_eq {f : Nat} (hf : f ≠ 0) {lo hi : ℚ} (h : lo < hi) (mean : ℚ) :
    dynamicScale f lo hi mean =
      (u16Up ((hi - lo) / ((codeTop f : ℚ) - zeroUnit f)),
        BitVec.ofNat 16 ⌈(-lo / u16Val (u16Up ((hi - lo) / ((codeTop f : ℚ) - zeroUnit f)))) / zeroUnit f⌉.toNat) := by
  simp only [dynamicScale, if_neg h.ne', if_neg hf, ratCeil_eq]
  rfl

theorem z16Val_eq (f : Nat) (z : Half) : z16Val f z = (z.toNat : ℚ) * zeroUnit f := by
  unfold z16Val zeroUnit
  ring

/-- The zero points of a stored Qn format, in whole units, reach past its codes. -/
theorem codeTop_units {f : Nat} (hst : fmtStored f = true) (hf : f ≠ 0) :
    0 < zeroUnit f ∧ zeroUnit f < codeTop f ∧ (codeTop f : ℚ) / zeroUnit f < 2 ^ 16 := by
  simp only [fmtStored, Bool.or_eq_true, beq_iff_eq] at hst
  rcases hst with ((((((rfl | rfl) | rfl) | rfl) | rfl) | rfl) | rfl) | rfl
  · exact absurd rfl hf
  all_goals norm_num [zeroUnit, zetaBits, fmtWide, codeTop]

/-- The zero point that DYNAMIC stores: the least one in whole units at or above the exact place of zero. -/
theorem zeroPoint_spec {f : Nat} (hst : fmtStored f = true) (hf : f ≠ 0) {x : ℚ} (h0 : 0 ≤ x) (h : x ≤ (codeTop f : ℚ) - zeroUnit f) :
    x ≤ z16Val f (BitVec.ofNat 16 ⌈x / zeroUnit f⌉.toNat) ∧ z16Val f (BitVec.ofNat 16 ⌈x / zeroUnit f⌉.toNat) ≤ x + zeroUnit f := by
  obtain ⟨hu, -, htop⟩ := codeTop_units hst hf
  have hx : 0 ≤ x / zeroUnit f := div_nonneg h0 hu.le
  rw [Int.ceil_toNat]
  have hlt := Nat.ceil_lt_add_one hx
  have hsmall : ⌈x / zeroUnit f⌉₊ < 2 ^ 16 := by
    have h1 : x / zeroUnit f + 1 ≤ (codeTop f : ℚ) / zeroUnit f := by
      rw [div_add_one hu.ne']
      gcongr
      linarith
    have h2 : ((⌈x / zeroUnit f⌉₊ : Nat) : ℚ) < ((2 ^ 16 : Nat) : ℚ) := by
      push_cast
      linarith
    exact_mod_cast h2
  rw [z16Val_eq, BitVec.toNat_ofNat, Nat.mod_eq_of_lt hsmall]
  refine ⟨(div_le_iff₀ hu).mp (Nat.le_ceil _), ?_⟩
  calc ((⌈x / zeroUnit f⌉₊ : Nat) : ℚ) * zeroUnit f ≤ (x / zeroUnit f + 1) * zeroUnit f := by gcongr
    _ = x + zeroUnit f := by field_simp

/-- A range of a Qn format that holds zero, whose scale is not held: every value of it has its place among the codes. -/
theorem dynamicScale_place {f : Nat} (hst : fmtStored f = true) (hf : f ≠ 0) {lo hi mean v : ℚ} (h0 : lo ≤ 0) (h0' : 0 ≤ hi)
    (h : lo < hi) (hlo : lo ≤ v) (hhi : v ≤ hi) (hh : (dynamicScale f lo hi mean).1 ≠ 0xFEFF) :
    u16Exp (dynamicScale f lo hi mean).1 ≠ 0 ∧
    0 ≤ v / codeStep f (u16Val (dynamicScale f lo hi mean).1) + codeMid f (z16Val f (dynamicScale f lo hi mean).2) ∧
    v / codeStep f (u16Val (dynamicScale f lo hi mean).1) + codeMid f (z16Val f (dynamicScale f lo hi mean).2) ≤ codeTop f := by
  obtain ⟨-, hut, -⟩ := codeTop_units hst hf
  rw [dynamicScale_eq hf h] at hh ⊢
  simp only [codeStep, codeMid, if_neg hf] at hh ⊢
  have hspan : 0 < (codeTop f : ℚ) - zeroUnit f := sub_pos.mpr hut
  obtain ⟨hexp, hge⟩ := le_u16Val_u16Up (div_pos (sub_pos.mpr h) hspan) hh
  have hs := u16Val_pos hexp
  refine ⟨hexp, ?_⟩
  generalize u16Val (u16Up ((hi - lo) / ((codeTop f : ℚ) - zeroUnit f))) = s at *
  have hrange : hi / s + -lo / s ≤ (codeTop f : ℚ) - zeroUnit f := by
    rw [div_le_iff₀ hspan] at hge
    rw [← add_div, div_le_iff₀ hs]
    linarith
  have hhi0 : 0 ≤ hi / s := div_nonneg h0' hs.le
  have hlo0 : 0 ≤ -lo / s := div_nonneg (neg_nonneg.mpr h0) hs.le
  have hv1 : -v / s ≤ -lo / s := by gcongr
  have hv2 : v / s ≤ hi / s := by gcongr
  rw [neg_div] at hv1
  obtain ⟨hz1, hz2⟩ := zeroPoint_spec hst hf hlo0 (by linarith)
  constructor <;> linarith

theorem dynamicScalesHoldTheirRange_holds : dynamicScalesHoldTheirRange := by
  intro f lo hi mean v draw hst h0 h0'
  refine ⟨fun h => h ▸ dynamicScale_empty f lo mean, fun hf h hlo hhi hh => ?_⟩
  obtain ⟨hexp, hp0, hp1⟩ := dynamicScale_place hst hf h0 h0' h hlo hhi hh
  exact ⟨hexp, by rw [codeOf_eq hexp]; exact makeCode_not_held _ _ _ hp0 hp1⟩

end Sys2Proof.Machine
end

section
/-! SUPPORT. The group term of a lane (R37, R55–R58). -/

namespace Sys2Proof.Machine

/-- The elements that both rows of a lane hold. -/
def heldPairs (w a : List (Option Nat)) : List (Nat × Nat) :=
  (w.zip a).filterMap (fun e => match e with
    | (some x, some y) => some (x, y)
    | _ => none)

/-- The sums over a list of pairs, added to earlier ones. -/
def Sums.over (s : Sums) (l : List (Nat × Nat)) : Sums :=
  ⟨s.p + (l.map (fun e => e.1 * e.2)).sum, s.sw + (l.map (·.1)).sum, s.sa + (l.map (·.2)).sum, s.g + l.length⟩

theorem Sums.over_cons (s : Sums) (x y : Nat) (l : List (Nat × Nat)) :
    s.over ((x, y) :: l) = Sums.over ⟨s.p + x * y, s.sw + x, s.sa + y, s.g + 1⟩ l := by
  simp only [Sums.over, List.map_cons, List.sum_cons, List.length_cons, Sums.mk.injEq]
  omega

theorem laneSums_eq (w a : List (Option Nat)) : laneSums w a = Sums.over ⟨0, 0, 0, 0⟩ (heldPairs w a) := by
  unfold laneSums heldPairs
  generalize w.zip a = l
  generalize (⟨0, 0, 0, 0⟩ : Sums) = s
  induction l generalizing s with
  | nil => rfl
  | cons e l ih =>
    rw [List.foldl_cons, List.filterMap_cons, ih]
    obtain ⟨_ | x, _ | y⟩ := e
    · rfl
    · rfl
    · rfl
    · exact (Sums.over_cons s x y _).symm

/-! A held element's value. -/

/-- The scale of an operand's values: B1's codes count in steps of two (R20). -/
def Operand.scaleOf (o : Operand) (h : Half) : ℚ := u16Val h * (if o.d.fmt = 0 then 2 else 1)

/-- A held element counts from the zero point in use, in units of 2^−fx (R37, R57). -/
theorem heldValue_eq (o : Operand) (r : Whey) (x : Nat) :
    heldValue o r x = o.scaleOf r.scale * ((x : ℚ) - (o.zeroOf r.zero : ℚ) / 2 ^ o.fx) := by
  unfold heldValue Operand.scaleOf Operand.zeroOf Operand.fx z16Val zetaBits
  by_cases h0 : o.d.fmt = 0
  · simp only [h0, if_true]
    push_cast
    ring
  · simp only [h0, if_false]
    cases hw : fmtWide o.d.fmt
    · simp only [Bool.false_eq_true, if_false]
      push_cast
      ring
    · simp only [if_true]
      by_cases hv : o.d.view < o.d.fmt
      · simp only [hv, if_true]
        push_cast
        ring
      · have hd : o.drop = 0 := by unfold Operand.drop; omega
        simp only [hv, if_false, hd]
        push_cast
        ring

/-- The products of two lists of values, each counted from its zero, by the sums of the counts. -/
theorem sum_products_of_zeros (A B zw za : ℚ) (l : List (Nat × Nat)) :
    (l.map (fun e => A * ((e.1 : ℚ) - zw) * (B * ((e.2 : ℚ) - za)))).sum =
      A * B * ((((l.map (fun e => e.1 * e.2)).sum : Nat) : ℚ) - za * (((l.map (·.1)).sum : Nat) : ℚ)
        - zw * (((l.map (·.2)).sum : Nat) : ℚ) + (l.length : ℚ) * zw * za) := by
  induction l with
  | nil => simp
  | cons e l ih =>
    simp only [List.map_cons, List.sum_cons, List.length_cons, ih]
    push_cast
    ring

/-- A scale's significand and weight (R22, R57). -/
theorem Operand.scaleOf_eq (o : Operand) {h : Half} (he : u16Exp h ≠ 0) :
    o.scaleOf h = ((256 + u16Frac h : Nat) : ℚ) * pow2 (((u16Exp h + if o.d.fmt = 0 then 1 else 0 : Nat) : Int) - 135) := by
  have h1 : pow2 1 = 2 := by norm_num [pow2]
  unfold Operand.scaleOf
  rw [u16Val_of_exp_ne he]
  split
  · rw [show (((u16Exp h + 1 : Nat) : Int) - 135) = ((u16Exp h : Int) - 135) + 1 by push_cast; ring, pow2_add, h1]
    ring
  · rw [Nat.add_zero, mul_one]

theorem Operand.scaleOf_zero (o : Operand) {h : Half} (he : u16Exp h = 0) : o.scaleOf h = 0 := by
  rw [Operand.scaleOf, u16Val_of_exp_zero he, zero_mul]

/-- The integer that a group term carries beside its scales: the sum of the products, in units of both zero points (R56). -/
def Product.termCount (p : Product) (rw ra : Whey) (l : List (Nat × Nat)) : Int :=
  (((l.map (fun e => e.1 * e.2)).sum : Nat) : Int) * 2 ^ (p.w.fx + p.a.fx)
    - p.a.zeroOf ra.zero * 2 ^ p.w.fx * (((l.map (·.1)).sum : Nat) : Int)
    - p.w.zeroOf rw.zero * 2 ^ p.a.fx * (((l.map (·.2)).sum : Nat) : Int)
    + (l.length : Int) * p.w.zeroOf rw.zero * p.a.zeroOf ra.zero

/-- The exact sum of the products of the values that both rows hold. -/
theorem sum_heldValues (p : Product) (rw ra : Whey) (l : List (Nat × Nat)) :
    (l.map (fun e => heldValue p.w rw e.1 * heldValue p.a ra e.2)).sum =
      p.w.scaleOf rw.scale * p.a.scaleOf ra.scale * ((p.termCount rw ra l : ℚ) / 2 ^ (p.w.fx + p.a.fx)) := by
  simp only [heldValue_eq]
  rw [sum_products_of_zeros, Product.termCount]
  generalize (l.map (fun e => e.1 * e.2)).sum = P
  generalize (l.map (·.1)).sum = SW
  generalize (l.map (·.2)).sum = SA
  push_cast
  rw [pow_add]
  field_simp

/-- The group term of a lane, where the weight's code_sum is the counted sum wherever R56 lets it stand for it. -/
theorem Product.term_eq (p : Product) {w a : RowData} {rw ra : Whey} (hw : w.whey = some rw) (ha : a.whey = some ra)
    (hsum : p.gt = p.w.d.g → (heldPairs w.vals a.vals).length = p.gt → p.w.d.view = p.w.d.fmt →
      rw.codeSum = ((heldPairs w.vals a.vals).map (·.1)).sum) :
    p.term w a (laneSums w.vals a.vals) (laneSums w.vals a.vals).p =
      if (heldPairs w.vals a.vals).length = 0 ∨ u16Exp rw.scale = 0 ∨ u16Exp ra.scale = 0 ∨
        p.termCount rw ra (heldPairs w.vals a.vals) = 0 then none
      else some (p.termCount rw ra (heldPairs w.vals a.vals) * (256 + u16Frac rw.scale : Nat) * (256 + u16Frac ra.scale : Nat),
        ((u16Exp rw.scale + if p.w.d.fmt = 0 then 1 else 0 : Nat) : Int) + ((u16Exp ra.scale + if p.a.d.fmt = 0 then 1 else 0 : Nat) : Int)
          - 254 - 16 - ((p.w.fx + p.a.fx : Nat) : Int)) := by
  rw [laneSums_eq]
  generalize heldPairs w.vals a.vals = l at *
  have hsw : (if (p.gt == p.w.d.g && l.length == p.gt && p.w.d.view == p.w.d.fmt) = true then rw.codeSum else (l.map (·.1)).sum) =
      (l.map (·.1)).sum := by
    split
    · next h =>
      simp only [Bool.and_eq_true, beq_iff_eq] at h
      exact hsum h.1.1 h.1.2 h.2
    · rfl
  simp only [Product.term, hw, ha, Sums.over, zero_add, hsw]
  rfl

theorem groupTermsAreExactProducts_holds : groupTermsAreExactProducts := by
  intro p w a rw ra held z sum hw ha hsum
  have hterm := p.term_eq hw ha hsum
  have hval : sum = _ := sum_heldValues p rw ra (heldPairs w.vals a.vals)
  rw [hterm, hval]
  generalize heldPairs w.vals a.vals = l
  by_cases hnone : l.length = 0 ∨ u16Exp rw.scale = 0 ∨ u16Exp ra.scale = 0 ∨ p.termCount rw ra l = 0
  · rw [if_pos hnone]
    refine ⟨fun n x h => (nomatch h), fun _ => ?_⟩
    rcases hnone with hl | hrw | hra | ht
    · obtain rfl := List.length_eq_zero_iff.mp hl
      simp [Product.termCount]
    · simp [p.w.scaleOf_zero hrw]
    · simp [p.a.scaleOf_zero hra]
    · simp [ht]
  · rw [if_neg hnone]
    refine ⟨fun n x h => ?_, fun h => nomatch h⟩
    obtain ⟨rfl, rfl⟩ := Prod.mk.inj (Option.some.inj h)
    simp only [not_or] at hnone
    obtain ⟨-, hrw, hra, ht⟩ := hnone
    rw [p.w.scaleOf_eq hrw, p.a.scaleOf_eq hra]
    generalize u16Exp rw.scale + _ = ew
    generalize u16Exp ra.scale + _ = ea
    have hx : pow2 ((ew : Int) + (ea : Int) - 254 - 16 - ((p.w.fx + p.a.fx : Nat) : Int)) =
        pow2 ((ew : Int) - 135) * pow2 ((ea : Int) - 135) / 2 ^ (p.w.fx + p.a.fx) := by
      rw [show (ew : Int) + (ea : Int) - 254 - 16 - ((p.w.fx + p.a.fx : Nat) : Int) =
        ((ew : Int) - 135) + ((ea : Int) - 135) + -((p.w.fx + p.a.fx : Nat) : Int) by ring, pow2_add, pow2_add,
        pow2_eq_zpow (-((p.w.fx + p.a.fx : Nat) : Int)), zpow_neg, zpow_natCast, div_eq_mul_inv]
    have p1 := pow2_pos ((ew : Int) - 135)
    have p2 := pow2_pos ((ea : Int) - 135)
    have ht' : (p.termCount rw ra l : ℚ) ≠ 0 := by exact_mod_cast ht
    refine ⟨?_, ?_⟩
    · rw [hx]
      push_cast
      ring
    · have f1 : ((256 + u16Frac rw.scale : Nat) : ℚ) ≠ 0 := by positivity
      have f2 : ((256 + u16Frac ra.scale : Nat) : ℚ) ≠ 0 := by positivity
      have f3 : (2 : ℚ) ^ (p.w.fx + p.a.fx) ≠ 0 := by positivity
      exact mul_ne_zero (mul_ne_zero (mul_ne_zero f1 p1.ne') (mul_ne_zero f2 p2.ne')) (div_ne_zero ht' f3)

end Sys2Proof.Machine
end

section
/-! SUPPORT. Bytes written in order, the record of a group and the planes of a tile (R26, R32, R33). -/

namespace Sys2Proof.Machine

/-! Bytes. -/

theorem tabFind_putBytes_other (bs : List Byte) (t : Tab Byte) {a b : Nat} (h : b < a ∨ a + bs.length ≤ b) :
    tabFind (putBytes t a bs) b = tabFind t b := by
  induction bs generalizing t a with
  | nil => rfl
  | cons x bs ih =>
    simp only [List.length_cons] at h
    unfold putBytes
    rw [ih _ (by omega), tabFind_put_other t x (by omega)]

/-- The bytes listed read back. -/
theorem bytesGet_putBytes (d : Byte) (bs : List Byte) (t : Tab Byte) (a : Nat) :
    bytesGet d (putBytes t a bs) a bs.length = bs := by
  induction bs generalizing t a with
  | nil => rfl
  | cons x bs ih =>
    simp only [List.length_cons, bytesGet, putBytes]
    rw [ih, tabGet, tabFind_putBytes_other _ _ (.inl (Nat.lt_succ_self a)), tabFind_put_same, Option.getD_some]

theorem putBytes_append (xs ys : List Byte) (t : Tab Byte) (a : Nat) :
    putBytes t a (xs ++ ys) = putBytes (putBytes t a xs) (a + xs.length) ys := by
  induction xs generalizing t a with
  | nil => rfl
  | cons x xs ih =>
    simp only [List.cons_append, putBytes, ih, List.length_cons]
    congr 1
    omega

theorem leNat_leBytes (v n : Nat) : leNat (leBytes v n) = v % 256 ^ n := by
  induction n generalizing v with
  | zero => simp [leBytes, leNat, Nat.mod_one]
  | succ n ih =>
    simp only [leBytes, leNat, ih, BitVec.toNat_ofNat]
    rw [show 256 ^ (n + 1) = 256 * 256 ^ n from pow_succ' 256 n, Nat.mod_mul]

theorem sumOf_eq_sum (l : List Nat) : sumOf l = l.sum := List.sum_eq_foldl.symm

/-! Records (R26, R27). -/

theorem Whey.toNat_lt (w : Whey) : w.toNat < 2 ^ 64 := by
  have h1 := w.scale.isLt
  have h2 := w.zero.isLt
  unfold Whey.toNat
  omega

/-- A record reads back from its 64 bits. -/
theorem Whey.ofNat_toNat {w : Whey} (hc : w.codeSum < 2 ^ 22) (hp : w.planesM1 < 16) (ht : w.tag < 64) : Whey.ofNat w.toNat = w := by
  obtain ⟨scale, zero, codeSum, planesM1, tag⟩ := w
  have h1 := scale.isLt
  have h2 := zero.isLt
  dsimp only at hc hp ht
  simp only [Whey.ofNat, Whey.toNat, bits, Whey.mk.injEq]
  refine ⟨BitVec.eq_of_toNat_eq ?_, BitVec.eq_of_toNat_eq ?_, ?_, ?_, ?_⟩
  · rw [BitVec.toNat_ofNat]
    omega
  · rw [BitVec.toNat_ofNat]
    omega
  all_goals omega

theorem Desc.tagOf_lt (d : Desc) (r j : Nat) : d.tagOf r j < 64 := by
  unfold Desc.tagOf wheyTag
  split <;> exact Nat.mod_lt _ (by decide)

theorem bitOf_allHeld {i : Nat} (h : i < 64) : bitOf allHeld i = true := by
  interval_cases i <;> rfl

/-- The code_sum of a group all of whose elements the made tiles hold is the sum of its codes (R27). -/
theorem StoreOp.sumOfGroup_held (t : StoreOp) (ts : List MadeTile) (g : Made)
    (h : ∀ i, i < g.codes.length → ∃ w ∈ ts.find? (fun w => w.nb == g.row / t.D.tileRows &&
        w.kb == ((t.D.groupSpan g.grp).1 + i) / 64), (w.rows.getD (g.row % t.D.tileRows) default).held = allHeld) :
    t.sumOfGroup ts g = g.codes.sum := by
  rw [StoreOp.sumOfGroup, sumOf_eq_sum]
  congr 1
  refine List.ext_getElem (by simp) (fun i hi hi' => ?_)
  obtain ⟨w, hw, hheld⟩ := h i hi'
  rw [Option.mem_def] at hw
  rw [List.getElem_mapIdx]
  dsimp only
  rw [hw]
  dsimp only
  rw [hheld, bitOf_allHeld (Nat.mod_lt _ (by decide)), if_pos rfl]

/-- The bytes of a group's record, outside a list of blocks. -/
theorem StoreOp.putRecord_out (t : StoreOp) (bl : BclList) (ts : List MadeTile) (m : Mv) (g : Made) (hb : t.D.bcl = false) :
    (t.putRecord bl ts m g).out = putBytes m.out (t.D.wheyAddr g.row g.grp t.o)
      (leBytes (Whey.toNat ⟨g.scale, g.zero, t.sumOfGroup ts g, t.D.fmt, t.D.tagOf g.row g.grp⟩) 8) := by
  simp only [StoreOp.putRecord, hb]
  rfl

/-! Planes (R32, R33). -/

/-- The number that bits spell, bit 0 first, holds them and no more. -/
theorem foldr_bits_lt (l : List Nat) (h : ∀ b ∈ l, b < 2) : l.foldr (fun b a => 2 * a + b) 0 < 2 ^ l.length := by
  induction l with
  | nil => decide
  | cons b l ih =>
    have h1 := ih (fun x hx => h x (List.mem_cons_of_mem b hx))
    have h2 := h b (List.mem_cons_self ..)
    rw [List.foldr_cons, List.length_cons, pow_succ]
    omega

theorem foldr_bits_bit (l : List Nat) (h : ∀ b ∈ l, b < 2) (e : Nat) :
    l.foldr (fun b a => 2 * a + b) 0 / 2 ^ e % 2 = l.getD e 0 := by
  induction l generalizing e with
  | nil => simp
  | cons b l ih =>
    have h1 := ih (fun x hx => h x (List.mem_cons_of_mem b hx))
    have h2 := h b (List.mem_cons_self ..)
    rw [List.foldr_cons]
    cases e with
    | zero =>
      rw [pow_zero, Nat.div_one, List.getD_cons_zero]
      omega
    | succ e =>
      rw [List.getD_cons_succ, ← h1 e, pow_succ', ← Nat.div_div_eq_div_mul]
      congr 2
      omega

/-- The word of plane bit `i` of a row of at most 64 codes fits in 64 bits. -/
theorem codesWord_lt (codes : List Nat) (i : Nat) : codesWord codes i < 2 ^ codes.length := by
  have h := foldr_bits_lt (codes.map (fun c => c / 2 ^ i % 2))
    (fun b hb => by obtain ⟨c, -, rfl⟩ := List.mem_map.mp hb; exact Nat.mod_lt _ (by decide))
  rwa [List.length_map] at h

theorem codesWord_bit (codes : List Nat) (i e : Nat) : codesWord codes i / 2 ^ e % 2 = codes.getD e 0 / 2 ^ i % 2 := by
  rw [codesWord, foldr_bits_bit _ (fun b hb => by obtain ⟨c, -, rfl⟩ := List.mem_map.mp hb; exact Nat.mod_lt _ (by decide))]
  simp only [List.getD_eq_getElem?_getD, List.getElem?_map]
  cases codes[e]? <;> simp

/-- The planes of a code, most significant first, spell it. -/
theorem planeCode_eq (W : Nat → Nat) (c b e : Nat) (h : ∀ k, k < b → W k / 2 ^ e % 2 = c / 2 ^ (b - 1 - k) % 2) :
    planeCode ((List.range b).map W) e = c % 2 ^ b := by
  have hpre : ∀ j, j ≤ b → planeCode ((List.range j).map W) e = c / 2 ^ (b - j) % 2 ^ j := by
    intro j
    induction j with
    | zero => intro _; simp [planeCode, Nat.mod_one]
    | succ j ih =>
      intro hj
      have hstep := ih (by omega)
      have hdiv : c / 2 ^ (b - j) = c / 2 ^ (b - 1 - j) / 2 := by
        rw [Nat.div_div_eq_div_mul, ← pow_succ]
        congr 2
        omega
      rw [planeCode, List.foldl_map] at hstep ⊢
      rw [List.range_succ, List.foldl_append, hstep, List.foldl_cons, List.foldl_nil, h j (by omega), hdiv, pow_succ', Nat.mod_mul,
        show b - (j + 1) = b - 1 - j by omega]
      omega
  simpa using hpre b le_rfl

/-- The bytes of planes of 64-bit words: of plane `k` the words `W k`. -/
def planeBytes (W : Nat → List Nat) (n : Nat) : List Byte := (List.range n).flatMap (fun k => (W k).flatMap (leBytes · 8))

section
variable {W : Nat → List Nat} {rows : Nat} (hW : ∀ k, (W k).length = rows)

theorem length_wordsBytes (l : List Nat) : (l.flatMap (leBytes · 8)).length = 8 * l.length := by
  induction l with
  | nil => rfl
  | cons w l ih => simp only [List.flatMap_cons, List.length_append, ih, length_leBytes, List.length_cons]; omega

include hW

theorem length_planeBytes (n : Nat) : (planeBytes W n).length = rows * 8 * n := by
  induction n with
  | zero => rfl
  | succ n ih =>
    rw [planeBytes, List.range_succ, List.flatMap_append, List.length_append, ← planeBytes, ih, List.flatMap_singleton,
      length_wordsBytes, hW]
    ring

/-- Planes put one after the other list their bytes in order. -/
theorem Mv.foldl_putPlane_out (m : Mv) (a n : Nat) :
    ((List.range n).foldl (fun (m : Mv) k => m.putPlane a rows 0 k (W k)) m).out = putBytes m.out a (planeBytes W n) := by
  induction n with
  | zero => rfl
  | succ n ih =>
    rw [List.range_succ, List.foldl_append, planeBytes, List.range_succ, List.flatMap_append, ← planeBytes, putBytes_append, ← ih,
      length_planeBytes hW, List.flatMap_singleton]
    rfl

/-- Word of row `i` in plane slot `k`. -/
theorem planeWord_planeBytes {n k i : Nat} (hk : k < n) (hi : i < rows) :
    planeWord (planeBytes W n) rows k i = (W k).getD i 0 % 2 ^ 64 := by
  obtain ⟨n, rfl⟩ := Nat.exists_eq_add_of_lt hk
  have hsplit : planeBytes W (k + n + 1) = planeBytes W k ++ ((W k).flatMap (leBytes · 8) ++
      (List.range n).flatMap (fun j => (W (k + 1 + j)).flatMap (leBytes · 8))) := by
    rw [planeBytes, planeBytes, show k + n + 1 = (k + 1) + n by omega, List.range_add, List.flatMap_append, List.range_succ,
      List.flatMap_append, List.flatMap_singleton, List.append_assoc, List.flatMap_map]
  have hi' : i < (W k).length := by rw [hW]; exact hi
  have hrow : (W k).flatMap (leBytes · 8) = ((W k).take i).flatMap (leBytes · 8) ++
      (leBytes (W k)[i] 8 ++ ((W k).drop (i + 1)).flatMap (leBytes · 8)) := by
    conv_lhs => rw [← List.take_append_drop i (W k), List.flatMap_append, List.drop_eq_getElem_cons hi', List.flatMap_cons]
  have hpre : (planeBytes W k ++ ((W k).take i).flatMap (leBytes · 8)).length = rows * 8 * k + 8 * i := by
    rw [List.length_append, length_planeBytes hW, length_wordsBytes, List.length_take_of_le hi'.le]
  rw [planeWord, hsplit, hrow, ← hpre, List.append_assoc, ← List.append_assoc (planeBytes W k), List.drop_left, List.append_assoc,
    List.take_left' (length_leBytes _ _), leNat_leBytes, List.getD_eq_getElem _ _ hi']
  norm_num

end

/-- The codes of a dense tile read back from the bytes of its planes. -/
theorem tileCodes_planeBytes (l : List TileRow) (b : Nat) (h : ∀ r ∈ l, r.codes.length = 64 ∧ ∀ c ∈ r.codes, c < 2 ^ b) :
    tileCodes (planeBytes (fun k => l.map (fun t => codesWord t.codes (b - 1 - k))) b) l.length b = l.map (·.codes) := by
  refine List.ext_getElem (by simp [tileCodes]) (fun i hi hi' => ?_)
  have hil : i < l.length := by simpa using hi'
  obtain ⟨hlen, hcodes⟩ := h l[i] (List.getElem_mem hil)
  simp only [tileCodes, List.getElem_map, List.getElem_range]
  refine List.ext_getElem (by simp [hlen]) (fun e he he' => ?_)
  rw [List.getElem_map, List.getElem_range, planeCode_eq _ (l[i].codes[e]) b e, Nat.mod_eq_of_lt (hcodes _ (List.getElem_mem he'))]
  intro k hk
  have hlt := codesWord_lt l[i].codes (b - 1 - k)
  rw [hlen] at hlt
  rw [planeWord_planeBytes (fun k => List.length_map _) hk hil, List.getD_eq_getElem _ _ (by simpa using hil), List.getElem_map,
    Nat.mod_eq_of_lt hlt, codesWord_bit, List.getD_eq_getElem _ _ he']

/-- The bytes of a dense tile (R32). -/
theorem StoreOp.putTile_out (t : StoreOp) (bl : BclList) (m : Mv) (x : MadeTile) (hd : t.D.dense = true)
    (hl : x.rows.length = t.D.tileRows) :
    (t.putTile bl m x).out = putBytes m.out (t.D.tileAddr x.nb x.kb t.o)
      (planeBytes (fun k => x.rows.map (fun r => codesWord r.codes (t.D.planes - 1 - k))) t.D.planes) := by
  have hs : t.D.sparse = 0 := by simpa [Desc.dense] using hd
  have h1 : t.D.bitmap = false := by simp [Desc.bitmap, hs]
  have h2 : t.D.nm = false := by simp [Desc.nm, hs]
  have h3 : t.D.bcl = false := by simp [Desc.bcl, hs]
  simp only [StoreOp.putTile, h1, h2, h3]
  exact Mv.foldl_putPlane_out (fun k => by rw [List.length_map, hl]) m _ _

end Sys2Proof.Machine
end

section
/-! SUPPORT. The groups of a DYNAMIC store, and the statement about codes, scales, records and tiles (R105, R106). -/

namespace Sys2Proof.Machine

theorem foldl_min_le (l : List ℚ) (a : ℚ) : l.foldl min a ≤ a ∧ ∀ v ∈ l, l.foldl min a ≤ v := by
  induction l generalizing a with
  | nil => exact ⟨le_rfl, fun v h => (nomatch h)⟩
  | cons x l ih =>
    obtain ⟨h1, h2⟩ := ih (min a x)
    refine ⟨h1.trans (min_le_left a x), fun v hv => ?_⟩
    rcases List.mem_cons.mp hv with rfl | hv
    · exact h1.trans (min_le_right a v)
    · exact h2 v hv

theorem le_foldl_max (l : List ℚ) (a : ℚ) : a ≤ l.foldl max a ∧ ∀ v ∈ l, v ≤ l.foldl max a := by
  induction l generalizing a with
  | nil => exact ⟨le_rfl, fun v h => (nomatch h)⟩
  | cons x l ih =>
    obtain ⟨h1, h2⟩ := ih (max a x)
    refine ⟨(le_max_left a x).trans h1, fun v hv => ?_⟩
    rcases List.mem_cons.mp hv with rfl | hv
    · exact (le_max_right a v).trans h1
    · exact h2 v hv

section
variable (t : StoreOp) (vs : List ℚ)

/-- A value of a group under the group's DYNAMIC scale: its code is not held and lies within half a scale; a zero scale is that of a
group of zeros. -/
theorem StoreOp.codeOf_dynamicOf (hst : fmtStored t.D.fmt = true) (hf : t.D.fmt ≠ 0) (hh : (t.dynamicOf vs).1 ≠ 0xFEFF) {v : ℚ}
    (hv : v ∈ vs) :
    (codeOf t.D.fmt (t.dynamicOf vs).1 (t.dynamicOf vs).2 none v).2 = false ∧
    (u16Exp (t.dynamicOf vs).1 ≠ 0 → ratAbs (codeVal t.D.fmt (u16Val (t.dynamicOf vs).1) (z16Val t.D.fmt (t.dynamicOf vs).2)
      (codeOf t.D.fmt (t.dynamicOf vs).1 (t.dynamicOf vs).2 none v).1 - v) ≤ u16Val (t.dynamicOf vs).1 / 2) ∧
    (u16Exp (t.dynamicOf vs).1 = 0 → (codeOf t.D.fmt (t.dynamicOf vs).1 (t.dynamicOf vs).2 none v).1 = 0 ∧ v = 0) := by
  obtain ⟨hlo0, hlo⟩ := foldl_min_le vs 0
  obtain ⟨hhi0, hhi⟩ := le_foldl_max vs 0
  simp only [StoreOp.dynamicOf] at hh ⊢
  generalize (vs.map ratAbs).foldl (· + ·) 0 / ((max 1 vs.length : Nat) : ℚ) = mean at *
  generalize vs.foldl min 0 = lo at *
  generalize vs.foldl max 0 = hi at *
  obtain ⟨hempty, hrange⟩ := dynamicScalesHoldTheirRange_holds t.D.fmt lo hi mean v none hst hlo0 hhi0
  rcases eq_or_lt_of_le (hlo0.trans hhi0) with he | hlt
  · have hz : u16Exp 0 = 0 := rfl
    have hv0 : v = 0 := le_antisymm ((hhi v hv).trans (he ▸ hlo0)) ((he ▸ hhi0).trans (hlo v hv))
    rw [hempty he, codeOf_zero_scale hz]
    exact ⟨rfl, fun h => absurd hz h, fun _ => ⟨rfl, hv0⟩⟩
  · obtain ⟨hexp, hsat⟩ := hrange hf hlt (hlo v hv) (hhi v hv) hh
    have hnear := ((codesAreMadeFromValues_holds t.D.fmt (dynamicScale t.D.fmt lo hi mean).1 (dynamicScale t.D.fmt lo hi mean).2 none v).2
      hexp).2.2.1 hsat rfl
    rw [if_neg hf] at hnear
    exact ⟨hsat, fun _ => hnear, fun h => absurd h hexp⟩

theorem StoreOp.groupCodes_none (sc ze : Half) (idx : Nat → Nat) :
    t.groupCodes none sc ze idx (vs.map some) = vs.map (codeOf t.D.fmt sc ze none) :=
  List.ext_getElem (by simp [StoreOp.groupCodes]) (fun i _ _ => by simp [StoreOp.groupCodes])

/-- A group of elements in bounds under DYNAMIC and NEAREST: its scale is its own range's, under a second pass as under the first. -/
theorem StoreOp.makeGroup_dynamic (row j : Nat) (hd : t.w.dynamic = true) :
    let made := t.makeGroup none row j (vs.map some)
    let one := vs.map (codeOf t.D.fmt (t.dynamicOf vs).1 (t.dynamicOf vs).2 none)
    made.scale = (t.dynamicOf vs).1 ∧ made.zero = (t.dynamicOf vs).2 ∧ made.codes = one.map (·.1) ∧
    made.sat = ((one.zip (vs.map some)).filter (fun e => e.1.2 && e.2.isSome)).length ∧
    made.retried = (t.w.retry && one.any (·.2)) := by
  have hreal : (vs.map some).filterMap id = vs := by simp [List.filterMap_map]
  simp only [StoreOp.makeGroup, hd, hreal, if_true, ite_self, StoreOp.groupCodes_none, and_self]

end

/-- What a store makes of a group under NEAREST and DYNAMIC (R105). -/
theorem StoreOp.makeGroup_nearest (t : StoreOp) (row j : Nat) (vs : List ℚ) (hd : t.w.dynamic = true) (hst : fmtStored t.D.fmt = true)
    (hf : t.D.fmt ≠ 0) (hh : (t.makeGroup none row j (vs.map some)).scale ≠ 0xFEFF) :
    let made := t.makeGroup none row j (vs.map some)
    made.sat = 0 ∧ made.retried = false ∧ made.codes.length = vs.length ∧
    ∀ i, i < vs.length → (u16Exp made.scale ≠ 0 →
      ratAbs (codeVal t.D.fmt (u16Val made.scale) (z16Val t.D.fmt made.zero) (made.codes.getD i 0) - vs.getD i 0) ≤ u16Val made.scale / 2) ∧
      (u16Exp made.scale = 0 → made.codes.getD i 0 = 0 ∧ vs.getD i 0 = 0) := by
  obtain ⟨hscale, hzero, hcodes, hsat, hretried⟩ := t.makeGroup_dynamic vs row j hd
  intro made
  rw [hscale] at hh
  have hcode := fun v hv => t.codeOf_dynamicOf vs hst hf hh (v := v) hv
  have hnone : ∀ e ∈ vs.map (codeOf t.D.fmt (t.dynamicOf vs).1 (t.dynamicOf vs).2 none), e.2 = false := by
    intro e he
    obtain ⟨v, hv, rfl⟩ := List.mem_map.mp he
    exact (hcode v hv).1
  refine ⟨?_, ?_, ?_, fun i hi => ?_⟩
  · rw [hsat, List.length_eq_zero_iff, List.filter_eq_nil_iff]
    intro e he
    simp [hnone e.1 (List.of_mem_zip he).1]
  · rw [hretried, Bool.and_eq_false_iff]
    refine .inr (List.any_eq_false.mpr (fun e he => ?_))
    rw [hnone e he]
    decide
  · rw [hcodes, List.length_map, List.length_map]
  · have hget : made.codes.getD i 0 = (codeOf t.D.fmt (t.dynamicOf vs).1 (t.dynamicOf vs).2 none vs[i]).1 := by
      rw [hcodes, List.getD_eq_getElem _ _ (by simpa using hi), List.getElem_map, List.getElem_map]
    obtain ⟨-, hnear, hnil⟩ := hcode vs[i] (List.getElem_mem hi)
    rw [hget, List.getD_eq_getElem _ _ hi, show made.scale = _ from hscale, show made.zero = _ from hzero]
    exact ⟨hnear, hnil⟩

theorem storedGroupsAndTiles_holds : storedGroupsAndTiles := by
  intro t row j vs bl m g ts x
  refine ⟨fun hd hst hf hh => t.makeGroup_nearest row j vs hd hst hf hh, fun hb hfmt hsum hheld => ?_, fun hd hl hrows => ?_⟩
  · rw [t.putRecord_out bl ts m g hb, t.sumOfGroup_held ts g hheld]
    refine ⟨?_, fun b h => tabFind_putBytes_other _ _ (by rwa [length_leBytes])⟩
    have hget := bytesGet_putBytes 0
      (leBytes (Whey.toNat ⟨g.scale, g.zero, g.codes.sum, t.D.fmt, t.D.tagOf g.row g.grp⟩) 8) m.out (t.D.wheyAddr g.row g.grp t.o)
    rw [length_leBytes] at hget
    rw [hget, leNat_leBytes, Nat.mod_eq_of_lt ((Whey.toNat_lt _).trans_eq (by norm_num)), Whey.ofNat_toNat hsum hfmt (t.D.tagOf_lt _ _)]
  · have hlen : (planeBytes (fun k => x.rows.map (fun r => codesWord r.codes (t.D.planes - 1 - k))) t.D.planes).length = t.D.denseTile :=
      length_planeBytes (fun k => by rw [List.length_map, hl]) _
    rw [t.putTile_out bl m x hd hl]
    refine ⟨?_, fun b h => tabFind_putBytes_other _ _ (by rwa [hlen])⟩
    rw [← hlen, bytesGet_putBytes, ← hl, tileCodes_planeBytes x.rows _ hrows]

/-- Settles O30: each of its four parts by its own lemma. -/
theorem termsAndCodesFollowTheirValues : Obligations.TermsAndCodesFollowTheirValues := by
  unfold Obligations.TermsAndCodesFollowTheirValues
  exact ⟨groupTermsAreExactProducts_holds, codesAreMadeFromValues_holds, dynamicScalesHoldTheirRange_holds, storedGroupsAndTiles_holds⟩

end Sys2Proof.Machine
end

section
/-! SUPPORT. Keys and blocks: what MATCH, MERGE and SELECT make (R141, R142, R146–R148). -/

namespace Sys2Proof.Machine

/-! Keys (R141, R142). -/

theorem rising_iff_isChain (l : List Nat) : rising l = true ↔ l.IsChain (· < ·) := by
  induction l with
  | nil => simp [rising]
  | cons a l ih =>
    cases l with
    | nil => simp [rising]
    | cons b l => rw [rising, Bool.and_eq_true, decide_eq_true_eq, ih, List.isChain_cons_cons]

/-- A rising stream rises from each key to every later one. -/
theorem rising_iff_pairwise (l : List Nat) : rising l = true ↔ l.Pairwise (· < ·) := by
  rw [rising_iff_isChain, List.isChain_iff_pairwise]

/-- A merge with fuel enough holds the keys of both streams. -/
theorem mem_mergeKeys {n : Nat} {a b : List Nat} (h : a.length + b.length < n) (k : Nat) : k ∈ mergeKeys n a b ↔ k ∈ a ∨ k ∈ b := by
  induction n generalizing a b with
  | zero => omega
  | succ n ih =>
    cases a with
    | nil => simp [mergeKeys]
    | cons x a =>
      cases b with
      | nil => simp [mergeKeys]
      | cons y b =>
        simp only [List.length_cons] at h
        simp only [mergeKeys]
        split
        · rw [List.mem_cons, ih (by simp only [List.length_cons]; omega), List.mem_cons (l := a), or_assoc]
        · split
          · rw [List.mem_cons, ih (by simp only [List.length_cons]; omega), List.mem_cons (l := b), or_left_comm]
          · obtain rfl : x = y := by omega
            rw [List.mem_cons, ih (by omega), List.mem_cons, List.mem_cons]
            tauto

/-- The merge of rising streams rises: it holds each key once. -/
theorem pairwise_mergeKeys {n : Nat} {a b : List Nat} (h : a.length + b.length < n) (ha : a.Pairwise (· < ·)) (hb : b.Pairwise (· < ·)) :
    (mergeKeys n a b).Pairwise (· < ·) := by
  induction n generalizing a b with
  | zero => omega
  | succ n ih =>
    cases a with
    | nil => exact hb
    | cons x a =>
      cases b with
      | nil => exact ha
      | cons y b =>
        obtain ⟨hxa, ha'⟩ := List.pairwise_cons.mp ha
        obtain ⟨hyb, hb'⟩ := List.pairwise_cons.mp hb
        have hxa' : ∀ k ∈ x :: a, x ≤ k := List.forall_mem_cons.mpr ⟨le_rfl, fun k hk => (hxa k hk).le⟩
        have hyb' : ∀ k ∈ y :: b, y ≤ k := List.forall_mem_cons.mpr ⟨le_rfl, fun k hk => (hyb k hk).le⟩
        have h1 : a.length + (y :: b).length < n := by simp only [List.length_cons] at h ⊢; omega
        have h2 : (x :: a).length + b.length < n := by simp only [List.length_cons] at h ⊢; omega
        have h3 : a.length + b.length < n := by simp only [List.length_cons] at h2; omega
        simp only [mergeKeys]
        split
        · next hlt =>
          refine List.pairwise_cons.mpr ⟨fun k hk => ?_, ih h1 ha' hb⟩
          rcases (mem_mergeKeys h1 k).mp hk with hk | hk
          · exact hxa k hk
          · exact hlt.trans_le (hyb' k hk)
        · split
          · next hlt =>
            refine List.pairwise_cons.mpr ⟨fun k hk => ?_, ih h2 ha hb'⟩
            rcases (mem_mergeKeys h2 k).mp hk with hk | hk
            · exact hlt.trans_le (hxa' k hk)
            · exact hyb k hk
          · obtain rfl : x = y := by omega
            refine List.pairwise_cons.mpr ⟨fun k hk => ?_, ih h3 ha' hb'⟩
            rcases (mem_mergeKeys h3 k).mp hk with hk | hk
            · exact hxa k hk
            · exact hyb k hk

/-- The pairs of places that MATCH records. -/
def matchPlaces (a b : List Nat) : List (Nat × Nat) :=
  a.zipIdx.filterMap (fun e => (b.findIdx? (· == e.1)).map (fun j => (e.2, j)))

theorem matchKeys_eq (a b : List Nat) : matchKeys a b = (matchPlaces a b).map (fun p => leBytes p.1 4 ++ leBytes p.2 4) := by
  simp only [matchKeys, matchPlaces, List.map_filterMap, Option.map_map]
  rfl

theorem getD_of_mem_zipIdx {l : List Nat} {e : Nat × Nat} (h : e ∈ l.zipIdx) : l.getD e.2 0 = e.1 := by
  rw [List.getD_eq_getElem?_getD, List.mem_zipIdx_iff_getElem?.mp h, Option.getD_some]

theorem pairwise_zipIdx_fst {α : Type} {R : α → α → Prop} {l : List α} (h : l.Pairwise R) : l.zipIdx.Pairwise (fun e f => R e.1 f.1) := by
  rw [← List.pairwise_map (f := Prod.fst), List.zipIdx_map_fst]
  exact h

theorem pairwise_zipIdx_snd {α : Type} (l : List α) : l.zipIdx.Pairwise (fun e f => e.2 < f.2) := by
  rw [← List.pairwise_map (f := Prod.snd), List.zipIdx_map_snd]
  exact List.pairwise_lt_range'

/-- In a rising stream a key's first place is its only one. -/
theorem findIdx?_of_rising {b : List Nat} (hb : b.Pairwise (· < ·)) (k j : Nat) : b.findIdx? (· == k) = some j ↔ b[j]? = some k := by
  rw [List.findIdx?_eq_some_iff_getElem, List.getElem?_eq_some_iff]
  constructor
  · rintro ⟨hj, he, -⟩
    exact ⟨hj, by simpa using he⟩
  · rintro ⟨hj, rfl⟩
    refine ⟨hj, by simp, fun i hi => ?_⟩
    have := List.pairwise_iff_getElem.mp hb i j (by omega) hj hi
    simpa using this.ne

theorem mem_matchPlaces {a b : List Nat} (hb : b.Pairwise (· < ·)) (i j : Nat) :
    (i, j) ∈ matchPlaces a b ↔ i < a.length ∧ j < b.length ∧ a.getD i 0 = b.getD j 0 := by
  simp only [matchPlaces, List.mem_filterMap, Option.map_eq_some_iff, findIdx?_of_rising hb, Prod.mk.injEq]
  constructor
  · rintro ⟨e, he, j', hj, rfl, rfl⟩
    rw [List.mem_zipIdx_iff_getElem?] at he
    refine ⟨(List.getElem?_eq_some_iff.mp he).1, (List.getElem?_eq_some_iff.mp hj).1, ?_⟩
    simp only [List.getD_eq_getElem?_getD, he, hj]
  · rintro ⟨hi, hj, he⟩
    rw [List.getD_eq_getElem _ _ hi, List.getD_eq_getElem _ _ hj] at he
    exact ⟨(a[i], i), List.mem_zipIdx_iff_getElem?.mpr (List.getElem?_eq_getElem hi), j, by rw [he, List.getElem?_eq_getElem hj], rfl, rfl⟩

/-- MATCH's records come in key order. -/
theorem pairwise_matchPlaces {a : List Nat} (ha : a.Pairwise (· < ·)) (b : List Nat) :
    ((matchPlaces a b).map (fun p => a.getD p.1 0)).Pairwise (· < ·) := by
  rw [List.pairwise_map, matchPlaces, List.pairwise_filterMap]
  refine (pairwise_zipIdx_fst ha).imp_of_mem (fun {e f} he hf hlt p hp q hq => ?_)
  obtain ⟨i, -, rfl⟩ := Option.map_eq_some_iff.mp hp
  obtain ⟨j, -, rfl⟩ := Option.map_eq_some_iff.mp hq
  rw [getD_of_mem_zipIdx he, getD_of_mem_zipIdx hf]
  exact hlt

theorem keysMatchAndMerge_holds : keysMatchAndMerge := by
  intro a b ha hb
  rw [rising_iff_pairwise] at ha hb
  exact ⟨⟨pairwise_mergeKeys (Nat.lt_succ_self _) ha hb, mem_mergeKeys (Nat.lt_succ_self _)⟩, matchPlaces a b, matchKeys_eq a b,
    pairwise_matchPlaces ha b, mem_matchPlaces hb⟩

/-! Blocks (R146–R148). -/

/-- The inactive blocks. -/
def offBlocks (bs : List Bool) : List Nat := (bs.zipIdx.filter (fun e => !e.1)).map (·.2)

/-- The entry of a block in SELECT's list, where it has one. -/
def blockEntry (mode : Nat) (samp : List Nat) (e : Bool × Nat) : Option Nat :=
  if e.1 || mode == 0 then some e.2 else if samp.contains e.2 then some (e.2 + 2 ^ 31) else none

theorem mem_offBlocks (bs : List Bool) (k : Nat) : k ∈ offBlocks bs ↔ bs[k]? = some false := by
  simp only [offBlocks, List.mem_map, List.mem_filter, List.mem_zipIdx_iff_getElem?]
  constructor
  · rintro ⟨⟨b, i⟩, ⟨hi, hb⟩, rfl⟩
    obtain rfl : b = false := by simpa using hb
    exact hi
  · exact fun h => ⟨(false, k), ⟨h, rfl⟩, rfl⟩

theorem length_offBlocks (bs : List Bool) : (offBlocks bs).length = bs.count false := by
  have hp : (fun e : Bool × Nat => !e.1) = (· == false) ∘ Prod.fst := by
    funext ⟨b, i⟩
    cases b <;> rfl
  rw [offBlocks, List.length_map, ← List.countP_eq_length_filter, hp, ← List.countP_map, List.zipIdx_map_fst]
  rfl

section
variable (mode a : Nat) (dr : Nat → Nat) (bs : List Bool)

theorem selectBlocks_sampled :
    (selectBlocks mode a dr bs).sampled = if mode = 2 then (offBlocks bs).filter (fun k => decide (dr k < 2 ^ (24 - a))) else [] := rfl

theorem selectBlocks_entries :
    (selectBlocks mode a dr bs).entries = bs.zipIdx.filterMap (blockEntry mode (selectBlocks mode a dr bs).sampled) := rfl

theorem selectBlocks_inactive : (selectBlocks mode a dr bs).inactive = bs.count false := length_offBlocks bs

theorem selectBlocks_active : (selectBlocks mode a dr bs).active = bs.count true := by
  have h := List.count_not_add_count bs true
  change bs.length - (offBlocks bs).length = _
  rw [length_offBlocks]
  simp only [Bool.not_true] at h
  omega

theorem mem_selectBlocks_sampled (k : Nat) :
    k ∈ (selectBlocks mode a dr bs).sampled ↔ mode = 2 ∧ bs[k]? = some false ∧ dr k < 2 ^ (24 - a) := by
  rw [selectBlocks_sampled]
  split
  · next h => simp [h, List.mem_filter, mem_offBlocks]
  · next h => simp [h]

end

/-- An entry's low 31 bits are its block, its bit 31 says that it was sampled. -/
theorem blockEntry_eq_some {mode : Nat} {samp : List Nat} {e : Bool × Nat} {x : Nat} :
    blockEntry mode samp e = some x ↔
      (e.2 = x ∧ (e.1 = true ∨ mode = 0)) ∨ (e.2 + 2 ^ 31 = x ∧ e.1 = false ∧ mode ≠ 0 ∧ e.2 ∈ samp) := by
  unfold blockEntry
  generalize 2 ^ 31 = top
  cases e.1 with
  | true => simp
  | false =>
    by_cases hm : mode = 0
    · simp [hm]
    · by_cases hs : e.2 ∈ samp <;> simp [hm, hs]

theorem selectBlocks_entries_spec (mode a : Nat) (dr : Nat → Nat) (bs : List Bool) (hlen : bs.length ≤ 2 ^ 31) :
    let z := selectBlocks mode a dr bs
    (z.entries.map (· % 2 ^ 31)).Pairwise (· < ·) ∧ (∀ e ∈ z.entries, e < 2 ^ 32) ∧
    ∀ k, k < 2 ^ 31 → (k ∈ z.entries ↔ k < bs.length ∧ (bs.getD k false = true ∨ mode = 0)) ∧
      (k + 2 ^ 31 ∈ z.entries ↔ k ∈ z.sampled) := by
  intro z
  have hsmall : ∀ e ∈ bs.zipIdx, e.2 < 2 ^ 31 := fun e he =>
    (List.getElem?_eq_some_iff.mp (List.mem_zipIdx_iff_getElem?.mp he)).1.trans_le hlen
  have hz : z.entries = bs.zipIdx.filterMap (blockEntry mode z.sampled) := selectBlocks_entries mode a dr bs
  simp only [hz, List.mem_filterMap, blockEntry_eq_some]
  refine ⟨?_, ?_, fun k hk => ⟨⟨?_, ?_⟩, ⟨?_, ?_⟩⟩⟩
  · rw [List.pairwise_map, List.pairwise_filterMap]
    refine (pairwise_zipIdx_snd bs).imp_of_mem (fun {e f} he hf hlt x hx y hy => ?_)
    rw [blockEntry_eq_some] at hx hy
    have he := hsmall e he
    have hf := hsmall f hf
    omega
  · rintro x ⟨e, he, hx⟩
    have he := hsmall e he
    omega
  · rintro ⟨⟨b, i⟩, he, hx⟩
    have hi := hsmall _ he
    rw [List.mem_zipIdx_iff_getElem?] at he
    obtain ⟨rfl, hb⟩ : k = i ∧ (b = true ∨ mode = 0) := by
      rcases hx with ⟨h, h'⟩ | ⟨h, -⟩
      · exact ⟨h.symm, h'⟩
      · dsimp only at h
        omega
    refine ⟨(List.getElem?_eq_some_iff.mp he).1, ?_⟩
    rw [List.getD_eq_getElem?_getD, he]
    exact hb
  · rintro ⟨hlt, hb⟩
    rw [List.getD_eq_getElem _ _ hlt] at hb
    exact ⟨(bs[k], k), List.mem_zipIdx_iff_getElem?.mpr (List.getElem?_eq_getElem hlt), .inl ⟨rfl, hb⟩⟩
  · rintro ⟨⟨b, i⟩, he, hx⟩
    have hi := hsmall _ he
    rcases hx with ⟨h, -⟩ | ⟨h, -, -, hs⟩
    · dsimp only at h hi
      omega
    · obtain rfl : i = k := Nat.add_right_cancel h
      exact hs
  · intro hs
    obtain ⟨hm, hoff, -⟩ := (mem_selectBlocks_sampled mode a dr bs k).mp hs
    exact ⟨(false, k), List.mem_zipIdx_iff_getElem?.mpr hoff, .inr ⟨rfl, rfl, by omega, hs⟩⟩

/-! Scores (R146). -/

theorem scoreActive_nan {w : Word} (h : Word) (hw : f32Val w = .nan) : scoreActive w h = true := by
  simp only [scoreActive, hw]

theorem scoreActive_self (w : Word) : scoreActive w w = true := by
  unfold scoreActive
  cases f32Val w with
  | fin q => simp
  | inf neg => cases neg <;> rfl
  | nan => rfl

theorem scoreActive_fin {w h : Word} {p q : ℚ} (hw : f32Val w = .fin p) (hh : f32Val h = .fin q) :
    scoreActive w h = decide (q ≤ p) := by
  simp only [scoreActive, hw, hh]

theorem scoreActive_inf {w h : Word} (hw : f32Val w = .inf false) (hh : f32Val h ≠ .nan) : scoreActive w h = true := by
  unfold scoreActive
  rw [hw]
  cases hv : f32Val h with
  | fin q => rfl
  | inf neg => rfl
  | nan => exact absurd hv hh

theorem selectListsBlocks_holds : selectListsBlocks := by
  refine ⟨fun mode a dr bs _ hlen => ?_, fun w h => ⟨scoreActive_nan h, scoreActive_self w, fun p q => scoreActive_fin, scoreActive_inf⟩⟩
  obtain ⟨hrise, hlt, hmem⟩ := selectBlocks_entries_spec mode a dr bs hlen
  have hsamp : ∀ k, k ∈ (selectBlocks mode a dr bs).sampled ↔
      mode = 2 ∧ k < bs.length ∧ ¬ bs.getD k false = true ∧ dr k < 2 ^ (24 - a) := by
    intro k
    rw [mem_selectBlocks_sampled, List.getD_eq_getElem?_getD]
    rcases lt_or_ge k bs.length with hk | hk
    · simp [hk]
    · simp [hk]
  exact ⟨hrise, fun k hk => ⟨(hmem k hk).1, (hmem k hk).2.trans (hsamp k)⟩, hlt, hsamp, selectBlocks_active mode a dr bs,
    selectBlocks_inactive mode a dr bs⟩

end Sys2Proof.Machine
end

section
/-! SUPPORT. Terms added into ledger words (R44, R74). -/

namespace Sys2Proof.Machine

/-- A term's place in units of a word: scaled up it is whole, scaled down it is cut toward minus infinity (R74). -/
theorem termUnits (n sh : Int) :
    (if 0 ≤ sh then n * 2 ^ sh.toNat else n.fdiv (2 ^ (-sh).toNat)) = ⌊(n : ℚ) * pow2 sh⌋ ∧
    (decide (sh < 0) && decide (n.fmod (2 ^ (-sh).toNat) ≠ 0)) = decide ((n : ℚ) * pow2 sh ≠ (⌊(n : ℚ) * pow2 sh⌋ : ℚ)) := by
  rcases le_or_gt 0 sh with h | h
  · obtain ⟨k, rfl⟩ := Int.eq_ofNat_of_zero_le h
    have hq : (n : ℚ) * pow2 (k : Int) = ((n * 2 ^ k : Int) : ℚ) := by
      rw [pow2_natCast]
      push_cast
      rfl
    rw [if_pos h, hq, Int.floor_intCast, decide_eq_false (not_lt.mpr h)]
    simp
  · obtain ⟨k, hk⟩ := Int.eq_ofNat_of_zero_le (show 0 ≤ -sh by omega)
    obtain rfl : sh = -(k : Int) := by omega
    have hpos : (0 : ℚ) < ((2 ^ k : Nat) : ℚ) := by positivity
    have hq : (n : ℚ) * pow2 (-(k : Int)) = (n : ℚ) / ((2 ^ k : Nat) : ℚ) := by
      rw [pow2_eq_zpow, zpow_neg, zpow_natCast]
      push_cast
      rfl
    have h2 : (0 : Int) ≤ 2 ^ k := by positivity
    rw [if_neg (not_le.mpr h), hq, Rat.floor_intCast_div_natCast, neg_neg, Int.toNat_natCast, Int.fdiv_eq_ediv_of_nonneg _ h2,
      Int.fmod_eq_emod_of_nonneg _ h2, decide_eq_true h, Bool.true_and]
    refine ⟨by push_cast; rfl, ?_⟩
    have he := Int.mul_ediv_add_emod n ((2 ^ k : Nat) : Int)
    have hiff : n % ((2 ^ k : Nat) : Int) = 0 ↔ n = n / ((2 ^ k : Nat) : Int) * ((2 ^ k : Nat) : Int) := by
      rw [mul_comm]
      omega
    rw [show (2 : Int) ^ k = ((2 ^ k : Nat) : Int) by push_cast; rfl, decide_eq_decide, ne_eq, ne_eq, hiff, div_eq_iff hpos.ne']
    exact not_congr ⟨fun h => by exact_mod_cast h, fun h => by exact_mod_cast h⟩

/-- A word that lies in the range of 192 bits reads back. -/
theorem toInt_ofInt_word {v : Int} (h1 : wordMin ≤ v) (h2 : v ≤ wordMax) : (BitVec.ofInt 192 v).toInt = v := by
  unfold wordMin at h1
  unfold wordMax at h2
  exact BitVec.toInt_ofInt_eq_self (by decide) h1 (by omega)

section
variable (t : Tile) (i : Nat) (w : Word)

/-- A host's term, held to the range of a word (R44, R74). -/
theorem Tile.addTerm_host (n x : Int) :
    let u := (t.addTerm i n x false).1
    let q : ℚ := (n : ℚ) * pow2 x / pow2 t.tag.point
    let s := (tabGet 0 t.words i).toInt + ⌊q⌋
    (tabGet 0 u.words i).toInt = max wordMin (min wordMax s) ∧
    u = { t with
      words := u.words
      sat := t.sat || decide (wordMax < s) || decide (s < wordMin)
      sub := t.sub || decide (q ≠ (⌊q⌋ : ℚ)) } ∧
    ∀ k, k ≠ i → tabGet 0 u.words k = tabGet 0 t.words k := by
  have hq : (n : ℚ) * pow2 x / pow2 t.tag.point = (n : ℚ) * pow2 (x - t.tag.point) := by
    rw [div_eq_iff (pow2_pos _).ne', mul_assoc, ← pow2_add, sub_add_cancel]
  obtain ⟨hv, hsub⟩ := termUnits n (x - t.tag.point)
  intro u q s
  simp only [u, s, q, hq, Tile.addTerm]
  rw [hsub, hv]
  generalize ⌊(n : ℚ) * pow2 (x - t.tag.point)⌋ = v
  refine ⟨?_, by simp [Bool.or_assoc], fun k hk => tabGet_set_other _ _ _ hk⟩
  have hrange : wordMin ≤ wordMax := by decide
  rw [tabGet_set_same, toInt_ofInt_word]
  all_goals
    split_ifs <;> omega

/-- What a host value adds by its kind (R44). -/
theorem Tile.addF32_fin {q : ℚ} (h : f32Val w = .fin q) :
    (t.addF32 i w).1 = (t.addTerm i (f32Term w).1 (f32Term w).2 false).1 ∧ q = ((f32Term w).1 : ℚ) * pow2 (f32Term w).2 := by
  refine ⟨by simp only [Tile.addF32, h], ?_⟩
  unfold f32Val at h
  dsimp only at h
  split at h
  · split at h <;> exact absurd h (by simp)
  · exact (FVal.fin.inj h).symm

theorem Tile.addF32_inf {neg : Bool} (h : f32Val w = .inf neg) :
    (t.addF32 i w).1 = { t with
      words := tabSet 0 t.words i (BitVec.ofInt 192 (if neg then wordMin else wordMax))
      sat := true } := by
  simp only [Tile.addF32, h]

theorem Tile.addF32_nan (h : f32Val w = .nan) : (t.addF32 i w).1 = { t with sat := true } := by
  simp only [Tile.addF32, h]

/-- The other words of a tile stay. -/
theorem Tile.addF32_word_other {n : Nat} (hn : n ≠ i) : tabGet 0 (t.addF32 i w).1.words n = tabGet 0 t.words n := by
  cases h : f32Val w with
  | fin q =>
    rw [(t.addF32_fin i w h).1]
    exact (t.addTerm_host i _ _).2.2 n hn
  | inf neg =>
    rw [t.addF32_inf i w h]
    exact tabGet_set_other _ _ _ hn
  | nan => rw [t.addF32_nan i w h]

/-- An infinity sets the word to the saturated one of its sign (R44). -/
theorem Tile.addF32_inf_word {neg : Bool} (h : f32Val w = .inf neg) :
    (tabGet 0 (t.addF32 i w).1.words i).toInt = if neg then wordMin else wordMax := by
  rw [t.addF32_inf i w h, tabGet_set_same]
  cases neg
  · exact toInt_ofInt_word (by decide) (by decide)
  · exact toInt_ofInt_word (by decide) (by decide)

end

end Sys2Proof.Machine
end

section
/-! SUPPORT. What the data path reads of its state: not the Sequencer queue (R65, R118). -/

namespace Sys2Proof.Machine

/-- A context whose cores have changed. -/
def DpCtx.withCores (x : DpCtx) (cs : Tab Core) : DpCtx := { x with s := { x.s with cores := cs } }

section
variable {x : DpCtx} {cs : Tab Core} {q : List SeqOp} (h : (x.withCores cs).k = { x.k with seq := q })
include h

/-! Reads. -/

theorem DpCtx.plain_withCores (diag : Bool) (w : Nat) : (x.withCores cs).plain diag w = x.plain diag w := by
  simp only [DpCtx.plain, h]
  rfl

theorem DpCtx.power_withCores (p : Nat) : (x.withCores cs).power p = x.power p := by
  simp only [DpCtx.power, h]
  rfl

theorem DpCtx.pailAt_withCores (p : Nat) : (x.withCores cs).s.pailAt (x.withCores cs).c p = x.s.pailAt x.c p := by
  have hk : (x.withCores cs).s.core (x.withCores cs).c = { x.k with seq := q } := h
  simp only [State.pailAt, hk]
  rfl

theorem DpCtx.checkRead_withCores (p : Nat) : (x.withCores cs).checkRead p = x.checkRead p := by
  simp only [DpCtx.checkRead, pailAt_withCores h, power_withCores h, h]
  rfl

theorem DpCtx.word_withCores (diag : Bool) (w n : Nat) : (x.withCores cs).word diag w n = x.word diag w n := by
  simp only [DpCtx.word, plain_withCores h, checkRead_withCores h, h]
  rfl

theorem DpCtx.read_withCores (diag : Bool) (w len n : Nat) : (x.withCores cs).read diag w len n = x.read diag w len n := by
  induction n generalizing w len with
  | zero => rfl
  | succ n ih => simp only [DpCtx.read, word_withCores h, ih]

theorem DpCtx.get_withCores (d : Desc) (dreg a n : Nat) : (x.withCores cs).get d dreg a n = x.get d dreg a n := by
  simp only [DpCtx.get, read_withCores h]
  rfl

/-! Streams and scores. -/

theorem DpCtx.keys_withCores (d : Desc) (dreg i n : Nat) : (x.withCores cs).keys d dreg i n = x.keys d dreg i n := by
  induction n generalizing i with
  | zero => rfl
  | succ n ih => simp only [DpCtx.keys, get_withCores h, ih]

theorem DpCtx.stream_withCores (a : DCopy) : (x.withCores cs).stream a = x.stream a := by
  simp only [DpCtx.stream, keys_withCores h]

theorem DpCtx.blocksActive_withCores (a : DCopy) (thresh : Word) :
    (x.withCores cs).blocksActive a thresh = x.blocksActive a thresh := by
  have hrow : (x.withCores cs).rowActive a thresh = x.rowActive a thresh := by
    funext row
    simp only [DpCtx.rowActive, get_withCores h]
  simp only [DpCtx.blocksActive, hrow]

theorem DpCtx.auditDraw_withCores : (x.withCores cs).auditDraw = x.auditDraw := by
  funext k
  simp only [DpCtx.auditDraw, h]
  rfl

theorem DpCtx.sint_withCores (fn : Nat) (ds : List DCopy) : (x.withCores cs).sint fn ds = x.sint fn ds := by
  simp only [DpCtx.sint, stream_withCores h, blocksActive_withCores h, auditDraw_withCores h, h]
  rfl

theorem DpCtx.ingestRead_withCores (o : SeqOp) : o.ingestRead (x.withCores cs) = o.ingestRead x := by
  simp only [SeqOp.ingestRead, DpCtx.ingestElem, get_withCores h]

/-! Writes. -/

theorem DpCtx.place_withCores (diag : Bool) (out : Tab Byte) (w : Nat) (bs : List Byte) (n : Nat) :
    (x.withCores cs).place diag out w bs n = x.place diag out w bs n := by
  induction n generalizing out w bs with
  | zero => rfl
  | succ n ih => simp only [DpCtx.place, plain_withCores h, ih]

theorem DpCtx.outputs_withCores (d : DCopy) (l : List (List Byte)) : (x.withCores cs).outputs d l = x.outputs d l := by
  have hput : ∀ D dreg a bs out, (x.withCores cs).put D dreg a bs out = x.put D dreg a bs out := by
    intro D dreg a bs out
    simp only [DpCtx.put, place_withCores h]
    rfl
  simp only [DpCtx.outputs, hput]

theorem DpCtx.checkOut_withCores (out : Tab Byte) : (x.withCores cs).checkOut out = x.checkOut out := by
  have hcheck : (x.withCores cs).checkWrite = x.checkWrite := by
    funext p
    simp only [DpCtx.checkWrite, pailAt_withCores h, power_withCores h, h]
    rfl
  simp only [DpCtx.checkOut, hcheck]

end

/-! What reads and writes leave of a core. -/

/-- First reads of pails and writes do not see the queue. -/
theorem Core.readPails_seq (k : Core) (q : List SeqOp) (l : List Nat) :
    Core.readPails { k with seq := q } l = { k.readPails l with seq := q } := by
  unfold Core.readPails
  induction l generalizing k with
  | nil => rfl
  | cons i l ih => exact ih (k.setPail i (k.pail i).firstRead)

theorem Core.writeOut_seq (k : Core) (q : List SeqOp) (e : Nat) (out : Tab Byte) (pails : List Nat) :
    Core.writeOut { k with seq := q } e out pails = { k.writeOut e out pails with seq := q } := by
  have hput : ∀ (l : List (Nat × List Byte)) (k : Core), l.foldl (fun (k : Core) r => k.spadPut r.1 r.2) { k with seq := q } =
      { l.foldl (fun (k : Core) r => k.spadPut r.1 r.2) k with seq := q } := by
    intro l
    induction l with
    | nil => exact fun _ => rfl
    | cons r l ih => exact fun k => ih (k.spadPut r.1 r.2)
  unfold Core.writeOut
  rw [hput]
  generalize (outRuns out).foldl (fun (k : Core) r => k.spadPut r.1 r.2) k = k
  unfold Core.writePails
  induction pails generalizing k with
  | nil => rfl
  | cons i l ih => exact ih (k.setPail i ((k.pail i).firstWrite e))

/-- First reads of pails change pails alone. -/
theorem Core.readPails_eq (k : Core) (l : List Nat) : k.readPails l = { k with pails := (k.readPails l).pails } := by
  unfold Core.readPails
  induction l generalizing k with
  | nil => rfl
  | cons i l ih => exact ih (k.setPail i (k.pail i).firstRead)

/-- A write changes the Scratchpad, its parity and pails alone. -/
theorem Core.writeOut_eq (k : Core) (e : Nat) (out : Tab Byte) (pails : List Nat) :
    k.writeOut e out pails = { k with
      mem := (k.writeOut e out pails).mem
      badParity := (k.writeOut e out pails).badParity
      pails := (k.writeOut e out pails).pails } := by
  have hput : ∀ (l : List (Nat × List Byte)) (k : Core), l.foldl (fun (k : Core) r => k.spadPut r.1 r.2) k = { k with
      mem := (l.foldl (fun (k : Core) r => k.spadPut r.1 r.2) k).mem
      badParity := (l.foldl (fun (k : Core) r => k.spadPut r.1 r.2) k).badParity } := by
    intro l
    induction l with
    | nil => exact fun _ => rfl
    | cons r l ih => exact fun k => ih (k.spadPut r.1 r.2)
  have hpails : ∀ k : Core, k.writePails e pails = { k with pails := (k.writePails e pails).pails } := by
    unfold Core.writePails
    induction pails with
    | nil => exact fun _ => rfl
    | cons i l ih => exact fun k => ih (k.setPail i ((k.pail i).firstWrite e))
  unfold Core.writeOut
  rw [hpails, hput]

end Sys2Proof.Machine
end

section
/-! SUPPORT. The one slip of an operation without a template: from its checks to its end (R65, R187, R218, R226). -/

namespace Sys2Proof.Machine

/-! What a change of one core and of registers leaves. -/

theorem OnlyCore.modCore (s : State) (c : Nat) (f : Core → Core) : OnlyCore s (s.modCore c f) c :=
  ⟨rfl, fun _ h => s.core_modCore_other f h⟩

theorem OnlyCore.refl (s : State) (c : Nat) : OnlyCore s s c := ⟨rfl, fun _ _ => rfl⟩

theorem OnlyCore.trans {s t u : State} {c : Nat} (h : OnlyCore s t c) (h' : OnlyCore t u c) : OnlyCore s u c := by
  refine ⟨?_, fun d hd => (h'.2 d hd).trans (h.2 d hd)⟩
  rw [h'.1, h.1]

theorem OnlyCore.reg {s t : State} {c : Nat} (h : OnlyCore s t c) (x : Nat) : t.reg x = s.reg x :=
  State.reg_congr (by rw [h.1]) (by rw [h.1]) x

theorem OnlyCore.onlyCoreAndRegs {s t : State} {c : Nat} (h : OnlyCore s t c) : OnlyCoreAndRegs s t c :=
  ⟨by rw [h.1], h.2⟩

theorem OnlyCoreAndRegs.trans {s t u : State} {c : Nat} (h : OnlyCoreAndRegs s t c) (h' : OnlyCoreAndRegs t u c) :
    OnlyCoreAndRegs s u c := by
  refine ⟨?_, fun d hd => (h'.2 d hd).trans (h.2 d hd)⟩
  rw [h'.1, h.1]

theorem OnlyCoreAndRegs.refl (s : State) (c : Nat) : OnlyCoreAndRegs s s c := (OnlyCore.refl s c).onlyCoreAndRegs

theorem OnlyCoreAndRegs.setRegN (s : State) (x v c : Nat) : OnlyCoreAndRegs s (s.setRegN x v) c := ⟨rfl, fun _ _ => rfl⟩

theorem OnlyCoreAndRegs.bump32 (s : State) (x n c : Nat) : OnlyCoreAndRegs s (s.bump32 x n) c := by
  unfold State.bump32
  split
  · exact .refl s c
  · exact .setRegN s x _ c

theorem OnlyCoreAndRegs.bump64 (s : State) (x n c : Nat) : OnlyCoreAndRegs s (s.bump64 x n) c := by
  unfold State.bump64
  split
  · exact .refl s c
  · exact (OnlyCoreAndRegs.setRegN s x _ c).trans (.setRegN _ (x + 4) _ c)

/-! The end of the part. -/

/-- An operation once its slip has issued. -/
def SeqOp.begunNow (o : SeqOp) : SeqOp := { o with started := true, begun := true }

theorem OnlyCore.seqEnd (s : State) (c : Nat) (o : SeqOp) (v : Option Dword) : OnlyCore s (s.seqEnd c o v) c := by
  unfold State.seqEnd State.opEnd
  exact (OnlyCore.modCore s c _).trans (OnlyCore.modCore _ c _)

/-- An operation ends: it leaves the queue and its result goes to the Clerk (R218). -/
theorem State.seqEnd_core (s : State) (c : Nat) {o : SeqOp} (v : Option Dword) (hk : ∀ p, o.kind ≠ .setprec p) :
    (s.seqEnd c o v).core c = { s.core c with
      seq := (s.core c).seq.tail
      ops := handedOver (s.core c).ops [o.id] ⟨0, v, Stop.of 0⟩ } := by
  simp only [State.seqEnd, State.opEnd, State.core_modCore_same, Core.opDone, handedOver, List.mem_singleton]

/-- The queue of a core once the part at its head has done its work (R187). -/
def Core.partDone (k : Core) : Core :=
  match k.seq with
  | o :: r =>
    let k := o.writes.dedup.foldl (fun k i => k.setPail i ((k.pail i).filled 0)) k
    { k with seq := { o with
        plan := o.plan.map (fun p => ⟨p.parts.tail⟩)
        begun := false
        group := 0
        checked := 0
        overlay := []
        reads := []
        writes := [] } :: r }
  | [] => k

theorem State.partEnd_plainPart (s : State) (c : Nat) (o : SeqOp) (v : Option Dword) :
    s.partEnd c o (plainPart 0) v = match ((s.modCore c Core.partDone).core c).seq with
      | p :: _ => if p.id = o.id ∧ p.plan.any (fun q => q.parts.isEmpty) then ((s.modCore c Core.partDone).seqEnd c p v).settle c 64
        else s.modCore c Core.partDone
      | [] => s.modCore c Core.partDone := rfl

/-- The one part of the operation alone in the queue ends: the operation ends with it. -/
theorem State.partEnd_plain (s : State) {c : Nat} {o : SeqOp} (v : Option Dword) (hseq : (s.core c).seq = [o])
    (hplan : o.plan = some ⟨[plainPart 0]⟩) (hw : o.writes = []) (hk : ∀ p, o.kind ≠ .setprec p) :
    OnlyCore s (s.partEnd c o (plainPart 0) v) c ∧
    (s.partEnd c o (plainPart 0) v).core c = { s.core c with
      seq := []
      ops := handedOver (s.core c).ops [o.id] ⟨0, v, Stop.of 0⟩ } := by
  have hdone : ∃ p : SeqOp, (s.modCore c Core.partDone).core c = { s.core c with seq := [p] } ∧ p.id = o.id ∧ p.kind = o.kind ∧
      p.plan = some ⟨[]⟩ := by
    refine ⟨{ o with plan := some ⟨[]⟩, begun := false, group := 0, checked := 0, overlay := [], reads := [], writes := [] },
      (s.core_modCore_same c _).trans ?_, rfl, rfl, rfl⟩
    simp only [Core.partDone, hseq, hw, hplan, List.dedup_nil, List.foldl_nil]
    rfl
  obtain ⟨p, hp, hid, hkind, hempty⟩ := hdone
  have hend := (s.modCore c Core.partDone).seqEnd_core c v (o := p) (fun q => by rw [hkind]; exact hk q)
  rw [hp, hid] at hend
  have hall : s.partEnd c o (plainPart 0) v = (s.modCore c Core.partDone).seqEnd c p v := by
    rw [State.partEnd_plainPart, hp]
    dsimp only
    rw [if_pos ⟨hid, by rw [hempty]; rfl⟩, State.settle, hend]
    rfl
  rw [hall]
  exact ⟨(OnlyCore.modCore s c _).trans (OnlyCore.seqEnd _ c p v), hend⟩

/-! The slip. -/

section
variable (s : State) (c : CoreId) (o : SeqOp)

/-- The checks that stand before an operation of one plain part: those of the tiles that it names, before its first slip. -/
theorem State.firstCheck_plain {w : Work} (hw : ∀ t, w ≠ .store t) (hn : o.nest? = none) (hplan : o.plan = some ⟨[plainPart 0]⟩)
    (htile : (s.tileCheck c.val o (plainPart 0)).run [] = .ok ((), [])) :
    (s.firstCheck c.val o (plainPart 0) w).run [] = .ok ((), []) := by
  have hbegin : s.beginCheck c.val o (plainPart 0) w = .ok () := by
    cases w with
    | store t => exact absurd rfl (hw t)
    | _ => rfl
  have hop : (s.opCheck c.val o).run [] = .ok ((), []) := by
    simp [State.opCheck, hplan, hn, htile]
  cases hs : o.started <;> cases hb : o.begun
  · rw [State.firstCheck, if_pos hs, if_pos hb, hbegin, StateT.run_bind, hop]
    rfl
  · rw [State.firstCheck, if_pos hs, if_neg (by simp [hb]), StateT.run_bind, hop]
    rfl
  · rw [State.firstCheck, if_neg (by simp [hs]), if_pos hb, hbegin]
    rfl
  · rw [State.firstCheck, if_neg (by simp [hs]), if_neg (by simp [hb])]
    rfl

/-- The state once the checks before the slip have passed. -/
def State.slipBegun : State := s.modCore c.val (fun k => (k.readPails []).begin_ o.id)

theorem State.slipBegun_onlyCore : OnlyCore s (s.slipBegun c o) c.val := OnlyCore.modCore s c.val _

variable {s c o} (hseq : (s.core c.val).seq = [o])
include hseq

theorem State.slipBegun_core : (s.slipBegun c o).core c.val = { s.core c.val with seq := [o.begunNow] } := by
  refine (s.core_modCore_same c.val _).trans ?_
  simp only [Core.readPails, List.foldl_nil, Core.begin_, Core.modSeq, hseq, List.map_cons, List.map_nil, if_true]
  rfl

/-- The operation reads from what it read from before. -/
theorem State.slipBegun_dp : (s.slipBegun c o).dp c.val o.begunNow = (s.dp c.val o).withCores (s.slipBegun c o).cores := by
  unfold State.dp
  rw [State.slipBegun_core hseq]
  rfl

theorem State.slipBegun_dp_core :
    ((s.dp c.val o).withCores (s.slipBegun c o).cores).k = { (s.dp c.val o).k with seq := [o.begunNow] } :=
  State.slipBegun_core hseq

/-- An operation of one plain part that meets no fault before its slip has the effect of its work. -/
theorem State.slipIssue_plain {w : Work} {t : State} (hr : (s.core c.val).running = true) (hs : (s.core c.val).stopped = false)
    (ho : (s.core c.val).ownerReq = none) (hf : (s.core c.val).freeze = none) (hplan : o.plan = some ⟨[plainPart 0]⟩)
    (hn : o.nest? = none) (hwork : s.work c.val o 0 = w) (hw : ∀ t, w ≠ .store t)
    (htile : (s.tileCheck c.val o (plainPart 0)).run [] = .ok ((), []))
    (ht : (s.slipBegun c o).partWork c.val o.begunNow (plainPart 0) w = .ok t) : exec (.slipIssue c) s = .next t := by
  have hissue : (s.core c.val).toIssue = some (o, plainPart 0) := by simp [Core.toIssue, hr, hs, ho, hseq, hplan]
  have hhead : (s.slipBegun c o).headOp c.val o = o.begunNow := by
    rw [State.headOp, State.slipBegun_core hseq]
    rfl
  have hslip : s.partSlip c.val o (plainPart 0) w = .ok t := by
    rw [State.partSlip, s.firstCheck_plain c o hw hn hplan htile, ← ht]
    have hbegun : (if o.begun then s else s.applyCounts (plainPart 0).first) = s := ite_self _
    dsimp only [bind, Except.bind]
    rw [hbegun]
    exact congrArg (fun o' => (s.slipBegun c o).partWork c.val o' (plainPart 0) w) hhead
  have hhead' : s.issueHead c.val o (plainPart 0) = .ok t := by
    rw [State.issueHead, hn]
    exact (congrArg (s.partSlip c.val o (plainPart 0)) hwork).trans hslip
  have hissued : s.issued c.val o (plainPart 0) = (t, none) := by rw [State.issued, hhead']
  show execSlipIssue c s = .next t
  rw [execSlipIssue, hissue, hf]
  dsimp only
  rw [hissued]

end

end Sys2Proof.Machine
end

section
/-! SUPPORT. SINT and TINGEST as they issue (R142, R143, R149, R298). -/

namespace Sys2Proof.Machine

/-! Registers. -/

theorem State.regN_congr {s t : State} {x : Nat} (h : t.reg x = s.reg x) : t.regN x = s.regN x := congrArg BitVec.toNat h

theorem State.reg64_congr {s t : State} {x : Nat} (h : t.reg x = s.reg x) (h' : t.reg (x + 4) = s.reg (x + 4)) :
    t.reg64 x = s.reg64 x := by
  rw [State.reg64, State.reg64, State.regN_congr h, State.regN_congr h']

theorem RegsSameBut.bump32 (s : State) {x : Nat} (n : Nat) {l : List Nat} (h : x ∈ l) : RegsSameBut s (s.bump32 x n) l :=
  fun _ hy => s.reg_bump32_other n (fun e => hy (e ▸ h))

theorem RegsSameBut.bump64 (s : State) {x : Nat} (n : Nat) {l : List Nat} (h : x ∈ l) (h' : x + 4 ∈ l) :
    RegsSameBut s (s.bump64 x n) l :=
  fun _ hy => s.reg_bump64_other n (fun e => hy (e ▸ h)) (fun e => hy (e ▸ h'))

theorem OnlyCore.regsSameBut {s t : State} {c : Nat} (h : OnlyCore s t c) (l : List Nat) : RegsSameBut s t l := fun x _ => h.reg x

theorem RegsSameBut.mono {s t : State} {l m : List Nat} (h : RegsSameBut s t l) (hl : ∀ x ∈ l, x ∈ m) : RegsSameBut s t m :=
  fun x hx => h x (fun hm => hx (hl x hm))

theorem CountedUp.bump32 (s : State) (x n : Nat) : CountedUp s (s.bump32 x n) x n := s.regN_bump32 x n

/-- A count stands where its register did not change before or after. -/
theorem CountedUp.of_reg {s s' t t' : State} {x n : Nat} (h : CountedUp s t x n) (hs : s.reg x = s'.reg x) (ht : t'.reg x = t.reg x) :
    CountedUp s' t' x n := by
  unfold CountedUp at *
  rw [State.regN_congr ht, h, State.regN_congr hs]

/-- Three counts of different registers all stand. -/
theorem CountedUp.bump32_three (s : State) {x y z : Nat} (hxy : x ≠ y) (hxz : x ≠ z) (hyz : y ≠ z) (a b d : Nat) :
    CountedUp s (((s.bump32 x a).bump32 y b).bump32 z d) x a ∧ CountedUp s (((s.bump32 x a).bump32 y b).bump32 z d) y b ∧
    CountedUp s (((s.bump32 x a).bump32 y b).bump32 z d) z d := by
  refine ⟨(CountedUp.bump32 s x a).of_reg rfl ?_, (CountedUp.bump32 (s.bump32 x a) y b).of_reg ?_ ?_,
    (CountedUp.bump32 ((s.bump32 x a).bump32 y b) z d).of_reg ?_ rfl⟩
  · rw [State.reg_bump32_other _ _ hxz, State.reg_bump32_other _ _ hxy]
  · exact State.reg_bump32_other _ _ hxy.symm
  · exact State.reg_bump32_other _ _ hyz
  · rw [State.reg_bump32_other _ _ hyz.symm, State.reg_bump32_other _ _ hxz.symm]

/-! SELECT's counts (R149). -/

/-- The counters of a SELECT. -/
def selectRegs (c : Nat) : List Nat :=
  [Reg.CORE_STRAIN_PRED_ACTIVE c, Reg.CORE_STRAIN_PRED_INACTIVE c, Reg.CORE_STRAIN_PRED_SAMPLED c]

/-- A SELECT's blocks counted. -/
def State.selectCounted (s : State) (c : Nat) (z : Selected) : State :=
  ((s.bump32 (Reg.CORE_STRAIN_PRED_ACTIVE c) z.active).bump32 (Reg.CORE_STRAIN_PRED_INACTIVE c) z.inactive).bump32
    (Reg.CORE_STRAIN_PRED_SAMPLED c) z.sampled.length

section
variable (s : State) (c : Nat) (z : Selected)

theorem State.selected_eq : s.selected c z = (s.selectCounted c z).modCore c (fun k => { k with
    sampledBlocks := z.sampled
    sampledAct := (s.selectCounted c z).reg (Reg.CORE_STRAIN_PRED_ACT c) }) := rfl

theorem State.selectCounted_onlyCoreAndRegs : OnlyCoreAndRegs s (s.selectCounted c z) c :=
  ((OnlyCoreAndRegs.bump32 s _ _ c).trans (.bump32 _ _ _ c)).trans (.bump32 _ _ _ c)

theorem State.selected_onlyCoreAndRegs : OnlyCoreAndRegs s (s.selected c z) c := by
  rw [State.selected_eq]
  exact (s.selectCounted_onlyCoreAndRegs c z).trans (OnlyCore.modCore _ c _).onlyCoreAndRegs

theorem State.selectCounted_core (d : Nat) : (s.selectCounted c z).core d = s.core d := by
  simp only [State.selectCounted, State.core_bump32]

theorem State.selectCounted_regsSameBut : RegsSameBut s (s.selectCounted c z) (selectRegs c) :=
  ((RegsSameBut.bump32 s _ (by simp [selectRegs])).trans (.bump32 _ _ (by simp [selectRegs]))).trans (.bump32 _ _ (by simp [selectRegs]))

theorem State.selectCounted_countedUp : CountedUp s (s.selectCounted c z) (Reg.CORE_STRAIN_PRED_ACTIVE c) z.active ∧
    CountedUp s (s.selectCounted c z) (Reg.CORE_STRAIN_PRED_INACTIVE c) z.inactive ∧
    CountedUp s (s.selectCounted c z) (Reg.CORE_STRAIN_PRED_SAMPLED c) z.sampled.length := by
  refine CountedUp.bump32_three s ?_ ?_ ?_ _ _ _ <;>
    simp only [Reg.CORE_STRAIN_PRED_ACTIVE, Reg.CORE_STRAIN_PRED_INACTIVE, Reg.CORE_STRAIN_PRED_SAMPLED] <;> omega

end

/-! The outputs land (R142, R143). -/

/-- The state once outputs have been written, and a SELECT's blocks counted and kept. -/
def State.sintDone (s : State) (c e : Nat) (z : SintOut) (reads pails : List Nat) (out : Tab Byte) : State :=
  match z.sel with
  | some y => (s.modCore c (fun k => (k.readPails reads).writeOut e out pails)).selected c y
  | none => s.modCore c (fun k => (k.readPails reads).writeOut e out pails)

/-- What a SINT does where its inputs and its destination meet no fault. -/
theorem State.sintRun_eq (s : State) (c : Nat) (o : SeqOp) (fn : Nat) {z : SintOut} {reads pails : List Nat} {out : Tab Byte}
    (hz : ((s.dp c o).sint fn o.descs).run [] = .ok (z, reads))
    (hout : (s.dp c o).outputs (o.descs.getLastD ⟨0, 0, 0⟩) z.list = .ok out) (hp : (s.dp c o).checkOut out = .ok pails) :
    let D := Desc.of (o.descs.getLastD ⟨0, 0, 0⟩).bits
    let u := s.sintDone c (s.dp c o).epoch z reads pails out
    let extra := z.list.length - D.owned 0
    s.sintRun c o fn = .ok (if D.cap && decide (0 < extra) then (u, none)
      else (u.bump64 (Reg.CORE_DESC_DROPPED_LO c) extra, some z.list.length)) := by
  intro D u extra
  simp only [State.sintRun, hz, hout, hp, bind, Except.bind]
  split <;> rfl

section
variable (s : State) (c e : Nat) (z : SintOut) (reads pails : List Nat) (out : Tab Byte)

theorem State.sintDone_onlyCoreAndRegs : OnlyCoreAndRegs s (s.sintDone c e z reads pails out) c := by
  have hmod := (OnlyCore.modCore s c (fun k => (k.readPails reads).writeOut e out pails)).onlyCoreAndRegs
  unfold State.sintDone
  split
  · next y _ => exact hmod.trans (State.selected_onlyCoreAndRegs _ c y)
  · exact hmod

theorem State.sintDone_core : (s.sintDone c e z reads pails out).core c =
    { ((s.core c).readPails reads).writeOut e out pails with
      sampledBlocks := (z.sel.map (·.sampled)).getD (s.core c).sampledBlocks
      sampledAct := if z.sel = none then (s.core c).sampledAct else s.reg (Reg.CORE_STRAIN_PRED_ACT c) } := by
  unfold State.sintDone
  split
  · next y hy =>
    have hact : Reg.CORE_STRAIN_PRED_ACT c ∉ selectRegs c := by
      simp only [selectRegs, Reg.CORE_STRAIN_PRED_ACT, Reg.CORE_STRAIN_PRED_ACTIVE, Reg.CORE_STRAIN_PRED_INACTIVE,
        Reg.CORE_STRAIN_PRED_SAMPLED, List.mem_cons, List.not_mem_nil, or_false, not_or]
      omega
    rw [State.selected_eq, State.core_modCore_same, State.selectCounted_core, State.core_modCore_same,
      State.selectCounted_regsSameBut _ c y _ hact, State.reg_modCore, hy]
    rfl
  · next hy =>
    rw [State.core_modCore_same, Core.writeOut_eq, Core.readPails_eq, hy]
    rfl

theorem State.sintDone_regsSameBut : RegsSameBut s (s.sintDone c e z reads pails out) (selectRegs c) := by
  unfold State.sintDone
  split
  · exact State.selectCounted_regsSameBut _ c _
  · exact .refl s _

theorem State.sintDone_countedUp {y : Selected} (hy : z.sel = some y) :
    CountedUp s (s.sintDone c e z reads pails out) (Reg.CORE_STRAIN_PRED_ACTIVE c) y.active ∧
    CountedUp s (s.sintDone c e z reads pails out) (Reg.CORE_STRAIN_PRED_INACTIVE c) y.inactive ∧
    CountedUp s (s.sintDone c e z reads pails out) (Reg.CORE_STRAIN_PRED_SAMPLED c) y.sampled.length := by
  unfold State.sintDone
  rw [hy]
  exact State.selectCounted_countedUp _ c y

end

end Sys2Proof.Machine
end

section
/-! SUPPORT. The statement about SINT's outputs (R142, R143, R149). -/

namespace Sys2Proof.Machine

theorem State.partWork_sint_fits {s t : State} {c n : Nat} {o : SeqOp} {fn : Nat} (part : Part)
    (h : s.sintRun c o fn = .ok (t, some n)) :
    s.partWork c o part (.sint fn) = .ok (t.partEnd c o part (some (BitVec.ofNat 64 n))) := by
  simp only [State.partWork, h, bind, Except.bind]
  rfl

/-- What stops the core where outputs do not fit a destination under FAULT (R143). -/
def SeqOp.shapeStop (o : SeqOp) : Stop :=
  { (o.descs.getLastD ⟨0, 0, 0⟩).fault Code.shapeOver 0 with pc := some o.pc, slip := some 0 }

theorem State.partWork_sint_over {s t : State} {c : Nat} {o : SeqOp} {fn : Nat} (part : Part) (h : s.sintRun c o fn = .ok (t, none)) :
    s.partWork c o part (.sint fn) = .ok (t.stopCore c o.shapeStop) := by
  simp only [State.partWork, h, bind, Except.bind]
  rfl

section
variable {s : State} {c : CoreId} {o : SeqOp} {fn : Nat} {f : FmtN} {z : SintOut} {reads pails : List Nat} {out : Tab Byte}

/-- A SINT that meets no fault issues: it ends with its outputs, or stops the core (R143). -/
theorem State.slipIssue_sint (hr : (s.core c.val).running = true) (hs : (s.core c.val).stopped = false)
    (ho : (s.core c.val).ownerReq = none) (hf : (s.core c.val).freeze = none) (hseq : (s.core c.val).seq = [o])
    (hkind : o.kind = .sint fn f) (hfn : fn ≠ 2) (hplan : o.plan = some ⟨[plainPart 0]⟩)
    (hz : ((s.dp c.val o).sint fn o.descs).run [] = .ok (z, reads))
    (hout : (s.dp c.val o).outputs (o.descs.getLastD ⟨0, 0, 0⟩) z.list = .ok out) (hp : (s.dp c.val o).checkOut out = .ok pails) :
    let D := Desc.of (o.descs.getLastD ⟨0, 0, 0⟩).bits
    let u := (s.slipBegun c o).sintDone c.val (s.dp c.val o).epoch z reads pails out
    let extra := z.list.length - D.owned 0
    (D.cap = false ∨ extra = 0 → exec (.slipIssue c) s = .next ((u.bump64 (Reg.CORE_DESC_DROPPED_LO c.val) extra).partEnd c.val o.begunNow
      (plainPart 0) (some (BitVec.ofNat 64 z.list.length)))) ∧
    (D.cap = true → 0 < extra → exec (.slipIssue c) s = .next (u.stopCore c.val o.begunNow.shapeStop)) := by
  intro D u extra
  have hn : o.nest? = none := by simp only [SeqOp.nest?, hkind]
  have hwork : s.work c.val o 0 = .sint fn := by simp only [State.work, hkind, if_neg hfn]
  have htile : (s.tileCheck c.val o (plainPart 0)).run [] = .ok ((), []) := by
    have hwork' : s.work c.val o (plainPart 0).num = .sint fn := hwork
    simp only [State.tileCheck, hwork']
    rfl
  have hcore := State.slipBegun_dp_core hseq
  have hrun := (s.slipBegun c o).sintRun_eq c.val o.begunNow fn (z := z) (reads := reads) (pails := pails) (out := out)
    (by rw [State.slipBegun_dp hseq, DpCtx.sint_withCores hcore]; exact hz)
    (by rw [State.slipBegun_dp hseq, DpCtx.outputs_withCores hcore]; exact hout)
    (by rw [State.slipBegun_dp hseq, DpCtx.checkOut_withCores hcore]; exact hp)
  rw [State.slipBegun_dp hseq] at hrun
  have hissue := fun t ht => State.slipIssue_plain hseq (t := t) hr hs ho hf hplan hn hwork (fun t h => (nomatch h)) htile ht
  refine ⟨fun hfit => hissue _ (State.partWork_sint_fits _ (hrun.trans ?_)),
    fun hcap hover => hissue _ (State.partWork_sint_over _ (hrun.trans ?_))⟩
  · have hc : (D.cap && decide (0 < extra)) = false := by
      rcases hfit with h | h
      · rw [h, Bool.false_and]
      · rw [h, Bool.and_eq_false_iff]
        exact .inr rfl
    exact congrArg Except.ok (if_neg (by rw [Bool.not_eq_true]; exact hc))
  · have hc : (D.cap && decide (0 < extra)) = true := by rw [hcap, decide_eq_true hover, Bool.and_self]
    exact congrArg Except.ok (if_pos hc)

/-- The core once the outputs have been written. -/
theorem State.slipBegun_sintDone_core (hseq : (s.core c.val).seq = [o]) (e : Nat) :
    ((s.slipBegun c o).sintDone c.val e z reads pails out).core c.val = { ((s.core c.val).readPails reads).writeOut e out pails with
      seq := [o.begunNow]
      sampledBlocks := (z.sel.map (·.sampled)).getD (s.core c.val).sampledBlocks
      sampledAct := if z.sel = none then (s.core c.val).sampledAct else s.reg (Reg.CORE_STRAIN_PRED_ACT c.val) } := by
  rw [State.sintDone_core, State.slipBegun_core hseq, Core.readPails_seq, Core.writeOut_seq, (s.slipBegun_onlyCore c o).reg]

end

/-- Beside SELECT's counts no register counts dropped outputs. -/
theorem dropped_not_mem_selectRegs (c : Nat) :
    Reg.CORE_DESC_DROPPED_LO c ∉ selectRegs c ∧ Reg.CORE_DESC_DROPPED_LO c + 4 ∉ selectRegs c := by
  simp only [selectRegs, Reg.CORE_DESC_DROPPED_LO, Reg.CORE_STRAIN_PRED_ACTIVE, Reg.CORE_STRAIN_PRED_INACTIVE, Reg.CORE_STRAIN_PRED_SAMPLED,
    List.mem_cons, List.not_mem_nil, or_false, not_or]
  omega

/-- A count of SELECT's stands when dropped outputs are counted beside it. -/
theorem CountedUp.bump64_dropped {s t : State} {c x n : Nat} (hx : x ∈ selectRegs c) (h : CountedUp s t x n) (m : Nat) :
    CountedUp s (t.bump64 (Reg.CORE_DESC_DROPPED_LO c) m) x n := by
  obtain ⟨h1, h2⟩ := dropped_not_mem_selectRegs c
  exact h.of_reg rfl (t.reg_bump64_other m (fun e => h1 (e ▸ hx)) (fun e => h2 (e ▸ hx)))

/-- Reads and writes of the Scratchpad leave a core's operations, its registers and whether it runs. -/
theorem Core.written_keeps (k : Core) (e : Nat) (reads pails : List Nat) (out : Tab Byte) :
    ((k.readPails reads).writeOut e out pails).ops = k.ops ∧ ((k.readPails reads).writeOut e out pails).g = k.g ∧
    ((k.readPails reads).writeOut e out pails).running = k.running ∧ ((k.readPails reads).writeOut e out pails).stopped = k.stopped := by
  rw [Core.writeOut_eq, Core.readPails_eq]
  exact ⟨rfl, rfl, rfl, rfl⟩

theorem sintWritesItsOutputs_holds : sintWritesItsOutputs := by
  intro s c o fn f z reads pails out k x d extra counts written hr hs ho hf hseq hkind hfn hplan hw hz hout hp
  obtain ⟨hfits, hover⟩ := State.slipIssue_sint hr hs ho hf hseq hkind hfn hplan hz hout hp
  have hcore := State.slipBegun_sintDone_core (z := z) (reads := reads) (pails := pails) (out := out) hseq x.epoch
  have hbegun := s.slipBegun_onlyCore c o
  have honly := hbegun.onlyCoreAndRegs.trans ((s.slipBegun c o).sintDone_onlyCoreAndRegs c.val x.epoch z reads pails out)
  have hregs := (hbegun.regsSameBut _).trans ((s.slipBegun c o).sintDone_regsSameBut c.val x.epoch z reads pails out)
  have hcount := fun y hy => (s.slipBegun c o).sintDone_countedUp c.val x.epoch z reads pails out (y := y) hy
  obtain ⟨hkops, hkg, hkrunning, hkstopped⟩ := k.written_keeps x.epoch reads pails out
  refine ⟨fun hfit => ⟨_, hfits hfit, ?_⟩, fun hcap hpos hst hfail => ⟨_, hover hcap hpos, ?_⟩⟩
  · generalize (s.slipBegun c o).sintDone c.val x.epoch z reads pails out = u at *
    obtain ⟨hend, hendCore⟩ := (u.bump64 (Reg.CORE_DESC_DROPPED_LO c.val) extra).partEnd_plain (o := o.begunNow)
      (some (BitVec.ofNat 64 z.list.length)) (by rw [State.core_bump64, hcore]) hplan hw
      (fun p h => (nomatch hkind.symm.trans h))
    rw [State.core_bump64, hcore] at hendCore
    obtain ⟨hdrop1, hdrop2⟩ := dropped_not_mem_selectRegs c.val
    have hcounted : ∀ {y n}, y ∈ selectRegs c.val → CountedUp (s.slipBegun c o) u y n → CountedUp s _ y n := fun {y n} hy h =>
      ((h.of_reg (hbegun.reg y) rfl).bump64_dropped hy extra).of_reg rfl (hend.reg y)
    refine ⟨?_, (honly.trans (.bump64 _ _ _ _)).trans hend.onlyCoreAndRegs, ?_, ?_, fun y hy => ?_⟩
    · rw [hendCore]
      dsimp only
      rw [hkops]
      rfl
    · refine ((hregs.mono ?_).trans (.bump64 _ _ ?_ ?_)).trans (hend.regsSameBut _)
      · simp [selectRegs, counts]
      · simp [counts]
      · simp [counts]
    · rw [State.reg64_congr (hend.reg _) (hend.reg _), State.reg64_bump64, State.reg64_congr (hregs _ hdrop1) (hregs _ hdrop2)]
    · obtain ⟨h1, h2, h3⟩ := hcount y hy
      exact ⟨hcounted (by simp [selectRegs]) h1, hcounted (by simp [selectRegs]) h2, hcounted (by simp [selectRegs]) h3⟩
  · generalize (s.slipBegun c o).sintDone c.val x.epoch z reads pails out = u at *
    have hsched : u.sched = s.sched := by rw [honly.1]
    have hstop := u.stopCore_stoppedWith (c := c.val) o.begunNow.shapeStop (by rw [hcore]; exact hkrunning.trans hr)
      (by rw [hcore]; exact hkstopped.trans hs) rfl
    obtain ⟨hstopped, -, hg, -, -, hmem, hfailed⟩ := hstop
    obtain ⟨-, hfailing, hprimary⟩ := hfailed (by rw [hsched]; exact hst) (by rw [hsched]; exact hfail)
    exact ⟨hstopped, hmem.trans (by rw [hcore]), hg.trans (by rw [hcore]; exact hkg), hfailing, hprimary⟩

end Sys2Proof.Machine
end

section
/-! SUPPORT. The statement about ingest, and that about SINT and ingest (R44, R81, R298). -/

namespace Sys2Proof.Machine

/-! A tile that takes values. -/

/-- The tile that a TINGEST adds into: a CLEAR one opens under the operation's precision (R81). -/
def Tile.ingestOpened (t : Tile) (p : Option Prec) : Tile := if t.st = .clear then t.openWith (p.getD t.tag) else t

/-- Counting the terms leaves the tile that takes them. -/
theorem foldl_addF32_fst (vs : List (Nat × Word)) (t : Tile) (n : AddCount) :
    (vs.foldl (fun (a : Tile × AddCount) e => ((a.1.addF32 e.1 e.2).1, a.2.add (a.1.addF32 e.1 e.2).2)) (t, n)).1 =
      vs.foldl (fun y e => (y.addF32 e.1 e.2).1) t := by
  induction vs generalizing t n with
  | nil => rfl
  | cons e vs ih => exact ih _ _

theorem State.ingest_eq (s : State) (c l : Nat) (p : Option Prec) (e : Nat × Word) (vs : List (Nat × Word)) :
    ∃ n, s.ingest c l p (e :: vs) = (s.setTile c l
      ((e :: vs).foldl (fun y e => (y.addF32 e.1 e.2).1) (((s.core c).tile l).ingestOpened p))).countAdds c n := by
  rw [← foldl_addF32_fst (e :: vs) _ ⟨0, 0, 0⟩]
  exact ⟨_, rfl⟩

/-- The registers that count the terms of a core (R93). -/
def addRegs (c : Nat) : List Nat :=
  [Reg.LEDG_SUB_TERMS_LO c, Reg.LEDG_SUB_TERMS_LO c + 4, Reg.LEDG_SAT_ADDS c, Reg.LEDG_SCALE_RANGE_TERMS c]

theorem State.countAdds_onlyCoreAndRegs (s : State) (c : Nat) (n : AddCount) : OnlyCoreAndRegs s (s.countAdds c n) c :=
  ((OnlyCoreAndRegs.bump64 s _ _ c).trans (.bump32 _ _ _ c)).trans (.bump32 _ _ _ c)

theorem State.countAdds_core (s : State) (c : Nat) (n : AddCount) (d : Nat) : (s.countAdds c n).core d = s.core d := by
  simp only [State.countAdds, State.core_bump32, State.core_bump64]

theorem State.countAdds_regsSameBut (s : State) (c : Nat) (n : AddCount) : RegsSameBut s (s.countAdds c n) (addRegs c) :=
  ((RegsSameBut.bump64 s _ (by simp [addRegs]) (by simp [addRegs])).trans (.bump32 _ _ (by simp [addRegs]))).trans
    (.bump32 _ _ (by simp [addRegs]))

/-- Ingested values change their tile and the counts of terms alone. -/
theorem State.ingest_onlyTile (s : State) (c l : Nat) (p : Option Prec) (e : Nat × Word) (vs : List (Nat × Word)) :
    (s.ingest c l p (e :: vs)).core c = (s.core c).setTile l
      ((e :: vs).foldl (fun y e => (y.addF32 e.1 e.2).1) (((s.core c).tile l).ingestOpened p)) ∧
    OnlyCoreAndRegs s (s.ingest c l p (e :: vs)) c ∧ RegsSameBut s (s.ingest c l p (e :: vs)) (addRegs c) := by
  obtain ⟨n, hn⟩ := s.ingest_eq c l p e vs
  rw [hn, State.countAdds_core]
  exact ⟨s.core_modCore_same c _, (OnlyCore.modCore s c _).onlyCoreAndRegs.trans (State.countAdds_onlyCoreAndRegs _ c n),
    ((OnlyCore.modCore s c _).regsSameBut _).trans (State.countAdds_regsSameBut _ c n)⟩

/-! TINGEST (R298). -/

theorem Core.tile_setTile (k : Core) (l n : Nat) (t : Tile) : (k.setTile l t).tile n = if n = l then t else k.tile n :=
  tabGet_set _ _ _ _ _

/-- An OPEN tile takes host values, and a CLEAR one does where a precision is in force (R81, R83). -/
theorem Core.ingestCheck_ok (k : Core) {p : Option Prec} {l : Nat}
    (h : (k.tile l).st = .opened ∨ ((k.tile l).st = .clear ∧ p ≠ none)) : k.ingestCheck p l = .ok () := by
  rcases h with hst | ⟨hst, hp⟩
  · simp only [Core.ingestCheck, Core.nameTile, hst]
    rfl
  · simp only [Core.ingestCheck, Core.nameTile, hst, hp, and_false]
    rfl

theorem State.partWork_ingest {s : State} {c l : Nat} {o : SeqOp} (part : Part) {vs : List (Nat × Word)} {reads : List Nat}
    (h : (o.ingestRead (s.dp c o)).run [] = .ok (vs, reads)) :
    s.partWork c o part (.ingest l) = .ok (((s.modCore c (·.readPails reads)).ingest c l o.prec vs).partEnd c o part none) := by
  have htile : (Dp.forTile l 0 (o.ingestRead (s.dp c o))).run [] = .ok (vs, reads) := by
    change Dp.forTile l 0 (o.ingestRead (s.dp c o)) [] = _
    rw [Dp.forTile, show o.ingestRead (s.dp c o) [] = _ from h]
  simp only [State.partWork, htile, bind, Except.bind]
  rfl

/-- A TINGEST that meets no fault issues: its values have been added to its tile. -/
theorem State.slipIssue_ingest {s : State} {c : CoreId} {o : SeqOp} {f : FmtS} {vs : List (Nat × Word)} {reads : List Nat}
    (hr : (s.core c.val).running = true) (hs : (s.core c.val).stopped = false) (ho : (s.core c.val).ownerReq = none)
    (hf : (s.core c.val).freeze = none) (hseq : (s.core c.val).seq = [o]) (hkind : o.kind = .tingest f)
    (hplan : o.plan = some ⟨[plainPart 0]⟩)
    (htile : ((s.core c.val).tile f.tile.toNat).st = .opened ∨ (((s.core c.val).tile f.tile.toNat).st = .clear ∧ o.prec ≠ none))
    (hread : (o.ingestRead (s.dp c.val o)).run [] = .ok (vs, reads)) :
    exec (.slipIssue c) s = .next ((((s.slipBegun c o).modCore c.val (·.readPails reads)).ingest c.val f.tile.toNat o.prec vs).partEnd
      c.val o.begunNow (plainPart 0) none) := by
  have hn : o.nest? = none := by simp only [SeqOp.nest?, hkind]
  have hwork : s.work c.val o 0 = .ingest f.tile.toNat := by simp only [State.work, hkind]
  have hcheck : (s.tileCheck c.val o (plainPart 0)).run [] = .ok ((), []) := by
    have hwork' : s.work c.val o (plainPart 0).num = .ingest f.tile.toNat := hwork
    simp only [State.tileCheck, hwork', Core.ingestCheck_ok _ htile]
    rfl
  refine State.slipIssue_plain hseq hr hs ho hf hplan hn hwork (fun t h => (nomatch h)) hcheck
    (State.partWork_ingest (o := o.begunNow) _ ?_)
  rw [State.slipBegun_dp hseq]
  exact (congrArg (fun r => StateT.run r []) (DpCtx.ingestRead_withCores (State.slipBegun_dp_core hseq) o)).trans hread

theorem tingestAddsExactValues (s : State) (c : CoreId) (o : SeqOp) (f : FmtS) (e : Nat × Word) (vs : List (Nat × Word)) (reads : List Nat)
    (hr : (s.core c.val).running = true) (hs : (s.core c.val).stopped = false) (ho : (s.core c.val).ownerReq = none)
    (hf : (s.core c.val).freeze = none) (hseq : (s.core c.val).seq = [o]) (hkind : o.kind = .tingest f)
    (hplan : o.plan = some ⟨[plainPart 0]⟩) (hw : o.writes = [])
    (htile : ((s.core c.val).tile f.tile.toNat).st = .opened ∨ (((s.core c.val).tile f.tile.toNat).st = .clear ∧ o.prec ≠ none))
    (hread : (o.ingestRead (s.dp c.val o)).run [] = .ok (e :: vs, reads)) :
    Ends (exec (.slipIssue c) s) (fun t =>
      (t.core c.val).tile f.tile.toNat = (e :: vs).foldl (fun y e => (y.addF32 e.1 e.2).1)
        (((s.core c.val).tile f.tile.toNat).ingestOpened o.prec) ∧
      (∀ n, n ≠ f.tile.toNat → (t.core c.val).tile n = (s.core c.val).tile n) ∧
      t.core c.val = { (s.core c.val).readPails reads with
        tiles := (t.core c.val).tiles
        seq := []
        ops := handedOver (s.core c.val).ops [o.id] ⟨0, none, Stop.of 0⟩ } ∧
      OnlyCoreAndRegs s t c.val ∧ RegsSameBut s t (addRegs c.val)) := by
  refine ⟨_, State.slipIssue_ingest hr hs ho hf hseq hkind hplan htile hread, ?_⟩
  have hbegun := s.slipBegun_onlyCore c o
  have hread' := hbegun.trans (OnlyCore.modCore (s.slipBegun c o) c.val (·.readPails reads))
  have hk : ((s.slipBegun c o).modCore c.val (·.readPails reads)).core c.val =
      { s.core c.val with pails := ((s.core c.val).readPails reads).pails, seq := [o.begunNow] } := by
    rw [State.core_modCore_same, State.slipBegun_core hseq, Core.readPails_seq, Core.readPails_eq]
  generalize (s.slipBegun c o).modCore c.val (·.readPails reads) = u at *
  obtain ⟨hcore, honly, hregs⟩ := u.ingest_onlyTile c.val f.tile.toNat o.prec e vs
  have hkt : (u.core c.val).tile f.tile.toNat = (s.core c.val).tile f.tile.toNat := by rw [hk]; rfl
  rw [hkt, hk] at hcore
  generalize u.ingest c.val f.tile.toNat o.prec (e :: vs) = w at *
  generalize (e :: vs).foldl (fun y e => (y.addF32 e.1 e.2).1) (((s.core c.val).tile f.tile.toNat).ingestOpened o.prec) = y at *
  obtain ⟨hend, hendCore⟩ := w.partEnd_plain (o := o.begunNow) none (by rw [hcore]; rfl) hplan hw
    (fun p h => (nomatch hkind.symm.trans h))
  generalize w.partEnd c.val o.begunNow (plainPart 0) none = t at *
  rw [hcore] at hendCore
  have htiles : ∀ n, (t.core c.val).tile n = if n = f.tile.toNat then y else (s.core c.val).tile n := by
    intro n
    rw [hendCore]
    exact (s.core c.val).tile_setTile f.tile.toNat n y
  refine ⟨by rw [htiles, if_pos rfl], fun n hn => by rw [htiles, if_neg hn], ?_,
    (hread'.onlyCoreAndRegs.trans honly).trans hend.onlyCoreAndRegs,
    ((hread'.regsSameBut _).trans hregs).trans (hend.regsSameBut _)⟩
  rw [hendCore, Core.readPails_eq]
  rfl

theorem ingestAddsExactValues_holds : ingestAddsExactValues := by
  refine ⟨fun t i w => ⟨fun q h => ?_, fun neg h => ?_, t.addF32_nan i w, fun n hn => t.addF32_word_other i w hn⟩, ?_⟩
  · obtain ⟨hu, rfl⟩ := t.addF32_fin i w h
    obtain ⟨hword, heq, -⟩ := t.addTerm_host i (f32Term w).1 (f32Term w).2
    rw [hu]
    exact ⟨hword, heq⟩
  · exact ⟨t.addF32_inf_word i w h, by rw [t.addF32_inf i w h]⟩
  · exact fun s c o f e vs reads hr hs ho hf hseq hkind hplan hw htile hread =>
      tingestAddsExactValues s c o f e vs reads hr hs ho hf hseq hkind hplan hw htile hread

/-- Settles O31: each of its four parts by its own lemma. -/
theorem sintAndIngestFollowTheirRules : Obligations.SintAndIngestFollowTheirRules := by
  unfold Obligations.SintAndIngestFollowTheirRules
  exact ⟨keysMatchAndMerge_holds, selectListsBlocks_holds, sintWritesItsOutputs_holds, ingestAddsExactValues_holds⟩

end Sys2Proof.Machine
end

section
/-! SUPPORT. Latches of _LO registers and the clearing of counters (R70, R331, R353). -/

namespace Sys2Proof.Machine

/-! Latches. -/

theorem reqNum_injective : Function.Injective reqNum := by
  intro q r h
  rcases q with (_ | _) | _ | c <;> rcases r with (_ | _) | _ | c' <;> grind [reqNum]

@[simp] theorem State.latched_latch_same (s : State) (r : Requester) (x : Nat) (v : Word) : (s.latch r x v).latched r x = v :=
  tabGet_set_same _ _ _ _

/-- A latch is one requester's, of one register. -/
theorem State.latched_latch_other (s : State) {q r : Requester} {x y : Nat} (v : Word) (hx : x < 2 ^ 28) (hy : y < 2 ^ 28)
    (h : q ≠ r ∨ y ≠ x) : (s.latch r x v).latched q y = s.latched q y := by
  have hne : reqNum q * 2 ^ 28 + y ≠ reqNum r * 2 ^ 28 + x := by
    intro heq
    have hq : q = r := reqNum_injective (by omega)
    subst hq
    exact h.elim (· rfl) (· (by omega))
  exact tabGet_set_other _ _ _ hne

/-- A register that latches stands at a multiple of 8 in its block. -/
theorem latchesHi_aligned {k : BlockKind} {o : Nat} (h : latchesHi k o = true) : o % 8 = 0 := by
  cases k <;> simp [latchesHi] at h <;> omega

/-- Blocks lie at multiples of 8, and end below the end of control space. -/
theorem blockTable_placed : ∀ b ∈ blockTable, b.base % 8 = 0 ∧ b.stride % 8 = 0 ∧ b.base + b.stride * b.count + 4 < 2 ^ 28 := by
  decide

theorem latchPair_placed {x : Nat} (h : latchPair x = true) : x % 8 = 0 ∧ x + 4 < 2 ^ 28 := by
  unfold latchPair at h
  split at h
  · next b hb =>
    obtain ⟨row, hrow, hin⟩ := List.exists_of_findSome?_eq_some hb
    obtain ⟨hbase, hstride, hend⟩ := blockTable_placed row hrow
    unfold blockIn at hin
    split at hin
    · next hx =>
      cases hin
      have hoff : (x - row.base) % row.stride % 8 = 0 := latchesHi_aligned h
      rw [Nat.mod_mod_of_dvd _ (Nat.dvd_of_mod_eq_zero hstride)] at hoff
      omega
    · cases hin
  · cases h

/-- The register above a _LO register latches nothing itself. -/
theorem latchPair_add_four {x : Nat} (h : latchPair x = true) : latchPair (x + 4) = false := by
  by_contra hc
  have hlo := latchPair_placed h
  have hhi := latchPair_placed (Bool.eq_true_of_not_eq_false hc)
  omega

theorem State.regRead_lo (s : State) (r : Requester) {x : Nat} (h : latchPair x = true) :
    s.regRead r x = (s.latch r (x + 4) (s.regView (x + 4)), s.regView x) := by
  have hx : x ≠ Reg.SISYN_LC_DEBUG_LEFT := by
    rintro rfl
    exact absurd h (by decide)
  simp [State.regRead, hx, h]

theorem State.regRead_hi (s : State) (r : Requester) {x : Nat} (h : latchPair x = true) :
    s.regRead r (x + 4) = (s, s.latched r (x + 4)) := by
  have hx : x + 4 ≠ Reg.SISYN_LC_DEBUG_LEFT := by
    have hlo := latchPair_placed h
    unfold Reg.SISYN_LC_DEBUG_LEFT
    omega
  simp [State.regRead, hx, h, latchPair_add_four h]

theorem State.readAnswer_lo (s : State) (r : Requester) {x : Nat} (h : latchPair x = true) :
    s.readAnswer r x = (s.latch r (x + 4) (s.regView (x + 4))).answer r ((s.regView x).setWidth 64) := by
  simp [State.readAnswer, s.regRead_lo r h]

@[simp] theorem State.latched_answer (s : State) (r : Requester) (v : Dword) (q : Requester) (x : Nat) :
    (s.answer r v).latched q x = s.latched q x := rfl

theorem lowReadsLatchTheHighHalf_holds : lowReadsLatchTheHighHalf := by
  intro s r offset ctr m e he hpair
  have hexec : exec e.1 s = .next (s.readAnswer r e.2) := by
    simp only [List.mem_cons, List.not_mem_nil, or_false] at he
    rcases he with rfl | rfl | rfl
    · exact congrArg (act · s _) hpair
    · rfl
    · rfl
  have hhi : (s.readAnswer r e.2).latched r (e.2 + 4) = s.regView (e.2 + 4) := by simp [s.readAnswer_lo r hpair]
  refine ⟨_, hexec, ?_, hhi, ?_, fun q y hy hne => ?_, ?_⟩
  · rw [s.readAnswer_lo r hpair]
    exact tabGet_set_same _ _ _ _
  · rw [State.regRead_hi _ r hpair, hhi]
  · rw [s.readAnswer_lo r hpair, State.latched_answer, s.latched_latch_other _ (latchPair_placed hpair).2 hy hne]
  · rw [s.readAnswer_lo r hpair]
    rfl

/-! Clears. -/

theorem State.clearRegs_eq (xs : List Nat) (s : State) : s.clearRegs xs = { s with regs := (s.clearRegs xs).regs } := by
  induction xs generalizing s with
  | nil => rfl
  | cons x xs ih => exact ih (s.setReg x (regReset s.variant x))

theorem State.reg_clearRegs (xs : List Nat) (s : State) (x : Nat) :
    (s.clearRegs xs).reg x = if x ∈ xs then regReset s.variant x else s.reg x := by
  induction xs generalizing s with
  | nil => rfl
  | cons y xs ih =>
    refine (ih (s.setReg y (regReset s.variant y))).trans ?_
    by_cases hxs : x ∈ xs
    · simp [hxs]
    · by_cases hxy : x = y
      · simp [hxy]
      · simp [hxs, hxy, s.reg_setReg_other _ hxy]

theorem tabFind_drop {α : Type} (p : Nat → Bool) (t : Tab α) (k : Nat) :
    tabFind (tabDrop p t) k = if p k then none else tabFind t k := by
  induction t with
  | nil => simp [tabDrop]
  | cons e t ih =>
    obtain ⟨j, v⟩ := e
    have ih' : tabFind (t.filter (fun e => !p e.1)) k = if p k then none else tabFind t k := ih
    by_cases hj : j = k
    · subst hj
      cases hp : p j <;> simp [tabDrop, tabFind, hp, ih']
    · cases hp : p j <;> simp [tabDrop, tabFind, hp, hj, ih']

theorem State.latched_dropLatches (s : State) (lo hi : Nat) (q : Requester) {x : Nat} (hx : x < 2 ^ 28) :
    (s.dropLatches lo hi).latched q x = if lo ≤ x ∧ x < hi then 0 else s.latched q x := by
  have hmod : (reqNum q * 2 ^ 28 + x) % 2 ^ 28 = x := by omega
  simp only [State.latched, State.dropLatches, tabGet, tabFind_drop, hmod, Bool.and_eq_true, decide_eq_true_eq]
  split <;> rfl

/-- A write of 1 clears the block's counters and latches, and nothing beside them (R70). -/
theorem State.cntClr_clears (s : State) (k : BlockKind) (base size : Nat) {v : Word} (hv : v.getLsbD 0 = true) :
    let places := (clearedRegs k).map (base + ·)
    let t := s.cntClr k base size v
    (∀ x ∈ places, t.reg x = regReset s.variant x) ∧ RegsSameBut s t places ∧
    (∀ q x, x < 2 ^ 28 → t.latched q x = if base ≤ x ∧ x < base + size then 0 else s.latched q x) ∧
    t = { s with regs := t.regs, latches := t.latches } := by
  intro places t
  have ht : t = (s.clearRegs places).dropLatches base (base + size) := if_pos hv
  have hreg (x : Nat) : t.reg x = (s.clearRegs places).reg x := by rw [ht]; rfl
  refine ⟨fun x hx => ?_, fun x hx => ?_, fun q x hx => ?_, ?_⟩
  · rw [hreg, State.reg_clearRegs, if_pos hx]
  · rw [hreg, State.reg_clearRegs, if_neg hx]
  · rw [ht, State.latched_dropLatches _ _ _ _ hx, State.clearRegs_eq]
    rfl
  · rw [ht, State.clearRegs_eq]
    rfl

theorem State.cntClr_even (s : State) (k : BlockKind) (base size : Nat) {v : Word} (hv : v.getLsbD 0 = false) :
    s.cntClr k base size v = s :=
  if_neg (by rw [hv]; decide)

/-- Every clear command is a clear of its block, where its unit is present. -/
theorem counterClearsReachTheirBlockAlone_holds : counterClearsReachTheirBlockAlone := by
  rintro s r c q m n i sp port v ⟨instr, kind, base, size, present⟩ he
  have hexec : exec instr s = act present s (s.cntClr kind base size v) := by
    simp only [List.mem_cons, List.not_mem_nil, or_false] at he
    rcases he with he | he | he | he | he | he | he | he | he | he | he | he | he | he | he | he | he | he | he | he | he | he <;>
      cases he <;> rfl
  refine ⟨fun hpresent hv => ?_, fun hnot => ?_⟩
  · exact ⟨_, hexec.trans (congrArg (act · s _) hpresent), s.cntClr_clears kind base size hv⟩
  · refine hexec.trans ?_
    rcases hnot with habsent | hv
    · exact congrArg (act · s _) habsent
    · rw [s.cntClr_even kind base size hv]
      exact ite_self _

/-- Settles O41, from what a latching read and a clear do to registers and latches. -/
theorem latchesAndCounterClears : Obligations.LatchesAndCounterClears :=
  ⟨lowReadsLatchTheHighHalf_holds, counterClearsReachTheirBlockAlone_holds⟩

end Sys2Proof.Machine
end

section
/-! SUPPORT. What products read of their state: not the Sequencer queue (R65, R68). -/

namespace Sys2Proof.Machine

section
variable {x : DpCtx} {cs : Tab Core} {q : List SeqOp} (h : (x.withCores cs).k = { x.k with seq := q })
include h

/-! Tiles and records. -/

theorem DpCtx.getIn_withCores (d : Desc) (dreg base a n : Nat) : (x.withCores cs).getIn d dreg base a n = x.getIn d dreg base a n := by
  simp only [DpCtx.getIn, get_withCores h]
  rfl

theorem DpCtx.entries_withCores (d : Desc) (dreg : Nat) (last : Option (Nat × Nat)) (i n : Nat) :
    (x.withCores cs).entries d dreg last i n = x.entries d dreg last i n := by
  induction n generalizing last i with
  | zero => rfl
  | succ n ih => simp only [DpCtx.entries, getIn_withCores h, ih]

theorem DpCtx.list_withCores (d : Desc) (dreg : Nat) : (x.withCores cs).list d dreg = x.list d dreg := by
  simp only [DpCtx.list, getIn_withCores h, entries_withCores h]

theorem DpCtx.tile_withCores (d : Desc) (dreg : Nat) (bl : BclList) (nb kb ol : Nat) :
    (x.withCores cs).tile d dreg bl nb kb ol = x.tile d dreg bl nb kb ol := by
  simp only [DpCtx.tile, DpCtx.bitmapTile, get_withCores h, getIn_withCores h]

theorem Operand.record_withCores (o : Operand) (bl : BclList) (r k : Nat) : o.record (x.withCores cs) bl r k = o.record x bl r k := by
  simp only [Operand.record, DpCtx.whey, DpCtx.get_withCores h]

theorem Operand.chunk_withCores (o : Operand) (bl : BclList) (blk kc : Nat) :
    o.chunk (x.withCores cs) bl blk kc = o.chunk x bl blk kc := by
  simp only [Operand.chunk, DpCtx.tile_withCores h]

theorem Operand.span_withCores (o : Operand) (bl : BclList) (blk lo hi : Nat) (issued : Nat → Bool) (n kc : Nat) :
    o.span (x.withCores cs) bl blk lo hi issued n kc = o.span x bl blk lo hi issued n kc := by
  induction n generalizing kc with
  | zero => rfl
  | succ n ih => simp only [Operand.span, chunk_withCores h, ih]

theorem Operand.consume_withCores (o : Operand) (bl : BclList) (rows kcs los : List Nat) :
    o.consume (x.withCores cs) bl rows kcs los = o.consume x bl rows kcs los := by
  simp only [Operand.consume, chunk_withCores h, record_withCores h]

/-! Products and pair lists. -/

theorem Product.lists_withCores (p : Product) : p.lists (x.withCores cs) = p.lists x := by
  simp only [Product.lists, DpCtx.list_withCores h]

theorem Product.readGroup_withCores (p : Product) (i : Nat) : p.readGroup (x.withCores cs) i = p.readGroup x i := by
  have hread : p.readArray (x.withCores cs) = p.readArray x := by
    funext l i a
    simp only [Product.readArray, Operand.block, Operand.span_withCores h, Operand.record_withCores h]
  simp only [Product.readGroup, lists_withCores h, hread]

theorem Product.consume_withCores (p : Product) (u : ChunkUse) : p.consume (x.withCores cs) u = p.consume x u := by
  have harray : p.consumeArray (x.withCores cs) = p.consumeArray x := by
    funext l u a
    simp only [Product.consumeArray, Operand.consume_withCores h]
  simp only [Product.consume, lists_withCores h, harray]

theorem DpCtx.recs_withCores (r : DCopy) : (x.withCores cs).recs r = x.recs r := by
  have hrecs : ∀ (d : Desc) (dreg q n : Nat), (x.withCores cs).pairRecs d dreg q n = x.pairRecs d dreg q n := by
    intro d dreg q n
    induction n generalizing q with
    | zero => rfl
    | succ n ih => simp only [DpCtx.pairRecs, get_withCores h, ih]
  simp only [DpCtx.recs, hrecs]

theorem Work.consume_withCores (w : Work) (u : ChunkUse) : w.consume (x.withCores cs) u = w.consume x u := by
  cases w with
  | product p => simp only [Work.consume, Product.consume_withCores h]
  | pairs p r =>
    have hpair : p.consumePair (x.withCores cs) u = p.consumePair x u := by
      funext r
      simp only [Product.consumePair, Operand.consume_withCores h]
    simp only [Work.consume, DpCtx.recs_withCores h, hpair]
  | _ => rfl

/-! READ and STORE slips. -/

theorem DpCtx.slipWords_withCores (sl : Slip) : (x.withCores cs).slipWords sl = x.slipWords sl := by
  simp only [DpCtx.slipWords, h]
  rfl

theorem DpCtx.readSlip_withCores (sl : Slip) : (x.withCores cs).readSlip sl = x.readSlip sl := by
  have hpail : (x.withCores cs).readPail sl.pail = x.readPail sl.pail := by
    simp only [DpCtx.readPail, h]
    rfl
  have hword : (x.withCores cs).readWord = x.readWord := by
    funext a
    simp only [DpCtx.readWord, power_withCores h, h]
    rfl
  simp only [DpCtx.readSlip, slipWords_withCores h, hpail, hword, h]
  rfl

theorem DpCtx.storePail_withCores (i : Nat) : (x.withCores cs).storePail i = x.storePail i := by
  simp only [DpCtx.storePail, h]
  rfl

end

end Sys2Proof.Machine
end

section
/-! SUPPORT. The issue of one slip of a part that has begun: its effect, its count and what is left of its part (R65, R221). -/

namespace Sys2Proof.Machine

/-- A change of the operation at the head of the queue, whose id no other has. -/
theorem Core.modSeq_head {k : Core} {o : SeqOp} {q : List SeqOp} (hseq : k.seq = o :: q) (hq : ∀ a ∈ q, a.id ≠ o.id)
    (f : SeqOp → SeqOp) : k.modSeq o.id f = { k with seq := f o :: q } := by
  have htail : q.map (fun a => if a.id = o.id then f a else a) = q :=
    (List.map_congr_left (fun a ha => if_neg (hq a ha))).trans (List.map_id' q)
  simp only [Core.modSeq, hseq, List.map_cons, if_true, htail]

theorem SeqOp.begunNow_eq {o : SeqOp} (hs : o.started = true) (hb : o.begun = true) : o.begunNow = o := by
  cases o
  cases hs
  cases hb
  rfl

/-- The state once a slip has had its effect: the slip is counted, and `part` is what is left of its part. -/
def State.slipDone (s : State) (c : Nat) (o : SeqOp) (part : Part) : State :=
  (s.bump64 (Reg.CORE_SEQ_SLIPS_LO c) 1).modCore c (·.modSeq o.id (fun o => { o with
    plan := o.plan.map (fun p => ⟨part :: p.parts.tail⟩) }))

/-- An issued slip changed registers as `t` has them, and counted itself. -/
def SlipCounted (t u : State) (c : Nat) : Prop := ∀ x, u.reg x = (t.bump64 (Reg.CORE_SEQ_SLIPS_LO c) 1).reg x

/-- A core has issued one slip more, and no other register changes (R221). -/
def CountedSlip (s t : State) (c : Nat) : Prop :=
  t.reg64 (Reg.CORE_SEQ_SLIPS_LO c) = (s.reg64 (Reg.CORE_SEQ_SLIPS_LO c) + 1) % 2 ^ 64 ∧
  RegsSameBut s t [Reg.CORE_SEQ_SLIPS_LO c, Reg.CORE_SEQ_SLIPS_LO c + 4]

theorem SlipCounted.alone {s t u : State} {c : Nat} (h : SlipCounted t u c) (ht : ∀ x, t.reg x = s.reg x) : CountedSlip s u c := by
  refine ⟨?_, fun x hx => ?_⟩
  · rw [State.reg64_congr (h _) (h _), State.reg64_bump64, State.reg64_congr (ht _) (ht _)]
  · rw [h, RegsSameBut.bump64 t 1 (by simp) (by simp) x hx, ht]

section
variable {s : State} {c : CoreId} {o : SeqOp} {q : List SeqOp} {pl : Plan} {part : Part} {parts : List Part}
  (h : slipStands s c.val o q pl part parts)
include h

theorem toIssue_of_slipStands : (s.core c.val).toIssue = some (o, part) := by
  obtain ⟨hrun, hstop, hown, hseq, hplan, hparts, -⟩ := h
  simp [Core.toIssue, hrun, hstop, hown, hseq, hplan, hparts]

/-- A part that has begun makes no checks before its slip: the core is as it was. -/
theorem slipBegun_core_of_slipStands : (s.slipBegun c o).core c.val = s.core c.val := by
  obtain ⟨-, -, -, hseq, -, -, -, -, hstarted, hbegun, hq⟩ := h
  have ho : o.begunNow = o := SeqOp.begunNow_eq hstarted hbegun
  refine (s.core_modCore_same c.val _).trans ?_
  rw [Core.readPails, List.foldl_nil, Core.begin_, Core.modSeq_head hseq hq]
  exact (congrArg (fun o' => { s.core c.val with seq := o' :: q }) ho).trans (by rw [← hseq])

theorem slipBegun_dp_of_slipStands :
    (s.slipBegun c o).dp c.val o = (s.dp c.val o).withCores (s.slipBegun c o).cores ∧
    ((s.dp c.val o).withCores (s.slipBegun c o).cores).k = { (s.dp c.val o).k with seq := (s.core c.val).seq } := by
  refine ⟨?_, slipBegun_core_of_slipStands h⟩
  unfold State.dp
  rw [slipBegun_core_of_slipStands h]
  rfl

variable {sl : Slip} {rest : List Slip} (hsl : part.slips = sl :: rest) (hrest : rest ≠ [])
include hsl hrest

theorem issueHead_of_slipStands : s.issueHead c.val o part =
    ((s.slipBegun c o).slipRun c.val o part (s.work c.val o part.num) sl).map (fun t => t.slipDone c.val o
      { part.counted o (s.work c.val o part.num).planePairs sl.kind with slips := rest }) := by
  obtain ⟨-, -, -, hseq, -, -, hquiet, hnest, hstarted, hbegun, -⟩ := id h
  generalize hw : s.work c.val o part.num = w
  have hcheck : (s.firstCheck c.val o part w).run [] = .ok ((), []) := by
    rw [State.firstCheck, if_neg (by simp [hstarted]), if_neg (by simp [hbegun])]
    rfl
  have hhead : (s.slipBegun c o).headOp c.val o = o := by rw [State.headOp, slipBegun_core_of_slipStands h, hseq]; rfl
  have hempty : rest.isEmpty = false := by simpa using hrest
  rw [State.issueHead, hnest]
  dsimp only
  rw [hquiet, if_neg Bool.false_ne_true, hw, State.partSlip, hcheck, hsl]
  dsimp only [bind, Except.bind]
  rw [hbegun, if_pos rfl]
  have hfold : s.modCore c.val (fun k => (k.readPails []).begin_ o.id) = s.slipBegun c o := rfl
  rw [hfold, hhead, hempty]
  cases (s.slipBegun c o).slipRun c.val o part w sl <;> rfl

/-- A slip that meets no fault issues. -/
theorem issued_of_slipStands {t : State} (hrun : (s.slipBegun c o).slipRun c.val o part (s.work c.val o part.num) sl = .ok t) :
    s.issued c.val o part =
      (t.slipDone c.val o { part.counted o (s.work c.val o part.num).planePairs sl.kind with slips := rest }, none) := by
  rw [State.issued, issueHead_of_slipStands h hsl hrest, hrun]
  rfl

/-- A slip that waits for a pail leaves the state as it was. -/
theorem issued_wait_of_slipStands {i : Nat}
    (hrun : (s.slipBegun c o).slipRun c.val o part (s.work c.val o part.num) sl = .error (.wait i)) :
    s.issued c.val o part = (s, some i) := by
  rw [State.issued, issueHead_of_slipStands h hsl hrest, hrun]
  rfl

end

/-- What the issue of a slip leaves of its core, where its effect changes the operation by `f` and the rest of the core to `k`. -/
theorem slipDone_of_slipStands {s t : State} {c : CoreId} {o : SeqOp} {q : List SeqOp} {pl : Plan} {part : Part} {parts : List Part}
    (h : slipStands s c.val o q pl part parts) {k : Core} {f : SeqOp → SeqOp} (hcore : t.core c.val = { k with seq := f o :: q })
    (hid : (f o).id = o.id) (hplan : (f o).plan = o.plan) (honly : OnlyCoreAndRegs s t c.val) (left : Part) (rest : List Slip) :
    (t.slipDone c.val o { left with slips := rest }).core c.val = slipGone k o q left parts rest f ∧
    OnlyCoreAndRegs s (t.slipDone c.val o { left with slips := rest }) c.val ∧
    SlipCounted t (t.slipDone c.val o { left with slips := rest }) c.val := by
  obtain ⟨-, -, -, -, hpl, hparts, -, -, hstarted, hbegun, hq⟩ := h
  have ho : o.begunNow = o := SeqOp.begunNow_eq hstarted hbegun
  refine ⟨?_, (honly.trans (.bump64 _ _ _ _)).trans (OnlyCore.modCore _ _ _).onlyCoreAndRegs, fun x => State.reg_modCore _ _ _ x⟩
  rw [State.slipDone, State.core_modCore_same, State.core_bump64, hcore, ← hid, Core.modSeq_head rfl (by rwa [hid]), hplan, hpl]
  unfold slipGone
  rw [show { o with started := true, begun := true } = o from ho, Option.map_some, hparts, List.tail_cons]

/-- The slip at the head issues, and leaves a state of which `P` holds. -/
def State.Issues (s : State) (c : Nat) (o : SeqOp) (part : Part) (P : State → Prop) : Prop :=
  ∃ t, s.issued c o part = (t, none) ∧ P t

theorem State.Issues.imp {s : State} {c : Nat} {o : SeqOp} {part : Part} {P Q : State → Prop} (h : s.Issues c o part P)
    (hpq : ∀ t, P t → Q t) : s.Issues c o part Q := by
  obtain ⟨t, ht, hp⟩ := h
  exact ⟨t, ht, hpq t hp⟩

/-- SLIP_ISSUE issues the slip at the head of a core that is not frozen. -/
theorem ends_of_issues {s : State} {c : CoreId} {o : SeqOp} {q : List SeqOp} {pl : Plan} {part : Part} {parts : List Part}
    {P : State → Prop} (h : slipStands s c.val o q pl part parts) (hfreeze : (s.core c.val).freeze = none)
    (hissues : s.Issues c.val o part P) : Ends (exec (.slipIssue c) s) P := by
  obtain ⟨t, ht, hp⟩ := hissues
  refine ⟨t, ?_, hp⟩
  show execSlipIssue c s = _
  rw [execSlipIssue, toIssue_of_slipStands h, hfreeze]
  dsimp only
  rw [ht]

end Sys2Proof.Machine
end

section
/-! SUPPORT. IDLE, STORE, READ and PAIR slips (R29, R65, R68, R69, R127, R154, R185–R187, R221). -/

namespace Sys2Proof.Machine

/-! What a slip does, by its kind. -/

section
variable {s : State} {c : Nat} {o : SeqOp} {part : Part} {w : Work} {sl : Slip}

theorem State.slipRun_idle (hk : sl.kind = 0) : s.slipRun c o part w sl = .ok s := by
  simp only [State.slipRun, hk]
  rfl

theorem State.slipRun_read {held : Tab Byte} (hk : sl.kind = 1) (hread : (s.dp c o).readSlip sl = .ok held) :
    s.slipRun c o part w sl = .ok (s.modCore c (fun k => (k.readDone sl).modSeq o.id (fun o => { o with
      overlay := held
      reads := if sl.last then o.reads.filter (· != sl.pail) else sl.pail :: o.reads }))) := by
  simp only [State.slipRun, hk, hread, refusedRead]
  rfl

theorem State.slipRun_pair (hk : sl.kind = 2) : s.slipRun c o part w sl = s.pairSlip c o part w := by
  simp only [State.slipRun, hk]
  rfl

theorem State.slipRun_store (hk : sl.kind = 4) :
    s.slipRun c o part w sl = ((s.dp c o).storePail sl.pail).map (fun _ => s.modCore c (fun k =>
      (k.writePails (k.pailEpoch o.epoch) [sl.pail]).modSeq o.id (fun o => { o with writes := sl.pail :: o.writes }))) := by
  simp only [State.slipRun, hk]
  rfl

theorem State.slipRun_group (hk : sl.kind = 3 ∨ sl.kind = 5) : s.slipRun c o part w sl = s.endGroups c o w 1 := by
  rcases hk with hk | hk
  · simp only [State.slipRun, hk]
    rfl
  · simp only [State.slipRun, hk]
    rfl

end

theorem Part.counted_of_ne {kind : Nat} (hk : kind ≠ 2) (part : Part) (o : SeqOp) (n : Nat) : part.counted o n kind = part := if_neg hk

theorem checkAll_ok {α : Type} {f : α → Except DpErr Unit} {l : List α} (h : ∀ a ∈ l, f a = .ok ()) : checkAll f l = .ok () := by
  induction l with
  | nil => rfl
  | cons a l ih =>
    rw [checkAll, h a (List.mem_cons_self ..)]
    exact ih fun b hb => h b (List.mem_cons_of_mem a hb)

/-- A pail that the data path may read. -/
theorem DpCtx.readPail_ok {x : DpCtx} {i : Nat} (hvalid : (x.s.pailCfg x.c i).valid = true) (hcons : (x.s.pailCfg x.c i).consumer = 0)
    (hread : (x.k.pail i).readable x.epoch = true) (herr : (x.k.pail i).err = false) : x.readPail i = .ok () := by
  simp [DpCtx.readPail, hvalid, hcons, hread, herr]

/-- A STORE slip's pail with the data path as its producer: it may be written, or the slip waits for it. -/
theorem DpCtx.storePail_eq {x : DpCtx} {i : Nat} (hvalid : (x.s.pailCfg x.c i).valid = true) (hprod : (x.s.pailCfg x.c i).producer = 0) :
    x.storePail i = if (x.k.pail i).writable x.epoch then .ok () else .error (.wait i) := by
  simp [DpCtx.storePail, hvalid, hprod]

theorem DpCtx.readSlip_ok {x : DpCtx} {sl : Slip} (hpail : x.readPail sl.pail = .ok ())
    (hwords : ∀ a ∈ x.slipWords sl, (x.k.bank (bankOf a)).usable = true ∧ x.k.parityBad a 64 = false) :
    x.readSlip sl = .ok ((x.slipWords sl).foldl (fun t a => putBytes t a (x.k.spadBytes a 64)) x.overlay) := by
  have hword : checkAll x.readWord (x.slipWords sl) = .ok () := checkAll_ok fun a ha => by
    obtain ⟨husable, hparity⟩ := hwords a ha
    simp [DpCtx.readWord, DpCtx.power, husable, hparity]
  rw [DpCtx.readSlip, hpail, hword]
  rfl

/-- The state once a PAIR slip has had its effect: a core cycle of plane pairs, and what the chunk that it is the first of counts and
reads (R69, R154). -/
def State.pairIssued (s : State) (c : Nat) (o : SeqOp) (part : Part) (u : ChunkUse) (pails : List Nat) : State :=
  ((s.bump64 (Reg.CORE_TALLY_PAIRS_LO c) (min 1 part.pairs)).applyCounts u.counts).modCore c
    (fun k => (k.readPails pails).modSeq o.id (fun o => { o with checked := o.checked + 1 }))

theorem State.pairSlip_ok {s : State} {c : Nat} {o : SeqOp} {part : Part} {w : Work} {u : ChunkUse} {pails : List Nat}
    (hu : u = if o.chunkStart w.planePairs then part.uses.headD default else default)
    (hread : (w.consume (s.dp c o) u).run [] = .ok ((), pails)) :
    s.pairSlip c o part w = .ok (s.pairIssued c o part u pails) := by
  subst hu
  rw [State.pairSlip]
  dsimp only
  rw [hread]
  rfl

/-! Counts. -/

/-- One count of a part applied: its counter's kind, its register and its amount. -/
def State.countOne (s : State) (e : Nat × Nat × Nat) : State :=
  if e.1 = 0 then s.bump64 e.2.1 e.2.2 else if e.1 = 1 then s.bump32 e.2.1 e.2.2 else s.maxReg e.2.1 e.2.2

theorem State.applyCounts_cons (s : State) (e : Nat × Nat × Nat) (l : List (Nat × Nat × Nat)) :
    s.applyCounts (e :: l) = (s.countOne e).applyCounts l := rfl

/-- Two states hold the same in every register. -/
def SameRegs (s t : State) : Prop := ∀ x, t.reg x = s.reg x

section
variable {s t : State} (h : SameRegs s t)
include h

theorem SameRegs.setRegN (x v : Nat) : SameRegs (s.setRegN x v) (t.setRegN x v) := fun y => by
  by_cases hy : y = x
  · rw [hy, State.reg_setRegN_same, State.reg_setRegN_same]
  · rw [State.reg_setRegN_other _ _ hy, State.reg_setRegN_other _ _ hy, h]

theorem SameRegs.bump64 (x n : Nat) : SameRegs (s.bump64 x n) (t.bump64 x n) := by
  unfold State.bump64
  rw [State.reg64_congr (h x) (h (x + 4))]
  split
  · exact h
  · exact (h.setRegN _ _).setRegN _ _

theorem SameRegs.bump32 (x n : Nat) : SameRegs (s.bump32 x n) (t.bump32 x n) := by
  unfold State.bump32
  rw [State.regN_congr (h x)]
  split
  · exact h
  · exact h.setRegN _ _

theorem SameRegs.maxReg (x v : Nat) : SameRegs (s.maxReg x v) (t.maxReg x v) := by
  unfold State.maxReg
  rw [State.regN_congr (h x)]
  exact h.setRegN _ _

theorem SameRegs.countOne (e : Nat × Nat × Nat) : SameRegs (s.countOne e) (t.countOne e) := by
  unfold State.countOne
  split_ifs
  · exact h.bump64 _ _
  · exact h.bump32 _ _
  · exact h.maxReg _ _

theorem SameRegs.applyCounts (l : List (Nat × Nat × Nat)) : SameRegs (s.applyCounts l) (t.applyCounts l) := by
  induction l generalizing s t with
  | nil => exact h
  | cons e l ih =>
    rw [State.applyCounts_cons, State.applyCounts_cons]
    exact ih (h.countOne e)

end

theorem SameRegs.trans {s t u : State} (h : SameRegs s t) (h' : SameRegs t u) : SameRegs s u := fun x => (h' x).trans (h x)

theorem OnlyCore.sameRegs {s t : State} {c : Nat} (h : OnlyCore s t c) : SameRegs s t := h.reg

theorem OnlyCoreAndRegs.countOne (s : State) (e : Nat × Nat × Nat) (c : Nat) : OnlyCoreAndRegs s (s.countOne e) c := by
  unfold State.countOne
  split_ifs
  · exact .bump64 s _ _ c
  · exact .bump32 s _ _ c
  · exact .setRegN s _ _ c

theorem OnlyCoreAndRegs.applyCounts (l : List (Nat × Nat × Nat)) (s : State) (c : Nat) : OnlyCoreAndRegs s (s.applyCounts l) c := by
  induction l generalizing s with
  | nil => exact .refl s c
  | cons e l ih =>
    rw [State.applyCounts_cons]
    exact (OnlyCoreAndRegs.countOne s e c).trans (ih _)

@[simp] theorem State.core_applyCounts (l : List (Nat × Nat × Nat)) (s : State) (c : Nat) : (s.applyCounts l).core c = s.core c :=
  (OnlyCoreAndRegs.applyCounts l s (c + 1)).2 c (by omega)

/-! Their issue. -/

section
variable {s : State} {c : CoreId} {o : SeqOp} {q : List SeqOp} {pl : Plan} {part : Part} {parts : List Part} {sl : Slip}
  {rest : List Slip} (h : slipStands s c.val o q pl part parts)

include h in
theorem slipBegun_core_seq_of_slipStands : (s.slipBegun c o).core c.val = { s.core c.val with seq := o :: q } := by
  rw [slipBegun_core_of_slipStands h]
  obtain ⟨-, -, -, hseq, -⟩ := h
  rw [← hseq]

/-- The pail that a STORE slip names, as the slip finds it. -/
theorem storePail_of_slipStands {i : Nat} (h : slipStands s c.val o q pl part parts) (hvalid : (s.pailCfg c.val i).valid = true)
    (hprod : (s.pailCfg c.val i).producer = 0) : ((s.slipBegun c o).dp c.val o).storePail i =
      if ((s.core c.val).pail i).writable ((s.core c.val).pailEpoch o.epoch) then .ok () else .error (.wait i) := by
  obtain ⟨hdp, hk⟩ := slipBegun_dp_of_slipStands h
  rw [hdp, DpCtx.storePail_withCores hk]
  exact DpCtx.storePail_eq hvalid hprod

variable (hsl : part.slips = sl :: rest) (hrest : rest ≠ [])
include h hsl hrest

/-- A slip that meets no fault issues: what its effect leaves, its part without it, and its count. -/
theorem issues_of_slipStands {t : State} {k : Core} {f : SeqOp → SeqOp} {left : Part}
    (hleft : part.counted o (s.work c.val o part.num).planePairs sl.kind = left)
    (hrun : (s.slipBegun c o).slipRun c.val o part (s.work c.val o part.num) sl = .ok t)
    (hcore : t.core c.val = { k with seq := f o :: q }) (hid : (f o).id = o.id) (hplan : (f o).plan = o.plan)
    (honly : OnlyCoreAndRegs (s.slipBegun c o) t c.val) :
    s.Issues c.val o part (fun u =>
      u.core c.val = slipGone k o q left parts rest f ∧ OnlyCoreAndRegs s u c.val ∧ SlipCounted t u c.val) := by
  subst hleft
  exact ⟨_, issued_of_slipStands h hsl hrest hrun,
    slipDone_of_slipStands h hcore hid hplan ((s.slipBegun_onlyCore c o).onlyCoreAndRegs.trans honly) _ rest⟩

theorem issues_idle (hkind : sl.kind = 0) : s.Issues c.val o part (fun u =>
    u.core c.val = slipGone (s.core c.val) o q part parts rest id ∧ OnlyCoreAndRegs s u c.val ∧ CountedSlip s u c.val) :=
  (issues_of_slipStands h hsl hrest (Part.counted_of_ne (by simp [hkind]) _ _ _) (State.slipRun_idle hkind)
    (slipBegun_core_seq_of_slipStands h) (f := id) rfl rfl (.refl _ _)).imp
    fun u ⟨hu, honly, hcounted⟩ => ⟨hu, honly, hcounted.alone (s.slipBegun_onlyCore c o).reg⟩

/-- A slip other than a PAIR whose effect is a change of its core alone. -/
theorem issues_modCore_of_slipStands {g : Core → Core} {k : Core} {f : SeqOp → SeqOp} (hkind : sl.kind ≠ 2)
    (hrun : (s.slipBegun c o).slipRun c.val o part (s.work c.val o part.num) sl = .ok ((s.slipBegun c o).modCore c.val g))
    (hcore : g { s.core c.val with seq := o :: q } = { k with seq := f o :: q }) (hid : (f o).id = o.id) (hplan : (f o).plan = o.plan) :
    s.Issues c.val o part (fun u =>
      u.core c.val = slipGone k o q part parts rest f ∧ OnlyCoreAndRegs s u c.val ∧ CountedSlip s u c.val) := by
  have hmod := OnlyCore.modCore (s.slipBegun c o) c.val g
  refine (issues_of_slipStands h hsl hrest (Part.counted_of_ne hkind _ _ _) hrun (k := k) (f := f) ?_ hid hplan
    hmod.onlyCoreAndRegs).imp fun u ⟨hu, honly, hcounted⟩ =>
      ⟨hu, honly, hcounted.alone ((s.slipBegun_onlyCore c o).trans hmod).reg⟩
  rw [State.core_modCore_same, slipBegun_core_seq_of_slipStands h, hcore]

/-- A STORE slip makes the pail that it names FILLING. -/
theorem issues_store (hkind : sl.kind = 4) (hvalid : (s.pailCfg c.val sl.pail).valid = true)
    (hprod : (s.pailCfg c.val sl.pail).producer = 0)
    (hwrite : ((s.core c.val).pail sl.pail).writable ((s.core c.val).pailEpoch o.epoch) = true) : s.Issues c.val o part (fun u =>
      u.core c.val = (slipGone (s.core c.val) o q part parts rest (fun a => { a with writes := sl.pail :: a.writes })).setPail sl.pail
        (((s.core c.val).pail sl.pail).firstWrite ((s.core c.val).pailEpoch o.epoch)) ∧
      OnlyCoreAndRegs s u c.val ∧ CountedSlip s u c.val) := by
  have hq : ∀ a ∈ q, a.id ≠ o.id := by
    obtain ⟨-, -, -, -, -, -, -, -, -, -, hq⟩ := h
    exact hq
  exact issues_modCore_of_slipStands h hsl hrest (by simp [hkind])
    (g := fun k => (k.writePails (k.pailEpoch o.epoch) [sl.pail]).modSeq o.id (fun o => { o with writes := sl.pail :: o.writes }))
    (k := (s.core c.val).setPail sl.pail (((s.core c.val).pail sl.pail).firstWrite ((s.core c.val).pailEpoch o.epoch)))
    (f := fun a => { a with writes := sl.pail :: a.writes })
    (by rw [State.slipRun_store hkind, storePail_of_slipStands h hvalid hprod, if_pos hwrite]; rfl) (Core.modSeq_head rfl hq _) rfl rfl

/-- A STORE slip whose pail may not be written yet waits for it. -/
theorem issued_store_wait (hkind : sl.kind = 4) (hvalid : (s.pailCfg c.val sl.pail).valid = true)
    (hprod : (s.pailCfg c.val sl.pail).producer = 0)
    (hwrite : ((s.core c.val).pail sl.pail).writable ((s.core c.val).pailEpoch o.epoch) = false) :
    s.issued c.val o part = (s, some sl.pail) := by
  refine issued_wait_of_slipStands h hsl hrest ?_
  rw [State.slipRun_store hkind, storePail_of_slipStands h hvalid hprod, hwrite]
  rfl

/-- A READ slip holds the bytes of its rows, and turns its pail DRAINING, or EMPTY with last. -/
theorem issues_read (hkind : sl.kind = 1) (hvalid : (s.pailCfg c.val sl.pail).valid = true)
    (hcons : (s.pailCfg c.val sl.pail).consumer = 0)
    (hread : ((s.core c.val).pail sl.pail).readable ((s.core c.val).pailEpoch o.epoch) = true)
    (herr : ((s.core c.val).pail sl.pail).err = false)
    (hwords : ∀ a ∈ (s.dp c.val o).slipWords sl,
      ((s.core c.val).bank (bankOf a)).usable = true ∧ (s.core c.val).parityBad a 64 = false) :
    s.Issues c.val o part (fun u =>
      u.core c.val = (slipGone (s.core c.val) o q part parts rest (fun a => { a with
        overlay := ((s.dp c.val o).slipWords sl).foldl (fun z a => putBytes z a ((s.core c.val).spadBytes a 64)) a.overlay
        reads := if sl.last then a.reads.filter (· != sl.pail) else sl.pail :: a.reads })).setPail sl.pail
          (if sl.last then ((s.core c.val).pail sl.pail).firstRead.emptied else ((s.core c.val).pail sl.pail).firstRead) ∧
      OnlyCoreAndRegs s u c.val ∧ CountedSlip s u c.val) := by
  obtain ⟨-, -, -, -, -, -, -, -, -, -, hq⟩ := id h
  obtain ⟨hdp, hk⟩ := slipBegun_dp_of_slipStands h
  have hslip : ((s.slipBegun c o).dp c.val o).readSlip sl =
      .ok (((s.dp c.val o).slipWords sl).foldl (fun z a => putBytes z a ((s.core c.val).spadBytes a 64)) o.overlay) := by
    rw [hdp, DpCtx.readSlip_withCores hk]
    exact DpCtx.readSlip_ok (DpCtx.readPail_ok hvalid hcons hread herr) hwords
  exact issues_modCore_of_slipStands h hsl hrest (by simp [hkind])
    (k := (s.core c.val).setPail sl.pail
      (if sl.last then ((s.core c.val).pail sl.pail).firstRead.emptied else ((s.core c.val).pail sl.pail).firstRead))
    (f := fun a => { a with
      overlay := ((s.dp c.val o).slipWords sl).foldl (fun z a => putBytes z a ((s.core c.val).spadBytes a 64)) a.overlay
      reads := if sl.last then a.reads.filter (· != sl.pail) else sl.pail :: a.reads })
    (State.slipRun_read hkind hslip) (Core.modSeq_head rfl hq _) rfl rfl

/-- A PAIR slip is a core cycle of plane pairs, and the first of a chunk reads and counts what the chunk consumes. -/
theorem issues_pair (hkind : sl.kind = 2) {u : ChunkUse} {pails : List Nat}
    (hu : u = if o.chunkStart (s.work c.val o part.num).planePairs then part.uses.headD default else default)
    (hread : ((s.work c.val o part.num).consume (s.dp c.val o) u).run [] = .ok ((), pails)) :
    s.Issues c.val o part (fun t =>
      t.core c.val = (slipGone (s.core c.val) o q { part with
          pairs := part.pairs - 1
          uses := if o.chunkStart (s.work c.val o part.num).planePairs then part.uses.tail else part.uses } parts rest
        (fun a => { a with checked := a.checked + 1 })).readPails pails ∧
      OnlyCoreAndRegs s t c.val ∧
      ∀ r, t.reg r = (((s.bump64 (Reg.CORE_TALLY_PAIRS_LO c.val) (min 1 part.pairs)).applyCounts u.counts).bump64
        (Reg.CORE_SEQ_SLIPS_LO c.val) 1).reg r) := by
  obtain ⟨-, -, -, -, -, -, -, -, -, -, hq⟩ := id h
  obtain ⟨hdp, hk⟩ := slipBegun_dp_of_slipStands h
  have hrun : (s.slipBegun c o).slipRun c.val o part (s.work c.val o part.num) sl =
      .ok ((s.slipBegun c o).pairIssued c.val o part u pails) := by
    rw [State.slipRun_pair hkind]
    refine State.pairSlip_ok hu ?_
    rw [hdp, Work.consume_withCores hk]
    exact hread
  have honly : OnlyCoreAndRegs (s.slipBegun c o) ((s.slipBegun c o).pairIssued c.val o part u pails) c.val :=
    ((OnlyCoreAndRegs.bump64 _ _ _ _).trans (.applyCounts u.counts _ _)).trans (OnlyCore.modCore _ _ _).onlyCoreAndRegs
  have hregs : SameRegs ((s.bump64 (Reg.CORE_TALLY_PAIRS_LO c.val) (min 1 part.pairs)).applyCounts u.counts)
      ((s.slipBegun c o).pairIssued c.val o part u pails) :=
    (((s.slipBegun_onlyCore c o).sameRegs.bump64 _ _).applyCounts _).trans (OnlyCore.modCore _ _ _).sameRegs
  refine (issues_of_slipStands h hsl hrest (k := (s.core c.val).readPails pails) (f := fun a => { a with checked := a.checked + 1 })
    (by rw [hkind]; rfl) hrun ?_ rfl rfl honly).imp
    fun t ⟨ht, honly, hcounted⟩ =>
      ⟨ht.trans (Core.readPails_seq _ _ _).symm, honly, fun r => (hcounted r).trans (hregs.bump64 _ _ r)⟩
  rw [State.pairIssued, State.core_modCore_same, State.core_applyCounts, State.core_bump64, slipBegun_core_seq_of_slipStands h,
    Core.readPails_seq]
  exact Core.modSeq_head rfl hq _

end

end Sys2Proof.Machine
end

section
/-! SUPPORT. The end of a product group in an exact class: its lanes' terms, their tiles and their counts (R58, R60, R74, R81). -/

namespace Sys2Proof.Machine

/-! Lanes. -/

/-- The term that a lane adds to its word in an exact class. -/
def Product.laneTerm (p : Product) (l : Lane) : Option (Nat × Int × Int) :=
  let z := laneSums l.w.vals l.a.vals
  (p.term l.w l.a z z.p).map (fun y => (l.word, y))

/-- The terms of an array's lanes, in order. -/
def Product.rowTerms (p : Product) (r : ArrayRows) : List (Nat × Int × Int) := r.lanes.filterMap p.laneTerm

/-- Whether a lane of an array lacks a term. -/
def Product.lacksTerm (p : Product) (r : ArrayRows) : Bool := r.lanes.any (fun l => (p.laneTerm l).isNone)

theorem Product.lane_exact (p : Product) {c : Nat} {m : Emitted} (hk : (m.s.core c).classHead.2 = 0) (l : Lane) :
    p.lane c none m l = { m with
      terms := m.terms ++ (p.laneTerm l).toList
      none_ := m.none_ || (p.laneTerm l).isNone } := by
  have hc : (none : Option Nat) ≠ some l.lane := nofun
  simp only [Product.lane, Product.laneTerm, hk, if_true, if_neg hc]
  cases p.term l.w l.a (laneSums l.w.vals l.a.vals) (laneSums l.w.vals l.a.vals).p <;> simp

/-- Lanes in an exact class emit their terms in order. -/
theorem Product.foldl_lane_exact (p : Product) {c : Nat} (ls : List Lane) {m : Emitted} (hk : (m.s.core c).classHead.2 = 0) :
    ls.foldl (p.lane c none) m = { m with
      terms := m.terms ++ ls.filterMap p.laneTerm
      none_ := m.none_ || ls.any (fun l => (p.laneTerm l).isNone) } := by
  induction ls generalizing m with
  | nil => simp
  | cons l ls ih =>
    rw [List.foldl_cons, p.lane_exact hk, ih (m := { m with
      terms := m.terms ++ (p.laneTerm l).toList
      none_ := m.none_ || (p.laneTerm l).isNone }) hk]
    cases hl : p.laneTerm l <;> simp [hl]

/-! Terms into a tile. -/

/-- Counting the terms leaves the tile that takes them. -/
theorem foldl_addTerm_fst (ts : List (Nat × Int × Int)) (t : Tile) (n : AddCount) :
    (ts.foldl (fun (a : Tile × AddCount) x =>
      ((a.1.addTerm x.1 x.2.1 x.2.2 true).1, a.2.add (a.1.addTerm x.1 x.2.1 x.2.2 true).2)) (t, n)).1 =
      ts.foldl (fun y e => (y.addTerm e.1 e.2.1 e.2.2 true).1) t := by
  induction ts generalizing t n with
  | nil => rfl
  | cons x ts ih => exact ih _ _

/-- A tile once an operation of precision `p` and epoch `e` has added terms to it. -/
def Tile.withTerms (y : Tile) (p : Prec) (e : Nat) (rows : List Nat) (ts : List (Nat × Int × Int)) : Tile :=
  if ts = [] then y else ts.foldl (fun y e => (y.addTerm e.1 e.2.1 e.2.2 true).1) (y.adopt p e rows)

/-- The registers that the terms of a core count in (R69, R93). -/
def termRegs (c : Nat) : List Nat := [Reg.CORE_TALLY_TERMS_LO c, Reg.CORE_TALLY_TERMS_LO c + 4] ++ addRegs c

section
variable (s : State) (c l : Nat) (p : Prec) (e : Nat) (rows : List Nat) (ts : List (Nat × Int × Int))

theorem State.addTerms_cons (x : Nat × Int × Int) : ∃ n, s.addTerms c l p e rows (x :: ts) =
    ((s.setTile c l (((s.core c).tile l).withTerms p e rows (x :: ts))).countAdds c n).bump64 (Reg.CORE_TALLY_TERMS_LO c)
      (x :: ts).length := by
  rw [Tile.withTerms, if_neg (List.cons_ne_nil _ _), ← foldl_addTerm_fst (x :: ts) _ ⟨0, 0, 0⟩]
  exact ⟨_, rfl⟩

theorem State.addTerms_onlyCoreAndRegs : OnlyCoreAndRegs s (s.addTerms c l p e rows ts) c := by
  cases ts with
  | nil => exact .refl s c
  | cons x ts =>
    obtain ⟨n, hn⟩ := s.addTerms_cons c l p e rows ts x
    rw [hn]
    exact ((OnlyCore.modCore s c _).onlyCoreAndRegs.trans (State.countAdds_onlyCoreAndRegs _ c n)).trans (.bump64 _ _ _ c)

/-- Terms change the words of their tile alone. -/
theorem State.addTerms_tile (i : Nat) : ((s.addTerms c l p e rows ts).core c).tile i =
    if i = l then ((s.core c).tile l).withTerms p e rows ts else (s.core c).tile i := by
  cases ts with
  | nil => exact (ite_eq_right_iff.mpr (fun h => by rw [h]; rfl)).symm
  | cons x ts =>
    obtain ⟨n, hn⟩ := s.addTerms_cons c l p e rows ts x
    rw [hn, State.core_bump64, State.countAdds_core, State.setTile, State.core_modCore_same, Core.tile_setTile]

theorem State.addTerms_core : (s.addTerms c l p e rows ts).core c =
    { s.core c with tiles := ((s.addTerms c l p e rows ts).core c).tiles } := by
  cases ts with
  | nil => rfl
  | cons x ts =>
    obtain ⟨n, hn⟩ := s.addTerms_cons c l p e rows ts x
    rw [hn, State.core_bump64, State.countAdds_core, State.setTile, State.core_modCore_same]
    rfl

theorem State.addTerms_regsSameBut : RegsSameBut s (s.addTerms c l p e rows ts) (termRegs c) := by
  cases ts with
  | nil => exact .refl s _
  | cons x ts =>
    obtain ⟨n, hn⟩ := s.addTerms_cons c l p e rows ts x
    rw [hn]
    exact (((OnlyCore.modCore s c _).regsSameBut _).trans
      ((State.countAdds_regsSameBut _ c n).mono (fun _ hx => List.mem_append_right _ hx))).trans (.bump64 _ _ (by simp) (by simp))

theorem State.addTerms_counted : (s.addTerms c l p e rows ts).reg64 (Reg.CORE_TALLY_TERMS_LO c) =
    (s.reg64 (Reg.CORE_TALLY_TERMS_LO c) + ts.length) % 2 ^ 64 := by
  cases ts with
  | nil =>
    rw [List.length_nil, Nat.add_zero, Nat.mod_eq_of_lt (s.reg64_lt _)]
    rfl
  | cons x ts =>
    obtain ⟨n, hn⟩ := s.addTerms_cons c l p e rows ts x
    have hother : Reg.CORE_TALLY_TERMS_LO c ∉ addRegs c ∧ Reg.CORE_TALLY_TERMS_LO c + 4 ∉ addRegs c := by
      simp only [addRegs, Reg.CORE_TALLY_TERMS_LO, Reg.LEDG_SUB_TERMS_LO, Reg.LEDG_SAT_ADDS, Reg.LEDG_SCALE_RANGE_TERMS,
        List.mem_cons, List.not_mem_nil, or_false, not_or]
      omega
    have hregs := ((OnlyCore.modCore s c (·.setTile l (((s.core c).tile l).withTerms p e rows (x :: ts)))).regsSameBut _).trans
      (State.countAdds_regsSameBut _ c n)
    rw [hn, State.reg64_bump64]
    congr 2
    exact State.reg64_congr (hregs _ hother.1) (hregs _ hother.2)

end

/-! A group. -/

/-- The registers that the end of a group counts in. -/
def groupRegs (c : Nat) : List Nat := Reg.CORE_TALLY_NO_TERM c :: termRegs c

theorem noTerm_not_mem_termRegs (c : Nat) : Reg.CORE_TALLY_NO_TERM c ∉ termRegs c := by
  simp only [termRegs, addRegs, Reg.CORE_TALLY_NO_TERM, Reg.CORE_TALLY_TERMS_LO, Reg.LEDG_SUB_TERMS_LO, Reg.LEDG_SAT_ADDS,
    Reg.LEDG_SCALE_RANGE_TERMS, List.cons_append, List.nil_append, List.mem_cons, List.not_mem_nil, or_false, not_or]
  omega

/-- What the end of a product group on arrays `rs` changes in an exact class. -/
structure GroupEnded (p : Product) (c e : Nat) (prec : Prec) (rs : List ArrayRows) (s t : State) : Prop where
  tiles : ∀ r ∈ rs, (t.core c).tile (p.tile + r.a) =
    ((s.core c).tile (p.tile + r.a)).withTerms prec e (p.globalRows r.a) (p.rowTerms r)
  others : ∀ l, (∀ r ∈ rs, l ≠ p.tile + r.a) → (t.core c).tile l = (s.core c).tile l
  samples : ∀ a, tabGet 0 (t.core c).sampleGroups a = tabGet 0 (s.core c).sampleGroups a + (rs.map (·.a)).count a
  core : t.core c = { s.core c with tiles := (t.core c).tiles, sampleGroups := (t.core c).sampleGroups }
  only : OnlyCoreAndRegs s t c
  terms : t.reg64 (Reg.CORE_TALLY_TERMS_LO c) =
    (s.reg64 (Reg.CORE_TALLY_TERMS_LO c) + (rs.map (fun r => (p.rowTerms r).length)).sum) % 2 ^ 64
  noTerm : CountedUp s t (Reg.CORE_TALLY_NO_TERM c) (rs.countP p.lacksTerm)
  regs : RegsSameBut s t (groupRegs c)

/-- Counts of one register add up. -/
theorem CountedUp.trans {s t u : State} {x a b : Nat} (h : CountedUp s t x a) (h' : CountedUp t u x b) : CountedUp s u x (a + b) := by
  unfold CountedUp at *
  omega

theorem CountedUp.zero (s : State) (x : Nat) : CountedUp s s x 0 := by
  have : s.regN x < 2 ^ 32 := (s.reg x).isLt
  unfold CountedUp
  omega

section
variable {p : Product} {c e : Nat} {prec : Prec}

theorem GroupEnded.nil (s : State) : GroupEnded p c e prec [] s s where
  tiles := fun _ h => absurd h List.not_mem_nil
  others := fun _ _ => rfl
  samples := fun _ => rfl
  core := rfl
  only := .refl s c
  terms := by rw [List.map_nil, List.sum_nil, Nat.add_zero, Nat.mod_eq_of_lt (s.reg64_lt _)]
  noTerm := .zero s _
  regs := .refl s _

/-- A group on an array, and then on others. -/
theorem GroupEnded.cons {r : ArrayRows} {rs : List ArrayRows} {s t u : State} (h : GroupEnded p c e prec [r] s t)
    (h' : GroupEnded p c e prec rs t u) (hr : ∀ r' ∈ rs, r'.a ≠ r.a) : GroupEnded p c e prec (r :: rs) s u where
  tiles := fun r' hmem => by
    rcases List.mem_cons.mp hmem with rfl | hmem
    · rw [h'.others _ (fun r'' h'' heq => hr r'' h'' (by omega)), h.tiles _ (List.mem_singleton.mpr rfl)]
    · rw [h'.tiles r' hmem, h.others _ (fun r'' h'' heq => hr r' hmem (by rw [List.mem_singleton.mp h''] at heq; omega))]
  others := fun l hl => by
    rw [h'.others l (fun r' hmem => hl r' (List.mem_cons_of_mem r hmem)),
      h.others l (fun r' hmem => hl r' (List.mem_singleton.mp hmem ▸ List.mem_cons_self ..))]
  samples := fun a => by
    rw [h'.samples, h.samples]
    simp only [List.map_cons, List.map_nil, List.count_cons, List.count_nil]
    omega
  core := by rw [h'.core, h.core]
  only := h.only.trans h'.only
  terms := by
    rw [h'.terms, h.terms]
    simp only [List.map_cons, List.map_nil, List.sum_cons, List.sum_nil]
    omega
  noTerm := by
    have hcount : (r :: rs).countP p.lacksTerm = [r].countP p.lacksTerm + rs.countP p.lacksTerm := List.countP_append (l₁ := [r])
    rw [hcount]
    exact h.noTerm.trans h'.noTerm
  regs := h.regs.trans h'.regs

/-- A core that has counted a product group of array `a` (R163). -/
def Core.grouped (a : Nat) (k : Core) : Core := { k with sampleGroups := tabSet 0 k.sampleGroups a (tabGet 0 k.sampleGroups a + 1) }

/-- A group on one array: its sample is counted, its lanes that lack a term, and its terms. -/
theorem GroupEnded.single (s : State) (r : ArrayRows) : GroupEnded p c e prec [r] s
    (((s.modCore c (Core.grouped r.a)).bump32 (Reg.CORE_TALLY_NO_TERM c) (b2n (p.lacksTerm r))).addTerms c (p.tile + r.a) prec e
      (p.globalRows r.a) (p.rowTerms r)) := by
  have hmod := OnlyCore.modCore s c (Core.grouped r.a)
  have hcore : ((s.modCore c (Core.grouped r.a)).bump32 (Reg.CORE_TALLY_NO_TERM c) (b2n (p.lacksTerm r))).core c =
      (s.core c).grouped r.a := by rw [State.core_bump32, State.core_modCore_same]
  have honly := hmod.onlyCoreAndRegs.trans (OnlyCoreAndRegs.bump32 _ (Reg.CORE_TALLY_NO_TERM c) (b2n (p.lacksTerm r)) c)
  have hlack := (CountedUp.bump32 (s.modCore c (Core.grouped r.a)) (Reg.CORE_TALLY_NO_TERM c) (b2n (p.lacksTerm r))).of_reg
    (hmod.reg _) rfl
  have hregs := (hmod.regsSameBut [Reg.CORE_TALLY_NO_TERM c]).trans
    (.bump32 _ (x := Reg.CORE_TALLY_NO_TERM c) (b2n (p.lacksTerm r)) (List.mem_singleton.mpr rfl))
  generalize (s.modCore c (Core.grouped r.a)).bump32 (Reg.CORE_TALLY_NO_TERM c) (b2n (p.lacksTerm r)) = u at hcore honly hlack hregs ⊢
  have hterms := u.addTerms_regsSameBut c (p.tile + r.a) prec e (p.globalRows r.a) (p.rowTerms r)
  have htile (l : Nat) : (u.core c).tile l = (s.core c).tile l := by rw [hcore]; rfl
  have hadded := u.addTerms_core c (p.tile + r.a) prec e (p.globalRows r.a) (p.rowTerms r)
  refine ⟨fun r' hr' => ?_, fun l hl => ?_, fun a => ?_, ?_, ?_, ?_, ?_, ?_⟩
  · rw [List.mem_singleton.mp hr', State.addTerms_tile, if_pos rfl, htile]
  · rw [State.addTerms_tile, if_neg (hl r (List.mem_singleton.mpr rfl)), htile]
  · have hsamples : ((u.addTerms c (p.tile + r.a) prec e (p.globalRows r.a) (p.rowTerms r)).core c).sampleGroups =
        tabSet 0 (s.core c).sampleGroups r.a (tabGet 0 (s.core c).sampleGroups r.a + 1) := by rw [hadded, hcore]; rfl
    rw [hsamples, tabGet_set]
    by_cases ha : a = r.a
    · simp [ha]
    · simp [ha, Ne.symm ha]
  · rw [hadded, hcore]
    rfl
  · exact honly.trans (u.addTerms_onlyCoreAndRegs ..)
  · rw [State.addTerms_counted, State.reg64_congr (hregs _ ?_) (hregs _ ?_)]
    · simp
    · simp [Reg.CORE_TALLY_TERMS_LO, Reg.CORE_TALLY_NO_TERM]
    · simp [Reg.CORE_TALLY_TERMS_LO, Reg.CORE_TALLY_NO_TERM]
      omega
  · have hcount : [r].countP p.lacksTerm = b2n (p.lacksTerm r) := by
      cases hl : p.lacksTerm r <;> simp [hl, b2n]
    rw [hcount]
    exact hlack.of_reg rfl (hterms _ (noTerm_not_mem_termRegs c))
  · exact (hregs.mono fun x hx => List.mem_cons.mpr (.inl (List.mem_singleton.mp hx))).trans
      (hterms.mono fun x hx => List.mem_cons_of_mem _ hx)

/-- The draw of a group's sample in an exact class counts the group alone (R163). -/
theorem State.sampleDraw_exact (s : State) (c a drawn : Nat) (hk : (s.core c).classHead.1 ≠ 2) : s.sampleDraw c a drawn =
    (s.modCore c (Core.grouped a), drawn, none) := by
  unfold State.sampleDraw
  dsimp only
  rw [State.core_modCore_same, if_neg hk]
  rfl

/-- An array ends a product group in an exact class. -/
theorem Product.emit_exact (s : State) (drawn : Nat) (r : ArrayRows) (hk1 : (s.core c).classHead.1 ≠ 2)
    (hk2 : (s.core c).classHead.2 = 0) :
    ∃ t, p.emit s c r.a e prec (p.globalRows r.a) drawn r.lanes = (t, drawn) ∧ GroupEnded p c e prec [r] s t := by
  rw [Product.emit, s.sampleDraw_exact c r.a drawn hk1]
  dsimp only
  have hcore := s.core_modCore_same c (Core.grouped r.a)
  rw [p.foldl_lane_exact r.lanes (m := ⟨s.modCore c (Core.grouped r.a), [], false⟩) (by rw [hcore]; exact hk2)]
  exact ⟨_, rfl, GroupEnded.single s r⟩

/-- Product group `i` ends in an exact class: it draws no index. -/
theorem Product.endGroup_exact (s : State) (drawn : Nat) (rs : List ArrayRows) (hk1 : (s.core c).classHead.1 ≠ 2)
    (hk2 : (s.core c).classHead.2 = 0) (hrs : (rs.map (·.a)).Nodup) :
    ∃ t, p.endGroup s c e prec drawn rs = (t, drawn) ∧ GroupEnded p c e prec rs s t := by
  induction rs generalizing s with
  | nil => exact ⟨s, rfl, .nil s⟩
  | cons r rs ih =>
    rw [List.map_cons, List.nodup_cons] at hrs
    obtain ⟨t, ht, hgroup⟩ := Product.emit_exact (p := p) (e := e) (prec := prec) s drawn r hk1 hk2
    have hclass : (t.core c).classHead = (s.core c).classHead := by rw [hgroup.core]
    obtain ⟨u, hu, hgroups⟩ := ih t (by rw [hclass]; exact hk1) (by rw [hclass]; exact hk2) hrs.2
    refine ⟨u, ?_, hgroup.cons hgroups fun r' hmem heq => hrs.1 (heq ▸ List.mem_map_of_mem hmem)⟩
    rw [Product.endGroup, List.foldl_cons, ht]
    exact hu

end

end Sys2Proof.Machine
end

section
/-! SUPPORT. The statement about slips that read, pair and end groups (R29, R58, R60, R65, R68, R69, R74, R81, R127, R154, R185–R187,
R221). -/

namespace Sys2Proof.Machine

/-- The next product group ends, of which nothing is refused. -/
theorem State.endGroups_product {s : State} {c : Nat} {o : SeqOp} {p : Product} {rs : List ArrayRows} {pails : List Nat}
    (hgroup : o.group < p.groups) (hread : (p.readGroup (s.dp c o) o.group).run [] = .ok (rs, pails)) {t : State} {drawn : Nat}
    (hend : p.endGroup (s.modCore c (·.readPails pails)) c o.epoch o.precOf o.drawn rs = (t, drawn)) :
    s.endGroups c o (.product p) 1 =
      .ok (t.modCore c (fun k => k.modSeq o.id (fun a => { a with group := o.group + 1, drawn := drawn }))) := by
  have hone : min 1 (p.groups - o.group) = 1 := by omega
  simp only [State.endGroups, hone, groupsEnd, hread, hend]

theorem slips_not_mem_groupRegs (c : Nat) : Reg.CORE_SEQ_SLIPS_LO c ∉ groupRegs c ∧ Reg.CORE_SEQ_SLIPS_LO c + 4 ∉ groupRegs c := by
  simp only [groupRegs, termRegs, addRegs, Reg.CORE_SEQ_SLIPS_LO, Reg.CORE_TALLY_NO_TERM, Reg.CORE_TALLY_TERMS_LO,
    Reg.LEDG_SUB_TERMS_LO, Reg.LEDG_SAT_ADDS, Reg.LEDG_SCALE_RANGE_TERMS, List.cons_append, List.nil_append, List.mem_cons,
    List.not_mem_nil, or_false, not_or]
  omega

/-- A register of a group's counts is as the group's end left it once the slip is counted. -/
theorem SlipCounted.reg_groupRegs {t u : State} {c x : Nat} (h : SlipCounted t u c) (hx : x ∈ groupRegs c) : u.reg x = t.reg x := by
  obtain ⟨hlo, hhi⟩ := slips_not_mem_groupRegs c
  rw [h x, State.reg_bump64_other _ _ (ne_of_mem_of_not_mem hx hlo) (ne_of_mem_of_not_mem hx hhi)]

section
variable {s : State} {c : CoreId} {o : SeqOp} {q : List SeqOp} {pl : Plan} {part : Part} {parts : List Part} {sl : Slip}
  {rest : List Slip} {p : Product} {rs : List ArrayRows} {pails : List Nat}

/-- A slip that ends a product group in an exact class: the group's terms are in their tiles, and counted. -/
theorem issues_group (h : slipStands s c.val o q pl part parts) (hsl : part.slips = sl :: rest) (hrest : rest ≠ [])
    (hkind : sl.kind = 3 ∨ sl.kind = 5) (hw : s.work c.val o part.num = .product p) (hgroup : o.group < p.groups)
    (hk1 : (s.core c.val).classHead.1 ≠ 2) (hk2 : (s.core c.val).classHead.2 = 0)
    (hread : (p.readGroup (s.dp c.val o) o.group).run [] = .ok (rs, pails)) (hrs : (rs.map (·.a)).Nodup) :
    s.Issues c.val o part (fun u => ∃ t, GroupEnded p c.val o.epoch o.precOf rs
        ((s.slipBegun c o).modCore c.val (·.readPails pails)) t ∧
      u.core c.val = slipGone { (s.core c.val).readPails pails with
        tiles := (t.core c.val).tiles
        sampleGroups := (t.core c.val).sampleGroups } o q part parts rest (fun a => { a with group := a.group + 1 }) ∧
      OnlyCoreAndRegs s u c.val ∧ SlipCounted t u c.val) := by
  obtain ⟨-, -, -, -, -, -, -, -, -, -, hq⟩ := id h
  obtain ⟨hdp, hk⟩ := slipBegun_dp_of_slipStands h
  have hcore : ((s.slipBegun c o).modCore c.val (·.readPails pails)).core c.val =
      { (s.core c.val).readPails pails with seq := o :: q } := by
    rw [State.core_modCore_same, slipBegun_core_seq_of_slipStands h, Core.readPails_seq]
  have hmod := OnlyCore.modCore (s.slipBegun c o) c.val (·.readPails pails)
  obtain ⟨t, ht, hended⟩ := Product.endGroup_exact (p := p) (c := c.val) (e := o.epoch) (prec := o.precOf)
    ((s.slipBegun c o).modCore c.val (·.readPails pails)) o.drawn rs (by rw [hcore, Core.readPails_eq]; exact hk1)
    (by rw [hcore, Core.readPails_eq]; exact hk2) hrs
  have hrun : (s.slipBegun c o).slipRun c.val o part (s.work c.val o part.num) sl = .ok (t.modCore c.val (fun k =>
      k.modSeq o.id (fun a => { a with group := o.group + 1, drawn := o.drawn }))) := by
    rw [State.slipRun_group hkind, hw]
    refine State.endGroups_product hgroup ?_ ht
    rw [hdp, Product.readGroup_withCores hk]
    exact hread
  have hne : sl.kind ≠ 2 := by omega
  refine (issues_of_slipStands h hsl hrest (k := { (s.core c.val).readPails pails with
      tiles := (t.core c.val).tiles
      sampleGroups := (t.core c.val).sampleGroups }) (f := fun a => { a with group := a.group + 1 })
    (Part.counted_of_ne hne _ _ _) hrun ?_ rfl rfl
    ((hmod.onlyCoreAndRegs.trans hended.only).trans (OnlyCore.modCore _ _ _).onlyCoreAndRegs)).imp
    fun u ⟨hu, honly, hcounted⟩ => ⟨t, hended, hu, honly, fun x => (hcounted x).trans ?_⟩
  · rw [State.core_modCore_same, hended.core, hcore]
    exact Core.modSeq_head rfl hq _
  · exact ((OnlyCore.modCore t c.val _).sameRegs.bump64 _ _ x)

end

theorem slipsReadPairAndEndGroups_holds : slipsReadPairAndEndGroups := by
  intro s c o q pl part parts sl rest k e x w slips pairs hfreeze h hsl hrest
  refine ⟨fun hkind hvalid hcons hread herr hwords =>
      ends_of_issues h hfreeze (issues_read h hsl hrest hkind hvalid hcons hread herr hwords),
    fun pails hkind hread => ends_of_issues h hfreeze (issues_pair h hsl hrest hkind rfl hread), ?_⟩
  intro p rs pails hkind hw hgroup hk1 hk2 hread hrs term terms counts
  refine ends_of_issues h hfreeze ((issues_group h hsl hrest hkind hw hgroup hk1 hk2 hread hrs).imp
    fun u ⟨t, hended, hu, honly, hcounted⟩ => ?_)
  have hbegun := (s.slipBegun_onlyCore c o).trans (OnlyCore.modCore (s.slipBegun c o) c.val (·.readPails pails))
  have hcore : ((s.slipBegun c o).modCore c.val (·.readPails pails)).core c.val = k.readPails pails := by
    rw [State.core_modCore_same, slipBegun_core_of_slipStands h]
  generalize (s.slipBegun c o).modCore c.val (·.readPails pails) = b at hended hbegun hcore
  have htile (l : Nat) : (u.core c.val).tile l = (t.core c.val).tile l := by rw [hu]; rfl
  have hbtile (l : Nat) : (b.core c.val).tile l = k.tile l := by rw [hcore, Core.readPails_eq]; rfl
  have hregs := (hbegun.regsSameBut (groupRegs c.val)).trans hended.regs
  obtain ⟨hlo, hhi⟩ := slips_not_mem_groupRegs c.val
  refine ⟨fun r hr => ?_, fun l hl => ?_, fun a => ?_, ?_, honly, ?_, ?_, ?_, ?_⟩
  · rw [htile, hended.tiles r hr, hbtile]
    rfl
  · rw [htile, hended.others l hl, hbtile]
  · have hsamples : (u.core c.val).sampleGroups = (t.core c.val).sampleGroups := by rw [hu]; rfl
    rw [hsamples, hended.samples, hcore, Core.readPails_eq]
  · have hgone : (slipGone k o q part parts rest (fun a => { a with group := a.group + 1 })).readPails pails =
        { k.readPails pails with seq := (slipGone k o q part parts rest (fun a => { a with group := a.group + 1 })).seq } :=
      Core.readPails_seq _ _ _
    rw [hu, hgone]
    rfl
  · rw [State.reg64_congr (hcounted _) (hcounted _), State.reg64_bump64, State.reg64_congr (hregs _ hlo) (hregs _ hhi)]
  · rw [State.reg64_congr (hcounted.reg_groupRegs (by simp [groupRegs, termRegs]))
      (hcounted.reg_groupRegs (by simp [groupRegs, termRegs])), hended.terms, State.reg64_congr (hbegun.reg _) (hbegun.reg _)]
    rfl
  · exact hended.noTerm.of_reg (hbegun.reg _) (hcounted.reg_groupRegs (by simp [groupRegs]))
  · have hslip : RegsSameBut t u counts := fun y hy =>
      (hcounted y).trans (RegsSameBut.bump64 t 1 (List.mem_cons_self ..) (by simp [slips]) y hy)
    exact (hregs.mono (by simp [groupRegs, termRegs, addRegs, counts])).trans hslip

end Sys2Proof.Machine
end

section
/-! SUPPORT. TCLEAR, the lockstep freeze, and the statement about slips (R65, R67, R69, R80, R221, R297). -/

namespace Sys2Proof.Machine

/-! TCLEAR (R80, R297). -/

theorem mem_maskTiles {m l : Nat} : l ∈ maskTiles m ↔ l < 8 ∧ bitOf m l = true := by
  simp [maskTiles]

/-- Clearing does not see the queue, and changes tiles alone. -/
theorem Core.clearTiles_eq (p : Option Prec) (l : List Nat) (k : Core) (q : List SeqOp) :
    Core.clearTiles { k with seq := q } p l = { k with tiles := (k.clearTiles p l).tiles, seq := q } := by
  induction l generalizing k with
  | nil => rfl
  | cons i l ih => exact ih (k.setTile i ((k.tile i).clearTo p))

/-- A cleared tile is as any other one cleared under the same precision. -/
theorem Core.tile_clearTiles (p : Option Prec) (l : List Nat) (k : Core) (i : Nat) :
    (k.clearTiles p l).tile i = if i ∈ l then Tile.reset.clearTo p else k.tile i := by
  induction l generalizing k with
  | nil => rfl
  | cons j l ih =>
    refine (ih (k.setTile j ((k.tile j).clearTo p))).trans ?_
    rw [Core.tile_setTile]
    by_cases hl : i ∈ l
    · simp [hl]
    · by_cases hj : i = j
      · rw [if_neg hl, if_pos hj, if_pos (hj ▸ List.mem_cons_self ..)]
        rfl
      · simp [hl, hj]

/-- A TCLEAR of no shadow tile, for whose tiles no add waits. -/
theorem Core.clearCheck_ok {k : Core} {m : Nat} (hshadow : ∀ l, l < 8 → bitOf m l = true → (k.tile l).st ≠ .shadow)
    (hadds : ∀ a ∈ k.adds, a.tile < 8 → bitOf m a.tile = false) : k.clearCheck (maskTiles m) = .ok () := by
  have htiles : checkAll (fun i => if (k.tile i).st = .shadow then k.nameTile 0 i else .ok ()) (maskTiles m) = .ok () :=
    checkAll_ok fun i hi => if_neg (hshadow i (mem_maskTiles.mp hi).1 (mem_maskTiles.mp hi).2)
  have hnone : k.adds.any (fun a => (maskTiles m).contains a.tile) = false := by
    simp only [List.any_eq_false, List.contains_iff_mem, mem_maskTiles]
    rintro a ha ⟨hlt, hbit⟩
    rw [hadds a ha hlt] at hbit
    exact Bool.false_ne_true hbit
  rw [Core.clearCheck, htiles, Core.addsWait, hnone]
  rfl

/-- The one slip of a TCLEAR clears its tiles and ends the operation. -/
theorem slipIssue_tclear {s : State} {c : CoreId} {o : SeqOp} {m : Nat} (hr : (s.core c.val).running = true)
    (hs : (s.core c.val).stopped = false) (ho : (s.core c.val).ownerReq = none) (hf : (s.core c.val).freeze = none)
    (hseq : (s.core c.val).seq = [o]) (hkind : o.kind = .tclear m) (hplan : o.plan = some ⟨[plainPart 0]⟩) (hw : o.writes = [])
    (hcheck : (s.core c.val).clearCheck (maskTiles m) = .ok ()) :
    Ends (exec (.slipIssue c) s) (fun t =>
      t.core c.val = { s.core c.val with
        tiles := ((s.core c.val).clearTiles o.prec (maskTiles m)).tiles
        seq := []
        ops := handedOver (s.core c.val).ops [o.id] ⟨0, none, Stop.of 0⟩ } ∧
      OnlyCore s t c.val) := by
  have hn : o.nest? = none := by simp only [SeqOp.nest?, hkind]
  have hwork : s.work c.val o 0 = .clear m := by simp only [State.work, hkind]
  have htile : (s.tileCheck c.val o (plainPart 0)).run [] = .ok ((), []) := by
    have hwork' : s.work c.val o (plainPart 0).num = .clear m := hwork
    simp only [State.tileCheck, hwork', hcheck]
    rfl
  refine ⟨_, State.slipIssue_plain hseq hr hs ho hf hplan hn hwork (fun t h => (nomatch h)) htile rfl, ?_⟩
  have hclear := (s.slipBegun_onlyCore c o).trans (OnlyCore.modCore (s.slipBegun c o) c.val (·.clearTiles o.prec (maskTiles m)))
  have hcore : ((s.slipBegun c o).modCore c.val (·.clearTiles o.prec (maskTiles m))).core c.val = { s.core c.val with
      tiles := ((s.core c.val).clearTiles o.prec (maskTiles m)).tiles
      seq := [o.begunNow] } := by
    rw [State.core_modCore_same, State.slipBegun_core hseq, Core.clearTiles_eq]
  obtain ⟨hend, hendCore⟩ := State.partEnd_plain _ (o := o.begunNow) none (by rw [hcore]) hplan hw
    (fun p h => (nomatch hkind.symm.trans h))
  rw [hcore] at hendCore
  exact ⟨hendCore, hclear.trans hend⟩

theorem Ends.imp {r : Outcome} {P Q : State → Prop} (h : Ends r P) (hpq : ∀ t, P t → Q t) : Ends r Q := by
  obtain ⟨t, ht, hp⟩ := h
  exact ⟨t, ht, hpq t hp⟩

theorem slipIssueIssuesOneSlip_holds : slipIssueIssuesOneSlip := by
  intro s c o q pl part parts sl rest m k e hfreeze
  refine ⟨fun h hsl hrest => ⟨fun hkind => ends_of_issues h hfreeze (issues_idle h hsl hrest hkind), fun hkind hvalid hprod =>
    ⟨fun hwrite => ends_of_issues h hfreeze (issues_store h hsl hrest hkind hvalid hprod hwrite), fun hwrite => ?_⟩⟩,
    fun hr hs ho hseq hkind hplan hw hshadow hadds => ?_⟩
  · show execSlipIssue c s = _
    rw [execSlipIssue, toIssue_of_slipStands h, hfreeze]
    dsimp only
    rw [issued_store_wait h hsl hrest hkind hvalid hprod hwrite]
    rfl
  · refine (slipIssue_tclear hr hs ho hfreeze hseq hkind hplan hw (Core.clearCheck_ok hshadow hadds)).imp fun t ⟨hcore, honly⟩ =>
      ⟨fun l hl => ?_, by rw [hcore], honly⟩
    have htile : (t.core c.val).tile l = (k.clearTiles o.prec (maskTiles m)).tile l := by rw [hcore]; rfl
    rw [htile, Core.tile_clearTiles]
    simp only [mem_maskTiles, hl, true_and]
    rfl

/-! Freezes (R65, R67, R69). -/

theorem State.countFreeze_onlyCoreAndRegs (s : State) (c n : Nat) : OnlyCoreAndRegs s (s.countFreeze c n) c :=
  (OnlyCoreAndRegs.bump64 s _ _ c).trans (.setRegN _ _ _ c)

theorem State.thaw_core (s : State) (c n : Nat) : (s.thaw c n).core c = { s.core c with freeze := none } := by
  rw [State.thaw, State.core_modCore_same, State.countFreeze, State.maxReg, State.core_setRegN, State.core_bump64]

theorem State.thaw_onlyCoreAndRegs (s : State) (c n : Nat) : OnlyCoreAndRegs s (s.thaw c n) c :=
  (s.countFreeze_onlyCoreAndRegs c n).trans (OnlyCore.modCore _ _ _).onlyCoreAndRegs

/-- The registers that a core's freezes count in (R69). -/
def stallRegs (c : Nat) : List Nat := [Reg.CORE_TALLY_STALL_LO c, Reg.CORE_TALLY_STALL_LO c + 4, Reg.CORE_TALLY_FREEZE_MAX c]

theorem stallRegs_disjoint_slips (c : Nat) : (stallRegs c).Disjoint [Reg.CORE_SEQ_SLIPS_LO c, Reg.CORE_SEQ_SLIPS_LO c + 4] := by
  simp only [stallRegs, Reg.CORE_TALLY_STALL_LO, Reg.CORE_TALLY_FREEZE_MAX, Reg.CORE_SEQ_SLIPS_LO, List.disjoint_cons_left,
    List.disjoint_nil_left, List.mem_cons, List.not_mem_nil, or_false, not_or, and_true]
  omega

theorem State.thaw_regsSameBut (s : State) (c n : Nat) : RegsSameBut s (s.thaw c n) (stallRegs c) :=
  ((RegsSameBut.bump64 s n (by simp [stallRegs]) (by simp [stallRegs])).trans
    (fun _ hy => State.reg_maxReg_other _ _ (fun e => hy (by simp [stallRegs, e])))).trans ((OnlyCore.modCore _ c _).regsSameBut _)

theorem State.thaw_stall (s : State) (c n : Nat) :
    (s.thaw c n).reg64 (Reg.CORE_TALLY_STALL_LO c) = (s.reg64 (Reg.CORE_TALLY_STALL_LO c) + n) % 2 ^ 64 := by
  rw [State.thaw, State.reg64_modCore, State.countFreeze, ← State.reg64_bump64]
  exact State.reg64_congr (State.reg_maxReg_other _ _ (by simp [Reg.CORE_TALLY_STALL_LO, Reg.CORE_TALLY_FREEZE_MAX]))
    (State.reg_maxReg_other _ _ (by simp [Reg.CORE_TALLY_STALL_LO, Reg.CORE_TALLY_FREEZE_MAX]; omega))

theorem State.thaw_max (s : State) {c n : Nat} (hn : n < 2 ^ 32) :
    (s.thaw c n).regN (Reg.CORE_TALLY_FREEZE_MAX c) = max (s.regN (Reg.CORE_TALLY_FREEZE_MAX c)) n := by
  have hmax : (s.bump64 (Reg.CORE_TALLY_STALL_LO c) n).regN (Reg.CORE_TALLY_FREEZE_MAX c) = s.regN (Reg.CORE_TALLY_FREEZE_MAX c) :=
    State.regN_congr (State.reg_bump64_other _ _ (by simp [Reg.CORE_TALLY_STALL_LO, Reg.CORE_TALLY_FREEZE_MAX])
      (by simp [Reg.CORE_TALLY_STALL_LO, Reg.CORE_TALLY_FREEZE_MAX]; omega))
  have hlt : s.regN (Reg.CORE_TALLY_FREEZE_MAX c) < 2 ^ 32 := (s.reg _).isLt
  have hreg : (s.thaw c n).regN (Reg.CORE_TALLY_FREEZE_MAX c) =
      ((s.bump64 (Reg.CORE_TALLY_STALL_LO c) n).maxReg (Reg.CORE_TALLY_FREEZE_MAX c) n).regN (Reg.CORE_TALLY_FREEZE_MAX c) :=
    State.regN_congr (State.reg_modCore _ _ _ _)
  rw [hreg, State.maxReg, State.regN_setRegN_same, hmax]
  omega

/-- A frozen core's operation stands as well once the freeze is over. -/
theorem slipStands_thaw {s : State} {c : Nat} {o : SeqOp} {q : List SeqOp} {pl : Plan} {part : Part} {parts : List Part} (n : Nat)
    (h : slipStands s c o q pl part parts) : slipStands (s.thaw c n) c o q pl part parts := by
  unfold slipStands at *
  rw [State.thaw_core]
  exact h

theorem State.thaw_pailCfg (s : State) (c n i : Nat) : (s.thaw c n).pailCfg c i = s.pailCfg c i := by
  have hreg : Reg.SPAD_PAIL_CFG c i ∉ stallRegs c := by
    simp only [stallRegs, Reg.SPAD_PAIL_CFG, Reg.CORE_TALLY_STALL_LO, Reg.CORE_TALLY_FREEZE_MAX, List.mem_cons, List.not_mem_nil,
      or_false, not_or]
    omega
  rw [State.pailCfg, State.pailCfg, State.regN_congr (s.thaw_regsSameBut c n _ hreg)]

section
variable {s : State} {c : CoreId} {o : SeqOp} {q : List SeqOp} {pl : Plan} {part : Part} {parts : List Part} {sl : Slip}
  {rest : List Slip} {z : Freeze} (h : slipStands s c.val o q pl part parts) (hfreeze : (s.core c.val).freeze = some z)
include h hfreeze

/-- FREEZE_END within the limit: the slip that waited issues. -/
theorem freezeEnd_of_issues {n : Nat} {P : State → Prop}
    (hlimit : s.regN (Reg.CORE_TALLY_FREEZE_LIMIT c.val) = 0 ∨ n < s.regN (Reg.CORE_TALLY_FREEZE_LIMIT c.val))
    (hissues : (s.thaw c.val n).Issues c.val o part P) : Ends (exec (.freezeEnd c n) s) P := by
  obtain ⟨t, ht, hp⟩ := hissues
  refine ⟨t, ?_, hp⟩
  show execFreezeEnd c n s = _
  rw [execFreezeEnd, toIssue_of_slipStands h, hfreeze]
  dsimp only
  rw [ht]
  have hready : (decide (s.regN (Reg.CORE_TALLY_FREEZE_LIMIT c.val) = 0) ||
      decide (n < s.regN (Reg.CORE_TALLY_FREEZE_LIMIT c.val))) = true := by simpa using hlimit
  exact congrArg (act · s t) hready

/-- FREEZE_END does nothing while the slip still waits. -/
theorem freezeEnd_waits {n i : Nat} (hwait : (s.thaw c.val n).issued c.val o part = (s.thaw c.val n, some i)) :
    exec (.freezeEnd c n) s = .next s := by
  show execFreezeEnd c n s = _
  rw [execFreezeEnd, toIssue_of_slipStands h, hfreeze]
  dsimp only
  rw [hwait]

/-- FREEZE_LIMIT stops the core of a slip that still waits at the limit. -/
theorem freezeLimit_stops {i : Nat} (hlimit : s.regN (Reg.CORE_TALLY_FREEZE_LIMIT c.val) ≠ 0)
    (hwait : (s.thaw c.val (s.regN (Reg.CORE_TALLY_FREEZE_LIMIT c.val))).issued c.val o part =
      (s.thaw c.val (s.regN (Reg.CORE_TALLY_FREEZE_LIMIT c.val)), some i)) :
    Ends (exec (.freezeLimit c) s) (fun t => StoppedWith s t c.val 0x2103) := by
  have hexec : exec (.freezeLimit c) s = .next ((s.thaw c.val (s.regN (Reg.CORE_TALLY_FREEZE_LIMIT c.val))).stopCore c.val
      { Stop.of Code.freezeLimit with pc := some o.pc, slip := some (part.row o) }) := by
    show execFreezeLimit c s = _
    rw [execFreezeLimit, toIssue_of_slipStands h, hfreeze]
    dsimp only
    rw [hwait]
    exact congrArg (act · s _) (decide_eq_true hlimit)
  refine ⟨_, hexec, ?_⟩
  obtain ⟨hrun, hstop, -⟩ := h
  have hcore := s.thaw_core c.val (s.regN (Reg.CORE_TALLY_FREEZE_LIMIT c.val))
  have hsched : (s.thaw c.val (s.regN (Reg.CORE_TALLY_FREEZE_LIMIT c.val))).sched = s.sched := by
    rw [(s.thaw_onlyCoreAndRegs c.val _).1]
  have hstopped := (s.thaw c.val (s.regN (Reg.CORE_TALLY_FREEZE_LIMIT c.val))).stopCore_stoppedWith (c := c.val)
    { Stop.of Code.freezeLimit with pc := some o.pc, slip := some (part.row o) } (by rw [hcore]; exact hrun) (by rw [hcore]; exact hstop)
    rfl
  unfold StoppedWith at hstopped ⊢
  rw [hcore, hsched] at hstopped
  exact hstopped

end

theorem freezeEndsOrReachesItsLimit_holds : freezeEndsOrReachesItsLimit := by
  intro s c n z o q pl part parts sl rest k e limit hfreeze h hsl hrest hkind hvalid hprod
  have hthawed (n : Nat) := slipStands_thaw n h
  have hwaits (n : Nat) (hwrite : (k.pail sl.pail).writable e = false) :
      (s.thaw c.val n).issued c.val o part = (s.thaw c.val n, some sl.pail) :=
    issued_store_wait (hthawed n) hsl hrest hkind (by rw [State.thaw_pailCfg]; exact hvalid) (by rw [State.thaw_pailCfg]; exact hprod)
      (by rw [State.thaw_core]; exact hwrite)
  refine ⟨fun hwrite hlimit hn => ?_, fun hwrite hlimit => freezeLimit_stops h hfreeze hlimit (hwaits _ hwrite),
    fun hwrite => freezeEnd_waits h hfreeze (hwaits n hwrite)⟩
  have hstore := issues_store (hthawed n) hsl hrest hkind (by rw [State.thaw_pailCfg]; exact hvalid)
    (by rw [State.thaw_pailCfg]; exact hprod) (by rw [State.thaw_core]; exact hwrite)
  refine freezeEnd_of_issues h hfreeze hlimit (hstore.imp fun t ⟨hcore, honly, hcounted, hregs⟩ => ?_)
  have hthaw := s.thaw_regsSameBut c.val n
  have hdisjoint := stallRegs_disjoint_slips c.val
  refine ⟨?_, (s.thaw_onlyCoreAndRegs c.val n).trans honly, ?_, ?_, ?_, ?_⟩
  · rw [hcore, State.thaw_core]
    rfl
  · rw [State.reg64_congr (hregs _ (hdisjoint (by simp [stallRegs]))) (hregs _ (hdisjoint (by simp [stallRegs]))), State.thaw_stall]
  · rw [State.regN_congr (hregs _ (hdisjoint (by simp [stallRegs]))), s.thaw_max hn]
  · rw [hcounted, State.reg64_congr (hthaw _ (hdisjoint.symm (by simp))) (hthaw _ (hdisjoint.symm (by simp)))]
  · exact (hthaw.mono (by simp [stallRegs])).trans (hregs.mono (by simp))

/-- Settles O21: a slip that meets no fault has its kind's effect and is counted, and a STORE slip that waits freezes its core. -/
theorem slipsIssueAndFreeze : Obligations.SlipsIssueAndFreeze :=
  ⟨slipIssueIssuesOneSlip_holds, slipsReadPairAndEndGroups_holds, freezeEndsOrReachesItsLimit_holds⟩

end Sys2Proof.Machine
end

section
/-! SUPPORT. Ledger words as exact sums of their terms (R74, R77). -/

namespace Sys2Proof.Machine

/-! Tables in canonical form. -/

section
variable {α : Type}

theorem tabFind_of_lt {t : Tab α} {lo k : Nat} (h : tabRising t lo = true) (hk : k < lo) : tabFind t k = none := by
  induction t generalizing lo with
  | nil => rfl
  | cons e r ih =>
    obtain ⟨j, w⟩ := e
    simp only [tabRising, Bool.and_eq_true, decide_eq_true_eq] at h
    rw [tabFind, if_neg (by omega)]
    exact ih h.2 (by omega)

theorem tabRising_ext {t u : Tab α} {lo : Nat} (ht : tabRising t lo = true) (hu : tabRising u lo = true)
    (h : ∀ k, tabFind t k = tabFind u k) : t = u := by
  induction t generalizing u lo with
  | nil =>
    cases u with
    | nil => rfl
    | cons e r => simpa [tabFind] using h e.1
  | cons e r ih =>
    obtain ⟨j, w⟩ := e
    cases u with
    | nil => simpa [tabFind] using h j
    | cons e' r' =>
      obtain ⟨j', w'⟩ := e'
      simp only [tabRising, Bool.and_eq_true, decide_eq_true_eq] at ht hu
      have hr {k : Nat} (hk : k < j + 1) : tabFind r k = none := tabFind_of_lt ht.2 hk
      have hr' {k : Nat} (hk : k < j' + 1) : tabFind r' k = none := tabFind_of_lt hu.2 hk
      have hj := h j
      have hj' := h j'
      simp only [tabFind, if_true] at hj hj'
      obtain rfl : j = j' := by
        rcases lt_trichotomy j j' with hlt | heq | hlt
        · rw [if_neg (by omega), hr' (by omega)] at hj
          cases hj
        · exact heq
        · rw [if_neg (by omega), hr (by omega)] at hj'
          cases hj'
      obtain rfl : w = w' := by simpa using hj
      rw [ih ht.2 hu.2 fun k => ?_]
      by_cases hk : k < j + 1
      · rw [hr hk, hr' hk]
      · simpa [tabFind, show j ≠ k by omega] using h k

/-- Two tables in canonical form that read alike are equal. -/
theorem tabWf_ext [DecidableEq α] {d : α} {t u : Tab α} (ht : tabWf d t = true) (hu : tabWf d u = true)
    (h : ∀ k, tabGet d t k = tabGet d u k) : t = u := by
  simp only [tabWf, Bool.and_eq_true, List.all_eq_true, decide_eq_true_eq] at ht hu
  have hmem (l : Tab α) (hl : ∀ e ∈ l, e.2 ≠ d) (k : Nat) : tabFind l k ≠ some d := by
    induction l with
    | nil => simp
    | cons e r ih =>
      rw [List.forall_mem_cons] at hl
      rw [tabFind]
      split
      · simpa using hl.1
      · exact ih hl.2
  refine tabRising_ext ht.1 hu.1 fun k => ?_
  have hk := h k
  have hkt := hmem t ht.2 k
  have hku := hmem u hu.2 k
  unfold tabGet at hk
  cases h1 : tabFind t k <;> cases h2 : tabFind u k <;> simp_all

end

/-! One exact term. -/

/-- A term that is a whole number of the tile's units, where the sum lies in the word's range, adds that number and raises neither
SAT nor SUB (R74). -/
theorem Tile.addTerm_exact (t : Tile) (i : Nat) (n x : Int) (tally : Bool) {v : Int}
    (h : (n : ℚ) * (2 : ℚ) ^ x = (v : ℚ) * (2 : ℚ) ^ t.tag.pt.toInt)
    (hw : |(tabGet 0 t.words i).toInt + v| < 2 ^ 191) :
    let u := (t.addTerm i n x tally).1
    u = { t with words := tabSet 0 t.words i (BitVec.ofInt 192 ((tabGet 0 t.words i).toInt + v)), range := u.range } := by
  have hq : (n : ℚ) * pow2 (x - t.tag.point) = (v : ℚ) := by
    rw [pow2_eq_zpow, zpow_sub₀ two_ne_zero, ← mul_div_assoc, h]
    exact mul_div_cancel_right₀ _ (by positivity)
  obtain ⟨hv, hsub⟩ := termUnits n (x - t.tag.point)
  rw [hq, Int.floor_intCast] at hv hsub
  obtain ⟨hlo, hhi⟩ := abs_lt.mp hw
  have h1 : ¬ wordMax < (tabGet 0 t.words i).toInt + v := by unfold wordMax; omega
  have h2 : ¬ (tabGet 0 t.words i).toInt + v < wordMin := by unfold wordMin; omega
  simp only [Tile.addTerm]
  rw [hsub, hv, if_neg h1, if_neg h2, decide_eq_false h1, decide_eq_false h2]
  simp

/-! Sums. -/

/-- The sum of the terms of a list that go to word `i`, each as the number that `v` gives it. -/
def termSum (v : Int → Int → Int) (l : List (Nat × Int × Int × Bool)) (i : Nat) : Int :=
  ((l.filter (fun e => e.1 == i)).map (fun e => v e.2.1 e.2.2.1)).sum

theorem termSum_append_singleton (v : Int → Int → Int) (l : List (Nat × Int × Int × Bool)) (e : Nat × Int × Int × Bool) (i : Nat) :
    termSum v (l ++ [e]) i = termSum v l i + if e.1 = i then v e.2.1 e.2.2.1 else 0 := by
  by_cases h : e.1 = i <;> simp [termSum, h]

theorem termSum_perm (v : Int → Int → Int) {l m : List (Nat × Int × Int × Bool)} (h : l.Perm m) (i : Nat) :
    termSum v l i = termSum v m i :=
  ((h.filter _).map _).sum_eq

/-- Terms below 2^151 in magnitude sum to less than one 2^151 each. -/
theorem abs_termSum_le {v : Int → Int → Int} {l : List (Nat × Int × Int × Bool)} (h : ∀ e ∈ l, |v e.2.1 e.2.2.1| < 2 ^ 151)
    (i : Nat) : |termSum v l i| ≤ (l.filter (fun e => e.1 == i)).length * (2 ^ 151 - 1) := by
  have hall : ∀ a ∈ (l.filter (fun e => e.1 == i)).map (fun e => v e.2.1 e.2.2.1), |a| ≤ 2 ^ 151 - 1 := by
    simp only [List.mem_map, List.mem_filter]
    rintro a ⟨e, ⟨he, -⟩, rfl⟩
    exact Int.le_sub_one_of_lt (h e he)
  unfold termSum
  rw [← List.length_map (fun e : Nat × Int × Int × Bool => v e.2.1 e.2.2.1)]
  generalize (l.filter (fun e => e.1 == i)).map (fun e => v e.2.1 e.2.2.1) = m at hall ⊢
  induction m with
  | nil => simp
  | cons a m ih =>
    rw [List.forall_mem_cons] at hall
    have ha := abs_add_le a m.sum
    have him := ih hall.2
    rw [List.sum_cons, List.length_cons]
    push_cast
    linarith [hall.1]

/-- R77's bounds: at most 2^40 terms to a word, each a whole number of units below 2^151 in magnitude. -/
structure ExactTerms (pt : Int) (v : Int → Int → Int) (l : List (Nat × Int × Int × Bool)) : Prop where
  whole : ∀ e ∈ l, (e.2.1 : ℚ) * (2 : ℚ) ^ e.2.2.1 = (v e.2.1 e.2.2.1 : ℚ) * (2 : ℚ) ^ pt
  small : ∀ e ∈ l, |v e.2.1 e.2.2.1| < 2 ^ 151
  few : ∀ i, (l.filter (fun e => e.1 == i)).length ≤ 2 ^ 40

theorem ExactTerms.perm {pt : Int} {v : Int → Int → Int} {l m : List (Nat × Int × Int × Bool)} (h : ExactTerms pt v l)
    (hp : m.Perm l) : ExactTerms pt v m where
  whole e he := h.whole e (hp.subset he)
  small e he := h.small e (hp.subset he)
  few i := (hp.filter _).length_eq.trans_le (h.few i)

theorem ExactTerms.init {pt : Int} {v : Int → Int → Int} {l : List (Nat × Int × Int × Bool)} {e : Nat × Int × Int × Bool}
    (h : ExactTerms pt v (l ++ [e])) : ExactTerms pt v l where
  whole a ha := h.whole a (List.mem_append_left _ ha)
  small a ha := h.small a (List.mem_append_left _ ha)
  few i := (((List.sublist_append_left l [e]).filter _).length_le).trans (h.few i)

/-- Under R77's bounds every sum lies inside the range of a word. -/
theorem ExactTerms.abs_termSum_lt {pt : Int} {v : Int → Int → Int} {l : List (Nat × Int × Int × Bool)} (h : ExactTerms pt v l) (i : Nat) :
    |termSum v l i| < 2 ^ 191 := by
  have hsum := abs_termSum_le h.small i
  have hfew : ((l.filter (fun e => e.1 == i)).length : Int) ≤ 2 ^ 40 := by exact_mod_cast h.few i
  omega

/-- The terms of a list added one after another. -/
def Tile.addTerms (t : Tile) (l : List (Nat × Int × Int × Bool)) : Tile :=
  l.foldl (fun t e => (t.addTerm e.1 e.2.1 e.2.2.1 e.2.2.2).1) t

theorem Tile.addTerms_append_singleton (t : Tile) (l : List (Nat × Int × Int × Bool)) (e : Nat × Int × Int × Bool) :
    t.addTerms (l ++ [e]) = ((t.addTerms l).addTerm e.1 e.2.1 e.2.2.1 e.2.2.2).1 := List.foldl_concat ..

/-- What a tile holds of the terms added since it was opened with words of zero. -/
structure Tile.Holds (t u : Tile) (sum : Nat → Int) : Prop where
  opened : u.st = .opened
  tag : u.tag = t.tag
  sat : u.sat = false
  sub : u.sub = false
  wf : tabWf 0 u.words = true
  word : ∀ i, (tabGet 0 u.words i).toInt = sum i

theorem Tile.addTerms_holds (t : Tile) {v : Int → Int → Int} (l : List (Nat × Int × Int × Bool)) (ho : t.st = .opened)
    (hw : t.words = []) (hsat : t.sat = false) (hsub : t.sub = false) (h : ExactTerms t.tag.pt.toInt v l) :
    t.Holds (t.addTerms l) (termSum v l) := by
  induction l using List.reverseRecOn with
  | nil => exact ⟨ho, rfl, hsat, hsub, by rw [Tile.addTerms, List.foldl_nil, hw]; rfl, fun i => by
      rw [Tile.addTerms, List.foldl_nil, hw]; rfl⟩
  | append_singleton l e ih =>
    have hl := ih h.init
    have hsum := termSum_append_singleton v l e
    have hnext : |(tabGet 0 (t.addTerms l).words e.1).toInt + v e.2.1 e.2.2.1| < 2 ^ 191 := by
      have := h.abs_termSum_lt e.1
      rwa [hsum, if_pos rfl, ← hl.word] at this
    have hadd := (t.addTerms l).addTerm_exact e.1 e.2.1 e.2.2.1 e.2.2.2 (v := v e.2.1 e.2.2.1)
      (by rw [hl.tag]; exact h.whole e (List.mem_append_right _ (List.mem_singleton_self e))) hnext
    rw [Tile.addTerms_append_singleton, hadd]
    refine ⟨hl.opened, hl.tag, hl.sat, hl.sub, tabWf_set _ _ _ _ hl.wf, fun i => ?_⟩
    obtain ⟨hlo, hhi⟩ := abs_lt.mp hnext
    rw [hsum, tabGet_set]
    by_cases hi : i = e.1
    · subst hi
      rw [if_pos rfl, if_pos rfl, toInt_ofInt_word (by unfold wordMin; omega) (by unfold wordMax; omega), hl.word]
    · rw [if_neg hi, if_neg (Ne.symm hi), hl.word, add_zero]

/-- Settles O29: each term adds its whole number of units, by induction on the terms; equal sums are equal canonical tables. -/
theorem ledgerWordsAreExactSums : Obligations.LedgerWordsAreExactSums := by
  intro t terms v ho hw hsat hsub hterms hfew sum
  have hexact : ExactTerms t.tag.pt.toInt v terms := ⟨fun e he => (hterms e he).1, fun e he => (hterms e he).2, hfew⟩
  have hheld {l} (h : ExactTerms t.tag.pt.toInt v l) : t.Holds (sum l) (termSum v l) := t.addTerms_holds l ho hw hsat hsub h
  have hall := hheld hexact
  refine ⟨fun i => ?_, hall.sat, hall.sub, fun other hp => ?_⟩
  · rw [Tile.word, if_neg (by rw [hall.opened]; decide)]
    exact hall.word i
  · have hother := hheld (hexact.perm hp)
    refine tabWf_ext hother.wf hall.wf fun i => BitVec.eq_of_toInt_eq ?_
    rw [hother.word, hall.word, termSum_perm v hp]

end Sys2Proof.Machine
end

section
/-! SUPPORT. P64 adds at their tile (R81, R83, R86, R90, R152). -/

namespace Sys2Proof.Machine

/-! States whose cores read alike. -/

/-- The cores read as before, and nothing else has changed. -/
def SameCores (s t : State) : Prop := t = { s with cores := t.cores } ∧ ∀ d, t.core d = s.core d

theorem SameCores.refl (s : State) : SameCores s s := ⟨rfl, fun _ => rfl⟩

theorem SameCores.trans {s t u : State} (h : SameCores s t) (h' : SameCores t u) : SameCores s u :=
  ⟨by rw [h'.1, h.1], fun d => (h'.2 d).trans (h.2 d)⟩

theorem SameCores.modCore (s : State) (c : Nat) {f : Core → Core} (h : f (s.core c) = s.core c) : SameCores s (s.modCore c f) := by
  refine ⟨rfl, fun d => ?_⟩
  by_cases hd : d = c
  · rw [hd, State.core_modCore_same, h]
  · exact s.core_modCore_other f hd

theorem SameCores.onlyCore {s t : State} (h : SameCores s t) (c : Nat) : OnlyCore s t c := ⟨h.1, fun d _ => h.2 d⟩

theorem SameCores.foldl {α : Type} {s : State} {f : State → α → State} (hf : ∀ t a, SameCores s t → SameCores s (f t a)) (l : List α)
    {t : State} (ht : SameCores s t) : SameCores s (l.foldl f t) := by
  induction l generalizing t with
  | nil => exact ht
  | cons a l ih => exact ih (hf t a ht)

/-! Adds that wait for room (R89). -/

/-- No transfer holds an add back for want of room. -/
def State.noAddHeldBack (s : State) : Prop := ∀ d, ∀ x ∈ (s.core d).dma, x.addHold = []

theorem SameCores.noAddHeldBack {s t : State} (h : SameCores s t) (hs : s.noAddHeldBack) : t.noAddHeldBack := fun d => by
  rw [h.2 d]
  exact hs d

theorem feedAdds_nil (t n : Nat) : feedAdds t n [] = ([], []) := by cases n <;> rfl

theorem State.modXfer_sameCores (s : State) (c id : Nat) {f : Xfer → Xfer} (h : ∀ x ∈ (s.core c).dma, f x = x) :
    SameCores s (s.modXfer c id f) := by
  refine .modCore s c ?_
  have hkeep : (s.core c).dma.map (fun x => if x.id = id then f x else x) = (s.core c).dma :=
    (List.map_congr_left fun x hx => by rw [h x hx, ite_self]).trans (List.map_id' _)
  rw [hkeep]

theorem State.addFeed_sameCores (s : State) (hs : s.noAddHeldBack) (t c id : Nat) : SameCores s (s.addFeed t c id) := by
  unfold State.addFeed
  split
  · next x hx =>
    have hfed : SameCores s (s.modCore t (fun k => { k with adds := k.adds ++ [] })) := .modCore s t (by rw [List.append_nil])
    rw [hs c x (List.mem_of_find?_eq_some hx), feedAdds_nil]
    refine hfed.trans (State.modXfer_sameCores _ c id fun y hy => ?_)
    have hy' := hfed.noAddHeldBack hs c y hy
    change { y with addHold := [] } = y
    rw [← hy']
  · exact .refl s

theorem State.addPump_sameCores (s : State) (hs : s.noAddHeldBack) (t : Nat) : SameCores s (s.addPump t) :=
  .foldl (fun _ c hu => .foldl (fun v x hv => hv.trans (v.addFeed_sameCores (hv.noAddHeldBack hs) t c x.id)) _ hu) _ (.refl s)

/-! The tile of an add (R81, R83, R90, R152). -/

/-- A tile that takes a P64 add: a CLEAR one opens, and hi and then lo are added. -/
def Tile.addP64 (t : Tile) (i : Nat) (v : Dword) : Tile × AddCount :=
  let opened := if t.st = .clear then { t with st := .opened, rows := [], words := [] } else t
  let hi := opened.addF32 i (v.extractLsb' 0 32)
  let lo := hi.1.addF32 i (v.extractLsb' 32 32)
  (lo.1, hi.2.add lo.2)

theorem Tile.takesP64_iff (t : Tile) : t.takesP64 = true ↔ t.st = .opened ∨ (t.st = .clear ∧ t.tagged = true) := by
  simp [Tile.takesP64]

/-- A tagged CLEAR tile opens under the tags that it has. -/
theorem Tile.openWith_tag (t : Tile) (h : t.tagged = true) :
    t.openWith t.tag = { t with st := .opened, rows := [], words := [] } := by
  rw [Tile.openWith, ← h]

theorem State.p64Add_taken (s : State) (c : Nat) {l : Nat} (i : Nat) (v : Dword) (h : ((s.core c).tile l).takesP64 = true) :
    s.p64Add c l i v = (((s.setTile c l (((s.core c).tile l).addP64 i v).1).countAdds c (((s.core c).tile l).addP64 i v).2).bump64
      (Reg.LEDG_REMOTE_ADDS_LO c) 1, true) := by
  have hopen : (if ((s.core c).tile l).st = .clear then ((s.core c).tile l).openWith ((s.core c).tile l).tag else (s.core c).tile l) =
      if ((s.core c).tile l).st = .clear then { (s.core c).tile l with st := .opened, rows := [], words := [] }
      else (s.core c).tile l := by
    rcases (Tile.takesP64_iff _).mp h with ho | ⟨hc, htag⟩
    · simp [ho]
    · simp [hc, Tile.openWith_tag _ htag]
  simp only [State.p64Add, if_pos h, Tile.addP64, hopen]
  rfl

theorem State.p64Add_dropped (s : State) (c : Nat) {l : Nat} (i : Nat) (v : Dword) (h : ((s.core c).tile l).takesP64 = false) :
    s.p64Add c l i v = (s.bump32 (Reg.LEDG_REMOTE_DROP c) 1, false) := by
  simp [State.p64Add, h]

/-- What the counts of terms are after an add (R93). -/
theorem State.countAdds_counted (s : State) (c : Nat) (n : AddCount) :
    (s.countAdds c n).reg64 (Reg.LEDG_SUB_TERMS_LO c) = (s.reg64 (Reg.LEDG_SUB_TERMS_LO c) + n.sub) % 2 ^ 64 ∧
    CountedUp s (s.countAdds c n) (Reg.LEDG_SAT_ADDS c) n.sat ∧
    CountedUp s (s.countAdds c n) (Reg.LEDG_SCALE_RANGE_TERMS c) n.range := by
  have h1 : Reg.LEDG_SUB_TERMS_LO c ∉ [Reg.LEDG_SAT_ADDS c, Reg.LEDG_SCALE_RANGE_TERMS c] := by
    simp [Reg.LEDG_SUB_TERMS_LO, Reg.LEDG_SAT_ADDS, Reg.LEDG_SCALE_RANGE_TERMS]
  have h2 : Reg.LEDG_SUB_TERMS_LO c + 4 ∉ [Reg.LEDG_SAT_ADDS c, Reg.LEDG_SCALE_RANGE_TERMS c] := by
    simp only [List.mem_cons, List.not_mem_nil, or_false, Reg.LEDG_SUB_TERMS_LO, Reg.LEDG_SAT_ADDS, Reg.LEDG_SCALE_RANGE_TERMS]
    omega
  have h3 : ∀ x ∈ [Reg.LEDG_SAT_ADDS c, Reg.LEDG_SCALE_RANGE_TERMS c], x ≠ Reg.LEDG_SUB_TERMS_LO c ∧ x ≠ Reg.LEDG_SUB_TERMS_LO c + 4 :=
    fun x hx => ⟨fun e => h1 (e ▸ hx), fun e => h2 (e ▸ hx)⟩
  have hne : Reg.LEDG_SAT_ADDS c ≠ Reg.LEDG_SCALE_RANGE_TERMS c := by simp [Reg.LEDG_SAT_ADDS, Reg.LEDG_SCALE_RANGE_TERMS]
  have hsub := s.reg64_bump64 (Reg.LEDG_SUB_TERMS_LO c) n.sub
  have hkeep {x : Nat} (hx : x ∈ [Reg.LEDG_SAT_ADDS c, Reg.LEDG_SCALE_RANGE_TERMS c]) :
      (s.bump64 (Reg.LEDG_SUB_TERMS_LO c) n.sub).reg x = s.reg x := s.reg_bump64_other _ (h3 x hx).1 (h3 x hx).2
  unfold State.countAdds
  generalize s.bump64 (Reg.LEDG_SUB_TERMS_LO c) n.sub = u at hsub hkeep ⊢
  have hlast : RegsSameBut u ((u.bump32 (Reg.LEDG_SAT_ADDS c) n.sat).bump32 (Reg.LEDG_SCALE_RANGE_TERMS c) n.range)
      [Reg.LEDG_SAT_ADDS c, Reg.LEDG_SCALE_RANGE_TERMS c] := (RegsSameBut.bump32 u _ (by simp)).trans (.bump32 _ _ (by simp))
  refine ⟨(State.reg64_congr (hlast _ h1) (hlast _ h2)).trans hsub, ?_, ?_⟩
  · exact (CountedUp.bump32 u _ _).of_reg (hkeep (by simp)) (State.reg_bump32_other _ _ hne)
  · exact (CountedUp.bump32 (u.bump32 (Reg.LEDG_SAT_ADDS c) n.sat) _ _).of_reg
      ((u.reg_bump32_other _ hne.symm).trans (hkeep (by simp))) rfl

/-- What an add that is taken changes: its tile and the counts of adds and terms. -/
structure P64Taken (s t : State) (c l : Nat) (x : Tile × AddCount) : Prop where
  core : t.core c = (s.core c).setTile l x.1
  only : OnlyCoreAndRegs s t c
  adds : t.reg64 (Reg.LEDG_REMOTE_ADDS_LO c) = (s.reg64 (Reg.LEDG_REMOTE_ADDS_LO c) + 1) % 2 ^ 64
  sub : t.reg64 (Reg.LEDG_SUB_TERMS_LO c) = (s.reg64 (Reg.LEDG_SUB_TERMS_LO c) + x.2.sub) % 2 ^ 64
  sat : CountedUp s t (Reg.LEDG_SAT_ADDS c) x.2.sat
  range : CountedUp s t (Reg.LEDG_SCALE_RANGE_TERMS c) x.2.range
  regs : RegsSameBut s t ([Reg.LEDG_REMOTE_ADDS_LO c, Reg.LEDG_REMOTE_ADDS_LO c + 4] ++ addRegs c)

/-- The count of adds lies beside the counts of terms. -/
theorem remoteAdds_not_mem_addRegs (c : Nat) : Reg.LEDG_REMOTE_ADDS_LO c ∉ addRegs c ∧ Reg.LEDG_REMOTE_ADDS_LO c + 4 ∉ addRegs c := by
  simp only [addRegs, List.mem_cons, List.not_mem_nil, or_false, Reg.LEDG_REMOTE_ADDS_LO, Reg.LEDG_SUB_TERMS_LO, Reg.LEDG_SAT_ADDS,
    Reg.LEDG_SCALE_RANGE_TERMS]
  omega

theorem State.p64Add_takenSpec (s : State) (c : Nat) {l : Nat} (i : Nat) (v : Dword) (h : ((s.core c).tile l).takesP64 = true) :
    P64Taken s (s.p64Add c l i v).1 c l (((s.core c).tile l).addP64 i v) := by
  rw [s.p64Add_taken c i v h]
  dsimp only
  generalize ((s.core c).tile l).addP64 i v = x
  obtain ⟨hout, hout'⟩ := remoteAdds_not_mem_addRegs c
  have hset := OnlyCore.modCore s c (·.setTile l x.1)
  have hcore := s.core_modCore_same c (·.setTile l x.1)
  change OnlyCore s (s.setTile c l x.1) c at hset
  change (s.setTile c l x.1).core c = _ at hcore
  obtain ⟨hsub, hsat, hrange⟩ := (s.setTile c l x.1).countAdds_counted c x.2
  have hregs := (s.setTile c l x.1).countAdds_regsSameBut c x.2
  have honly := hset.onlyCoreAndRegs.trans ((s.setTile c l x.1).countAdds_onlyCoreAndRegs c x.2)
  rw [← (s.setTile c l x.1).countAdds_core c x.2] at hcore
  generalize s.setTile c l x.1 = u at *
  generalize u.countAdds c x.2 = w at *
  have hlast {y : Nat} (hy : y ∈ addRegs c) : (w.bump64 (Reg.LEDG_REMOTE_ADDS_LO c) 1).reg y = w.reg y :=
    w.reg_bump64_other 1 (fun e => hout (e ▸ hy)) (fun e => hout' (e ▸ hy))
  refine ⟨by rw [State.core_bump64, hcore], honly.trans (.bump64 w _ _ c), ?_, ?_, ?_, ?_, ?_⟩
  · rw [w.reg64_bump64, State.reg64_congr (hregs _ hout) (hregs _ hout'), State.reg64_congr (hset.reg _) (hset.reg _)]
  · rw [State.reg64_congr (hlast (by simp [addRegs])) (hlast (by simp [addRegs])), hsub, State.reg64_congr (hset.reg _) (hset.reg _)]
  · exact hsat.of_reg (hset.reg _) (hlast (by simp [addRegs]))
  · exact hrange.of_reg (hset.reg _) (hlast (by simp [addRegs]))
  · exact ((hset.regsSameBut _).trans (hregs.mono fun _ hy => List.mem_append_right _ hy)).trans (.bump64 w 1 (by simp) (by simp))

/-! The step of the oldest add (R86). -/

/-- The state in which the oldest add of a core has left its buffer. -/
def State.addLeft (s : State) (c : Nat) (rest : List LedgAdd) : State := s.modCore c (fun k => { k with adds := rest })

theorem State.addLeft_core (s : State) (c : Nat) (rest : List LedgAdd) :
    (s.addLeft c rest).core c = { s.core c with adds := rest } := s.core_modCore_same c _

section
variable {s : State} {c : CoreId}

theorem exec_p64Add_held (h : (s.core c.val).adds.head?.any (s.core c.val).addHeld = true) : exec (.p64Add c) s = .next s := by
  change act (!(s.core c.val).adds.head?.any (s.core c.val).addHeld) s _ = _
  rw [h]
  rfl

/-- Nothing waits for the end of an add: no PARTIAL is complete, no WCLOSE and no task's end waits, and no transfer holds an add
back. -/
structure State.AddsAlone (s : State) : Prop where
  served : s.span.served.all (fun v => v.left != 0) = true
  wins : s.span.winWait = []
  task : s.sched.st ≠ .ending
  held : s.noAddHeldBack

theorem State.servedDone_eq (h : s.span.served.all (fun v => v.left != 0) = true) (hw : s.span.winWait = []) : s.servedDone = s := by
  have hdone : s.span.served.filter (fun v => v.left == 0) = [] := by
    rw [List.filter_eq_nil_iff]
    intro v hv
    simpa using List.all_eq_true.mp h v hv
  have hkeep : s.span.served.filter (fun v => v.left != 0) = s.span.served := List.filter_eq_self.mpr (List.all_eq_true.mp h)
  simp only [State.servedDone, hdone, hkeep, List.foldl_nil, State.winSettle, hw, List.filter_nil]
  rw [← hw]

theorem State.taskSettle_eq (h : s.sched.st ≠ .ending) : s.taskSettle = s := if_neg fun hh => h hh.1

/-- An add of a host that no store holds up reaches its tile, and no core reads otherwise for what follows. -/
theorem exec_p64Add_host {tile word : Nat} {v : Dword} {rest : List LedgAdd} (ha : (s.core c.val).adds = ⟨.host, tile, word, v⟩ :: rest)
    (hfree : (s.core c.val).addHeld ⟨.host, tile, word, v⟩ = false) (hs : s.AddsAlone)
    (honly : OnlyCoreAndRegs s ((s.addLeft c.val rest).p64Add c.val tile word v).1 c.val)
    (hdma : (((s.addLeft c.val rest).p64Add c.val tile word v).1.core c.val).dma = (s.core c.val).dma) :
    ∃ t, exec (.p64Add c) s = .next t ∧ SameCores ((s.addLeft c.val rest).p64Add c.val tile word v).1 t := by
  have hact : exec (.p64Add c) s = .next (s.addStep c.val).taskSettle := by
    change act (!(s.core c.val).adds.head?.any (s.core c.val).addHeld) s _ = _
    rw [ha, List.head?_cons, Option.any_some, hfree]
    rfl
  have hstep : s.addStep c.val = (((s.addLeft c.val rest).p64Add c.val tile word v).1.servedDone).addPump c.val := by
    rw [State.addStep, ha]
    rfl
  rw [hact, hstep]
  generalize ((s.addLeft c.val rest).p64Add c.val tile word v).1 = u at *
  have hspan : u.span = s.span := by rw [honly.1]
  have hsched : u.sched = s.sched := by rw [honly.1]
  have hheld : u.noAddHeldBack := fun d => by
    by_cases hd : d = c.val
    · rw [hd, hdma]
      exact hs.held _
    · rw [honly.2 d hd]
      exact hs.held d
  have hpump := u.addPump_sameCores hheld c.val
  rw [State.servedDone_eq (by rw [hspan]; exact hs.served) (by rw [hspan]; exact hs.wins), State.taskSettle_eq]
  · exact ⟨_, rfl, hpump⟩
  · rw [hpump.1]
    exact hsched ▸ hs.task

end

/-- Settles O28: the oldest add leaves its buffer and reaches its tile, and what follows an add changes no core. -/
theorem p64AddsReachTheirTile : Obligations.P64AddsReachTheirTile := by
  intro s c tile word v rest k t0 opened hi lo n
  refine ⟨exec_p64Add_held, fun ha hfree hserved hwins htask hheld => ?_⟩
  have halone : s.AddsAlone := ⟨hserved, hwins, htask, hheld⟩
  have hleft : OnlyCore s (s.addLeft c.val rest) c.val := .modCore s c.val _
  have hcore := s.addLeft_core c.val rest
  have htile : ((s.addLeft c.val rest).core c.val).tile tile = t0 := by rw [hcore]; rfl
  refine ⟨fun htakes => ?_, fun hdrops => ?_⟩
  · have hspec := (s.addLeft c.val rest).p64Add_takenSpec c.val word v (by rw [htile]; exact (Tile.takesP64_iff _).mpr htakes)
    rw [htile, show t0.addP64 word v = (lo.1, n) from rfl] at hspec
    obtain ⟨t, ht, hsame⟩ := exec_p64Add_host ha hfree halone (hleft.onlyCoreAndRegs.trans hspec.only) (by rw [hspec.core, hcore]; rfl)
    have hlast := hsame.onlyCore c.val
    refine ⟨t, ht, ?_, (hleft.onlyCoreAndRegs.trans hspec.only).trans hlast.onlyCoreAndRegs, ?_, ?_, ?_, ?_, ?_⟩
    · rw [hsame.2, hspec.core, hcore]
    · rw [State.reg64_congr (hlast.reg _) (hlast.reg _), hspec.adds, State.reg64_congr (hleft.reg _) (hleft.reg _)]
    · rw [State.reg64_congr (hlast.reg _) (hlast.reg _), hspec.sub, State.reg64_congr (hleft.reg _) (hleft.reg _)]
    · exact hspec.sat.of_reg (hleft.reg _) (hlast.reg _)
    · exact hspec.range.of_reg (hleft.reg _) (hlast.reg _)
    · exact ((hleft.regsSameBut _).trans hspec.regs).trans (hlast.regsSameBut _)
  · have hno : (((s.addLeft c.val rest).core c.val).tile tile).takesP64 = false := by
      rw [htile, ← Bool.not_eq_true, Tile.takesP64_iff]
      rcases hdrops with h | h | ⟨h, h'⟩ <;> simp_all
    have hdrop : ((s.addLeft c.val rest).p64Add c.val tile word v).1 = (s.addLeft c.val rest).bump32 (Reg.LEDG_REMOTE_DROP c.val) 1 := by
      rw [State.p64Add_dropped _ _ _ _ hno]
    have honly := hleft.onlyCoreAndRegs.trans (.bump32 (s.addLeft c.val rest) (Reg.LEDG_REMOTE_DROP c.val) 1 c.val)
    obtain ⟨t, ht, hsame⟩ := exec_p64Add_host ha hfree halone (hdrop ▸ honly) (by rw [hdrop, State.core_bump32, hcore])
    rw [hdrop] at hsame
    have hlast := hsame.onlyCore c.val
    refine ⟨t, ht, ?_, honly.trans hlast.onlyCoreAndRegs, ?_, ?_⟩
    · rw [hsame.2, State.core_bump32, hcore]
    · exact (CountedUp.bump32 _ _ 1).of_reg (hleft.reg _) (hlast.reg _)
    · exact ((hleft.regsSameBut _).trans (.bump32 _ 1 (by simp))).trans (hlast.regsSameBut _)

end Sys2Proof.Machine
end

section
/-! SUPPORT. Registers with a rule of their own (R93, R203, R335, R351, R380, R436). -/

namespace Sys2Proof.Machine

/-! Fields of a register. -/

/-- A number with the bits of a field taken out and `v` put in their place, as what lies below, in and above the field. -/
theorem replaceBits_eq (o lo len v : Nat) : o - bits o lo len * 2 ^ lo + v * 2 ^ lo =
    o % 2 ^ lo + 2 ^ lo * (2 ^ len * (o / 2 ^ lo / 2 ^ len) + v) := by
  have ho := Nat.mod_add_div o (2 ^ lo)
  have hq := Nat.mod_add_div (o / 2 ^ lo) (2 ^ len)
  unfold bits
  generalize o / 2 ^ lo % 2 ^ len = m at hq ⊢
  generalize 2 ^ len * (o / 2 ^ lo / 2 ^ len) = h at hq ⊢
  rw [← hq, Nat.mul_add, Nat.mul_comm (2 ^ lo) m] at ho
  rw [Nat.mul_add, Nat.mul_comm (2 ^ lo) v]
  omega

theorem bits_replaceBits (o lo : Nat) {len v : Nat} (hv : v < 2 ^ len) :
    bits (o - bits o lo len * 2 ^ lo + v * 2 ^ lo) lo len = v := by
  rw [replaceBits_eq, bits, Nat.add_mul_div_left _ _ (Nat.two_pow_pos lo), Nat.div_eq_of_lt (Nat.mod_lt _ (Nat.two_pow_pos lo)),
    Nat.zero_add, Nat.mul_add_mod, Nat.mod_eq_of_lt hv]

theorem replaceBits_lt {o lo len v n : Nat} (ho : o < 2 ^ n) (hv : v < 2 ^ len) (hn : lo + len ≤ n) :
    o - bits o lo len * 2 ^ lo + v * 2 ^ lo < 2 ^ n := by
  obtain ⟨k, rfl⟩ := Nat.exists_eq_add_of_le hn
  have hhigh : o / 2 ^ lo / 2 ^ len < 2 ^ k := by
    rw [Nat.div_div_eq_div_mul, ← Nat.pow_add]
    exact Nat.div_lt_of_lt_mul (by rwa [← Nat.pow_add])
  have hlow := Nat.mod_lt o (Nat.two_pow_pos lo)
  rw [replaceBits_eq]
  calc o % 2 ^ lo + 2 ^ lo * (2 ^ len * (o / 2 ^ lo / 2 ^ len) + v)
      < 2 ^ lo * (2 ^ len * (o / 2 ^ lo / 2 ^ len) + v + 1) := by rw [Nat.mul_add_one]; omega
    _ ≤ 2 ^ lo * (2 ^ len * (o / 2 ^ lo / 2 ^ len + 1)) := Nat.mul_le_mul_left _ (by rw [Nat.mul_add_one]; omega)
    _ ≤ 2 ^ lo * (2 ^ len * 2 ^ k) := Nat.mul_le_mul_left _ (Nat.mul_le_mul_left _ hhigh)
    _ = 2 ^ (lo + len + k) := by rw [← Nat.mul_assoc, ← Nat.pow_add, ← Nat.pow_add]

/-- A register after a write of one of its fields. -/
theorem State.regN_setField (s : State) (x : Nat) {lo len : Nat} (v : Nat) (h : lo + len ≤ 32) :
    (s.setField x lo len v).regN x = s.regN x - bits (s.regN x) lo len * 2 ^ lo + v % 2 ^ len * 2 ^ lo :=
  (s.regN_setRegN_same x _).trans
    (Nat.mod_eq_of_lt (replaceBits_lt (s.regN_lt x) (Nat.mod_lt _ (Nat.two_pow_pos len)) h))

theorem State.field_setField (s : State) (x : Nat) {lo len : Nat} (v : Nat) (h : lo + len ≤ 32) :
    (s.setField x lo len v).field x lo len = v % 2 ^ len := by
  rw [State.field, s.regN_setField x v h, bits_replaceBits _ _ (Nat.mod_lt _ (Nat.two_pow_pos len))]

/-! Writes of one register. -/

/-- One register alone may have changed. -/
def OnlyReg (s t : State) (x : Nat) : Prop := RegsSameBut s t [x] ∧ t = { s with regs := t.regs }

theorem OnlyReg.setReg (s : State) (x : Nat) (v : Word) : OnlyReg s (s.setReg x v) x :=
  ⟨fun _ hy => s.reg_setReg_other v (by simpa using hy), rfl⟩

theorem OnlyReg.setRegN (s : State) (x v : Nat) : OnlyReg s (s.setRegN x v) x := .setReg s x _

theorem OnlyReg.setField (s : State) (x lo len v : Nat) : OnlyReg s (s.setField x lo len v) x := .setRegN s x _

/-- An enabled step ends in its effect. -/
theorem ends_act {b : Bool} {s t : State} {P : State → Prop} (hb : b = true) (h : P t) : Ends (act b s t) P :=
  ⟨t, by rw [hb, act_true], h⟩

/-- A step that is not enabled leaves the state. -/
theorem act_of_false {b : Bool} (s t : State) (hb : b = false) : act b s t = .next s := by rw [hb, act_false]

/-! The writes. -/

section
variable (s : State) (r : Requester) (v : Word)

/-- A 1 clears a flag of a tile (R93). -/
theorem State.tileFlagsClear_core (c l : Nat) :
    ((s.tileFlagsClear c l v).core c).tile l = { (s.core c).tile l with
      sat := ((s.core c).tile l).sat && !v.getLsbD 0
      sub := ((s.core c).tile l).sub && !v.getLsbD 1
      range := ((s.core c).tile l).range && !v.getLsbD 2 } ∧
    (∀ j, j ≠ l → ((s.tileFlagsClear c l v).core c).tile j = (s.core c).tile j) ∧
    (s.tileFlagsClear c l v).core c = { s.core c with tiles := ((s.tileFlagsClear c l v).core c).tiles } := by
  have hcore : (s.tileFlagsClear c l v).core c = _ := s.core_modCore_same c _
  rw [hcore]
  refine ⟨?_, fun j hj => ?_, rfl⟩
  · rw [Core.tile_setTile, if_pos rfl]
  · rw [Core.tile_setTile, if_neg hj]

/-- A 1 clears the valid bit of an error record (R351). -/
theorem State.regN_clearValid (x : Nat) : (s.setField x 0 1 0).regN x = s.regN x / 2 * 2 := by
  rw [s.regN_setField x 0 (by decide)]
  unfold bits
  omega

/-- A present Churn takes writes of its PBT registers while no command runs or is parked (R380). -/
theorem State.churnPbt_ready {n : ChurnId} (hn : churnPresent s.variant n.val = true) (hr : (s.churn n.val).running = none)
    (hp : (s.churn n.val).parked = []) :
    (churnPresent s.variant n.val && (s.churn n.val).running.isNone && (s.churn n.val).parked.isEmpty) = true := by
  rw [hn, hr, hp]
  rfl

theorem exec_churnPbtWrite_busy {n : ChurnId} (h : (s.churn n.val).running ≠ none ∨ (s.churn n.val).parked ≠ []) (i : Fin 3) :
    exec (.churnPbtWrite r n i v) s = .next s := by
  refine act_of_false s _ ?_
  rcases h with h | h <;> simp [h]

end

/-- Settles O40: each write, by the rule of its register. -/
theorem guardedRegistersTakeWrites : Obligations.GuardedRegistersTakeWrites := by
  intro s r c l m n k v only tile
  have hsame {x w : Nat} (hw : w < 2 ^ 32) : (s.setRegN x w).regN x = w := (s.regN_setRegN_same x w).trans (Nat.mod_eq_of_lt hw)
  refine ⟨?flags, fun h => ?lost, fun h => ?notLost, fun h hm => ?record, fun h => ?split, fun h => ?splitBusy,
    fun hn => ⟨fun hr hp => ?pbt, fun h i => ?pbtBusy⟩, fun h => ?claim, fun hv hk => ?claimed⟩
  case flags =>
    obtain ⟨hl, hj, hk⟩ := s.tileFlagsClear_core v c.val l.val
    exact ⟨_, rfl, hl, hj, hk, .modCore s c.val _⟩
  case lost => exact ends_act h ⟨s.field_setField _ _ (by decide), OnlyReg.setField s _ 1 1 0⟩
  case notLost => exact act_of_false s _ h
  case record => exact ends_act (by rw [h, hm]; rfl) ⟨s.regN_clearValid _, OnlyReg.setField s _ 0 1 0⟩
  case split =>
    exact ends_act (beq_iff_eq.mpr h) ⟨(s.field_setField _ _ (by decide)).trans (Nat.mod_mod _ _), OnlyReg.setField s _ 0 6 _⟩
  case splitBusy => exact act_of_false s _ (beq_eq_false_iff_ne.mpr h)
  case pbt =>
    have hready := s.churnPbt_ready hn hr hp
    exact ⟨ends_act hready ⟨hsame (by omega), OnlyReg.setRegN s _ _⟩, ends_act hready ⟨s.reg_setReg_same _ v, OnlyReg.setReg s _ v⟩,
      ends_act hready ⟨hsame (by omega), OnlyReg.setRegN s _ _⟩⟩
  case pbtBusy => exact exec_churnPbtWrite_busy s r v h i
  case claim => exact ends_act (by rcases h with h | h <;> simp [h]) ⟨s.reg_setReg_same _ v, OnlyReg.setReg s _ v⟩
  case claimed => exact act_of_false s _ (Bool.or_eq_false_iff.mpr ⟨beq_eq_false_iff_ne.mpr hv, beq_eq_false_iff_ne.mpr hk⟩)

end Sys2Proof.Machine
end

section
/-! SUPPORT. Reads of LPDDR leave the scheduler, but for the task's first record (R344, R350, R467). -/

namespace Sys2Proof.Machine

/-- The scheduler is as it was, but for the task's first record. -/
def SchedHeld (s t : State) : Prop := t.sched = { s.sched with firstRec := t.sched.firstRec }

theorem SchedHeld.of_eq {s t : State} (h : t.sched = s.sched) : SchedHeld s t := by
  unfold SchedHeld
  rw [h]

theorem SchedHeld.refl (s : State) : SchedHeld s s := .of_eq rfl

theorem SchedHeld.trans {s t u : State} (h : SchedHeld s t) (h' : SchedHeld t u) : SchedHeld s u := by
  unfold SchedHeld at *
  rw [h', h]

/-- Work apart from the task's leaves the scheduler as it was. -/
theorem State.apart_eq (s : State) {f : State → State} (h : SchedHeld s (f s)) : s.apart f = { f s with sched := s.sched } := by
  have hsched : (f s).sched = { s.sched with firstRec := (f s).sched.firstRec } := h
  dsimp only [State.apart]
  rw [hsched]

/-- The queue of write-backs is no part of the scheduler. -/
theorem SchedHeld.writeBacks {s t : State} (h : SchedHeld s t) (w : List (Nat × List Byte)) : SchedHeld s { t with writeBacks := w } := h

/-- Nor is a package's count of corrected errors. -/
theorem SchedHeld.pkgCe {s t : State} (h : SchedHeld s t) (w : Tab Nat) : SchedHeld s { t with pkgCe := w } := h

theorem State.report_schedHeld (s : State) (e : DbEntry) : SchedHeld s (s.report e).1 := s.report_sched e

theorem State.setRegN_schedHeld (s : State) (x v : Nat) : SchedHeld s (s.setRegN x v) := .of_eq (s.setRegN_sched x v)

theorem State.setReg64_schedHeld (s : State) (x v : Nat) : SchedHeld s (s.setReg64 x v) := .of_eq (s.setReg64_sched x v)

theorem State.setField_schedHeld (s : State) (x lo len v : Nat) : SchedHeld s (s.setField x lo len v) :=
  .of_eq (s.setField_sched x lo len v)

theorem State.bump32_schedHeld (s : State) (x n : Nat) : SchedHeld s (s.bump32 x n) := .of_eq (s.bump32_sched x n)

theorem State.bump64_schedHeld (s : State) (x n : Nat) : SchedHeld s (s.bump64 x n) := .of_eq (s.bump64_sched x n)

/-! Events. -/

theorem State.wantMsix_schedHeld (s : State) (p v : Nat) : SchedHeld s (s.wantMsix p v) := by
  unfold State.wantMsix
  split <;> exact .refl s

theorem State.hostWrite_schedHeld (s : State) (p a : Nat) (bs : List Byte) : SchedHeld s (s.hostWrite p a bs) := by
  unfold State.hostWrite
  generalize p * 2 ^ 64 + a = k
  exact .refl s

theorem State.ringAdvTail_schedHeld (s : State) (r : Nat) : SchedHeld s (s.ringAdvTail r) := s.setRegN_schedHeld _ _

theorem State.cplPush_schedHeld (s : State) (r : Nat) (bs : List Byte) : SchedHeld s (s.cplPush r bs) := by
  have hwrite := s.hostWrite_schedHeld (s.ringPort r) (s.ringSlot r (s.ringTail r)) bs
  have hpush := (hwrite.trans (State.ringAdvTail_schedHeld _ r)).trans (State.bump64_schedHeld _ Reg.SPAD_RING_PUSHES_LO 1)
  unfold State.cplPush
  dsimp only
  split
  · exact hpush.trans (State.wantMsix_schedHeld ..)
  · exact hpush

theorem State.cplSqueezed_schedHeld (s : State) (r : Nat) : SchedHeld s (s.cplSqueezed r) := .refl s

theorem State.eventTo_schedHeld (s : State) (p : Nat) (bs : List Byte) : SchedHeld s (s.eventTo p bs) := by
  unfold State.eventTo
  split
  · exact .refl s
  · split
    · exact (s.cplPush_schedHeld _ bs).trans (State.cplSqueezed_schedHeld ..)
    · exact s.bump32_schedHeld _ 1

theorem State.postEvent_schedHeld (s : State) (severity origin unit inst code : Nat) (detail : List Byte) :
    SchedHeld s (s.postEvent severity origin unit inst code detail) := by
  have hreport := s.report_schedHeld (dbEvent severity origin unit inst 0 code detail)
  unfold State.postEvent
  generalize s.report (dbEvent severity origin unit inst 0 code detail) = p at hreport ⊢
  dsimp only
  exact (hreport.trans (State.eventTo_schedHeld ..)).trans (State.eventTo_schedHeld ..)

/-! Atoms. -/

theorem State.atomStored_schedHeld (s : State) (idx : Nat) : SchedHeld s (s.atomStored idx).1 := by
  unfold State.atomStored
  dsimp only
  split
  · exact .refl s
  · split <;> exact .refl s

theorem State.countCe_schedHeld (s : State) (chan : Nat) : SchedHeld s (s.countCe chan) := by
  have hcount := s.bump32_schedHeld (Reg.PWR_MEMC_CE chan) 1
  unfold State.countCe
  generalize s.bump32 (Reg.PWR_MEMC_CE chan) 1 = u at hcount ⊢
  have hpkg := hcount.pkgCe (tabSet 0 u.pkgCe (chan / 4) (tabGet 0 u.pkgCe (chan / 4) + 1))
  dsimp only
  generalize { u with pkgCe := tabSet 0 u.pkgCe (chan / 4) (tabGet 0 u.pkgCe (chan / 4) + 1) } = v at hpkg ⊢
  generalize (if chan / 4 < 32 then Reg.PWR_MEMMAP_WARN_LO else Reg.PWR_MEMMAP_WARN_HI) = x
  split
  · exact (hpkg.trans (v.setField_schedHeld ..)).trans (State.postEvent_schedHeld ..)
  · exact hpkg

theorem State.recordTime_schedHeld (s : State) (p : State × Nat) (hp : p = s.recordTime) : SchedHeld s p.1 := by
  subst hp
  exact .of_eq s.recordTime_sched

theorem State.reportUe_schedHeld (s : State) (idx : Nat) (address scrub : Bool) (core : Nat) :
    SchedHeld s (s.reportUe idx address scrub core).1 := by
  delta State.reportUe
  extract_lets m s1 s2 p
  have hcount : SchedHeld s s1 := s.bump32_schedHeld _ 1
  have hrecord : SchedHeld s s2 := by
    unfold s2
    split
    · exact hcount
    · exact (hcount.trans (s1.setReg64_schedHeld _ _)).trans (State.setRegN_schedHeld ..)
  have htime : SchedHeld s2 p.1 := s2.recordTime_schedHeld p rfl
  clear_value p
  exact (hrecord.trans htime).trans (p.1.report_schedHeld _)

/-- The state of a controller's answer. -/
def AnswerHeld (s : State) (a : State × Except Nat (List Byte)) : Prop := SchedHeld s a.1

theorem AnswerHeld.of {s t : State} (h : SchedHeld s t) (r : Except Nat (List Byte)) : AnswerHeld s (t, r) := h

theorem State.atomAnswer_schedHeld (s : State) (idx chan : Nat) (scrub : Bool) (core : Nat) (r : AtomRead) :
    AnswerHeld s (s.atomAnswer idx chan scrub core r) := by
  cases r with
  | clean d => rw [State.atomAnswer]; exact .of (.refl s) _
  | corrected d => rw [State.atomAnswer]; exact .of ((s.countCe_schedHeld chan).writeBacks _) _
  | bad address => rw [State.atomAnswer]; exact .of (s.reportUe_schedHeld idx address scrub core) _

theorem State.atomRead_schedHeld (s : State) (idx : Nat) (scrub : Bool) (core : Nat) : SchedHeld s (s.atomRead idx scrub core).1 :=
  ((s.atomStored_schedHeld idx).trans (State.bump64_schedHeld ..)).trans (State.atomAnswer_schedHeld ..)

theorem State.atomsRead_schedHeld (n : Nat) (s : State) (idx core : Nat) : SchedHeld s (s.atomsRead idx core n).1 := by
  induction n generalizing s idx with
  | zero => exact .refl s
  | succ n ih =>
    have hread := s.atomRead_schedHeld idx false core
    unfold State.atomsRead
    split
    · exact ih s (idx + 1)
    · split
      · next heq => exact SchedHeld.trans (by rwa [heq] at hread) (ih _ (idx + 1))
      · next heq => exact SchedHeld.trans (by rwa [heq] at hread) (ih _ (idx + 1))

theorem State.lpddrRead_schedHeld (s : State) (a len core : Nat) : SchedHeld s (s.lpddrRead a len core).1 := by
  unfold State.lpddrRead
  split
  · exact .refl s
  · split
    · exact .refl s
    · exact State.atomsRead_schedHeld _ s _ core

end Sys2Proof.Machine
end

section
/-! SUPPORT. Host apertures, unassigned offsets and ledger add views (R92, R420–R422). -/

namespace Sys2Proof.Machine

section
variable (s : State) (port : HostPort)

/-! The error reporting of a port (R419). -/

/-- A port's error reporting with one uncorrectable error more noted. -/
def PcieCfg.noted (c : PcieCfg) (bit : Nat) : PcieCfg :=
  { c with aer := { c.aer with uncStatus := c.aer.uncStatus ||| 1#32 <<< bit } }

theorem PcieCfg.noted_bit (c : PcieCfg) {bit : Nat} (h : bit < 32) : (c.noted bit).aer.uncStatus.getLsbD bit = true := by
  simp [PcieCfg.noted, h]

/-! Accesses through BAR2 (R420, R421). -/

theorem State.inBar_of_le {p o len : Nat} (hlen : 0 < len) (h : o + len ≤ 2 ^ s.barLog p * 2 ^ 30) : s.inBar p o len = true := by
  rw [State.inBar, decide_eq_true hlen, decide_eq_true h]
  rfl

theorem State.bar2Read_beyond {p o len : Nat} (h : s.lpddrEnd < s.aperture p o + len) :
    s.bar2Read p o len = ((s.bump32 (Reg.HOST_APT_RANGE p) 1).noteAer p 20).reply p 1 0 [] := by
  rw [State.bar2Read, if_pos (show s.beyond p o len = true from decide_eq_true h)]

theorem State.bar2Read_inside {p o len : Nat} {u : State} {bs : List Byte} {st : AccStatus} (h : s.aperture p o + len ≤ s.lpddrEnd)
    (hread : s.lpddrRead (s.aperture p o) len 0xFF = (u, bs, st)) :
    s.bar2Read p o len = if st.code = 0 then u.reply p 0 0 bs else (u.noteAer p 15).reply p 2 0 [] := by
  have hb : ¬ s.beyond p o len = true := by
    rw [State.beyond, decide_eq_true_eq]
    omega
  rw [State.bar2Read, if_neg hb, hread]

theorem State.bar2Write_beyond {p o : Nat} {bs : List Byte} (h : s.lpddrEnd < s.aperture p o + bs.length) :
    s.bar2Write p o bs = s.bump32 (Reg.HOST_APT_RANGE p) 1 := by
  rw [State.bar2Write, if_pos (show s.beyond p o bs.length = true from decide_eq_true h)]

theorem State.bar2Write_inside {p o : Nat} {bs : List Byte} {u : State} {st : AccStatus} (h : s.aperture p o + bs.length ≤ s.lpddrEnd)
    (hwrite : s.lpddrWrite (s.aperture p o) bs 0xFF = (u, st)) : s.bar2Write p o bs = u := by
  have hb : ¬ s.beyond p o bs.length = true := by
    rw [State.beyond, decide_eq_true_eq]
    omega
  rw [State.bar2Write, if_neg hb, hwrite]

theorem exec_bar2Read {offset : BitVec 48} {len : Nat} (hlen : 0 < len)
    (h : offset.toNat + len ≤ 2 ^ s.barLog (hostNum port) * 2 ^ 30) :
    exec (.bar2Read port offset len) s = .next (s.apart (·.bar2Read (hostNum port) offset.toNat len)) := by
  change act (s.inBar (hostNum port) offset.toNat len) s _ = _
  rw [s.inBar_of_le hlen h, act_true]

theorem exec_bar2Write {offset : BitVec 48} {bytes : List Byte} (hbytes : bytes ≠ [])
    (h : offset.toNat + bytes.length ≤ 2 ^ s.barLog (hostNum port) * 2 ^ 30) :
    exec (.bar2Write port offset bytes) s = .next (s.apart (·.bar2Write (hostNum port) offset.toNat bytes)) := by
  change act (s.inBar (hostNum port) offset.toNat bytes.length) s _ = _
  rw [s.inBar_of_le (List.length_pos_iff.mpr hbytes) h, act_true]

end

/-- What an aperture access that is refused leaves of the state `w` that it reached: the error is noted and a failure is answered. -/
structure AccessRefused (w t : State) (p kind bit : Nat) : Prop where
  regs : ∀ x, t.reg x = w.reg x
  reply : replied t p kind 0 []
  cfg : t.cfg p = (w.cfg p).noted bit
  other : t.cfg (1 - p) = w.cfg (1 - p)
  rest : t = { w with
    replies := t.replies
    sched := t.sched
    hosts := { w.hosts with cfgA := t.hosts.cfgA, cfgB := t.hosts.cfgB } }

theorem State.apart_atTarget (s : State) {f : State → State} {u : State} (h : f s = u) : atTarget u (s.apart f) := by
  subst h
  rfl

theorem State.refuseAccess (w : State) (port : HostPort) (kind bit : Nat) (x : Sched) :
    AccessRefused w { (w.noteAer (hostNum port) bit).reply (hostNum port) kind 0 [] with sched := x } (hostNum port) kind bit where
  regs _ := by cases port <;> rfl
  reply := State.reply_same _ _ _ _ _
  cfg := by cases port <;> rfl
  other := by cases port <;> rfl
  rest := by cases port <;> rfl

theorem State.noteAer_sched (s : State) (p bit : Nat) : (s.noteAer p bit).sched = s.sched := by
  unfold State.noteAer State.modCfg
  split <;> rfl

theorem State.cfg_congr {s t : State} (h : t.hosts = s.hosts) (p : Nat) : t.cfg p = s.cfg p := by
  unfold State.cfg
  rw [h]

/-- A count of one event leaves every other register and the rest of the state. -/
theorem CountedUp.bump32_only (s : State) (x : Nat) :
    (CountedUp s (s.bump32 x 1) x 1 ∧ RegsSameBut s (s.bump32 x 1) [x]) ∧ s.bump32 x 1 = { s with regs := (s.bump32 x 1).regs } :=
  ⟨⟨.bump32 s x 1, s.bump32_regsSameBut x 1⟩, s.bump32_eq x 1⟩

theorem State.answers_answer_host (s : State) (port : HostPort) (v : Dword) :
    tabGet 0 (s.answer (.host port) v).answers (hostNum port) = v := by
  have hnum : reqNum (.host port) = hostNum port := by cases port <;> rfl
  rw [← hnum]
  exact tabGet_set_same _ _ _ _

/-- A size that is written takes effect while memory space is disabled (R420). -/
theorem PcieCfg.resize_eq (c : PcieCfg) (v : Nat) : c.resize v = { c with bar := if c.command.getLsbD 1 = true then c.bar else v } := by
  unfold PcieCfg.resize PcieCfg.memory
  split <;> rfl

/-- A read beyond LPDDR is counted, noted and answered Unsupported Request (R421). -/
theorem State.apart_bar2Read_beyond (s : State) (port : HostPort) {o len : Nat}
    (h : s.lpddrEnd < s.aperture (hostNum port) o + len) :
    let w := s.bump32 (Reg.HOST_APT_RANGE (hostNum port)) 1
    AccessRefused w (s.apart (·.bar2Read (hostNum port) o len)) (hostNum port) 1 20 ∧
      (s.apart (·.bar2Read (hostNum port) o len)).sched = s.sched := by
  have hsched : SchedHeld s (s.bar2Read (hostNum port) o len) := by
    rw [s.bar2Read_beyond h]
    exact .of_eq ((State.noteAer_sched _ _ 20).trans (s.bump32_sched _ 1))
  rw [s.apart_eq hsched, s.bar2Read_beyond h]
  exact ⟨State.refuseAccess _ port 1 20 s.sched, rfl⟩

/-- A read that memory answers, or fails (R421). -/
theorem State.apart_bar2Read_inside (s : State) (port : HostPort) {o len : Nat} {u : State} {bs : List Byte} {st : AccStatus}
    (h : s.aperture (hostNum port) o + len ≤ s.lpddrEnd)
    (hread : s.lpddrRead (s.aperture (hostNum port) o) len 0xFF = (u, bs, st)) :
    s.apart (·.bar2Read (hostNum port) o len) = { (if st.code = 0 then u.reply (hostNum port) 0 0 bs
      else (u.noteAer (hostNum port) 15).reply (hostNum port) 2 0 []) with sched := s.sched } := by
  have hu := s.lpddrRead_schedHeld (s.aperture (hostNum port) o) len 0xFF
  rw [hread] at hu
  have hsched : SchedHeld s (s.bar2Read (hostNum port) o len) := by
    rw [s.bar2Read_inside h hread]
    split
    · exact hu
    · exact hu.trans (.of_eq (u.noteAer_sched _ 15))
  rw [s.apart_eq hsched, s.bar2Read_inside h hread]

theorem aperturesAndAddViews_holds : aperturesAndAddViews := by
  intro s u port offset len bytes x wr c o wide v size p z a ranged noted cfgs
  refine ⟨fun hlen hbar => ⟨fun hend => ?readBeyond, fun bs st hend hread => ?readInside⟩,
    fun hbytes hbar => ⟨fun hend => ?writeBeyond, fun st hend hwrite => ?writeInside⟩,
    fun hx => ?unmapped, fun hx => ?mapped, fun hw ho => ⟨fun hroom => ?add, fun hfull => ?addFull⟩, fun hw => ?addBad,
    fun hsize hr => ?resize, fun hsize hr => ?resizeRetry, fun hsize => ?resizeNot⟩
  case readBeyond =>
    obtain ⟨⟨hcount, hregs⟩, hw⟩ := CountedUp.bump32_only s (Reg.HOST_APT_RANGE p)
    obtain ⟨hrefused, hsched⟩ := s.apart_bar2Read_beyond port hend
    have hhosts : (s.bump32 (Reg.HOST_APT_RANGE p) 1).hosts = s.hosts := s.bump32_hosts _ 1
    change AccessRefused (s.bump32 (Reg.HOST_APT_RANGE p) 1) _ _ _ _ at hrefused
    rw [exec_bar2Read s port hlen hbar]
    generalize s.bump32 (Reg.HOST_APT_RANGE p) 1 = w at *
    generalize s.apart (·.bar2Read (hostNum port) offset.toNat len) = t at *
    refine ⟨t, rfl, ⟨hcount.of_reg rfl (hrefused.regs _), fun y hy => (hrefused.regs y).trans (hregs y hy)⟩, hrefused.reply,
      ⟨?_, ?_⟩, ?_⟩
    · exact hrefused.cfg.trans (by rw [State.cfg_congr hhosts]; rfl)
    · exact hrefused.other.trans (State.cfg_congr hhosts _)
    · have hsame : t.regs = w.regs := by rw [hrefused.rest]
      refine hrefused.rest.trans ?_
      rw [hsched, hsame, hw]
  case readInside =>
    rw [exec_bar2Read s port hlen hbar, s.apart_bar2Read_inside port hend hread]
    refine ⟨_, rfl, fun hok => ?_, fun hbad => ?_⟩
    · rw [if_pos hok]
      exact ⟨State.reply_same _ _ _ _ _, rfl⟩
    · rw [if_neg hbad]
      have hrefused := u.refuseAccess port 2 15 s.sched
      exact ⟨hrefused.reply, by rw [hrefused.cfg]; exact PcieCfg.noted_bit _ (by decide), hrefused.rest⟩
  case writeBeyond =>
    obtain ⟨hranged, hw⟩ := CountedUp.bump32_only s (Reg.HOST_APT_RANGE p)
    rw [exec_bar2Write s port hbytes hbar, s.apart_eq (by rw [s.bar2Write_beyond hend]; exact s.bump32_schedHeld _ 1),
      s.bar2Write_beyond hend]
    refine ⟨_, rfl, hranged, ?_⟩
    change { s.bump32 (Reg.HOST_APT_RANGE p) 1 with sched := s.sched } = { s with regs := (s.bump32 (Reg.HOST_APT_RANGE p) 1).regs }
    rw [hw]
  case writeInside =>
    rw [exec_bar2Write s port hbytes hbar]
    exact ⟨_, rfl, s.apart_atTarget (s.bar2Write_inside hend hwrite)⟩
  case unmapped =>
    obtain ⟨⟨hcount, hregs⟩, hw⟩ := CountedUp.bump32_only s (Reg.HOST_UNMAPPED p)
    refine ends_act (show (!mapAssigns x.toNat) = true by rw [hx]; rfl) ?_
    generalize s.bump32 (Reg.HOST_UNMAPPED p) 1 = w at hcount hregs hw
    cases wr with
    | true => exact ⟨hcount, hregs, nofun, hw⟩
    | false => exact ⟨hcount, hregs, fun _ => w.answers_answer_host port 0, by rw [hw]; rfl⟩
  case mapped => exact act_of_false s _ (by rw [hx]; rfl)
  case add =>
    have hact : exec (.addViewWrite port c o wide v) s = act _ s _ := if_pos ⟨hw, ho⟩
    rw [hact]
    exact ends_act (decide_eq_true hroom) ⟨s.core_modCore_same _ _, .modCore s _ _⟩
  case addFull =>
    have hact : exec (.addViewWrite port c o wide v) s = act _ s _ := if_pos ⟨hw, ho⟩
    rw [hact]
    exact act_of_false s _ (decide_eq_false (Nat.not_lt.mpr hfull))
  case addBad =>
    have hno : ¬ (wide = true ∧ o.toNat % 8 = 0) := by
      rcases hw with hw | hw <;> simp [hw]
    exact ⟨_, if_neg hno, s.reply_same _ _ _ _, rfl⟩
  case resize =>
    refine ends_act (decide_eq_true hsize) ?_
    obtain ⟨hcfg, hother, hreply, hrest⟩ := s.configWrite_ready port (·.resize size.toNat) hr
    exact ⟨hcfg.trans (PcieCfg.resize_eq _ _), hother, hreply, hrest⟩
  case resizeRetry =>
    refine ends_act (decide_eq_true hsize) ?_
    rw [s.configWrite_notReady _ _ hr]
    exact ⟨s.reply_same _ _ _ _, rfl⟩
  case resizeNot => exact act_of_false s _ (decide_eq_false (Nat.not_le.mpr hsize))

end Sys2Proof.Machine
end

section
/-! SUPPORT. Port resets and links (R437–R439, R515). -/

namespace Sys2Proof.Machine

/-! Registers in place. -/

theorem State.field_congr {s t : State} {x : Nat} (h : t.reg x = s.reg x) (lo len : Nat) : t.field x lo len = s.field x lo len := by
  unfold State.field
  rw [State.regN_congr h]

/-- Changes of registers alone, one after another. -/
theorem onlyRegs_trans {s t u : State} (h : t = { s with regs := t.regs }) (h' : u = { t with regs := u.regs }) :
    u = { s with regs := u.regs } := by
  rw [h', h]

/-- The registers of the host rings lie below those of Sisyn and of the ports. -/
theorem ringReg_lt {ring j : Nat} (hr : ring < 17408) (hj : j < 8) : ringReg ring j < 0x04400000 := by
  unfold ringReg Reg.SPAD_RING_CFG
  omega

theorem ringReg_ne_of_ring_ne {a b i j : Nat} (h : a ≠ b) (hi : i < 8) (hj : j < 8) : ringReg a i ≠ ringReg b j := by
  unfold ringReg Reg.SPAD_RING_CFG
  omega

/-! Rings bound to a port. -/

/-- What a port reset asks of a ring: its kind, port, head and tail. -/
structure RingReadsAs (s t : State) (ring : Nat) : Prop where
  kind : t.ringKind ring = s.ringKind ring
  port : t.ringPort ring = s.ringPort ring
  head : t.ringHead ring = s.ringHead ring
  tail : t.ringTail ring = s.ringTail ring

theorem RingReadsAs.of_regs {s t : State} {ring : Nat} (h : ∀ j, j < 8 → t.reg (ringReg ring j) = s.reg (ringReg ring j)) :
    RingReadsAs s t ring :=
  ⟨State.field_congr (h 2 (by decide)) _ _, State.field_congr (h 2 (by decide)) _ _, State.regN_congr (h 3 (by decide)),
    State.regN_congr (h 4 (by decide))⟩

theorem RingReadsAs.trans {s t u : State} {ring : Nat} (h : RingReadsAs s t ring) (h' : RingReadsAs t u ring) : RingReadsAs s u ring :=
  ⟨h'.kind.trans h.kind, h'.port.trans h.port, h'.head.trans h.head, h'.tail.trans h.tail⟩

theorem RingReadsAs.hosts (s : State) (h : HostState) (ring : Nat) : RingReadsAs s { s with hosts := h } ring := ⟨rfl, rfl, rfl, rfl⟩

/-- A ring bound to port `p` is disabled and empty; any other is as it was (R437). -/
structure Unbound (p : Nat) (s t : State) (ring : Nat) : Prop where
  disabled : s.ringPort ring = p → t.ringKind ring = 0
  others : s.ringPort ring ≠ p → RingReadsAs s t ring
  emptied : s.ringPort ring = p → s.ringKind ring ≠ 0 → t.ringHead ring = 0 ∧ t.ringTail ring = 0

theorem Unbound.after {p : Nat} {s t u : State} {ring : Nat} (h : RingReadsAs s t ring) (h' : Unbound p t u ring) : Unbound p s u ring :=
  ⟨fun hp => h'.disabled (h.port.trans hp), fun hp => h.trans (h'.others (h.port ▸ hp)),
    fun hp hk => h'.emptied (h.port.trans hp) (h.kind ▸ hk)⟩

theorem Unbound.before {p : Nat} {s t u : State} {ring : Nat} (h : Unbound p s t ring) (h' : RingReadsAs t u ring) : Unbound p s u ring :=
  ⟨fun hp => h'.kind.trans (h.disabled hp), fun hp => (h.others hp).trans h',
    fun hp hk => ⟨h'.head.trans (h.emptied hp hk).1, h'.tail.trans (h.emptied hp hk).2⟩⟩

section
variable (s : State) (p ring : Nat)

theorem State.unbindRing_eq : s.unbindRing p ring = { s with regs := (s.unbindRing p ring).regs } := by
  unfold State.unbindRing
  split <;> rfl

theorem State.unbindRing_regsSameBut : RegsSameBut s (s.unbindRing p ring) [ringReg ring 2, ringReg ring 3, ringReg ring 4] := by
  unfold State.unbindRing
  split
  · exact (((OnlyReg.setField s _ 9 4 0).1.mono (by simp)).trans ((OnlyReg.setRegN _ _ 0).1.mono (by simp))).trans
      ((OnlyReg.setRegN _ _ 0).1.mono (by simp))
  · exact .refl s _

theorem State.unbindRing_unbound : Unbound p s (s.unbindRing p ring) ring := by
  unfold State.unbindRing
  split
  · next hbound =>
    have h23 : ringReg ring 2 ≠ ringReg ring 3 := fun h => absurd (ringReg_inj h) (by decide)
    have h24 : ringReg ring 2 ≠ ringReg ring 4 := fun h => absurd (ringReg_inj h) (by decide)
    have h34 : ringReg ring 3 ≠ ringReg ring 4 := fun h => absurd (ringReg_inj h) (by decide)
    refine ⟨fun _ => ?_, fun hp => absurd hbound.2 hp, fun _ _ => ⟨?_, ?_⟩⟩
    · exact (State.field_congr ((State.reg_setRegN_other _ _ h24).trans (State.reg_setRegN_other _ _ h23)) 9 4).trans
        (s.field_setField _ 0 (by decide))
    · exact (State.regN_congr (State.reg_setRegN_other _ _ h34)).trans (State.regN_setRegN_same _ _ 0)
    · exact State.regN_setRegN_same _ _ 0
  · next hnot =>
    have hkind (hp : s.ringPort ring = p) : s.ringKind ring = 0 := by
      by_contra hk
      exact hnot ⟨hk, hp⟩
    exact ⟨hkind, fun _ => ⟨rfl, rfl, rfl, rfl⟩, fun hp hk => absurd (hkind hp) hk⟩

/-- The unbinding of another ring. -/
theorem State.unbindRing_other {other : Nat} (h : other ≠ ring) : RingReadsAs s (s.unbindRing p other) ring :=
  .of_regs fun j hj => s.unbindRing_regsSameBut p other _ (by
    simp [ringReg_ne_of_ring_ne h.symm hj (show 2 < 8 by decide), ringReg_ne_of_ring_ne h.symm hj (show 3 < 8 by decide),
      ringReg_ne_of_ring_ne h.symm hj (show 4 < 8 by decide)])

end

/-- Rings unbound one after another. -/
def State.unbindList (s : State) (p : Nat) (l : List Nat) : State := l.foldl (fun t ring => t.unbindRing p ring) s

theorem State.unbindRings_eq_list (s : State) (p : Nat) :
    s.unbindRings p = s.unbindList p ((List.range 1024).map (16384 + ·)) := by
  rw [State.unbindList, List.foldl_map]
  rfl

theorem State.unbindList_eq (p : Nat) (l : List Nat) (s : State) : s.unbindList p l = { s with regs := (s.unbindList p l).regs } := by
  induction l generalizing s with
  | nil => rfl
  | cons r l ih => exact onlyRegs_trans (s.unbindRing_eq p r) (ih _)

theorem State.unbindList_notMem (p : Nat) {ring : Nat} {l : List Nat} (h : ring ∉ l) (s : State) :
    RingReadsAs s (s.unbindList p l) ring := by
  induction l generalizing s with
  | nil => exact ⟨rfl, rfl, rfl, rfl⟩
  | cons r l ih =>
    rw [List.mem_cons, not_or] at h
    exact (s.unbindRing_other p ring (Ne.symm h.1)).trans (ih h.2 _)

theorem State.unbindList_mem (p : Nat) {ring : Nat} {l : List Nat} (hl : l.Nodup) (h : ring ∈ l) (s : State) :
    Unbound p s (s.unbindList p l) ring := by
  induction l generalizing s with
  | nil => cases h
  | cons r l ih =>
    rw [List.nodup_cons] at hl
    rcases List.mem_cons.mp h with rfl | h
    · exact (s.unbindRing_unbound p ring).before (State.unbindList_notMem p hl.1 _)
    · exact .after (s.unbindRing_other p ring (by rintro rfl; exact hl.1 h)) (ih hl.2 h _)

/-- Unbinding host rings leaves the registers of Sisyn and of the ports. -/
theorem State.unbindList_reg (p : Nat) {l : List Nat} (hl : ∀ ring ∈ l, ring < 17408) {x : Nat} (hx : 0x04400000 ≤ x) (s : State) :
    (s.unbindList p l).reg x = s.reg x := by
  induction l generalizing s with
  | nil => rfl
  | cons r l ih =>
    rw [List.forall_mem_cons] at hl
    have hne (j : Nat) (hj : j < 8) : x ≠ ringReg r j := fun h => absurd (ringReg_lt hl.1 hj) (by omega)
    refine (ih hl.2 _).trans (s.unbindRing_regsSameBut p r x ?_)
    simp [hne]

/-! The reset of a port (R437). -/

/-- A daybook entry that no task's work causes leaves the scheduler as it was (R467). -/
theorem State.report_notOfWork (s : State) {e : DbEntry} (h : e.ofWork = false) : (s.report e).1 = { s with
    regs := (s.report e).1.regs
    free := (s.report e).1.free
    dbQueue := (s.report e).1.dbQueue
    dbNext := (s.report e).1.dbNext } := by
  have hwork (seq time boot task : Nat) : ({ e with seq, time, boot, task } : DbEntry).ofWork = false := h
  unfold State.report
  split
  · exact s.bump32_eq _ 1
  · simp only [hwork, Bool.false_eq_true, and_false, if_false]
    rfl

/-- The registers of a port that its reset changes hold zero at reset. -/
theorem regReset_portResetRegs (v : Variant) (port : HostPort) :
    regReset v (Reg.HOST_APT_BASE (hostNum port)) = 0 ∧ regReset v (Reg.HOST_EVENT_RING (hostNum port)) = 0 := by
  cases port <;> cases v <;> decide

theorem hostStatus_notMem_portResetRegs (p : Nat) : Reg.HOST_STATUS p ∉ portResetRegs p := by
  simp [portResetRegs, Reg.HOST_STATUS, Reg.HOST_APT_BASE, Reg.HOST_EVENT_RING, Reg.HOST_IRQ_HOLDOFF]

section
variable (s : State) (p : Nat)

theorem State.setPerst_eq (v : Bool) : s.setPerst p v = { s with power := (s.setPerst p v).power } := by
  unfold State.setPerst
  split <;> rfl

theorem State.setPerst_reg (v : Bool) (x : Nat) : (s.setPerst p v).reg x = s.reg x := by
  rw [s.setPerst_eq]
  rfl

theorem State.unbindRings_eq : s.unbindRings p = { s with regs := (s.unbindRings p).regs } := by
  rw [s.unbindRings_eq_list]
  exact State.unbindList_eq p _ s

/-- The host rings are 16384 to 17407 (R195). -/
theorem State.unbindRings_unbound {ring : Nat} (hlo : 16384 ≤ ring) (hhi : ring < 17408) : Unbound p s (s.unbindRings p) ring := by
  rw [s.unbindRings_eq_list]
  refine State.unbindList_mem p (List.nodup_range.map fun _ _ h => Nat.add_left_cancel h) ?_ s
  exact List.mem_map.mpr ⟨ring - 16384, List.mem_range.mpr (by omega), by omega⟩

theorem State.unbindRings_reg {x : Nat} (hx : 0x04400000 ≤ x) : (s.unbindRings p).reg x = s.reg x := by
  rw [s.unbindRings_eq_list]
  refine State.unbindList_reg p (fun ring hr => ?_) hx s
  obtain ⟨i, hi, rfl⟩ := List.mem_map.mp hr
  have := List.mem_range.mp hi
  omega

/-! The stages of a port reset. -/

/-- The hosts' side, the rings and the port's registers are reset. -/
def State.portEmptied : State := (({ s with hosts := s.portHosts p } : State).unbindRings p).clearRegs (portResetRegs p)

/-- The link's state and PERST# follow the kind of the reset. -/
def State.portCleared (kind : PortResetKind) : State :=
  let s := if kind = .functionLevel then s.portEmptied p else (s.portEmptied p).setRegN (Reg.HOST_STATUS p) 0
  if kind = .perst then s.setPerst p true else s

/-- Then it is counted and has its daybook entry. -/
theorem State.portReset_eq (kind : PortResetKind) : s.portReset p kind =
    (((s.portCleared p kind).bump32 (Reg.HOST_RESETS p) 1).report (dbEvent 0 2 0x70 p 0 0 [])).1 := rfl

theorem State.portEmptied_eq : s.portEmptied p = { s with regs := (s.portEmptied p).regs, hosts := s.portHosts p } :=
  onlyRegs_trans (State.unbindRings_eq _ p) (State.clearRegs_eq _ _)

theorem State.portEmptied_reg (x : Nat) : (s.portEmptied p).reg x =
    if x ∈ portResetRegs p then regReset s.variant x else (({ s with hosts := s.portHosts p } : State).unbindRings p).reg x := by
  have hvariant : (({ s with hosts := s.portHosts p } : State).unbindRings p).variant = s.variant := by rw [State.unbindRings_eq]
  rw [State.portEmptied, State.reg_clearRegs, hvariant]

theorem State.portCleared_functionLevel : s.portCleared p .functionLevel = s.portEmptied p := by
  unfold State.portCleared
  rw [if_pos rfl, if_neg (by decide)]

theorem State.portCleared_perst : s.portCleared p .perst = ((s.portEmptied p).setRegN (Reg.HOST_STATUS p) 0).setPerst p true := by
  unfold State.portCleared
  rw [if_pos rfl, if_neg (by decide)]

theorem State.portCleared_other {kind : PortResetKind} (hf : kind ≠ .functionLevel) (hp : kind ≠ .perst) :
    s.portCleared p kind = (s.portEmptied p).setRegN (Reg.HOST_STATUS p) 0 := by
  unfold State.portCleared
  rw [if_neg hf, if_neg hp]

/-- A port's side of the part alone has changed: registers, the hosts' side as its reset leaves it, and PERST#. -/
def OnlyPort (t : State) : Prop := t = { s with regs := t.regs, hosts := s.portHosts p, power := t.power }

theorem OnlyPort.regs {s t u : State} {p : Nat} (h : OnlyPort s p t) (h' : u = { t with regs := u.regs }) : OnlyPort s p u := by
  unfold OnlyPort at *
  rw [h', h]

theorem OnlyPort.power {s t u : State} {p : Nat} (h : OnlyPort s p t) (h' : u = { t with power := u.power }) : OnlyPort s p u := by
  unfold OnlyPort at *
  rw [h', h]

theorem State.portEmptied_onlyPort : OnlyPort s p (s.portEmptied p) := by
  unfold OnlyPort
  rw [s.portEmptied_eq]

theorem State.portCleared_onlyPort (kind : PortResetKind) : OnlyPort s p (s.portCleared p kind) := by
  have hemptied := s.portEmptied_onlyPort p
  have hdown := hemptied.regs (OnlyReg.setRegN _ (Reg.HOST_STATUS p) 0).2
  cases kind with
  | functionLevel => exact hemptied
  | perst => rw [s.portCleared_perst]; exact hdown.power (State.setPerst_eq _ p true)
  | hotReset => rw [s.portCleared_other (kind := .hotReset) p (by decide) (by decide)]; exact hdown
  | linkDown => rw [s.portCleared_other (kind := .linkDown) p (by decide) (by decide)]; exact hdown

theorem State.portCleared_reg (kind : PortResetKind) {x : Nat} (hx : x ≠ Reg.HOST_STATUS p) :
    (s.portCleared p kind).reg x = (s.portEmptied p).reg x := by
  have hdown : ((s.portEmptied p).setRegN (Reg.HOST_STATUS p) 0).reg x = (s.portEmptied p).reg x := State.reg_setRegN_other _ 0 hx
  cases kind with
  | functionLevel => rw [s.portCleared_functionLevel]
  | perst => rw [s.portCleared_perst, State.setPerst_reg, hdown]
  | hotReset => rw [s.portCleared_other (kind := .hotReset) p (by decide) (by decide), hdown]
  | linkDown => rw [s.portCleared_other (kind := .linkDown) p (by decide) (by decide), hdown]

/-- The link goes down but for a Function Level Reset. -/
theorem State.portCleared_status (kind : PortResetKind) : (s.portCleared p kind).reg (Reg.HOST_STATUS p) =
    if kind = .functionLevel then s.reg (Reg.HOST_STATUS p) else 0 := by
  have hdown : ((s.portEmptied p).setRegN (Reg.HOST_STATUS p) 0).reg (Reg.HOST_STATUS p) = 0 := State.reg_setRegN_same _ _ 0
  cases kind with
  | functionLevel =>
    rw [s.portCleared_functionLevel, s.portEmptied_reg, if_neg (hostStatus_notMem_portResetRegs p), if_pos rfl]
    exact State.unbindRings_reg _ p (by unfold Reg.HOST_STATUS; omega)
  | perst => rw [s.portCleared_perst, State.setPerst_reg, hdown, if_neg (by decide)]
  | hotReset => rw [s.portCleared_other (kind := .hotReset) p (by decide) (by decide), hdown, if_neg (by decide)]
  | linkDown => rw [s.portCleared_other (kind := .linkDown) p (by decide) (by decide), hdown, if_neg (by decide)]

theorem State.perst_setPerst (v : Bool) : (s.setPerst p v).perst p = v := by
  unfold State.setPerst State.perst
  split <;> rfl

/-! What a port reset leaves. -/

theorem State.portReset_reg (kind : PortResetKind) {x : Nat} (hl : x ≠ Reg.SISYN_DB_LOST) (hr : x ≠ Reg.HOST_RESETS p) :
    (s.portReset p kind).reg x = (s.portCleared p kind).reg x := by
  rw [s.portReset_eq, State.report_reg_other _ _ hl, State.reg_bump32_other _ 1 hr]

/-- Beside the port's side a reset changes the count of resets and the daybook's queue, and of the scheduler nothing. -/
theorem State.portReset_onlyPort (kind : PortResetKind) : s.portReset p kind = { s with
    regs := (s.portReset p kind).regs
    hosts := s.portHosts p
    power := (s.portCleared p kind).power
    free := (s.portReset p kind).free
    dbQueue := (s.portReset p kind).dbQueue
    dbNext := (s.portReset p kind).dbNext } := by
  have hcount := (s.portCleared_onlyPort p kind).regs (State.bump32_eq _ (Reg.HOST_RESETS p) 1)
  have hpower : ((s.portCleared p kind).bump32 (Reg.HOST_RESETS p) 1).power = (s.portCleared p kind).power := State.bump32_power _ _ _
  rw [s.portReset_eq]
  generalize (s.portCleared p kind).bump32 (Reg.HOST_RESETS p) 1 = w at hcount hpower ⊢
  have hreport := w.report_notOfWork (e := dbEvent 0 2 0x70 p 0 0 []) rfl
  generalize (w.report (dbEvent 0 2 0x70 p 0 0 [])).1 = t at hreport ⊢
  rw [hreport, ← hpower]
  unfold OnlyPort at hcount
  rw [hcount]

theorem State.portReset_ringReadsAs (kind : PortResetKind) {ring : Nat} (hr : ring < 17408) :
    RingReadsAs (({ s with hosts := s.portHosts p } : State).unbindRings p) (s.portReset p kind) ring := by
  refine .of_regs fun j hj => ?_
  have hx := ringReg_lt hr hj
  generalize ringReg ring j = x at hx ⊢
  have hout : x ∉ portResetRegs p := by
    simp only [portResetRegs, List.mem_cons, List.not_mem_nil, or_false, Reg.HOST_APT_BASE, Reg.HOST_EVENT_RING, Reg.HOST_IRQ_HOLDOFF]
    omega
  rw [s.portReset_reg, s.portCleared_reg, s.portEmptied_reg, if_neg hout]
  all_goals
    simp only [Reg.SISYN_DB_LOST, Reg.HOST_RESETS, Reg.HOST_STATUS]
    omega

theorem State.portReset_unbound (kind : PortResetKind) {ring : Nat} (hlo : 16384 ≤ ring) (hhi : ring < 17408) :
    Unbound p s (s.portReset p kind) ring := by
  have hhosts := RingReadsAs.hosts s (s.portHosts p) ring
  have hlast := s.portReset_ringReadsAs p kind hhi
  generalize ({ s with hosts := s.portHosts p } : State) = u at hhosts hlast
  exact (Unbound.after hhosts (u.unbindRings_unbound p hlo hhi)).before hlast

/-- A register that the reset clears holds zero. -/
theorem State.portReset_cleared (kind : PortResetKind) {x : Nat} (hx : x ∈ portResetRegs p) :
    (s.portReset p kind).reg x = regReset s.variant x := by
  have hne : x ≠ Reg.SISYN_DB_LOST ∧ x ≠ Reg.HOST_RESETS p ∧ x ≠ Reg.HOST_STATUS p := by
    simp only [portResetRegs, List.mem_cons, List.not_mem_nil, or_false, Reg.HOST_APT_BASE, Reg.HOST_EVENT_RING,
      Reg.HOST_IRQ_HOLDOFF] at hx
    simp only [Reg.SISYN_DB_LOST, Reg.HOST_RESETS, Reg.HOST_STATUS]
    omega
  rw [s.portReset_reg p kind hne.1 hne.2.1, s.portCleared_reg p kind hne.2.2, s.portEmptied_reg, if_pos hx]

theorem State.portReset_counted (kind : PortResetKind) : CountedUp s (s.portReset p kind) (Reg.HOST_RESETS p) 1 := by
  have hlost : Reg.HOST_RESETS p ≠ Reg.SISYN_DB_LOST := by
    simp only [Reg.SISYN_DB_LOST, Reg.HOST_RESETS]
    omega
  have hstatus : Reg.HOST_RESETS p ≠ Reg.HOST_STATUS p := by simp [Reg.HOST_RESETS, Reg.HOST_STATUS]
  have hout : Reg.HOST_RESETS p ∉ portResetRegs p := by
    simp [portResetRegs, Reg.HOST_RESETS, Reg.HOST_APT_BASE, Reg.HOST_EVENT_RING, Reg.HOST_IRQ_HOLDOFF]
  refine (CountedUp.bump32 (s.portCleared p kind) _ 1).of_reg ?_ ?_
  · rw [s.portCleared_reg p kind hstatus, s.portEmptied_reg, if_neg hout]
    exact State.unbindRings_reg _ p (by simp only [Reg.HOST_RESETS]; omega)
  · rw [s.portReset_eq, State.report_reg_other _ _ hlost]

theorem State.portReset_status (kind : PortResetKind) : (s.portReset p kind).reg (Reg.HOST_STATUS p) =
    if kind = .functionLevel then s.reg (Reg.HOST_STATUS p) else 0 := by
  rw [s.portReset_reg, s.portCleared_status]
  all_goals
    simp only [Reg.SISYN_DB_LOST, Reg.HOST_RESETS, Reg.HOST_STATUS]
    omega

/-- The MSI-X table of the port is as at reset: every vector is masked (R437). -/
theorem State.bar4Byte_portHosts {t : State} (h : t.hosts = s.portHosts p) {o : Nat} (ho : o < 2 ^ 16) :
    t.bar4Byte p o = if o < 0x8000 ∧ o % 16 = 12 then 1 else 0 := by
  have hkey : (p * 2 ^ 16 + o) / 2 ^ 16 = p := by omega
  have hbar : t.hosts.bar4 = tabDrop (fun k => k / 2 ^ 16 == p) s.hosts.bar4 := by
    rw [h]
    rfl
  rw [State.bar4Byte, hbar, tabGet, tabFind_drop, if_pos (beq_iff_eq.mpr hkey), Option.getD_none]
  exact BitVec.zero_xor

end

/-! Links (R419, R438, R439). -/

/-- The links that a port supports. -/
theorem linkValid_iff (l : LinkInfo) : linkValid l = true ↔ 1 ≤ l.speed.toNat ∧ l.speed.toNat ≤ 6 ∧ l.width.toNat ∈ [1, 2, 4, 8] ∧
    (l.flit = true ↔ l.speed.toNat = 6) := by
  have hrate : linkRates.contains l.speed.toNat = true ↔ 1 ≤ l.speed.toNat ∧ l.speed.toNat ≤ 6 := by
    rw [List.contains_iff_mem]
    simp only [linkRates, List.mem_cons, List.not_mem_nil, or_false]
    omega
  have hwidth : linkWidths.contains l.width.toNat = true ↔ l.width.toNat ∈ [1, 2, 4, 8] := by
    rw [List.contains_iff_mem]
    simp only [linkWidths, List.mem_cons, List.not_mem_nil, or_false]
    omega
  have hflit : (l.flit == (l.speed.toNat == 6)) = true ↔ (l.flit = true ↔ l.speed.toNat = 6) := by
    cases l.flit <;> simp
  rw [linkValid, Bool.and_eq_true, Bool.and_eq_true, hrate, hwidth, hflit, and_assoc, and_assoc]

/-- HOST_STATUS of a link that is up. -/
theorem State.linkUp_fields (s : State) (p : Nat) (l : LinkInfo) :
    let t := s.linkUp p l
    t.field (Reg.HOST_STATUS p) 0 1 = b2n s.power.loaded ∧ t.field (Reg.HOST_STATUS p) 1 1 = 1 ∧
    t.field (Reg.HOST_STATUS p) 2 1 = b2n l.flit ∧ t.field (Reg.HOST_STATUS p) 3 3 = l.speed.toNat ∧
    t.field (Reg.HOST_STATUS p) 6 4 = l.width.toNat := by
  have hspeed := l.speed.isLt
  have hwidth := l.width.isLt
  have hbit (b : Bool) : b2n b ≤ 1 := by cases b <;> decide
  have hloaded := hbit s.power.loaded
  have hflit := hbit l.flit
  intro t
  have hreg : t.regN (Reg.HOST_STATUS p) = b2n s.power.loaded + 2 + 4 * b2n l.flit + 8 * l.speed.toNat + 64 * l.width.toNat := by
    refine (s.regN_setRegN_same _ _).trans ?_
    simp only [packBits, List.foldl_cons, List.foldl_nil]
    omega
  unfold State.field bits
  rw [hreg]
  omega

theorem exec_portReset (s : State) (port : HostPort) (kind : PortResetKind) :
    exec (.portReset port kind) s = .next (s.portReset (hostNum port) kind) := rfl

theorem portResetsAndLinks_holds : portResetsAndLinks := by
  intro s port kind refclk link p fits
  refine ⟨⟨s.portReset p kind, exec_portReset s port kind, ?reset⟩, fun h => ?release, fun h => ?released, ?refclk,
    fun ht hf => ?up, fun h => ?notUp⟩
  case reset =>
    have honly := s.portReset_onlyPort p kind
    have hhosts : (s.portReset p kind).hosts = s.portHosts p := by rw [honly]
    have hunbound {ring : Nat} (hlo : 16384 ≤ ring) (hhi : ring < 17408) := s.portReset_unbound p kind hlo hhi
    obtain ⟨hbase, hevent⟩ := regReset_portResetRegs s.variant port
    refine ⟨fun ring hlo hhi => ⟨fun hp => (hunbound hlo hhi).disabled hp, fun hp => ?_, (hunbound hlo hhi).emptied⟩, ?_, ?_,
      fun o ho => s.bar4Byte_portHosts p hhosts ho, ?_, ?_, s.portReset_counted p kind, ?_, fun hk => ?_, ?_⟩
    · obtain ⟨hkind, -, hhead, htail⟩ := (hunbound hlo hhi).others hp
      exact ⟨hkind, hhead, htail⟩
    · unfold State.cfg
      rw [hhosts]
      cases port <;> rfl
    · unfold State.cfg
      rw [hhosts]
      cases port <;> rfl
    · exact (s.portReset_cleared p kind (by simp [portResetRegs])).trans hbase
    · exact (s.portReset_cleared p kind (by simp [portResetRegs])).trans hevent
    · have hstatus := s.portReset_status p kind
      split
      · next hk => rwa [if_pos hk] at hstatus
      · next hk => rwa [if_neg hk] at hstatus
    · subst hk
      have hpower : (s.portReset p .perst).power = (s.portCleared p .perst).power := by rw [honly]
      unfold State.perst
      rw [hpower, s.portCleared_perst]
      exact State.perst_setPerst _ p true
    · rw [hhosts]
      refine ⟨fun e he => ?_, fun e he => ?_, fun e he => ?_, rfl, rfl, by rw [honly], by rw [honly]⟩
      · simpa using (List.mem_filter.mp he).2
      · simpa using (List.mem_filter.mp he).2
      · simpa using (List.mem_filter.mp he).2
  case release =>
    refine ends_act h ?_
    cases port <;> exact ⟨rfl, rfl, rfl⟩
  case released => exact act_of_false s _ h
  case refclk => cases port <;> exact ⟨_, rfl, rfl, rfl, rfl⟩
  case up =>
    obtain ⟨hready, hlink, hflit, hspeed, hwidth⟩ := s.linkUp_fields p link
    refine ends_act (by rw [ht, (linkValid_iff link).mpr hf]; rfl) ⟨hready, hlink, hflit, hspeed, hwidth, OnlyReg.setRegN s _ _⟩
  case notUp =>
    refine act_of_false s _ ?_
    rcases h with h | h
    · rw [h]
      rfl
    · rw [Bool.eq_false_iff.mpr (mt (linkValid_iff link).mp h), Bool.and_false]

/-- Settles O52: accesses of a host, and resets of its port, each by its own lemma. -/
theorem hostPortsAccessAndReset : Obligations.HostPortsAccessAndReset := ⟨aperturesAndAddViews_holds, portResetsAndLinks_holds⟩

end Sys2Proof.Machine
end

section
/-! SUPPORT. The family 05_the_mint.md: the instructions that pass into the Sequencer queue, with the Mint's tables as their stores
copy them. -/

namespace Sys2Proof.Machine

/-! Ngaosh instructions as commands (R215–R217). -/

/-- Every command that a Clerk takes is passed by it, with the effect that the list of bodies gives it. -/
theorem exec_ngaosh {i : Instr} {w : Clerked} (hw : clerkOf i = some w) (s : State) : exec i s = s.clerk i (clerkBody i) := by
  cases i <;> cases hw <;> rfl

/-- The Clerk goes on past an instruction that has started an operation: no register counts it yet (R235). -/
theorem State.clerkAt_onlyCore (s : State) {c ops : Nat} (pc : Nat) (h : (s.core c).nextOp ≠ ops) :
    OnlyCore s (s.clerkAt c pc ops) c := by
  unfold State.clerkAt
  dsimp only
  rw [State.core_modCore_same, if_neg h]
  exact OnlyCore.modCore s c _

section

variable {s : State} {i : Instr} {w : Clerked} {c : Nat} (hw : clerkOf i = some w) (hc : w.core = c) (hp : s.passes i = true)
include hw hc hp

/-- A Clerk that an instruction passes runs, has not stopped, and waits for nothing. -/
theorem State.clerk_free_of_passes :
    (s.core c).running = true ∧ (s.core c).stopped = false ∧ (s.core c).waiting = none := by
  subst hc
  simp only [State.passes, State.meets, hw, Core.takes, Bool.and_eq_true, Bool.not_eq_true', Option.isNone_iff_eq_none] at hp
  obtain ⟨⟨⟨⟨⟨⟨⟨⟨⟨hrun, hstop⟩, -⟩, -⟩, hwait⟩, -⟩, -⟩, -⟩, -⟩, -⟩ := hp
  exact ⟨hrun, hstop, hwait⟩

/-- An instruction whose body starts one operation and changes its own core alone passes, and the Clerk goes on. -/
theorem State.exec_starts {t : State} (hnext : (s.core c).hasNext = true) (hbody : clerkBody i s = .pass t)
    (honly : OnlyCore s t c) (hop : (t.core c).nextOp = (s.core c).nextOp + 1) :
    Ends (exec i s) (fun u => u.core c = (t.core c).goesOnAt ((s.core c).pc + 1) ∧ OnlyCore s u c) := by
  subst hc
  have hlt : (s.core w.core).pc + 1 < (s.core w.core).progLen := by simpa [Core.hasNext] using hnext
  refine ⟨t.clerkAt w.core ((s.core w.core).pc + 1) (s.core w.core).nextOp, ?_, t.clerkAt_core .., honly.trans ?_⟩
  · rw [exec_ngaosh hw, s.clerk_passes i _ w hw hp, hbody]
    simp [State.clerkAfter, hlt]
  · exact t.clerkAt_onlyCore _ (by omega)

/-- An instruction whose body meets a fault stops the core with its code (R216, R507). -/
theorem State.exec_faults {code : Nat} (hbody : clerkBody i s = .fault s code) :
    Ends (exec i s) (fun t => StoppedWith s t c code) := by
  obtain ⟨hrun, hstop, -⟩ := State.clerk_free_of_passes hw hc hp
  subst hc
  refine ⟨_, ?_, s.stopCore_stoppedWith { Stop.of code with pc := some (s.core w.core).pc } hrun hstop rfl⟩
  rw [exec_ngaosh hw, s.clerk_passes i _ w hw hp, hbody]
  rfl

end

/-! Passing into the Sequencer queue (R222, R225). -/

/-- Of core `c`, an operation has started and waits at the end of the Sequencer queue. -/
def State.queued (s : State) (c : Nat) (cls : OpClass) (gd : Nat) (o : SeqOp) : State :=
  (s.newOp c cls gd 0 false).1.modCore c (fun k => { k with seq := k.seq ++ [o] })

section

variable {s : State} {c : Nat} {cls : OpClass} {gd : Nat} {o : SeqOp}

theorem State.queued_onlyCore : OnlyCore s (s.queued c cls gd o) c :=
  .trans (t := (s.newOp c cls gd 0 false).1) (OnlyCore.modCore s c (fun _ => _)) (OnlyCore.modCore _ c _)

/-- What the Clerk goes on with once an operation is queued is the core that has passed an operation, with its longer queue. -/
theorem State.queued_core (hwait : (s.core c).waiting = none) : ((s.queued c cls gd o).core c).goesOnAt ((s.core c).pc + 1) =
    { (s.core c).passedOp cls gd 0 false none with seq := (s.core c).seq ++ [o] } := by
  simp [State.queued, State.newOp, Core.goesOnAt, Core.passedOp, hwait]

theorem State.queued_nextOp : ((s.queued c cls gd o).core c).nextOp = (s.core c).nextOp + 1 := by
  simp [State.queued, State.newOp]

/-- An instruction that names epoch 0 or an open epoch, of a kind that may, meets no fault of R229. -/
theorem Core.epochFault_none {k : Core} {e : Nat} (h : e = 0 ∨ k.epoch e = .opened) : k.epochFault e true = none := by
  unfold Core.epochFault
  rcases h with h | h <;> simp [h]

theorem State.passSeq_queued (hroom : (s.core c).seq.length < 32) (hepoch : o.epoch = 0 ∨ (s.core c).epoch o.epoch = .opened) :
    s.passSeq c cls gd o = .pass (s.queued c cls gd o) := by
  simp [State.passSeq, hroom, Core.epochFault_none hepoch, State.queued]

/-- An instruction that hands an operation to a Sequencer queue with room passes with it, and nothing else changes. -/
theorem State.exec_enqueues {i : Instr} {w : Clerked} (hw : clerkOf i = some w) (hc : w.core = c) (hp : s.passes i = true)
    (hnext : (s.core c).hasNext = true) (hroom : (s.core c).seq.length < 32)
    (hepoch : o.epoch = 0 ∨ (s.core c).epoch o.epoch = .opened) (hbody : clerkBody i s = s.passSeq c cls gd o) :
    Ends (exec i s) (fun t =>
      t.core c = { (s.core c).passedOp cls gd 0 false none with seq := (s.core c).seq ++ [o] } ∧ OnlyCore s t c) := by
  obtain ⟨-, -, hwait⟩ := State.clerk_free_of_passes hw hc hp
  have hstart := State.exec_starts hw hc hp hnext (hbody.trans (State.passSeq_queued hroom hepoch)) State.queued_onlyCore
    State.queued_nextOp
  rwa [State.queued_core hwait] at hstart

end

/-! What each instruction hands over, and the epochs that it refuses (R229, R291, R296, R298, R299). -/

section

variable (s : State) (c : CoreId)

theorem bodyTmul_enqueues (f : FmtX)
    (h : if bitOf ((s.core c.val).greg (f.gr.toNat + 1)).toNat 0 then
      f.gr.toNat ≤ 29 ∧ (s.core c.val).pendingG (f.gr.toNat + 2) = false else f.dd = 0 ∧ f.df = 0) :
    bodyTmul c f s = s.passSeq c.val .tensor 0
      ((s.core c.val).seqEntry (.tmul f) f.epoch.toNat f.slip.toNat [f.dw.toNat, f.da.toNat, f.dd.toNat, f.df.toNat]
        [f.gr.toNat, f.gr.toNat + 1, if bitOf ((s.core c.val).greg (f.gr.toNat + 1)).toNat 0 then f.gr.toNat + 2 else 0]
        (s.mintTables c.val)) := by
  unfold bodyTmul
  cases hnest : bitOf ((s.core c.val).greg (f.gr.toNat + 1)).toNat 0
  · obtain ⟨hdd, hdf⟩ : f.dd = 0 ∧ f.df = 0 := by simpa [hnest] using h
    simp [hnest, hdd, hdf]
  · obtain ⟨hgr, hpend⟩ : f.gr.toNat ≤ 29 ∧ (s.core c.val).pendingG (f.gr.toNat + 2) = false := by simpa [hnest] using h
    simp [hnest, hgr, hpend]

/-- Whether a TSTORE is of a kind that may name an epoch (R229): it has no side output, and its destination is a pail. -/
def State.storesToPail (f : FmtS) : Prop :=
  sideOutputs ((s.core c.val).greg f.gw.toNat) = false ∧ s.destPail c.val (Desc.of ((s.core c.val).dreg f.dd.toNat)) = true

/-- A TSTORE that names a fused descriptor only where its store word does meets the fault of R229, or enters the queue. -/
theorem bodyTstore_cases (f : FmtS) (hdf : f.df = 0 ∨ noFusedDesc ((s.core c.val).greg f.gw.toNat) = false) :
    (f.epoch ≠ 0 ∧ ¬ s.storesToPail c f ∧ bodyTstore c f s = .fault s Code.epochKind) ∨
    ((f.epoch = 0 ∨ s.storesToPail c f) ∧ bodyTstore c f s = s.passSeq c.val .tensor 0
      ((s.core c.val).seqEntry (.tstore f) f.epoch.toNat f.slip.toNat [f.dd.toNat, f.df.toNat] [f.gw.toNat, f.go.toNat]
        (s.mintTables c.val))) := by
  have hlegal : ¬ (f.df ≠ 0 ∧ noFusedDesc ((s.core c.val).greg f.gw.toNat) = true) := by
    rcases hdf with h | h <;> simp [h]
  have hkind : ¬ s.storesToPail c f ↔ sideOutputs ((s.core c.val).greg f.gw.toNat) = true ∨
      s.destPail c.val (Desc.of ((s.core c.val).copyD f.dd.toNat).bits) = false := by
    simp [State.storesToPail, Core.copyD, Classical.or_iff_not_imp_left]
  unfold bodyTstore
  dsimp only
  rw [if_neg hlegal]
  split
  · next h => exact .inl ⟨h.1, hkind.mpr h.2, rfl⟩
  · next h =>
    refine .inr ⟨?_, rfl⟩
    rwa [← hkind, not_and_not_right, ← or_iff_not_imp_left] at h

theorem bodySetclass_enqueues (f : FmtE) : bodySetclass c f s = s.passSeq c.val .setclass 0
    ((s.core c.val).seqEntry (.setclass (f.imm.toNat % 4) (f.imm.toNat / 4 % 16)) 0 0 [] [] []) := by
  simp [bodySetclass, bits]

end

/-! SETPREC (R226). -/

/-- Of core `c`, a SETPREC waits at the end of the Sequencer queue, and its precision is in force at pass. -/
def State.precQueued (s : State) (c : Nat) (pr : Prec) : State :=
  (s.queued c .other 0 ((s.core c).seqEntry (.setprec pr) 0 0 [] [] [])).modCore c (fun k => { k with precPass := some pr })

section

variable {s : State}

theorem State.precQueued_onlyCore (c : Nat) (pr : Prec) : OnlyCore s (s.precQueued c pr) c :=
  State.queued_onlyCore.trans (OnlyCore.modCore _ c _)

theorem State.precQueued_nextOp (c : Nat) (pr : Prec) : ((s.precQueued c pr).core c).nextOp = (s.core c).nextOp + 1 := by
  simp [State.precQueued, State.queued_nextOp]

theorem State.precQueued_core {c : Nat} (pr : Prec) (hwait : (s.core c).waiting = none) :
    ((s.precQueued c pr).core c).goesOnAt ((s.core c).pc + 1) = { (s.core c).passedOp .other 0 0 false none with
      seq := (s.core c).seq ++ [(s.core c).seqEntry (.setprec pr) 0 0 [] [] []]
      precPass := some pr } := by
  simp [State.precQueued, State.queued, State.newOp, Core.goesOnAt, Core.passedOp, hwait]

theorem bodySetprec_queued {c : CoreId} (f : FmtE) (hroom : (s.core c.val).seq.length < 32) :
    bodySetprec c f s = .pass (s.precQueued c.val (Prec.ofNat f.imm.toNat)) := by
  have hpass := State.passSeq_queued (cls := .other) (gd := 0)
    (o := (s.core c.val).seqEntry (.setprec (Prec.ofNat f.imm.toNat)) 0 0 [] [] []) hroom (.inl rfl)
  simp only [bodySetprec, hpass, State.precQueued]

/-- SETPREC enters the queue with the precision that it sets, which is in force for what passes after it. -/
theorem State.exec_setprec {c : CoreId} {p : Pred} {f : FmtE} (hp : s.passes (.setprec c p f) = true)
    (hnext : (s.core c.val).hasNext = true) (hroom : (s.core c.val).seq.length < 32) :
    Ends (exec (.setprec c p f) s) (fun t =>
      t.core c.val = { (s.core c.val).passedOp .other 0 0 false none with
        seq := (s.core c.val).seq ++ [(s.core c.val).seqEntry (.setprec (Prec.ofNat f.imm.toNat)) 0 0 [] [] []]
        precPass := some (Prec.ofNat f.imm.toNat) } ∧ OnlyCore s t c.val) := by
  obtain ⟨-, -, hwait⟩ := State.clerk_free_of_passes (c := c.val) rfl rfl hp
  have hstart := State.exec_starts (c := c.val) rfl rfl hp hnext (bodySetprec_queued f hroom) (State.precQueued_onlyCore _ _)
    (State.precQueued_nextOp _ _)
  rwa [State.precQueued_core _ hwait] at hstart

end

/-- Settles O13: each instruction by what its body hands to the queue, or by the fault of its epoch. The bodies of TINGEST, MATCH,
MERGE and SELECT are one test of the epoch. -/
theorem sequencerInstructionsEnterTheQueue : Obligations.SequencerInstructionsEnterTheQueue := by
  unfold Obligations.SequencerInstructionsEnterTheQueue
  intro s c p x y w n e k nest tables storeKind hnext hroom
  refine ⟨?entered, ?sintEpoch, fun hp he => State.exec_faults rfl rfl hp (if_pos he), fun hp he hdf hkind => ?tstoreEpoch,
    fun hp => State.exec_setprec hp hnext hroom⟩
  case entered =>
    simp only [List.forall_mem_cons]
    refine ⟨fun hp he hshape _ _ _ => ?tmul, fun hp he _ _ _ _ => ?tmul2, fun hp he _ hkind _ _ => ?tstore,
      fun hp he _ _ _ _ => ?tclear, fun hp he _ _ h0 _ => ?tingest, fun hp he _ _ _ h0 => ?sintMatch,
      fun hp he _ _ _ h0 => ?sintMerge, fun hp he _ _ _ _ => ?sintPairs, fun hp he _ _ _ h0 => ?sintSelect,
      fun hp he _ _ _ _ => ?setclass, fun _ h => absurd h List.not_mem_nil⟩
    all_goals refine State.exec_enqueues rfl rfl hp hnext hroom he ?_
    case tmul => exact bodyTmul_enqueues s c x (hshape trivial)
    case tmul2 => rfl
    case tstore =>
      obtain ⟨hdf, hok⟩ := hkind trivial
      rcases bodyTstore_cases s c w hdf with ⟨hepoch, hno, -⟩ | ⟨-, hbody⟩
      · exact (hok.elim hepoch hno).elim
      · exact hbody
    case tclear => rfl
    case tingest => exact if_neg (not_not.mpr (h0 trivial))
    case sintMatch => exact if_neg (not_not.mpr (h0 (.inl trivial)))
    case sintMerge => exact if_neg (not_not.mpr (h0 (.inr (.inl trivial))))
    case sintPairs => rfl
    case sintSelect => exact if_neg (not_not.mpr (h0 (.inr (.inr trivial))))
    case setclass => exact bodySetclass_enqueues s c e
  case sintEpoch =>
    simp only [List.forall_mem_cons]
    exact ⟨fun hp he => State.exec_faults rfl rfl hp (if_pos he), fun hp he => State.exec_faults rfl rfl hp (if_pos he),
      fun hp he => State.exec_faults rfl rfl hp (if_pos he), fun _ h => absurd h List.not_mem_nil⟩
  case tstoreEpoch =>
    rcases bodyTstore_cases s c w hdf with ⟨-, -, hbody⟩ | ⟨hok, -⟩
    · exact State.exec_faults rfl rfl hp hbody
    · exact (hok.elim he hkind).elim

end Sys2Proof.Machine
end

section
/-! SUPPORT. The ends of epochs, and the statement about them (R153, R231, R232). -/

namespace Sys2Proof.Machine

/-! A change of the places of a core that pass a test. -/

/-- A pass over places, each once, changes a place of the list by its old value alone, for a change of one place leaves the others. -/
theorem get_foldl_changeWhere {α : Type} {get : Core → Nat → α} {set : Core → Nat → α → Core} {p : α → Prop} [DecidablePred p] {f : α → α}
    (hget : ∀ k i j v, get (set k i v) j = if j = i then v else get k j) {l : List Nat} (hl : l.Nodup) (k : Core) (i : Nat) :
    get (l.foldl (fun k j => if p (get k j) then set k j (f (get k j)) else k) k) i =
      if i ∈ l ∧ p (get k i) then f (get k i) else get k i := by
  induction l generalizing k with
  | nil => simp
  | cons j l ih =>
    obtain ⟨hj, hl⟩ := List.nodup_cons.mp hl
    rw [List.foldl_cons, ih hl]
    rcases eq_or_ne i j with rfl | hij
    · by_cases hp : p (get k i) <;> simp [hj, hp, hget]
    · have hother : get (if p (get k j) then set k j (f (get k j)) else k) i = get k i := by
        split
        · rw [hget, if_neg hij]
        · rfl
      simp only [hother, List.mem_cons, hij, false_or]

section

variable (k : Core) (e : Nat)

theorem Core.pail_setPail (i j : Nat) (v : Pail) : (k.setPail i v).pail j = if j = i then v else k.pail j := tabGet_set _ _ _ _ _

theorem Core.epoch_setEpoch (v : EpochSt) (x : Nat) : (k.setEpoch e v).epoch x = if x = e then v else k.epoch x :=
  tabGet_set _ _ _ _ _

@[simp] theorem Core.tile_setEpoch (v : EpochSt) (l : Nat) : (k.setEpoch e v).tile l = k.tile l := rfl

@[simp] theorem Core.pail_setEpoch (v : EpochSt) (i : Nat) : (k.setEpoch e v).pail i = k.pail i := rfl

/-! The pails and the shadow tiles of an epoch. -/

theorem Core.pail_epochPails (f : Pail → Pail) {i : Nat} (hi : i < 64) :
    (k.epochPails e f).pail i = if (k.pail i).epoch = e then f (k.pail i) else k.pail i := by
  have h := get_foldl_changeWhere (p := fun x => x.epoch = e) (f := f) Core.pail_setPail (List.nodup_range (n := 64)) k i
  rw [← Core.epochPails] at h
  rw [h]
  simp only [List.mem_range, hi, true_and]

theorem Core.tile_epochTiles (f : Tile → Tile) {l : Nat} (hl : l < 8) :
    (k.epochTiles e f).tile l = if (k.tile l).st = .shadow ∧ (k.tile l).epoch = e then f (k.tile l) else k.tile l := by
  have h := get_foldl_changeWhere (p := fun x => x.st = .shadow ∧ x.epoch = e) (f := f) Core.tile_setTile
    (List.nodup_range (n := 8)) k l
  rw [← Core.epochTiles] at h
  rw [h]
  simp only [List.mem_range, hl, true_and]

/-- Beside pails nothing of the core changes. -/
theorem Core.epochPails_eq (f : Pail → Pail) : k.epochPails e f = { k with pails := (k.epochPails e f).pails } := by
  unfold Core.epochPails
  generalize List.range 64 = places
  refine List.foldlRecOn (motive := fun x : Core => x = { k with pails := x.pails }) _ _ rfl fun x hx i _ => ?_
  split
  · rw [hx]
    rfl
  · exact hx

/-- Beside tiles nothing of the core changes. -/
theorem Core.epochTiles_eq (f : Tile → Tile) : k.epochTiles e f = { k with tiles := (k.epochTiles e f).tiles } := by
  unfold Core.epochTiles
  generalize List.range 8 = places
  refine List.foldlRecOn (motive := fun x : Core => x = { k with tiles := x.tiles }) _ _ rfl fun x hx l _ => ?_
  split
  · rw [hx]
    rfl
  · exact hx

@[simp] theorem Core.tile_epochPails (f : Pail → Pail) (l : Nat) : (k.epochPails e f).tile l = k.tile l := by
  have htiles := congrArg Core.tiles (k.epochPails_eq e f)
  rw [Core.tile, htiles, Core.tile]

@[simp] theorem Core.epoch_epochPails (f : Pail → Pail) (x : Nat) : (k.epochPails e f).epoch x = k.epoch x := by
  have hepochs := congrArg Core.epochs (k.epochPails_eq e f)
  rw [Core.epoch, hepochs, Core.epoch]

@[simp] theorem Core.pail_epochTiles (f : Tile → Tile) (i : Nat) : (k.epochTiles e f).pail i = k.pail i := by
  have hpails := congrArg Core.pails (k.epochTiles_eq e f)
  rw [Core.pail, hpails, Core.pail]

@[simp] theorem Core.epoch_epochTiles (f : Tile → Tile) (x : Nat) : (k.epochTiles e f).epoch x = k.epoch x := by
  have hepochs := congrArg Core.epochs (k.epochTiles_eq e f)
  rw [Core.epoch, hepochs, Core.epoch]

/-! The two ends. -/

/-- A core once its verified epoch `e` has committed (R153, R231). -/
def Core.committed : Core := (k.epochTiles e Tile.commit).setEpoch e .free

/-- A core once its squashed epoch `e` has ended (R153, R232). -/
def Core.vanished : Core := ((k.epochPails e (fun _ => Pail.reset)).epochTiles e Tile.squash).setEpoch e .free

theorem Core.tile_committed {l : Nat} (hl : l < 8) : (k.committed e).tile l =
    if (k.tile l).st = .shadow ∧ (k.tile l).epoch = e then (k.tile l).commit else k.tile l := by
  rw [Core.committed, Core.tile_setEpoch, Core.tile_epochTiles _ _ _ hl]

theorem Core.epoch_committed (x : Nat) : (k.committed e).epoch x = if x = e then .free else k.epoch x := by
  rw [Core.committed, Core.epoch_setEpoch, Core.epoch_epochTiles]

theorem Core.committed_eq : k.committed e = { k with tiles := (k.committed e).tiles, epochs := (k.committed e).epochs } := by
  have htiles := k.epochTiles_eq e Tile.commit
  unfold Core.committed
  generalize k.epochTiles e Tile.commit = x at *
  rw [htiles]
  rfl

theorem Core.tile_vanished {l : Nat} (hl : l < 8) : (k.vanished e).tile l =
    if (k.tile l).st = .shadow ∧ (k.tile l).epoch = e then (k.tile l).squash else k.tile l := by
  rw [Core.vanished, Core.tile_setEpoch, Core.tile_epochTiles _ _ _ hl, Core.tile_epochPails]

theorem Core.pail_vanished {i : Nat} (hi : i < 64) :
    (k.vanished e).pail i = if (k.pail i).epoch = e then Pail.reset else k.pail i := by
  rw [Core.vanished, Core.pail_setEpoch, Core.pail_epochTiles, Core.pail_epochPails _ _ _ hi]

theorem Core.epoch_vanished (x : Nat) : (k.vanished e).epoch x = if x = e then .free else k.epoch x := by
  rw [Core.vanished, Core.epoch_setEpoch, Core.epoch_epochTiles, Core.epoch_epochPails]

theorem Core.vanished_eq : k.vanished e = { k with
    tiles := (k.vanished e).tiles
    pails := (k.vanished e).pails
    epochs := (k.vanished e).epochs } := by
  have hpails := k.epochPails_eq e (fun _ => Pail.reset)
  have htiles := (k.epochPails e (fun _ => Pail.reset)).epochTiles_eq e Tile.squash
  unfold Core.vanished
  generalize (k.epochPails e (fun _ => Pail.reset)).epochTiles e Tile.squash = y at *
  generalize k.epochPails e (fun _ => Pail.reset) = x at *
  rw [htiles, hpails]
  rfl

end

theorem exec_epochCommit (s : State) (c : CoreId) (e : BitVec 4) : exec (.epochCommit c e) s =
    act ((s.core c.val).epoch e.toNat == .endingVerify && (s.core c.val).seq.all (fun o => o.epoch != e.toNat)) s
      (s.modCore c.val (·.committed e.toNat)) := rfl

theorem exec_epochFree (s : State) (c : CoreId) (e : BitVec 4) : exec (.epochFree c e) s =
    act ((s.core c.val).epoch e.toNat == .endingSquash && (s.core c.val).dma.all (fun x => x.epoch != e.toNat)) s
      (s.modCore c.val (·.vanished e.toNat)) := rfl

/-- The test of an epoch's end: its state, and nothing of it in the list. -/
theorem epochEnds_iff {α : Type} {st want : EpochSt} {l : List α} {epoch : α → Nat} {n : Nat} :
    (st == want && l.all (fun x => epoch x != n)) = true ↔ st = want ∧ ∀ x ∈ l, epoch x ≠ n := by
  simp

theorem epochEnds_eq_false {α : Type} {st want : EpochSt} {l : List α} {epoch : α → Nat} {n : Nat}
    (h : st ≠ want ∨ ∃ x ∈ l, epoch x = n) : (st == want && l.all (fun x => epoch x != n)) = false := by
  rw [Bool.eq_false_iff, Ne, epochEnds_iff]
  rintro ⟨hst, hnone⟩
  rcases h with hne | ⟨x, hx, hn⟩
  · exact hne hst
  · exact hnone x hx hn

/-- Settles O25: an end that is enabled changes the tiles and pails of its epoch, and one that is not leaves the state. -/
theorem epochsCommitOrVanish : Obligations.EpochsCommitOrVanish := by
  unfold Obligations.EpochsCommitOrVanish
  intro s c e k n mine
  refine ⟨fun hst hnone => ?commits, fun hst hnone => ?vanishes, fun h => act_of_false _ _ (epochEnds_eq_false h),
    fun h => act_of_false _ _ (epochEnds_eq_false h)⟩
  case commits =>
    rw [exec_epochCommit]
    refine ends_act (epochEnds_iff.mpr ⟨hst, hnone⟩) ?_
    rw [State.core_modCore_same]
    exact ⟨fun l hl => ⟨fun hm => (k.tile_committed n hl).trans (if_pos hm), fun hm => (k.tile_committed n hl).trans (if_neg hm)⟩,
      k.epoch_committed n, k.committed_eq n, .modCore s c.val _⟩
  case vanishes =>
    rw [exec_epochFree]
    refine ends_act (epochEnds_iff.mpr ⟨hst, hnone⟩) ?_
    rw [State.core_modCore_same]
    exact ⟨fun l hl => ⟨fun hm => (k.tile_vanished n hl).trans (if_pos hm), fun hm => (k.tile_vanished n hl).trans (if_neg hm)⟩,
      fun i hi => k.pail_vanished n hi, k.epoch_vanished n, k.vanished_eq n, .modCore s c.val _⟩

end Sys2Proof.Machine
end

section
/-! SUPPORT. PSIG and SCLOSE as they act, and the statement about them (R176, R301, R309). -/

namespace Sys2Proof.Machine

/-- A command that answers `t` ends with what holds of `t`. -/
theorem ends_of_eq {o : Outcome} {t : State} {P : State → Prop} (ho : o = .next t) (h : P t) : Ends o P := ⟨t, ho, h⟩

/-! The end of an operation as its core receives it (R218, R219). -/

theorem State.opEnd_core (s : State) (c id status : Nat) (v : Option Dword) : (s.opEnd c id status v).core c =
    { s.core c with ops := handedOver (s.core c).ops [id] ⟨status, v, Stop.of status⟩ } := by
  simp [State.opEnd, Core.opDone, handedOver]

theorem State.opFail_core (s : State) (c id : Nat) (st : Stop) : (s.opFail c id st).core c =
    { s.core c with ops := handedOver (s.core c).ops [id] ⟨st.code, none, st⟩ } := by
  simp [State.opFail, Core.opDone, handedOver]

theorem State.opEnd_onlyCore (s : State) (c id status : Nat) (v : Option Dword) : OnlyCore s (s.opEnd c id status v) c := .modCore s c _

theorem State.opFail_onlyCore (s : State) (c id : Nat) (st : Stop) : OnlyCore s (s.opFail c id st) c := .modCore s c _

/-! PSIG (R301). -/

/-- Whether a pail waits for its producer (R185). -/
def Pail.fills (p : Pail) : Bool := p.st == .empty || p.st == .filling

theorem Pail.fills_iff (p : Pail) : p.fills = true ↔ p.st = .empty ∨ p.st = .filling := by simp [Pail.fills]

/-- A pail after a signal of its producer or of its consumer, whichever it waits for (R187). -/
def Pail.signalled (p : Pail) : Pail := if p.fills then p.filled 0 else p.emptied

section

variable (s : State) (c i id : Nat)

/-- The role that a PSIG of pail `i` plays: the producer's while the pail fills, and otherwise the consumer's. -/
def State.psigRole : Nat := if ((s.core c).pail i).fills then (s.pailCfg c i).producer else (s.pailCfg c i).consumer

/-- Whether pail `i` takes the Clerk's signal: its entry is valid, and the role is the Clerk's or that of a remote agent. -/
def State.psigTaken : Bool := (s.pailCfg c i).valid && (s.psigRole c i == 1 || s.psigRole c i == 3)

/-- The state once the PSIG of operation `id` has left its queue. -/
def State.psigLeft : State := s.modCore c (fun k => { k with psigs := k.psigs.filter (fun e => e.2 != id) })

variable {s c i}

theorem State.psigTaken_iff : s.psigTaken c i = true ↔ (s.pailCfg c i).valid = true ∧ (s.psigRole c i = 1 ∨ s.psigRole c i = 3) := by
  simp [State.psigTaken]

theorem State.psigRole_of_fills (h : ((s.core c).pail i).st = .empty ∨ ((s.core c).pail i).st = .filling) :
    s.psigRole c i = (s.pailCfg c i).producer := if_pos ((Pail.fills_iff _).mpr h)

theorem State.psigRole_of_not_fills (h : ¬ (((s.core c).pail i).st = .empty ∨ ((s.core c).pail i).st = .filling)) :
    s.psigRole c i = (s.pailCfg c i).consumer := if_neg (mt (Pail.fills_iff _).mp h)

theorem State.psigAct_taken (h : s.psigTaken c i = true) : s.psigAct c i id =
    ((s.psigLeft c id).modCore c (·.setPail i ((s.core c).pail i).signalled)).opEnd c id 0 none := if_pos h

theorem State.psigAct_denied (h : s.psigTaken c i = false) : s.psigAct c i id =
    ((s.psigLeft c id).bump32 (Reg.SPAD_PORT_DENIED c) 1).opFail c id
      { Stop.of Code.pailRole with row := (s.pailCfg c i).first, port := 1 } := if_neg (Bool.not_eq_true _ ▸ h)

theorem State.psigLeft_onlyCore : OnlyCore s (s.psigLeft c id) c := .modCore s c _

/-- A signal that is taken moves the pail's tag and ends its operation with status 0. -/
theorem State.psigAct_taken_spec (h : s.psigTaken c i = true) :
    (s.psigAct c i id).core c = Core.setPail { s.core c with
      psigs := (s.core c).psigs.filter (fun e => e.2 != id)
      ops := handedOver (s.core c).ops [id] ⟨0, none, Stop.of 0⟩ } i ((s.core c).pail i).signalled ∧
    OnlyCore s (s.psigAct c i id) c := by
  rw [State.psigAct_taken id h]
  refine ⟨?_, ((s.psigLeft_onlyCore id).trans (.modCore _ c _)).trans (State.opEnd_onlyCore ..)⟩
  simp [State.opEnd_core, State.psigLeft, Core.setPail, Core.pail]

/-- A signal that is denied is counted, ends its operation with SPAD.PAIL_ROLE and leaves the pail. -/
theorem State.psigAct_denied_spec (h : s.psigTaken c i = false) :
    OnlyCoreAndRegs s (s.psigAct c i id) c ∧ CountedUp s (s.psigAct c i id) (Reg.SPAD_PORT_DENIED c) 1 ∧
    RegsSameBut s (s.psigAct c i id) [Reg.SPAD_PORT_DENIED c] ∧
    ∃ x : OpResult, (s.psigAct c i id).core c = { s.core c with
      psigs := (s.core c).psigs.filter (fun e => e.2 != id)
      ops := handedOver (s.core c).ops [id] x } ∧ x.status = 0x2605 := by
  rw [State.psigAct_denied id h]
  refine ⟨?_, (CountedUp.bump32 (s.psigLeft c id) _ 1).of_reg rfl rfl,
    (State.bump32_regsSameBut (s.psigLeft c id) _ 1 : _), ⟨⟨0x2605, none, { Stop.of Code.pailRole with row := (s.pailCfg c i).first, port := 1 }⟩, ?_, rfl⟩⟩
  · exact (((s.psigLeft_onlyCore id).onlyCoreAndRegs).trans (.bump32 ..)).trans (State.opFail_onlyCore ..).onlyCoreAndRegs
  · simp [State.opFail_core, State.psigLeft]
    rfl

end

theorem exec_psigAct {s : State} {c : CoreId} {i id : Nat} {rest : List (Nat × Nat)} (h : (s.core c.val).psigs = (i, id) :: rest) :
    exec (.psigAct c) s = .next (s.psigAct c.val i id) := by
  simp [exec, execPsigAct, h]

/-! SCLOSE (R309). -/

/-- A stream that has been closed is open no more. -/
theorem Core.streamOpen_closed (k : Core) (st : Nat) : (k.closeStream st).streamOpen st = none := by
  simp [Core.streamOpen, Core.closeStream]

theorem exec_scloseAct {s : State} {c : CoreId} {st id : Nat} {rest : List (Nat × Nat)} (h : (s.core c.val).scloses = (st, id) :: rest) :
    exec (.scloseAct c) s = act ((s.core c.val).seq.all (fun o => decide (id < o.id))) s
      ((s.modCore c.val (fun k => { k.closeStream st with scloses := rest })).opEnd c.val id 0 none) := by
  simp [exec, execScloseAct, h]

/-- Settles O23: a PSIG by the role that it plays, a SCLOSE by what stands before it in the Sequencer queue. -/
theorem signalsAndClosedStreamsAct : Obligations.SignalsAndClosedStreamsAct := by
  unfold Obligations.SignalsAndClosedStreamsAct
  intro s c i id rest k p st fills left done
  refine ⟨fun hq => ⟨fun hv hf hr => ?filled, fun hv hf hr => ?emptied, fun h => ?denied⟩, fun hq => ⟨fun h => ?closes, fun h => ?waits⟩⟩
  case filled =>
    have hspec := State.psigAct_taken_spec id (State.psigTaken_iff.mpr ⟨hv, by rwa [State.psigRole_of_fills hf]⟩)
    rw [Pail.signalled, if_pos ((Pail.fills_iff _).mpr hf)] at hspec
    exact ends_of_eq (exec_psigAct hq) hspec
  case emptied =>
    have hspec := State.psigAct_taken_spec id (State.psigTaken_iff.mpr ⟨hv, by rwa [State.psigRole_of_not_fills hf]⟩)
    rw [Pail.signalled, if_neg (mt (Pail.fills_iff _).mp hf)] at hspec
    exact ends_of_eq (exec_psigAct hq) hspec
  case denied =>
    have hdenied : s.psigTaken c.val i = false := by
      rw [← Bool.not_eq_true, State.psigTaken_iff]
      rintro ⟨hv, hrole⟩
      rcases h with hinvalid | ⟨hf, h1, h3⟩ | ⟨hf, h1, h3⟩
      · exact Bool.false_ne_true (hinvalid.symm.trans hv)
      · rw [State.psigRole_of_fills hf] at hrole
        exact hrole.elim h1 h3
      · rw [State.psigRole_of_not_fills hf] at hrole
        exact hrole.elim h1 h3
    exact ends_of_eq (exec_psigAct hq) (State.psigAct_denied_spec id hdenied)
  case closes =>
    rw [exec_scloseAct hq]
    refine ends_act (by simpa using h) ⟨?_, ?_, .trans (.modCore s c.val _) (State.opEnd_onlyCore ..)⟩
    · simp [State.opEnd_core, Core.closeStream, k]
    · rw [State.opEnd_core, State.core_modCore_same]
      exact Core.streamOpen_closed k i
  case waits =>
    rw [exec_scloseAct hq]
    obtain ⟨o, ho, hle⟩ := h
    exact act_of_false _ _ (List.all_eq_false.mpr ⟨o, ho, by simpa using hle⟩)

end Sys2Proof.Machine
end

section
/-! SUPPORT. Scratchpad banks: power requests, transitions and owners, and the statement about them (R175, R191, R193, R194). -/

namespace Sys2Proof.Machine

/-! Power requests (R191, R193). -/

/-- What a power request that acts makes of a bank at rest. -/
def bankActed (b : Bank) (p : BankPow) : Bank := if b.pow = p then ⟨p, none, none, none⟩ else ⟨b.pow, none, some p, none⟩

theorem bankAfter_eq (b : Bank) (p : BankPow) : bankAfter b p =
    if b.moving.isSome then { b with next := some p }
    else if b.pow = .on ∧ p ≠ .on then { b with closing := some p } else bankActed b p := rfl

/-- What a request, or none, makes of a bank. -/
def bankServed (b : Bank) (o : Option BankPow) : Bank := o.elim b (bankAfter b)

section

variable (k : Core) (b : Nat)

theorem Core.bank_setBank (i : Nat) (v : Bank) : (k.setBank b v).bank i = if i = b then v else k.bank i := tabGet_set _ _ _ _ _

theorem Core.bankAct_eq (p : BankPow) : k.bankAct b p = k.setBank b (bankActed (k.bank b) p) := by
  unfold Core.bankAct bankActed
  dsimp only
  split
  · next h => rw [h]
  · rfl

theorem Core.bankRequest_eq (p : BankPow) : k.bankRequest b p = k.setBank b (bankAfter (k.bank b) p) := by
  unfold Core.bankRequest
  dsimp only
  rw [bankAfter_eq, Core.bankAct_eq]
  split_ifs <;> rfl

/-- A request, or none, to bank `b`. -/
def Core.askBank (o : Option BankPow) : Core := o.elim k (k.bankRequest b)

theorem Core.bank_askBank (o : Option BankPow) (i : Nat) :
    (k.askBank b o).bank i = if i = b then bankServed (k.bank b) o else k.bank i := by
  cases o with
  | none =>
    split
    · next h => rw [h]; rfl
    · rfl
  | some p => exact (congrArg (Core.bank · i) (k.bankRequest_eq b p)).trans (k.bank_setBank b i _)

theorem Core.askBank_eq (o : Option BankPow) : k.askBank b o = { k with banks := (k.askBank b o).banks } := by
  cases o with
  | none => rfl
  | some p => rw [Core.askBank, Option.elim, Core.bankRequest_eq]; rfl

/-- Requests to the banks of a list, one each. -/
def Core.askBanks (asked : Nat → Option BankPow) (l : List Nat) : Core := l.foldl (fun k b => k.askBank b (asked b)) k

end

theorem Core.bank_askBanks (asked : Nat → Option BankPow) {l : List Nat} (hl : l.Nodup) (k : Core) (i : Nat) :
    (k.askBanks asked l).bank i = if i ∈ l then bankServed (k.bank i) (asked i) else k.bank i := by
  induction l generalizing k with
  | nil => rfl
  | cons b l ih =>
    obtain ⟨hb, hl⟩ := List.nodup_cons.mp hl
    rw [Core.askBanks, List.foldl_cons, ← Core.askBanks, ih hl, Core.bank_askBank]
    rcases eq_or_ne i b with rfl | hib
    · simp [hb]
    · simp [hib]

/-- Requests change banks alone. -/
theorem Core.askBanks_eq (asked : Nat → Option BankPow) (l : List Nat) (k : Core) :
    k.askBanks asked l = { k with banks := (k.askBanks asked l).banks } :=
  List.foldlRecOn (motive := fun x : Core => x = { k with banks := x.banks }) _ _ rfl fun x hx b _ => by
    rw [Core.askBank_eq, hx]

/-! SPAD_BANK_PWR_REQ (R191, R194). -/

theorem State.bankPwrReq_eq (s : State) (c : Nat) (v : Word) : s.bankPwrReq c v =
    (s.setReg (Reg.SPAD_BANK_PWR_REQ c) v).modCore c (·.askBanks (bankAsked v.toNat · (s.residentMask c)) (List.range 16)) := by
  refine congrArg (State.modCore _ c) (funext fun k => congrArg (List.foldl · k _) (funext₂ fun k b => ?_))
  dsimp only [Core.askBank]
  cases bankAsked v.toNat b (s.residentMask c) <;> rfl

theorem bankServed_bankAsked (x : Bank) (v b mask : Nat) : bankServed x (bankAsked v b mask) = match bits v (2 * b) 2 with
    | 0 => bankAfter x (if bitOf mask b then .retain else .off)
    | 1 => bankAfter x .retain
    | 2 => bankAfter x .on
    | _ => x := by
  unfold bankAsked
  split <;> simp_all [bankServed]

/-! The end of a transition (R181, R191). -/

section

variable (k : Core) (b : Nat)

/-- Core `k` once bank `b` has reached power state `p`: a bank that goes to or comes from Off has lost its words. -/
def Core.bankKept (p : BankPow) : Core := if p = .off ∨ (k.bank b).pow = .off then k.loseBank b else k

theorem Core.bankReach_eq (p : BankPow) : k.bankReach b p = (k.bankKept b p).setBank b ⟨p, none, none, none⟩ := rfl

theorem Core.bankArrive_eq {p : BankPow} (h : (k.bank b).moving = some p) :
    k.bankArrive b = (k.bankReach b p).askBank b (k.bank b).next := by
  unfold Core.bankArrive
  rw [h]
  cases (k.bank b).next <;> rfl

theorem Core.bankKept_eq (p : BankPow) :
    k.bankKept b p = { k with mem := (k.bankKept b p).mem, badParity := (k.bankKept b p).badParity } := by
  unfold Core.bankKept
  split <;> rfl

theorem tabGet_drop {α : Type} (d : α) (p : Nat → Bool) (t : Tab α) (x : Nat) :
    tabGet d (tabDrop p t) x = if p x then d else tabGet d t x := by
  rw [tabGet, tabFind_drop]
  split <;> rfl

theorem Core.mem_bankKept (p : BankPow) (x : Nat) : tabGet 0 (k.bankKept b p).mem x =
    if bankOf x = b ∧ (p = .off ∨ (k.bank b).pow = .off) then 0 else tabGet 0 k.mem x := by
  unfold Core.bankKept
  split
  · next h => simp [Core.loseBank, tabGet_drop, bankOf, h]
  · next h => simp [h]

/-- A bank's transition ends in the state that it moved to, or goes on with the request that came meanwhile. -/
theorem Core.bank_bankArrive {p : BankPow} (h : (k.bank b).moving = some p) (i : Nat) : (k.bankArrive b).bank i =
    if i = b then bankServed ⟨p, none, none, none⟩ (k.bank b).next else k.bank i := by
  have hkept : ∀ j, (k.bankKept b p).bank j = k.bank j := fun j => by rw [k.bankKept_eq b p]; rfl
  simp only [k.bankArrive_eq b h, Core.bank_askBank, Core.bankReach_eq, Core.bank_setBank, hkept, if_true]
  split <;> rfl

theorem Core.mem_bankArrive {p : BankPow} (h : (k.bank b).moving = some p) : (k.bankArrive b).mem = (k.bankKept b p).mem := by
  rw [k.bankArrive_eq b h, Core.askBank_eq, Core.bankReach_eq]
  rfl

theorem Core.bankArrive_core {p : BankPow} (h : (k.bank b).moving = some p) : k.bankArrive b = { k with
    banks := (k.bankArrive b).banks
    mem := (k.bankArrive b).mem
    badParity := (k.bankArrive b).badParity } := by
  rw [k.bankArrive_eq b h, Core.askBank_eq, Core.bankReach_eq, Core.setBank, k.bankKept_eq b p]

end

/-! Owners (R175). -/

/-- Where no operation waits on a ring, no ring goes on. -/
theorem State.ringsMoved_eq {s : State} (h : ∀ o ∈ s.hubOps, o.postRing = none) : s.ringsMoved = s := by
  have hnone : s.hubOps.filterMap HubOp.postRing = [] := List.filterMap_eq_nil_iff.mpr h
  simp [State.ringsMoved, hnone]

/-! The commands. -/

section

variable {s : State} {c : CoreId} {b : BankId}

theorem exec_bankPwrReqWrite (r : Requester) (v : Word) : exec (.bankPwrReqWrite r c v) s = .next (s.bankPwrReq c.val v) := rfl

theorem exec_bankClose {p : BankPow} (h : ((s.core c.val).bank b.val).closing = some p) : exec (.bankClose c b) s =
    act (!(s.core c.val).writesInFlight) s (s.modCore c.val (fun k => k.bankAct b.val p)) := by
  simp [exec, execBankClose, h]

theorem exec_bankTransitionEnd : exec (.bankTransitionEnd c b) s = .next (s.modCore c.val (·.bankArrive b.val)) := rfl

theorem exec_bankOwnerAct {w : Word} (h : (s.core c.val).ownerReq = some w) : exec (.bankOwnerAct c) s =
    act (!(s.core c.val).writesInFlight) s (s.modCore c.val (fun k => { k with owner := w, ownerReq := none })).ringsMoved := by
  simp [exec, execBankOwnerAct, h]

end

/-- Settles O24: each command by what it makes of the banks of its core. -/
theorem banksChangePowerAndOwner : Obligations.BanksChangePowerAndOwner := by
  unfold Obligations.BanksChangePowerAndOwner
  intro s r c v b k mask
  refine ⟨ends_of_eq (exec_bankPwrReqWrite r v) ?request, fun p hp => ⟨fun hw => ?closes, fun hw => ?closeWaits⟩,
    fun p hp => ends_of_eq exec_bankTransitionEnd ?arrives, fun w hw => ⟨fun hf => ⟨?ownerExec, fun hn => ?ownerAlone⟩, fun hf => ?ownerWaits⟩⟩
  case request =>
    rw [State.bankPwrReq_eq, State.core_modCore_same, State.core_setReg]
    refine ⟨State.reg_setReg_same .., fun x hx => State.reg_setReg_other s v (by simpa using hx), fun i hi => ?_,
      Core.askBanks_eq _ _ k, ?_⟩
    · exact ((Core.bank_askBanks _ List.nodup_range k i).trans (if_pos (List.mem_range.mpr hi))).trans (bankServed_bankAsked ..)
    · exact .trans (t := s.setReg (Reg.SPAD_BANK_PWR_REQ c.val) v) ⟨rfl, fun _ _ => rfl⟩ (OnlyCore.modCore ..).onlyCoreAndRegs
  case closes =>
    rw [exec_bankClose hp]
    refine ends_act (by simpa using hw) ?_
    rw [State.core_modCore_same, Core.bankAct_eq]
    exact ⟨(Core.bank_setBank ..).trans (if_pos rfl), fun i hi => (Core.bank_setBank ..).trans (if_neg hi), rfl, .modCore ..⟩
  case closeWaits =>
    rw [exec_bankClose hp]
    exact act_of_false _ _ (by simpa using hw)
  case arrives =>
    rw [State.core_modCore_same]
    refine ⟨?_, fun i hi => (k.bank_bankArrive b.val hp i).trans (if_neg hi), fun x => ?_, k.bankArrive_core b.val hp, .modCore ..⟩
    · rw [Core.bank_bankArrive _ _ hp, if_pos rfl]
      cases (k.bank b.val).next <;> rfl
    · rw [Core.mem_bankArrive _ _ hp, Core.mem_bankKept]
  case ownerExec =>
    rw [exec_bankOwnerAct hw, hf]
    rfl
  case ownerAlone =>
    rw [exec_bankOwnerAct hw]
    refine ends_act (by simpa using hf) ?_
    rw [State.ringsMoved_eq (by exact hn), State.core_modCore_same]
    exact ⟨rfl, .modCore ..⟩
  case ownerWaits =>
    rw [exec_bankOwnerAct hw]
    exact act_of_false _ _ (by simpa using hf)

end Sys2Proof.Machine
end

section
/-! SUPPORT. What follows the body of an Ngaosh instruction, by the way in which it ended (R215–R217, R235, R507). -/

namespace Sys2Proof.Machine

/-! Counting one instruction. -/

theorem CountedOne.bump64 (s : State) (c : Nat) : CountedOne s (s.bump64 (Reg.CORE_CLERK_INSTR_LO c) 1) c :=
  ⟨s.reg64_bump64 _ 1, .bump64 s 1 (by simp) (by simp)⟩

/-- The count depends on registers alone. -/
theorem CountedOne.of_regs {s s' t t' : State} {c : Nat} (h : CountedOne s t c) (hs : ∀ x, s'.reg x = s.reg x)
    (ht : ∀ x, t'.reg x = t.reg x) : CountedOne s' t' c := by
  obtain ⟨hcount, hsame⟩ := h
  refine ⟨?_, fun x hx => by rw [ht, hs, hsame x hx]⟩
  rw [State.reg64_congr (ht _) (ht _), State.reg64_congr (s := s) (hs _) (hs _), hcount]

theorem PassedAlone.before {s t u : State} {c : Nat} (h : OnlyCore s t c) (h' : PassedAlone t u c) : PassedAlone s u c :=
  ⟨h.onlyCoreAndRegs.trans h'.1, h'.2.of_regs (fun x => (h.reg x).symm) fun _ => rfl⟩

theorem PassedAlone.after {s t u : State} {c : Nat} (h : PassedAlone s t c) (h' : OnlyCore t u c) : PassedAlone s u c :=
  ⟨h.1.trans h'.onlyCoreAndRegs, h.2.of_regs (fun _ => rfl) h'.reg⟩

/-- The Clerk goes on past an instruction that has started no operation, and counts it (R235). -/
theorem State.clerkAt_passedAlone (s : State) {c ops : Nat} (pc : Nat) (h : (s.core c).nextOp = ops) :
    PassedAlone s (s.clerkAt c pc ops) c := by
  unfold State.clerkAt
  dsimp only
  rw [State.core_modCore_same, if_pos h]
  exact .before (.modCore s c _) ⟨.bump64 .., .bump64 ..⟩

/-! Stops. -/

/-- A stop of a core that another state holds alike, with the same task, is a stop from that state. -/
theorem StoppedWith.of_held {s u t : State} {c code : Nat} (h : (s.core c).HeldAs (u.core c)) (hsched : u.sched = s.sched)
    (hstop : StoppedWith u t c code) : StoppedWith s t c code := by
  obtain ⟨hst, hpc, hg, hd, hp, hmem, htask⟩ := hstop
  exact ⟨hst, hpc.trans h.pc, hg.trans h.g, hd.trans h.d, hp.trans h.p, hmem.trans h.mem, by rwa [hsched] at htask⟩

/-! The command of an instruction that passes its core's Clerk. -/

section

variable {s : State} {i : Instr} {w : Clerked} {c : Nat} (hw : clerkOf i = some w) (hc : w.core = c) (hp : s.passes i = true)
include hw hc hp

theorem State.exec_eq_clerkAfter : exec i s = .next (s.clerkAfter c i (clerkBody i s)) := by
  rw [exec_ngaosh hw, s.clerk_passes i _ w hw hp, hc]

/-- A body that passes: the Clerk goes on from the state that it leaves. -/
theorem State.exec_pass {t : State} (hnext : (s.core c).hasNext = true) (hbody : clerkBody i s = .pass t) :
    exec i s = .next (t.clerkAt c ((s.core c).pc + 1) (s.core c).nextOp) := by
  rw [State.exec_eq_clerkAfter hw hc hp, hbody]
  exact congrArg _ (if_pos (by simpa [Core.hasNext] using hnext))

/-- A body that passes and starts no operation: the Clerk goes on and counts the instruction. -/
theorem State.exec_passes {t : State} (hnext : (s.core c).hasNext = true) (hbody : clerkBody i s = .pass t)
    (hop : (t.core c).nextOp = (s.core c).nextOp) :
    Ends (exec i s) (fun u => u.core c = (t.core c).goesOnAt ((s.core c).pc + 1) ∧ PassedAlone t u c) :=
  ends_of_eq (State.exec_pass hw hc hp hnext hbody) ⟨t.clerkAt_core .., t.clerkAt_passedAlone _ hop⟩

/-- A body that waits leaves its instruction to the Clerk. -/
theorem State.exec_waits (hbody : clerkBody i s = .wait s) : exec i s = .next (s.setCore c { s.core c with waiting := some i }) := by
  rw [State.exec_eq_clerkAfter hw hc hp, hbody]
  rfl

/-- A body that meets a fault stops its core, if that has not stopped meanwhile. -/
theorem State.exec_stops {t : State} {st : Stop} (hbody : clerkBody i s = .stop t st 0) (hseq : st.seq = 0)
    (hr : (t.core c).running = true) (hs : (t.core c).stopped = false) :
    Ends (exec i s) (fun u => StoppedWith t u c st.code) := by
  refine ends_of_eq (t := t.clerkStop c (s.core c).pc st 0) ?_ ?_
  · rw [State.exec_eq_clerkAfter hw hc hp, hbody]
    rfl
  · exact t.stopCore_stoppedWith { st with pc := some (s.core c).pc } hr hs hseq

end

end Sys2Proof.Machine
end

section
/-! SUPPORT. How operations complete and how the Clerk tries its instruction again, and the statement about both (R176, R217–R219,
R316, R527). -/

namespace Sys2Proof.Machine

/-! An ended operation leaves its core (R218, R219). -/

section

variable (s : State) (c : Nat) (o : Op)

/-- Core `c` no longer holds operation `o`, which is counted. -/
def State.opLeft : State :=
  (s.modCore c (fun k => { k with ops := k.ops.filter (fun x => x.id != o.id) })).bump64 (Reg.CORE_CLERK_INSTR_LO c) 1

theorem State.opLeft_core : (s.opLeft c o).core c = { s.core c with ops := (s.core c).ops.filter (fun x => x.id != o.id) } := by
  simp [State.opLeft]

theorem State.opLeft_passedAlone : PassedAlone s (s.opLeft c o) c := .before (.modCore s c _) ⟨.bump64 .., .bump64 ..⟩

theorem State.opLeft_sched : (s.opLeft c o).sched = s.sched := by simp [State.opLeft]

/-- No counter's generation spreads on behalf of an operation that no RETIRE waits for. -/
theorem State.spreadEnd_eq {op : Nat} (h : ∀ x ∈ s.hubOps, ∀ n, x ≠ .spread c op n) : s.spreadEnd c op = s := by
  refine List.foldlRecOn (motive := fun t : State => t = s) _ _ rfl fun t ht x hx => ?_
  split
  · next c' i ctr =>
    rw [if_neg fun ⟨hc, hi⟩ => h _ hx ctr (by rw [hc, hi])]
    exact ht
  · exact ht

end

section

variable {s : State} {c : Nat} {o : Op} {r : OpResult}

theorem State.landValue_zero (v : Option Dword) : s.landValue c 0 v = s := rfl

theorem State.landValue_some {gd : Nat} (h : gd ≠ 0) (v : Dword) : s.landValue c gd (some v) = s.putG c gd v := if_neg h

variable (hspread : ∀ x ∈ s.hubOps, ∀ n, x ≠ .spread c o.id n)
include hspread

/-- Of an operation that ended with status 0, gd and gs are written. -/
theorem State.complete_zero (h0 : r.status = 0) : s.complete c o r =
    (let t := if o.gd = 0 then s.opLeft c o else (s.opLeft c o).landValue c o.gd r.value
     if o.named then t.putG c o.gs 0 else t) := by
  simp only [State.complete, s.spreadEnd_eq c hspread, h0, if_true]
  rfl

/-- A status that a register takes lands in it; a Scratchpad or ring fault is recorded too. -/
theorem State.complete_taken (h0 : r.status ≠ 0) (hn : o.named = true) (hgs : o.gs ≠ 0) (ht : takeable o.cls r.status = true) :
    s.complete c o r = (((if r.status / 256 = 0x26 then (s.opLeft c o).recordFault c r.stop else s.opLeft c o).landValue c o.gd
      r.value).putG c o.gs (BitVec.ofNat 64 r.status)) := by
  have htaken : (o.named && o.gs != 0 && takeable o.cls r.status) = true := by simp [hn, hgs, ht]
  simp only [State.complete, s.spreadEnd_eq c hspread, if_neg h0, htaken, if_true]
  rfl

/-- A failure that no register takes stops the core. -/
theorem State.complete_stops (h0 : r.status ≠ 0) (hn : o.named = false ∨ o.gs = 0 ∨ takeable o.cls r.status = false) :
    s.complete c o r = (if r.status = Code.exhausted then (s.opLeft c o).landValue c o.gd r.value else s.opLeft c o).opStop c
      { r.stop with pc := some o.pc } := by
  have htaken : (o.named && o.gs != 0 && takeable o.cls r.status) = false := by
    rcases hn with h | h | h <;> simp [h]
  simp only [State.complete, s.spreadEnd_eq c hspread, if_neg h0, htaken]
  rfl

end

/-! Registers that a landing writes, and Scratchpad faults that a register takes (R176, R527). -/

theorem OnlyCore.putG (s : State) (c r : Nat) (v : Dword) : OnlyCore s (s.putG c r v) c := .modCore s c _

theorem State.putG_core (s : State) (c r : Nat) (v : Dword) : (s.putG c r v).core c = (s.core c).setG r v := s.core_modCore_same c _

theorem Core.setG_eq (k : Core) (r : Nat) (v : Dword) : k.setG r v = { k with g := (k.setG r v).g } := by
  unfold Core.setG
  split <;> rfl

/-- The codes of Scratchpad and ring faults that a status register may take. -/
theorem takeable_spad {cls : OpClass} {code : Nat} (hu : code / 256 = 0x26) (ht : takeable cls code = true) :
    code = 0x2601 ∨ code = 0x2602 ∨ code = 0x2608 := by
  simp only [takeable, hu, if_true, Bool.and_eq_true, Bool.or_eq_true, beq_iff_eq] at ht
  exact or_assoc.mp ht.2

/-- The register that keeps a Scratchpad or ring fault of core `c` (R203, R204). -/
def spadFaultReg (c code : Nat) : Nat := if code = 0x2608 then Reg.SPAD_RING_FAULT else Reg.SPAD_FAULT c

/-- Its cause code. -/
def spadFaultCause (code : Nat) : Nat := if code = 0x2608 then 1 else code % 256

theorem spadFaultReg_ne_slip {c : Nat} (hc : c < 64) (code : Nat) : spadFaultReg c code ≠ Reg.SPAD_FAULT_SLIP c := by
  unfold spadFaultReg Reg.SPAD_RING_FAULT Reg.SPAD_FAULT Reg.SPAD_FAULT_SLIP
  split <;> omega

theorem spadFaultReg_ne_instr {c : Nat} (hc : c < 64) (code : Nat) :
    spadFaultReg c code ≠ Reg.CORE_CLERK_INSTR_LO c ∧ spadFaultReg c code ≠ Reg.CORE_CLERK_INSTR_LO c + 4 := by
  unfold spadFaultReg Reg.SPAD_RING_FAULT Reg.SPAD_FAULT Reg.CORE_CLERK_INSTR_LO
  constructor <;> split <;> omega

/-- A Scratchpad or ring fault that a status register may take goes to its fault register, with its cause code lowest. -/
theorem faultReg_spad (c : Nat) {st : Stop} (h : st.code = 0x2601 ∨ st.code = 0x2602 ∨ st.code = 0x2608) :
    ∃ n, faultReg c st = (spadFaultReg c st.code, spadFaultCause st.code + 256 * n) := by
  rcases h with h | h | h
  · refine ⟨st.row + st.bank * 2 ^ 9 + st.port * 2 ^ 13, ?_⟩
    simp [faultReg, spadFaultReg, spadFaultCause, h, Code.ringRole, Code.ringConfig]
    omega
  · refine ⟨st.row + st.bank * 2 ^ 9 + st.port * 2 ^ 13, ?_⟩
    simp [faultReg, spadFaultReg, spadFaultCause, h, Code.ringRole, Code.ringConfig]
    omega
  · refine ⟨st.row + c * 2 ^ 15, ?_⟩
    simp [faultReg, spadFaultReg, spadFaultCause, h, Code.ringRole]
    omega

/-- The companion of a Scratchpad fault is its slip register. -/
theorem State.faultExtra_spad (s : State) (c : Nat) {st : Stop} (h : st.code = 0x2601 ∨ st.code = 0x2602 ∨ st.code = 0x2608) :
    RegsSameBut s (s.faultExtra c st) [Reg.SPAD_FAULT_SLIP c] := by
  have hslip : RegsSameBut s (s.setRegN (Reg.SPAD_FAULT_SLIP c) (st.slip.getD 0)) [Reg.SPAD_FAULT_SLIP c] :=
    fun x hx => s.reg_setRegN_other _ (by simpa using hx)
  rcases h with h | h | h
  · simpa [State.faultExtra, h, Code.ringRole, Code.ringConfig] using hslip
  · simpa [State.faultExtra, h, Code.ringRole, Code.ringConfig] using hslip
  · simpa [State.faultExtra, h, Code.ringRole, ofDescBlock, Code.descInvalid, Code.shapeOver, Code.nestFit] using RegsSameBut.refl s _

theorem spadFaultCause_lt (code : Nat) : spadFaultCause code < 256 := by
  unfold spadFaultCause
  split <;> omega

theorem spadFaultReg_ne_zero (c code : Nat) : spadFaultReg c code ≠ 0 := by
  unfold spadFaultReg Reg.SPAD_RING_FAULT Reg.SPAD_FAULT
  split <;> omega

/-- A Scratchpad or ring fault that a status register may take is recorded where its register keeps none, and else leaves it. -/
theorem State.recordFault_spad (s : State) {c : Nat} (hc : c < 64) {st : Stop}
    (h : st.code = 0x2601 ∨ st.code = 0x2602 ∨ st.code = 0x2608) :
    (s.field (spadFaultReg c st.code) 0 8 = 0 → (s.recordFault c st).field (spadFaultReg c st.code) 0 8 = spadFaultCause st.code) ∧
    (s.field (spadFaultReg c st.code) 0 8 ≠ 0 → s.recordFault c st = s) ∧
    RegsSameBut s (s.recordFault c st) [spadFaultReg c st.code, Reg.SPAD_FAULT_SLIP c] := by
  obtain ⟨n, hreg⟩ := faultReg_spad c h
  simp only [State.recordFault, hreg, spadFaultReg_ne_zero, if_false]
  refine ⟨fun h0 => ?_, fun h0 => if_neg h0, ?_⟩
  · rw [if_pos h0, State.field_congr (State.faultExtra_spad _ c h _ (by simpa using spadFaultReg_ne_slip hc st.code)), State.field,
      State.regN_setRegN_same, bits]
    have := spadFaultCause_lt st.code
    omega
  · split
    · exact .trans (fun x hx => s.reg_setRegN_other _ fun hxy => hx (by simp [hxy]))
        ((State.faultExtra_spad _ c h).mono (by simp))
    · exact .refl s _

theorem OnlyCoreAndRegs.recordFault (s : State) (c d : Nat) (st : Stop) : OnlyCoreAndRegs s (s.recordFault c st) d := by
  rw [s.recordFault_eq]
  exact ⟨rfl, fun _ _ => rfl⟩

theorem State.recordFault_core (s : State) (c : Nat) (st : Stop) (d : Nat) : (s.recordFault c st).core d = s.core d := by
  rw [s.recordFault_eq]
  rfl

/-! The Clerk tries its instruction again (R217). -/

/-- A waiting instruction that passes now has its body's effect. -/
theorem exec_clerkWaitEnd {s : State} {c : CoreId} {i : Instr} {w : Clerked} (hw : clerkOf i = some w) (hc : w.core = c.val)
    (hi : (s.core c.val).waiting = some i) (hr : (s.core c.val).running = true) (hs : (s.core c.val).stopped = false)
    (hp : (s.setCore c.val { s.core c.val with waiting := none }).passes i = true) :
    exec (.clerkWaitEnd c) s = .next (s.clerkAfter c.val i (clerkBody i s)) := by
  simp only [State.passes, State.meets, hw, hc, State.core_setCore_same, Bool.and_eq_true, Bool.not_eq_true'] at hp
  obtain ⟨⟨⟨⟨-, hk⟩, hi'⟩, he⟩, hm⟩ := hp
  have hk : opcodeKnown (s.core c.val).opcodeAt = true := hk
  have he : (s.core c.val).executes w.pred = true := he
  have hm : (s.core c.val).mustWait w = false := hm
  simp [exec, execClerkWaitEnd, hi, hr, hs, State.clerkRetry, hw, State.clerkGo, hc, hk, hi', he, hm]

/-- A waiting instruction whose body passes and starts no operation goes on and is counted. -/
theorem State.waitEnd_passes {s t : State} {c : CoreId} {i : Instr} {w : Clerked} (hw : clerkOf i = some w) (hc : w.core = c.val)
    (hi : (s.core c.val).waiting = some i) (hr : (s.core c.val).running = true) (hs : (s.core c.val).stopped = false)
    (hp : (s.setCore c.val { s.core c.val with waiting := none }).passes i = true) (hnext : (s.core c.val).hasNext = true)
    (hbody : clerkBody i s = .pass t) (honly : OnlyCore s t c.val) (hop : (t.core c.val).nextOp = (s.core c.val).nextOp) :
    Ends (exec (.clerkWaitEnd c) s) (fun u => u.core c.val = (t.core c.val).goesOnAt ((s.core c.val).pc + 1) ∧ PassedAlone s u c.val) := by
  refine ends_of_eq (t := t.clerkAt c.val ((s.core c.val).pc + 1) (s.core c.val).nextOp) ?_
    ⟨t.clerkAt_core .., .before honly (t.clerkAt_passedAlone _ hop)⟩
  rw [exec_clerkWaitEnd hw hc hi hr hs hp, hbody]
  exact congrArg _ (if_pos (by simpa [Core.hasNext] using hnext))

/-! What a completion leaves. -/

/-- From `s` to `t` operation `o` has left core `c` and is counted, and beside it g-registers alone have changed. -/
structure Landed (s t : State) (c : Nat) (o : Op) : Prop where
  core : t.core c = { s.core c with ops := (s.core c).ops.filter (fun x => x.id != o.id), g := (t.core c).g }
  passed : PassedAlone s t c

section

variable {s t : State} {c : Nat} {o : Op}

theorem State.opLeft_landed (s : State) (c : Nat) (o : Op) : Landed s (s.opLeft c o) c o :=
  ⟨by rw [State.opLeft_core], s.opLeft_passedAlone c o⟩

theorem State.opLeft_greg (s : State) (c : Nat) (o : Op) (x : Nat) : ((s.opLeft c o).core c).greg x = (s.core c).greg x := by
  rw [State.opLeft_core]
  rfl

theorem Landed.putG (h : Landed s t c o) (r : Nat) (v : Dword) : Landed s (t.putG c r v) c o where
  core := by rw [State.putG_core, Core.setG_eq, h.core]
  passed := h.passed.after (.putG t c r v)

theorem State.putG_greg (t : State) (c r : Nat) (v : Dword) (x : Nat) :
    ((t.putG c r v).core c).greg x = if x = r ∧ x ≠ 0 then v else (t.core c).greg x := by
  rw [State.putG_core, Core.greg_setG]

theorem State.putG_greg_of_ne (t : State) (c : Nat) {r : Nat} (h : r ≠ 0) (v : Dword) (x : Nat) :
    ((t.putG c r v).core c).greg x = if x = r then v else (t.core c).greg x := by
  rw [State.putG_greg]
  exact if_congr (and_iff_left_of_imp fun hx => hx.trans_ne h) rfl rfl

theorem Core.greg_zero (k : Core) : k.greg 0 = 0 := rfl

end

/-- An operation that ended with status 0 lands its value in gd and 0 in gs. -/
theorem State.complete_zero_landed {s : State} {c : Nat} {o : Op} {r : OpResult} (hspread : ∀ x ∈ s.hubOps, ∀ n, x ≠ .spread c o.id n)
    (h0 : r.status = 0) {v : Dword} (hv : o.gd ≠ 0 → r.value = some v) (hgs : o.gs ≠ o.gd ∨ o.gd = 0) :
    Landed s (s.complete c o r) c o ∧ ∀ x, ((s.complete c o r).core c).greg x =
      if x = 0 then 0 else if x = o.gd then v else if x = o.gs ∧ o.named = true then 0 else (s.core c).greg x := by
  have hvalue : ∃ t, (if o.gd = 0 then s.opLeft c o else (s.opLeft c o).landValue c o.gd r.value) = t ∧ Landed s t c o ∧
      ∀ x, (t.core c).greg x = if x = o.gd ∧ x ≠ 0 then v else (s.core c).greg x := by
    refine ⟨_, rfl, ?_⟩
    split
    · next hgd => exact ⟨s.opLeft_landed c o, fun x => by rw [State.opLeft_greg, if_neg fun h => h.2 (h.1.trans hgd)]⟩
    · next hgd =>
      rw [hv hgd, State.landValue_some hgd]
      exact ⟨(s.opLeft_landed c o).putG .., fun x => by rw [State.putG_greg, State.opLeft_greg]⟩
  obtain ⟨t, ht, hland, hgreg⟩ := hvalue
  rw [State.complete_zero hspread h0, ht]
  dsimp only
  split
  · next hn =>
    refine ⟨hland.putG .., fun x => ?_⟩
    rw [State.putG_greg, hgreg]
    rcases eq_or_ne x 0 with rfl | hx
    · simp [Core.greg_zero]
    · rcases eq_or_ne x o.gd with rfl | hxd
      · have : o.gd ≠ o.gs := (hgs.resolve_right hx).symm
        simp [hx, this]
      · simp [hx, hxd, hn]
  · next hn =>
    refine ⟨hland, fun x => ?_⟩
    rw [hgreg]
    rcases eq_or_ne x 0 with rfl | hx
    · simp [Core.greg_zero]
    · simp [hx, hn]

/-- A Scratchpad or ring fault on record leaves the count of the completed operation and changes its own registers. -/
theorem State.opLeft_recorded (s : State) {c : Nat} (hc : c < 64) (o : Op) {st : Stop}
    (h : st.code = 0x2601 ∨ st.code = 0x2602 ∨ st.code = 0x2608) :
    let x := spadFaultReg c st.code
    let t := (s.opLeft c o).recordFault c st
    (s.field x 0 8 = 0 → t.field x 0 8 = spadFaultCause st.code) ∧ (s.field x 0 8 ≠ 0 → t.reg x = s.reg x) ∧
    PassedWith s t c [x, Reg.SPAD_FAULT_SLIP c] := by
  intro x t
  obtain ⟨hrec, hheld, hsame⟩ := (s.opLeft c o).recordFault_spad hc h
  obtain ⟨honly, hcount, hregs⟩ := s.opLeft_passedAlone c o
  obtain ⟨hx, hx4⟩ := spadFaultReg_ne_instr hc st.code
  have hxreg : (s.opLeft c o).reg x = s.reg x := hregs x (by simp [x, hx, hx4])
  have hslip : Reg.CORE_CLERK_INSTR_LO c ≠ Reg.SPAD_FAULT_SLIP c ∧ Reg.CORE_CLERK_INSTR_LO c + 4 ≠ Reg.SPAD_FAULT_SLIP c := by
    unfold Reg.CORE_CLERK_INSTR_LO Reg.SPAD_FAULT_SLIP
    omega
  refine ⟨fun h0 => hrec (by rwa [State.field_congr hxreg]), fun h0 => ?_, honly.trans (.recordFault ..), ?_, ?_⟩
  · rw [show t = s.opLeft c o from hheld (by rwa [State.field_congr hxreg]), hxreg]
  · rw [State.reg64_congr (hsame _ ?_) (hsame _ ?_), hcount]
    · simp [hx.symm, hslip.1]
    · simp [hx4.symm, hslip.2]
  · exact (hregs.mono (by simp)).trans (hsame.mono (by simp [x]))

/-- A failure that no register takes stops a running core, which keeps what another state holds of it. -/
theorem State.opStop_stoppedWith {s t : State} {c : Nat} {st : Stop} (hheld : (s.core c).HeldAs (t.core c)) (hsched : t.sched = s.sched)
    (hr : (t.core c).running = true) (hs : (t.core c).stopped = false) (hseq : st.seq = 0) :
    StoppedWith s (t.opStop c st) c st.code := by
  rw [State.opStop, hs, Bool.and_false, if_neg Bool.false_ne_true]
  exact .of_held hheld hsched (t.stopCore_stoppedWith st hr hs hseq)

theorem State.opLeft_held (s : State) (c : Nat) (o : Op) : (s.core c).HeldAs ((s.opLeft c o).core c) := by
  rw [State.opLeft_core]
  exact ⟨rfl, rfl, rfl, rfl, rfl, rfl, id⟩

/-- The exhausted TAKE's value lands alike before and after its operation has left (R316). -/
theorem State.putG_opLeft_held (s : State) (c : Nat) (o : Op) (r : Nat) (v : Dword) :
    ((s.putG c r v).core c).HeldAs (((s.opLeft c o).putG c r v).core c) := by
  rw [State.putG_core, State.putG_core, State.opLeft_core]
  unfold Core.setG
  split <;> exact ⟨rfl, rfl, rfl, rfl, rfl, rfl, id⟩

/-! The statement. -/

theorem exec_opCompletion {s : State} {c : CoreId} {o : Op} {r : OpResult} (h : (s.core c.val).ended? o.id = some (o, r)) :
    exec (.opCompletion c o.id) s = .next (s.complete c.val o r) := by
  simp [exec, execOpCompletion, h]

/-- Settles O22: an operation by what its status makes of it, the waiting Clerk by the body of its instruction. -/
theorem operationsCompleteAndTheClerkGoesOn : Obligations.OperationsCompleteAndTheClerkGoesOn := by
  unfold Obligations.OperationsCompleteAndTheClerkGoesOn
  intro s c o r i k dropped
  refine ⟨fun hended hspread => ⟨fun v h0 hv hgs => ?lands, fun h0 hu hn hgs hgd ht => ?taken, fun hu hn hgs hgd ht hcode => ?recorded,
    fun h0 hn hcode hseq hr hs => ⟨fun hgd => ?stops, fun v hex hgd hv => ?exhausted⟩⟩, fun hi hr hs hc hp hnext =>
    ⟨fun p f hif hh => ?pwait, fun p f hif => ?add⟩⟩
  case lands =>
    obtain ⟨hland, hgreg⟩ := State.complete_zero_landed hspread h0 hv hgs
    exact ends_of_eq (exec_opCompletion hended) ⟨hgreg, hland.core, hland.passed⟩
  case taken =>
    have hland := (s.opLeft_landed c.val o).putG o.gs (BitVec.ofNat 64 r.status)
    rw [exec_opCompletion hended, State.complete_taken hspread h0 hn hgs ht, if_neg hu, hgd, State.landValue_zero]
    exact ends_of_eq rfl ⟨fun x => by rw [State.putG_greg_of_ne _ _ hgs, State.opLeft_greg], hland.core, hland.passed⟩
  case recorded =>
    intro x
    have hspad : r.stop.code = 0x2601 ∨ r.stop.code = 0x2602 ∨ r.stop.code = 0x2608 := by rw [hcode]; exact takeable_spad hu ht
    have h0 : r.status ≠ 0 := by omega
    have hx : x = spadFaultReg c.val r.stop.code := by rw [hcode]; rfl
    obtain ⟨hrec, hheld, honly, hcount, hregs⟩ := s.opLeft_recorded c.isLt o hspad
    rw [exec_opCompletion hended, State.complete_taken hspread h0 hn hgs ht, if_pos hu, hgd, State.landValue_zero]
    have hput := OnlyCore.putG ((s.opLeft c.val o).recordFault c.val r.stop) c.val o.gs (BitVec.ofNat 64 r.status)
    have hcore : ((s.opLeft c.val o).recordFault c.val r.stop).core c.val = (s.opLeft c.val o).core c.val := State.recordFault_core ..
    rw [← hx] at hrec hheld hregs
    refine ends_of_eq rfl ⟨fun y => ?_, ?_, fun h => ?_, fun h => ?_, honly.trans hput.onlyCoreAndRegs, ?_, ?_⟩
    · rw [State.putG_greg_of_ne _ _ hgs, hcore, State.opLeft_greg]
    · rw [State.putG_core, Core.setG_eq, hcore, State.opLeft_core]
    · rw [State.field_congr (hput.reg x), hrec h, spadFaultCause, hcode]
    · rw [hput.reg, hheld h]
    · rw [State.reg64_congr (hput.reg _) (hput.reg _), hcount]
    · exact hregs.trans (hput.regsSameBut _)
  case stops =>
    have hland : (if r.status = Code.exhausted then (s.opLeft c.val o).landValue c.val o.gd r.value else s.opLeft c.val o) =
        s.opLeft c.val o := by
      split
      · next hex => rw [hgd.resolve_left (not_not.mpr hex), State.landValue_zero]
      · rfl
    rw [exec_opCompletion hended, State.complete_stops hspread h0 hn, hland, ← hcode]
    exact ends_of_eq rfl (State.opStop_stoppedWith (s.opLeft_held c.val o) (s.opLeft_sched c.val o)
      (by rw [State.opLeft_core]; exact hr) (by rw [State.opLeft_core]; exact hs) hseq)
  case exhausted =>
    rw [exec_opCompletion hended, State.complete_stops hspread h0 hn, if_pos (show r.status = Code.exhausted from hex), hv, State.landValue_some hgd, ← hcode]
    have hcore : ((s.opLeft c.val o).putG c.val o.gd v).core c.val =
        { (s.opLeft c.val o).core c.val with g := (((s.opLeft c.val o).core c.val).setG o.gd v).g } := by
      rw [State.putG_core, Core.setG_eq]
    exact ends_of_eq rfl (State.opStop_stoppedWith (s.putG_opLeft_held c.val o o.gd v) (s.opLeft_sched c.val o)
      (by rw [hcore, State.opLeft_core]; exact hr) (by rw [hcore, State.opLeft_core]; exact hs) hseq)
  case pwait =>
    subst hif
    exact State.waitEnd_passes rfl rfl hi hr hs hp hnext (if_pos hh) (.refl s _) rfl
  case add =>
    subst hif
    obtain ⟨t, ht, hcore, hpassed⟩ := State.waitEnd_passes rfl rfl hi hr hs hp hnext rfl (.putG s _ _ _) (by rw [State.putG_core, Core.setG_eq])
    refine ⟨t, ht, fun x => ?_, ?_, hpassed⟩
    · rw [hcore, State.putG_core]
      exact Core.greg_setG ..
    · rw [hcore, State.putG_core, Core.setG_eq]
      rfl

end Sys2Proof.Machine
end

section
/-! SUPPORT. The refutation of the statement about ring counters: an event posted while an entry is read (R198, R350, R432). -/

namespace Sys2Proof.Machine

/-- Port A is ready and takes events on HOST_CPL ring 16896, which holds one entry of two slots at local address 0; a package warns
at its first corrected atom, and the atom at address 0 has a wrong check byte. -/
def eventRingSt : State :=
  { State.reset with
    regs := [(ringReg 16896 2, 5 + 16 + 512 * 3), (ringReg 16896 4, 1), (Reg.PWR_MEMMAP_CE_THRESH, 1), (Reg.PWR_QSTATE 52, 1),
      (Reg.HOST_STATUS 0, 1), (Reg.HOST_EVENT_RING 0, 2 ^ 15 + 16896)]
    dram := [(0, 0), (32, 1)] }

/-- Reading the oldest entry corrects the atom, the package's warning is an event, and the event takes a slot of the same ring. -/
theorem ringTake_eventRingSt : eventRingSt.ringTail 16896 = 1 ∧ (eventRingSt.ringTake 0 16896).1.ringTail 16896 = 2 := by decide +kernel

/-- Refutes O17: the third part takes an entry from any ring, also from the HOST_CPL ring on which a host takes events. Where its slot
lies in LPDDR and reading it corrects an atom at the package's threshold (R350), the event that is posted advances that ring's tail. -/
theorem not_ringCountersRunModulo2To32 : ¬ Obligations.RingCountersRunModulo2To32 := by
  unfold Obligations.RingCountersRunModulo2To32
  rintro ⟨-, -, htake⟩
  obtain ⟨hbefore, hafter⟩ := ringTake_eventRingSt
  have hkept : (eventRingSt.ringTake 0 16896).1.ringTail 16896 = eventRingSt.ringTail 16896 :=
    (htake eventRingSt _ 0 ⟨16896, by decide⟩ _ Prod.mk.eta.symm).2
  rw [hbefore, hafter] at hkept
  exact absurd hkept (by decide)

end Sys2Proof.Machine
end

section
/-! SUPPORT. Pail entries as they are rewritten, pool mode and accesses to the pool, and the statement about them (R176, R183, R192, R201,
R202). -/

namespace Sys2Proof.Machine

/-! Pail entries (R183). -/

section

variable (s : State) (c i : Nat) (v : Word)

/-- The state with pail entry `i` of core `c` rewritten. -/
def State.pailCfgSet : State := s.setReg (Reg.SPAD_PAIL_CFG c i) (v &&& 0xFFFFF)

theorem toNat_and_low20 : (v &&& 0xFFFFF).toNat = v.toNat % 2 ^ 20 := by
  rw [BitVec.toNat_and]
  exact Nat.and_two_pow_sub_one_eq_mod v.toNat 20

theorem State.pailCfgSet_regN : (s.pailCfgSet c i v).regN (Reg.SPAD_PAIL_CFG c i) = v.toNat % 2 ^ 20 := by
  rw [State.regN, State.pailCfgSet, State.reg_setReg_same, toNat_and_low20]

theorem State.pailCfgSet_onlyReg : OnlyReg s (s.pailCfgSet c i v) (Reg.SPAD_PAIL_CFG c i) := .setReg s _ _

/-- Two entries of which one is not valid, or which share no row, do not meet. -/
theorem PailCfg.meets_eq_false (a b : PailCfg) : a.meets b = false ↔
    (a.valid = true → b.valid = true → a.first + a.rows ≤ b.first ∨ b.first + b.rows ≤ a.first) := by
  unfold PailCfg.meets
  cases a.valid <;> cases b.valid <;> simp
  omega

/-- The Clerk's rewrite keeps R183: the pail is EMPTY with epoch 0, no operation in flight names it, and the entry passes no row 383 and
shares no row with a valid one. -/
theorem State.pailRewriteBad_eq_false (e : PailCfg) : s.pailRewriteBad c i e = false ↔
    ((s.core c).pail i).st = .empty ∧ ((s.core c).pail i).epoch = 0 ∧ (s.core c).pailNamed i = false ∧ e.first + e.rows ≤ 384 ∧
      ∀ j, j < 64 → j ≠ i → e.valid = true → (s.pailCfg c j).valid = true →
        e.first + e.rows ≤ (s.pailCfg c j).first ∨ (s.pailCfg c j).first + (s.pailCfg c j).rows ≤ e.first := by
  have hrows : (List.range 64).any (fun j => j != i && e.meets (s.pailCfg c j)) = false ↔
      ∀ j, j < 64 → j ≠ i → e.meets (s.pailCfg c j) = false := by simp
  simp only [State.pailRewriteBad, PailCfg.long, Bool.or_eq_false_iff, hrows, PailCfg.meets_eq_false, bne_eq_false_iff_eq, and_assoc,
    decide_eq_false_iff_not, Nat.not_lt]

/-- The entry that a write names. -/
def pailWritten : PailCfg := PailCfg.of (v.toNat % 2 ^ 20)

variable {s c i v} {r : Requester}

/-- A write that takes effect, and one that is ignored. -/
theorem State.pailCfgWrite_other (hr : r ≠ .core (Fin.ofNat 64 c)) :
    s.pailCfgWrite r c i v = (if s.sched.st = .idle then s.pailCfgSet c i v else s, none) := by
  unfold State.pailCfgWrite
  rw [if_neg hr]
  split <;> rfl

theorem State.pailCfgWrite_own (hr : r = .core (Fin.ofNat 64 c)) : s.pailCfgWrite r c i v =
    if s.pailRewriteBad c i (pailWritten v) then (s, some (pailInvalidStop (s.core c) (pailWritten v))) else (s.pailCfgSet c i v, none) := by
  unfold State.pailCfgWrite pailWritten
  rw [if_pos hr, ← toNat_and_low20]
  rfl

/-- A pail entry lies beside the registers that a stop changes. -/
theorem pailCfg_notMem_stopRegs (hi : i < 64) : Reg.SPAD_PAIL_CFG c i ∉ Reg.SISYN_DB_LOST :: freezeRegs := by
  unfold Reg.SPAD_PAIL_CFG
  intro hmem
  rcases List.mem_cons.mp hmem with hlost | hfreeze
  · unfold Reg.SISYN_DB_LOST at hlost
    omega
  · obtain ⟨d, hd, hin⟩ := List.mem_flatMap.mp hfreeze
    simp only [List.mem_cons, List.not_mem_nil, or_false, Reg.CORE_TALLY_STALL_LO, Reg.CORE_TALLY_FREEZE_MAX] at hin
    omega

/-- The stop of a refused rewrite is recorded in SPAD_FAULT and SPAD_FAULT_SLIP (R527). -/
theorem State.recordFault_pailInvalid (k : Core) (e : PailCfg) :
    RegsSameBut s (s.recordFault c (pailInvalidStop k e)) [Reg.SPAD_FAULT c, Reg.SPAD_FAULT_SLIP c] := by
  have hcode : (pailInvalidStop k e).code = 0x2604 := rfl
  have hslip : (pailInvalidStop k e).slip = none := rfl
  have hreg : (faultReg c (pailInvalidStop k e)).1 = Reg.SPAD_FAULT c := by simp [faultReg, hcode, Code.ringRole, Code.ringConfig]
  have hextra (t : State) : t.faultExtra c (pailInvalidStop k e) = t.setRegN (Reg.SPAD_FAULT_SLIP c) 0 := by
    simp [State.faultExtra, hcode, hslip, Code.ringRole, Code.ringConfig]
  intro x hx
  simp only [List.mem_cons, List.not_mem_nil, or_false, not_or] at hx
  unfold State.recordFault
  simp only [hreg, hextra]
  split_ifs
  · rfl
  · rw [State.reg_setRegN_other _ _ hx.2, State.reg_setRegN_other _ _ hx.1]
  · rfl

theorem pailCfg_notMem_spadFault (hi : i < 64) : Reg.SPAD_PAIL_CFG c i ∉ [Reg.SPAD_FAULT c, Reg.SPAD_FAULT_SLIP c] := by
  simp only [List.mem_cons, List.not_mem_nil, or_false, not_or, Reg.SPAD_PAIL_CFG, Reg.SPAD_FAULT, Reg.SPAD_FAULT_SLIP]
  omega

theorem State.stopCore_pailInvalid (e : PailCfg) (hc : c < 64) (hi : i < 64) (hr : (s.core c).running = true)
    (hs : (s.core c).stopped = false) : let t := s.stopCore c (pailInvalidStop (s.core c) e)
    t.reg (Reg.SPAD_PAIL_CFG c i) = s.reg (Reg.SPAD_PAIL_CFG c i) ∧ StoppedWith s t c 0x2604 :=
  ⟨(s.stopCore_reg_other _ hc hr hs rfl (pailCfg_notMem_stopRegs hi)).trans (State.recordFault_pailInvalid _ e _ (pailCfg_notMem_spadFault hi)),
    s.stopCore_stoppedWith _ hr hs rfl⟩

end

theorem exec_pailCfgWrite (s : State) (r : Requester) (c : CoreId) (i : BitVec 6) (v : Word) :
    exec (.pailCfgWrite r c i v) s = .next (State.orStop (s.pailCfgWrite r c.val i.toNat v) c.val) := rfl

theorem CoreId.ofNat_val (c : CoreId) : Fin.ofNat 64 c.val = c := Fin.ofNat_val_eq_self c

theorem pailEntriesAreWrittenUnderR183_holds : pailEntriesAreWrittenUnderR183 := by
  intro s r c i v x e k stored legal
  have hset : stored (s.pailCfgSet c.val i.toNat v) := ⟨s.pailCfgSet_regN .., s.pailCfgSet_onlyReg ..⟩
  refine ⟨fun hr => ?other, fun hr => ?own⟩
  case other =>
    rw [exec_pailCfgWrite, State.pailCfgWrite_other (by rwa [CoreId.ofNat_val])]
    exact ⟨fun h => by rw [if_pos h]; exact ends_of_eq rfl hset, fun h => by rw [if_neg h]; rfl⟩
  case own =>
    have hlegal : legal ↔ s.pailRewriteBad c.val i.toNat (pailWritten v) = false := (State.pailRewriteBad_eq_false ..).symm
    rw [exec_pailCfgWrite, State.pailCfgWrite_own (by rwa [CoreId.ofNat_val]), hlegal]
    refine ⟨fun h => ?_, fun h hrun hstop => ?_⟩
    · rw [h]
      exact ends_of_eq rfl hset
    · rw [if_pos (by simpa using h)]
      exact ends_of_eq rfl (State.stopCore_pailInvalid _ c.isLt i.isLt hrun hstop)

/-! Pool mode (R201). -/

/-- A change made core by core reaches each core of the list once. -/
theorem State.core_foldl_modCore (f : Core → Core) {l : List Nat} (hl : l.Nodup) (s : State) (c : Nat) :
    (l.foldl (fun t d => t.modCore d f) s).core c = if c ∈ l then f (s.core c) else s.core c := by
  induction l generalizing s with
  | nil => rfl
  | cons d l ih =>
    obtain ⟨hd, hl⟩ := List.nodup_cons.mp hl
    rw [List.foldl_cons, ih hl]
    rcases eq_or_ne c d with rfl | hcd
    · rw [State.core_modCore_same, if_neg hd, if_pos (List.mem_cons_self ..)]
    · rw [State.core_modCore_other _ _ hcd]
      simp only [List.mem_cons, hcd, false_or]

theorem State.core_allCores (s : State) (f : Core → Core) {c : Nat} (hc : c < 64) : (s.allCores f).core c = f (s.core c) :=
  (State.core_foldl_modCore f (l := coreList) List.nodup_range s c).trans (if_pos (mem_coreList hc))

/-- Core `k` asked for every bank On. -/
def Core.askAllOn (k : Core) : Core := k.askBanks (fun _ => some .on) (List.range 16)

theorem Core.bank_askAllOn (k : Core) {b : Nat} (hb : b < 16) : k.askAllOn.bank b = bankAfter (k.bank b) .on :=
  (Core.bank_askBanks _ List.nodup_range k b).trans (if_pos (List.mem_range.mpr hb))

theorem Core.askAllOn_eq : Core.askAllOn = fun k => (List.range 16).foldl (fun k b => k.bankRequest b .on) k := rfl

theorem State.enterPool_eq (s : State) : s.enterPool =
    ({ s with cores := (s.allCores Core.askAllOn).cores } : State).setRegN Reg.SPAD_POOL_CTL 1 := by
  simp only [State.enterPool, Core.askAllOn_eq]

theorem State.enterPool_core (s : State) {c : Nat} (hc : c < 64) : s.enterPool.core c = (s.core c).askAllOn := by
  rw [s.enterPool_eq, State.core_setRegN, ← s.core_allCores Core.askAllOn hc]
  generalize s.allCores Core.askAllOn = u
  rfl

theorem State.enterPool_regs (s : State) : s.enterPool.regN Reg.SPAD_POOL_CTL = 1 ∧ RegsSameBut s s.enterPool [Reg.SPAD_POOL_CTL] ∧
    s.enterPool = { s with regs := s.enterPool.regs, cores := s.enterPool.cores } := by
  rw [s.enterPool_eq]
  generalize s.allCores Core.askAllOn = u
  exact ⟨State.regN_setRegN_same _ _ _, fun x hx => State.reg_setRegN_other _ _ (by simpa using hx), rfl⟩

theorem State.enterPool_banks (s : State) {c : Nat} (hc : c < 64) :
    (∀ b, b < 16 → (s.enterPool.core c).bank b = bankAfter ((s.core c).bank b) .on) ∧
    s.enterPool.core c = { s.core c with banks := (s.enterPool.core c).banks } := by
  rw [s.enterPool_core hc]
  exact ⟨fun b hb => (s.core c).bank_askAllOn hb, Core.askBanks_eq ..⟩

theorem exec_poolModeWrite (s : State) (r : Requester) (v : Word) : exec (.poolModeWrite r v) s =
    .next (if v.getLsbD 0 then (if s.sched.st = .idle then s.enterPool else s) else s.setRegN Reg.SPAD_POOL_CTL 0) := rfl

theorem OnlyCore.regs {s t : State} {c : Nat} (h : OnlyCore s t c) : t.regs = s.regs := by rw [h.1]

/-! Accesses to the pool (R201, R202). -/

section

variable (s : State) (p : Nat)

/-- Core and offset of a pool offset. -/
theorem poolPlace_add {n : Nat} (h : p % 589824 + n < 589824) : poolPlace (p + n) = (p / 589824, p % 589824 + n) := by
  unfold poolPlace
  exact Prod.ext (by dsimp only; omega) (by dsimp only; omega)

/-- A byte of the pool in the Scratchpad. -/
theorem State.poolPut_spad {n : Nat} (v : Byte) (h : p % 589824 + n < 393216) :
    s.poolPut (p + n) v = s.modCore (p / 589824) (·.spadPut (p % 589824 + n) [v]) := by
  unfold State.poolPut
  rw [poolPlace_add p (by omega)]
  exact if_pos h

/-- Bytes of the pool written one after another from byte `n` of `p` on, all in the Scratchpad. -/
theorem State.poolWrite_spad (bs : List Byte) (n : Nat) (s : State) (h : p % 589824 + n + bs.length ≤ 393216) :
    let t := (bs.zipIdx n).foldl (fun s e => s.poolPut (p + e.2) e.1) s
    (t.core (p / 589824)).mem = bytesSet 0 (s.core (p / 589824)).mem (p % 589824 + n) bs ∧ OnlyCore s t (p / 589824) := by
  induction bs generalizing n s with
  | nil => exact ⟨rfl, .refl s _⟩
  | cons b bs ih =>
    rw [List.length_cons] at h
    rw [List.zipIdx_cons, List.foldl_cons, State.poolPut_spad s p b (by omega)]
    obtain ⟨hmem, honly⟩ := ih (n + 1) (s.modCore (p / 589824) (·.spadPut (p % 589824 + n) [b])) (by omega)
    refine ⟨hmem.trans ?_, .trans (.modCore ..) honly⟩
    rw [State.core_modCore_same]
    rfl

theorem Core.parityBad_succ (k : Core) {a n : Nat} (h : k.parityBad a (n + 1) = false) :
    k.parityBad a 1 = false ∧ k.parityBad (a + 1) n = false := by
  simp only [Core.parityBad, List.any_eq_false, Bool.and_eq_true, decide_eq_true_eq] at h ⊢
  exact ⟨fun x hx hin => h x hx (by omega), fun x hx hin => h x hx (by omega)⟩

/-- Bytes of the pool in the Scratchpad without parity errors pass their check. -/
theorem State.poolParity_spad (n i : Nat) (h : p % 589824 + i + n ≤ 393216)
    (hp : (s.core (p / 589824)).parityBad (p % 589824 + i) n = false) : s.poolParity (p + i) n = none := by
  induction n generalizing i with
  | zero => rfl
  | succ n ih =>
    obtain ⟨hfirst, hrest⟩ := Core.parityBad_succ _ hp
    unfold State.poolParity
    rw [poolPlace_add p (by omega)]
    dsimp only
    rw [hfirst, Bool.and_false, if_neg Bool.false_ne_true]
    exact ih (i + 1) (by omega) hrest

/-- Bytes of the pool in the Scratchpad are its bytes. -/
theorem State.poolBytes_spad (n i : Nat) (h : p % 589824 + i + n ≤ 393216) :
    s.poolBytes (p + i) n = (s, bytesGet 0 (s.core (p / 589824)).mem (p % 589824 + i) n) := by
  induction n generalizing i with
  | zero => rfl
  | succ n ih =>
    have hbyte : s.poolByte (p + i) = (s, tabGet 0 (s.core (p / 589824)).mem (p % 589824 + i)) := by
      unfold State.poolByte
      rw [poolPlace_add p (by omega)]
      exact if_pos (by omega)
    unfold State.poolBytes
    rw [hbyte]
    dsimp only
    rw [Nat.add_assoc, ih (i + 1) (by omega)]
    rfl

/-- A read of the pool in the Scratchpad without parity errors. -/
theorem State.poolRead_spad {n : Nat} (h : p % 589824 + n ≤ 393216) (hp : (s.core (p / 589824)).parityBad (p % 589824) n = false) :
    s.poolRead p n = (s, .ok (bytesGet 0 (s.core (p / 589824)).mem (p % 589824) n)) := by
  unfold State.poolRead
  rw [show s.poolParity p n = none from s.poolParity_spad p n 0 h hp, show s.poolBytes p n = _ from s.poolBytes_spad p n 0 h]
  rfl

/-- A requester that is answered and given a reply. -/
theorem State.answer_reply (r : Requester) (v : Dword) (kind status : Nat) (bs : List Byte) :
    let t := (s.answer r v).reply (replyKey r) kind status bs
    tabGet 0 t.answers (reqNum r) = v ∧ t.cores = s.cores ∧ t.regs = s.regs := ⟨tabGet_set_same .., rfl, rfl⟩

/-- A record that concerns no core leaves the cores. -/
theorem State.hostRecord_cores (unit inst : Nat) (primary : Bool) (st : Stop) (reg : Word) :
    (s.hostRecord unit inst primary st reg).1.cores = s.cores :=
  (State.report_cores _ _).trans s.recordTime_cores

theorem State.hostRecord_reg_other (unit inst : Nat) (primary : Bool) (st : Stop) (reg : Word) {x : Nat} (h : x ≠ Reg.SISYN_DB_LOST) :
    (s.hostRecord unit inst primary st reg).1.reg x = s.reg x :=
  (State.report_reg_other _ _ h).trans (s.recordTime_reg x)

theorem State.poolRange_spec (r : Requester) : (s.poolRange r p).cores = s.cores ∧
    tabGet default (s.poolRange r p).replies (reqNum r) = ⟨3, 0x2607, []⟩ :=
  ⟨s.hostRecord_cores .., State.reply_same ..⟩

theorem State.countRefusal_bankOff (c : Nat) : s.countRefusal c Code.bankOff = s.bump32 (Reg.SPAD_OFF_DROPS c) 1 := rfl

theorem State.poolOff_spec (r : Requester) : (s.poolOff r p).cores = s.cores ∧
    tabGet default (s.poolOff r p).replies (reqNum r) = ⟨3, 0x2602, []⟩ ∧ CountedUp s (s.poolOff r p) (Reg.SPAD_OFF_DROPS (p / 589824)) 1 := by
  have hlost : Reg.SPAD_OFF_DROPS (p / 589824) ≠ Reg.SISYN_DB_LOST := by
    unfold Reg.SPAD_OFF_DROPS Reg.SISYN_DB_LOST
    omega
  refine ⟨?_, State.reply_same .., ?_⟩
  · exact (State.hostRecord_cores _ _ _ _ _ _).trans ((congrArg State.cores (s.countRefusal_bankOff _)).trans (s.bump32_cores _ _))
  · exact (CountedUp.bump32 s _ 1).of_reg rfl (State.hostRecord_reg_other _ _ _ _ _ _ hlost)

theorem State.poolUsable_spad (h : p % 589824 < 393216) : s.poolUsable p =
    (s.domainOn (p / 589824 / 4) && ((s.core (p / 589824)).bank (bankOf (p % 589824))).usable) := by
  unfold State.poolUsable poolPlace
  dsimp only
  rw [decide_eq_false (by omega), Bool.false_or]

end

section

variable {s : State} (r : Requester) {p : Nat}

theorem exec_poolAccess_range (w : Option Dword) (h : s.poolMode = false) : exec (.poolAccess r p w) s = .next (s.poolRange r p) :=
  if_pos (.inl h)

variable (h : s.poolMode = true) (hp : p < 0x2400000) (h8 : p % 8 = 0)
include h hp h8

/-- An access that pool mode takes, by the power of its bank. -/
theorem exec_poolAccess_taken (w : Option Dword) : exec (.poolAccess r p w) s =
    if s.poolUsable p = false then .next (s.poolOff r p) else
    match w with
    | some v => .next ((s.poolWrite p (leBytes v.toNat 8)).reply (replyKey r) 0 0 [])
    | none =>
      match s.poolRead p 8 with
      | (s, .ok bs) => .next ((s.answer r (BitVec.ofNat 64 (leNat bs))).reply (replyKey r) 0 0 bs)
      | (s, .error f) => .next ((s.answer r 0).reply (replyKey r) 3 f.stop.code []) := by
  have hin : ¬ (s.poolMode = false ∨ p % 8 ≠ 0 ∨ poolLen ≤ p) := by
    unfold poolLen
    rintro (hm | hm | hm)
    · exact Bool.false_ne_true (hm.symm.trans h)
    · exact hm h8
    · omega
  exact (if_neg hin).trans rfl

theorem exec_poolAccess_off (w : Option Dword) (hu : s.poolUsable p = false) : exec (.poolAccess r p w) s = .next (s.poolOff r p) :=
  (exec_poolAccess_taken r h hp h8 w).trans (if_pos hu)

theorem exec_poolAccess_write (v : Dword) (hu : s.poolUsable p = true) : exec (.poolAccess r p (some v)) s =
    .next ((s.poolWrite p (leBytes v.toNat 8)).reply (replyKey r) 0 0 []) :=
  (exec_poolAccess_taken r h hp h8 _).trans (if_neg (by simp [hu]))

theorem exec_poolAccess_read {bs : List Byte} (hu : s.poolUsable p = true) (hr : s.poolRead p 8 = (s, .ok bs)) :
    exec (.poolAccess r p none) s = .next ((s.answer r (BitVec.ofNat 64 (leNat bs))).reply (replyKey r) 0 0 bs) := by
  rw [exec_poolAccess_taken r h hp h8, if_neg (by simp [hu]), hr]

end

theorem poolModeOpensTheFlatPool_holds : poolModeOpensTheFlatPool := by
  intro s r v p d c o
  refine ⟨fun hv hidle => ?enters, fun hv hbusy => ?refused, fun hv => ?leaves, fun hm hp h8 ho hdom hbank => ?taken,
    fun hm hp h8 ho hoff w => ?off, fun hm => ?outside⟩
  case enters =>
    obtain ⟨hctl, hregs, honly⟩ := s.enterPool_regs
    have hexec : exec (.poolModeWrite r v) s = .next s.enterPool := by rw [exec_poolModeWrite, if_pos hv, if_pos hidle]
    exact ends_of_eq hexec ⟨hctl, hregs, honly, fun c hc => s.enterPool_banks hc⟩
  case refused => rw [exec_poolModeWrite, if_pos hv, if_neg hbusy]
  case leaves =>
    refine ends_of_eq (t := s.setRegN Reg.SPAD_POOL_CTL 0) (by rw [exec_poolModeWrite, hv]; rfl) ⟨?_, OnlyReg.setRegN ..⟩
    exact State.regN_setRegN_same _ _ _
  case taken =>
    have hroom : o + 8 ≤ 393216 := by omega
    have hu : s.poolUsable p = true := (s.poolUsable_spad p ho).trans (by simp [c, o] at hdom hbank; simp [hdom, hbank])
    refine ⟨ends_of_eq (exec_poolAccess_write r hm hp h8 d hu) ?_, fun hparity => ?_⟩
    · obtain ⟨hmem, honly⟩ := State.poolWrite_spad p (leBytes d.toNat 8) 0 s (by simpa using hroom)
      have hlen := length_leBytes d.toNat 8
      have hregs : (s.poolWrite p (leBytes d.toNat 8)).regs = s.regs := honly.regs
      have hread := bytesGet_bytesSet 0 (leBytes d.toNat 8) (s.core c).mem o
      rw [hlen] at hread
      refine ⟨(congrArg (bytesGet 0 · o 8) hmem).trans hread, fun a ha => ?_, honly.2, hregs⟩
      · exact (congrArg (tabGet 0 · a) hmem).trans (tabGet_bytesSet_other 0 _ _ (by rwa [hlen]))
    · exact ends_of_eq (exec_poolAccess_read r hm hp h8 hu (s.poolRead_spad p hroom hparity)) (State.answer_reply ..)
  case off =>
    refine ends_of_eq (exec_poolAccess_off r hm hp h8 w ?_) (s.poolOff_spec p r)
    rw [s.poolUsable_spad p ho, Bool.and_eq_false_iff]
    exact hoff
  case outside => exact ends_of_eq (exec_poolAccess_range r _ hm) (s.poolRange_spec p r)

/-- Settles O38: pail entries by who writes them, and the pool by the power of the bank that an access reaches. -/
theorem pailEntriesAndPoolMode : Obligations.PailEntriesAndPoolMode :=
  ⟨pailEntriesAreWrittenUnderR183_holds, poolModeOpensTheFlatPool_holds⟩

end Sys2Proof.Machine
end

section
/-! SUPPORT. Narrow accesses of the Clerk to its own Scratchpad and to its own register blocks, and the statement about them (R11, R174,
R178, R192, R280, R281, R417). -/

namespace Sys2Proof.Machine

/-! Addresses of a core's own ranges (R172, R422). -/

section

variable {c a : Nat}

theorem ownSpad_in_range (hlo : spadBase + c * 0x100000 ≤ a) (hhi : a < spadBase + (c + 1) * 0x100000) :
    ownSpad c a = some (a - (spadBase + c * 0x100000)) := by
  unfold ownSpad
  rw [if_pos ⟨hlo, hhi⟩, Nat.sub_sub]

theorem ownSpad_inside (h : spadBase + c * 0x100000 ≤ a ∧ a - (spadBase + c * 0x100000) < 0x60000) :
    ownSpad c a = some (a - (spadBase + c * 0x100000)) := ownSpad_in_range h.1 (by omega)

/-- An address outside a core's Scratchpad lies outside its range, or past the Scratchpad's bytes in it. -/
theorem ownSpad_outside (h : a < spadBase + c * 0x100000 ∨ spadBase + c * 0x100000 + 0x60000 ≤ a) :
    ownSpad c a = none ∨ ∃ o, ownSpad c a = some o ∧ 0x60000 ≤ o ∧ o = a - (spadBase + c * 0x100000) := by
  by_cases hin : spadBase + c * 0x100000 ≤ a ∧ a < spadBase + (c + 1) * 0x100000
  · exact .inr ⟨_, ownSpad_in_range hin.1 hin.2, by omega, rfl⟩
  · exact .inl (if_neg hin)

theorem ownReg_eq_some {b : BlockAt × Nat} : ownReg c a = some b ↔
    controlBase ≤ a ∧ blockAt (a - controlBase) = some b.1 ∧ coreBlock b.1.kind = true ∧ b.1.inst = c ∧ b.2 = a - controlBase := by
  unfold ownReg
  constructor
  · intro h
    split at h
    · next hlo =>
      obtain ⟨b', hb', hsome⟩ := Option.bind_eq_some_iff.mp h
      split at hsome
      · next hkind => cases hsome; exact ⟨hlo, hb', hkind.1, hkind.2, rfl⟩
      · cases hsome
    · cases h
  · rintro ⟨hlo, hb, hkind, hinst, hx⟩
    rw [if_pos hlo, hb, Option.bind_some, if_pos ⟨hkind, hinst⟩, ← hx]

/-- Register blocks lie above every Scratchpad. -/
theorem ownSpad_eq_none_of_control (hc : c < 64) (h : controlBase ≤ a) : ownSpad c a = none := by
  unfold ownSpad
  refine if_neg ?_
  unfold controlBase at h
  unfold spadBase
  omega

end

/-! Accesses to a bank of the scalar port (R174, R178, R192). -/

section

variable {s : State} {c o : Nat}

theorem State.pailAt_of_owned (h : (s.core c).ownerOf (bankOf o) ≠ 0) : s.pailAt c o = none := if_pos h

variable (hpool : s.poolMode = false) (hown : (s.core c).ownerOf (bankOf o) ≠ 0)
include hpool hown

/-- Where a bank is not the matrix port's, the Clerk's access goes by its own port and the bank's power. -/
theorem State.spadCheck_clerk (w : Bool) : s.spadCheck c .clerk w o =
    if (s.core c).ownerOf (bankOf o) ≠ 1 then .refused (spadStop Code.bankPort o 1)
    else if ((s.core c).bank (bankOf o)).usable then .ok else .refused (spadStop Code.bankOff o 1) := by
  have hport : s.portOf c .clerk w o = 1 := by simp [State.portOf, hpool, State.pailAt_of_owned hown, Agent.code]
  simp only [State.spadCheck, hpool, hport, State.pailAt_of_owned hown]
  rfl

theorem State.pailTouch_eq (w : Bool) : s.pailTouch c w o = s := by
  simp [State.pailTouch, hpool, State.pailAt_of_owned hown]

end

section

variable {s : State} {c o : Nat} (hpool : s.poolMode = false) (hown : (s.core c).ownerOf (bankOf o) = 1)
  (hon : ((s.core c).bank (bankOf o)).usable = true)
include hpool hown hon

theorem State.spadCheck_ok (w : Bool) : s.spadCheck c .clerk w o = .ok := by
  rw [State.spadCheck_clerk hpool (by omega), if_neg (by simpa using hown), if_pos hon]

theorem State.spadRead_clerk {n : Nat} (hp : (s.core c).parityBad o n = false) :
    s.spadRead c .clerk o n = (s, .done (bytesGet 0 (s.core c).mem o n)) := by
  simp only [State.spadRead, State.spadCheck_ok hpool hown hon, hp, State.pailTouch_eq hpool (hown ▸ Nat.one_ne_zero)]
  rfl

theorem State.spadWrite_clerk (bs : List Byte) : s.spadWrite c .clerk o bs = (s.modCore c (·.spadPut o bs), .done []) := by
  simp only [State.spadWrite, State.spadCheck_ok hpool hown hon, State.pailTouch_eq hpool (hown ▸ Nat.one_ne_zero)]

end

/-! Narrow accesses. A match on a place that depends on an unknown core or address must not be evaluated: the functions that have one
are unfolded before they are applied. -/

/-- What a narrow access meets in the core's own Scratchpad range, where the Scratchpad answers `p`. -/
def State.narrowSpad (s : State) (c o n : Nat) (p : State × SpadResult) : State × Narrow :=
  if 0x60000 ≤ o then (s, .stop (Stop.of Code.addrRange) 0)
  else if (s.core c).ownerReq.isSome then (s, .wait)
  else if o % n ≠ 0 then (s, .stop (spadStop Code.spadRange o 1) 0)
  else (p.1, .of p.2)

/-- What a narrow read meets outside it, by the register that it names. -/
def State.narrowReadReg (s : State) (c a n : Nat) : Option (BlockAt × Nat) → State × Narrow
  | some b =>
    if a % n ≠ 0 then (s, .done (List.replicate n 0))
    else if n = 4 then
      ((s.regRead (.core (Fin.ofNat 64 c)) b.2).1, .done (leBytes (s.regRead (.core (Fin.ofNat 64 c)) b.2).2.toNat 4))
    else (s, .done (leBytes (s.regRead8 b.2).toNat 8))
  | none => (s, .stop (Stop.of Code.addrRange) 0)

/-- Both words of an 8-byte write to block place `b`. -/
def State.coreRegWrite8 (s : State) (r : Requester) (b : BlockAt × Nat) (bs : List Byte) : State :=
  ((s.coreRegWrite r b.1 b.2 (BitVec.ofNat 32 (leNat bs))).1.coreRegWrite r { b.1 with off := b.1.off + 4 } (b.2 + 4)
    (BitVec.ofNat 32 (leNat (bs.drop 4)))).1

/-- What a narrow write meets outside it. -/
def State.narrowWriteReg (s : State) (c a : Nat) (bs : List Byte) : Option (BlockAt × Nat) → State × Narrow
  | some b =>
    if a % bs.length ≠ 0 then (s, .done [])
    else if bs.length = 4 then
      ((s.coreRegWrite (.core (Fin.ofNat 64 c)) b.1 b.2 (BitVec.ofNat 32 (leNat bs))).1,
        (s.coreRegWrite (.core (Fin.ofNat 64 c)) b.1 b.2 (BitVec.ofNat 32 (leNat bs))).2.elim (.done []) (.stop · 0))
    else if wideInside b.2 then (s.coreRegWrite8 (.core (Fin.ofNat 64 c)) b bs, .done [])
    else (s, .done [])
  | none => (s, .stop (Stop.of Code.addrRange) 0)

section

variable (s : State) (c a n : Nat)

theorem State.narrowRead_eq : s.narrowRead c a n =
    (ownSpad c a).elim (s.narrowReadReg c a n (ownReg c a)) (fun o => s.narrowSpad c o n (s.spadRead c .clerk o n)) := by
  generalize h : State.narrowRead = f
  delta State.narrowRead at h
  subst h
  beta_reduce
  generalize ownSpad c a = place
  generalize ownReg c a = reg
  cases place with
  | some o => rfl
  | none =>
    cases reg with
    | some b => rfl
    | none => rfl

theorem State.narrowWrite_eq (bs : List Byte) : s.narrowWrite c a bs =
    (ownSpad c a).elim (s.narrowWriteReg c a bs (ownReg c a)) (fun o => s.narrowSpad c o bs.length (s.spadWrite c .clerk o bs)) := by
  generalize h : State.narrowWrite = f
  delta State.narrowWrite at h
  subst h
  beta_reduce
  generalize ownSpad c a = place
  generalize ownReg c a = reg
  cases place with
  | some o => rfl
  | none =>
    cases reg with
    | some b =>
      simp only [Option.elim, State.narrowWriteReg, State.coreRegWrite8]
      generalize s.coreRegWrite (.core (Fin.ofNat 64 c)) b.1 b.2 (BitVec.ofNat 32 (leNat bs)) = p
      rcases p with ⟨u, _ | st⟩ <;> rfl
    | none => rfl

/-! What the bodies make of it. -/

variable {s} {c : CoreId} {f : FmtM} {t : State} {x : Narrow}

/-- What the Clerk makes of what a LD meets. -/
def State.ldPassed (t : State) (c : CoreId) (f : FmtM) : Narrow → Passed
  | .done bs => .pass (t.putG c.val f.gv.toNat (BitVec.ofNat 64 (leNat bs)))
  | .wait => .wait t
  | .stop st seq => .stop t st seq

/-- What the Clerk makes of what a ST meets. -/
def State.stPassed (t : State) : Narrow → Passed
  | .done _ => .pass t
  | .wait => .wait t
  | .stop st seq => .stop t st seq

theorem bodyLd_eq (h : s.narrowRead c.val (narrowAddr (s.core c.val) f) (narrowLen f) = (t, x)) : bodyLd c f s = t.ldPassed c f x := by
  generalize hb : bodyLd = body
  delta bodyLd at hb
  subst hb
  beta_reduce
  rw [h]
  cases x <;> rfl

theorem bodySt_eq (h : s.narrowWrite c.val (narrowAddr (s.core c.val) f)
    (leBytes ((s.core c.val).greg f.gv.toNat).toNat (narrowLen f)) = (t, x)) : bodySt c f s = t.stPassed x := by
  generalize hb : bodySt = body
  delta bodySt at hb
  subst hb
  beta_reduce
  dsimp only
  rw [h]
  cases x <;> rfl

end

/-! Reads and writes of registers by the Clerk (R9, R11, R417). -/

/-- A core has no debug counter. -/
theorem ne_debugLeft_of_coreBlock {x : Nat} {b : BlockAt} (hb : blockAt x = some b) (hk : coreBlock b.kind = true) :
    x ≠ Reg.SISYN_LC_DEBUG_LEFT := by
  rintro rfl
  have hlc : (blockAt Reg.SISYN_LC_DEBUG_LEFT).map (coreBlock ·.kind) = some false := by decide
  rw [hb, Option.map_some, hk] at hlc
  cases hlc

/-- A read of any other register changes at most a latch. -/
theorem State.regRead_eq_latches (s : State) (r : Requester) {x : Nat} (hx : x ≠ Reg.SISYN_LC_DEBUG_LEFT) :
    (s.regRead r x).1 = { s with latches := (s.regRead r x).1.latches } := by
  unfold State.regRead
  rw [if_neg fun h => hx h.1]
  split_ifs <;> rfl

theorem coreBlock_ne {k : BlockKind} (h : coreBlock k = true) : k ≠ .hub ∧ k ≠ .span := by
  constructor <;> rintro rfl <;> cases h

/-- Of a core's own registers those of a Span handle's record alone are wider than 4 bytes. -/
theorem wideInside_of_coreBlock {x : Nat} {b : BlockAt} (hb : blockAt x = some b) (hk : coreBlock b.kind = true) :
    wideInside x = (b.kind == .handle && decide (0x100 ≤ b.off)) := by
  obtain ⟨hhub, hspan⟩ := coreBlock_ne hk
  simp [wideInside, hb, hhub, hspan]

/-- Every core keeps its count of operations. -/
structure NextOpKept (s t : State) : Prop where
  nextOp : ∀ d, (t.core d).nextOp = (s.core d).nextOp

theorem NextOpKept.refl (s : State) : NextOpKept s s := ⟨fun _ => rfl⟩

theorem NextOpKept.trans {s t u : State} (h : NextOpKept s t) (h' : NextOpKept t u) : NextOpKept s u :=
  ⟨fun d => (h'.nextOp d).trans (h.nextOp d)⟩

theorem NextOpKept.of_cores {s t : State} (h : t.cores = s.cores) : NextOpKept s t := ⟨fun d => by rw [State.core_congr h]⟩

theorem NextOpKept.modCore (s : State) (c : Nat) {f : Core → Core} (hf : (f (s.core c)).nextOp = (s.core c).nextOp) :
    NextOpKept s (s.modCore c f) := ⟨fun d => by
  rcases eq_or_ne d c with rfl | hd
  · rwa [State.core_modCore_same]
  · rw [State.core_modCore_other _ _ hd]⟩

theorem NextOpKept.bankPwrReq (s : State) (c : Nat) (v : Word) : NextOpKept s (s.bankPwrReq c v) := by
  rw [State.bankPwrReq_eq]
  refine .trans (t := s.setReg (Reg.SPAD_BANK_PWR_REQ c) v) (.of_cores rfl) (.modCore _ c ?_)
  rw [Core.askBanks_eq]

theorem NextOpKept.cntClr (s : State) (k : BlockKind) (base size : Nat) (v : Word) : NextOpKept s (s.cntClr k base size v) := by
  unfold State.cntClr
  split
  · rw [State.clearRegs_eq]
    exact .of_cores rfl
  · exact .refl s

/-- A write keeps the counts of operations, and one that stops its core changes nothing. -/
def WriteKept (s : State) (p : State × Option Stop) : Prop := NextOpKept s p.1 ∧ (p.2.isSome = true → p.1 = s)

theorem WriteKept.refl (s : State) (o : Option Stop) : WriteKept s (s, o) := ⟨.refl s, fun _ => rfl⟩

theorem WriteKept.of_kept {s t : State} (h : NextOpKept s t) : WriteKept s (t, none) := ⟨h, nofun⟩

theorem WriteKept.pailCfgWrite (s : State) (r : Requester) (c i : Nat) (v : Word) : WriteKept s (s.pailCfgWrite r c i v) := by
  unfold State.pailCfgWrite
  dsimp only
  split_ifs
  · exact .refl s _
  · exact .of_kept (.of_cores rfl)
  · exact .of_kept (.of_cores rfl)
  · exact .refl s _

theorem WriteKept.coreRegWrite (s : State) (r : Requester) (b : BlockAt) (x : Nat) (v : Word) : WriteKept s (s.coreRegWrite r b x v) := by
  have hmasked (row : RegRow) : WriteKept s (s.maskedWrite x row v, none) := .of_kept (.of_cores rfl)
  unfold State.coreRegWrite
  dsimp only
  split
  · exact .refl s _
  split
  · exact .of_kept (.cntClr ..)
  split
  · split
    · exact .of_kept (.modCore _ _ rfl)
    · exact .refl s _
  · split
    · exact .of_kept (.modCore _ _ rfl)
    split
    · exact .of_kept (.bankPwrReq ..)
    split
    · split
      · exact .pailCfgWrite ..
      · exact .refl s _
    split
    · exact hmasked _
    · exact .refl s _
  · split
    · exact hmasked _
    · exact .refl s _

/-! Words and bytes (R10). -/

theorem ofNat_leNat_leBytes (v : Dword) : BitVec.ofNat 64 (leNat (leBytes v.toNat 8)) = v := by
  rw [leNat_leBytes, Nat.mod_eq_of_lt (show v.toNat < 256 ^ 8 from v.isLt), BitVec.ofNat_toNat, BitVec.setWidth_eq]

theorem ofNat_leNat_leBytes_word (v : Word) : BitVec.ofNat 64 (leNat (leBytes v.toNat 4)) = v.setWidth 64 := by
  rw [leNat_leBytes, Nat.mod_eq_of_lt (show v.toNat < 256 ^ 4 from v.isLt), BitVec.ofNat_toNat]

theorem low_leBytes (v : Dword) {n : Nat} (h : n = 4 ∨ n = 8) : BitVec.ofNat 32 (leNat (leBytes v.toNat n)) = v.setWidth 32 := by
  rw [leNat_leBytes]
  apply BitVec.eq_of_toNat_eq
  simp only [BitVec.toNat_ofNat, BitVec.toNat_setWidth]
  rcases h with rfl | rfl <;> omega

theorem high_leBytes (v : Dword) : BitVec.ofNat 32 (leNat ((leBytes v.toNat 8).drop 4)) = v.extractLsb' 32 32 := by
  rw [show (leBytes v.toNat 8).drop 4 = leBytes (v.toNat / 256 / 256 / 256 / 256) 4 from rfl, leNat_leBytes]
  apply BitVec.eq_of_toNat_eq
  simp only [BitVec.toNat_ofNat, BitVec.extractLsb'_toNat, Nat.shiftRight_eq_div_pow]
  omega

theorem leNat_replicate_zero (n : Nat) : leNat (List.replicate n 0) = 0 := by
  induction n with
  | zero => rfl
  | succ n ih => simpa [List.replicate_succ, leNat] using ih

theorem narrowLen_eq (f : FmtM) : narrowLen f = 4 ∨ narrowLen f = 8 := by
  unfold narrowLen
  split <;> simp

/-! LD and ST as commands. -/

section

variable {s : State} {c : CoreId} {p : Pred} {f : FmtM} {t : State}

/-- A core that has loaded a register and goes on. -/
theorem TakesG.of_goesOn {u : State} {c r pc : Nat} {v : Dword} (hcore : t.core c = s.core c) (hwait : (s.core c).waiting = none)
    (hu : u.core c = ((t.putG c r v).core c).goesOnAt pc) : TakesG s u c r v pc := by
  have hset : u.core c = ((s.core c).setG r v).goesOnAt pc := by rw [hu, State.putG_core, hcore]
  refine ⟨fun x => ?_, ?_⟩
  · rw [hset]
    exact Core.greg_setG ..
  · rw [hset, Core.goesOnAt, Core.setG_eq]
    exact congrArg (fun w => { s.core c with g := ((s.core c).setG r v).g, pc := pc, waiting := w }) hwait.symm

/-- A LD that is answered: gv takes the value, and the Clerk goes on. -/
theorem exec_ld_done {bs : List Byte} (hp : s.passes (.ld c p f) = true) (hnext : (s.core c.val).hasNext = true)
    (hread : s.narrowRead c.val (narrowAddr (s.core c.val) f) (narrowLen f) = (t, .done bs)) (hcores : t.cores = s.cores) :
    Ends (exec (.ld c p f) s) (fun u => TakesG s u c.val f.gv.toNat (BitVec.ofNat 64 (leNat bs)) ((s.core c.val).pc + 1) ∧
      PassedAlone t u c.val) := by
  have hcore (d : Nat) : t.core d = s.core d := State.core_congr hcores d
  have hop (v : Dword) : ((t.putG c.val f.gv.toNat v).core c.val).nextOp = (s.core c.val).nextOp := by
    rw [State.putG_core, Core.setG_eq, hcore]
  obtain ⟨u, hu, hgoes, hpassed⟩ := State.exec_passes rfl rfl hp hnext (bodyLd_eq hread) (hop _)
  exact ⟨u, hu, .of_goesOn (hcore c.val) (State.clerk_free_of_passes rfl rfl hp).2.2 hgoes, .before (.putG ..) hpassed⟩

/-- A ST that is taken. -/
theorem exec_st_done {bs : List Byte} (hp : s.passes (.st c p f) = true) (hnext : (s.core c.val).hasNext = true)
    (hwrite : s.narrowWrite c.val (narrowAddr (s.core c.val) f)
      (leBytes ((s.core c.val).greg f.gv.toNat).toNat (narrowLen f)) = (t, .done bs)) (hkept : NextOpKept s t) :
    Ends (exec (.st c p f) s) (fun u => u.core c.val = (t.core c.val).goesOnAt ((s.core c.val).pc + 1) ∧ PassedAlone t u c.val) :=
  State.exec_passes rfl rfl hp hnext (bodySt_eq hwrite) (hkept.nextOp c.val)

/-- An access that stops the core, whether it is a LD or a ST. -/
def NarrowStops (s : State) (c : CoreId) (f : FmtM) (t : State) (st : Stop) : Prop :=
  s.narrowRead c.val (narrowAddr (s.core c.val) f) (narrowLen f) = (t, .stop st 0) ∧
  s.narrowWrite c.val (narrowAddr (s.core c.val) f) (leBytes ((s.core c.val).greg f.gv.toNat).toNat (narrowLen f)) = (t, .stop st 0)

/-- A body that meets a fault where nothing but registers has changed stops its core. -/
theorem exec_stops_held {i : Instr} {w : Clerked} {st : Stop} (hw : clerkOf i = some w) (hc : w.core = c.val) (hp : s.passes i = true)
    (hbody : clerkBody i s = .stop t st 0) (hseq : st.seq = 0) (ht : t = { s with regs := t.regs }) :
    Ends (exec i s) (fun u => StoppedWith s u c.val st.code) := by
  have hcore : t.core c.val = s.core c.val := State.core_congr (by rw [ht]) _
  obtain ⟨hrun, hstop, -⟩ := State.clerk_free_of_passes hw hc hp
  obtain ⟨u, hu, hstopped⟩ := State.exec_stops hw hc hp hbody hseq (by rwa [hcore]) (by rwa [hcore])
  exact ⟨u, hu, .of_held (hcore ▸ .refl _) (by rw [ht]) hstopped⟩

theorem NarrowStops.exec {st : Stop} (h : NarrowStops s c f t st) (hseq : st.seq = 0) (ht : t = { s with regs := t.regs }) :
    ∀ i ∈ [Instr.ld c p f, Instr.st c p f], s.passes i = true → Ends (Machine.exec i s) (fun u => StoppedWith s u c.val st.code) := by
  intro i hi hp
  simp only [List.mem_cons, List.not_mem_nil, or_false] at hi
  rcases hi with rfl | rfl
  · exact exec_stops_held rfl rfl hp (bodyLd_eq h.1) hseq ht
  · exact exec_stops_held rfl rfl hp (bodySt_eq h.2) hseq ht

end
/-! What narrow accesses meet. -/

section

variable {s : State} {c : CoreId} {f : FmtM} {o : Nat}

/-- An address outside the core's Scratchpad and register blocks. -/
theorem narrowStops_outside (h : narrowAddr (s.core c.val) f < spadBase + c.val * 0x100000 ∨
      spadBase + c.val * 0x100000 + 0x60000 ≤ narrowAddr (s.core c.val) f)
    (hreg : ownReg c.val (narrowAddr (s.core c.val) f) = none) : NarrowStops s c f s (Stop.of Code.addrRange) := by
  unfold NarrowStops
  rw [State.narrowRead_eq, State.narrowWrite_eq, hreg]
  rcases ownSpad_outside h with hnone | ⟨o, ho, hpast, -⟩
  · rw [hnone]
    exact ⟨rfl, rfl⟩
  · rw [ho]
    exact ⟨if_pos hpast, if_pos hpast⟩

variable (ho : ownSpad c.val (narrowAddr (s.core c.val) f) = some o) (hin : o < 0x60000) (hreq : (s.core c.val).ownerReq = none)
include ho hin hreq

theorem State.narrowRead_own : s.narrowRead c.val (narrowAddr (s.core c.val) f) (narrowLen f) =
    if o % narrowLen f ≠ 0 then (s, .stop (spadStop Code.spadRange o 1) 0)
    else ((s.spadRead c.val .clerk o (narrowLen f)).1, .of (s.spadRead c.val .clerk o (narrowLen f)).2) := by
  rw [State.narrowRead_eq, ho, Option.elim_some, State.narrowSpad, if_neg (Nat.not_le_of_lt hin), hreq, Option.isSome_none,
    if_neg Bool.false_ne_true]

theorem State.narrowWrite_own (v : Dword) : s.narrowWrite c.val (narrowAddr (s.core c.val) f) (leBytes v.toNat (narrowLen f)) =
    if o % narrowLen f ≠ 0 then (s, .stop (spadStop Code.spadRange o 1) 0)
    else ((s.spadWrite c.val .clerk o (leBytes v.toNat (narrowLen f))).1,
      .of (s.spadWrite c.val .clerk o (leBytes v.toNat (narrowLen f))).2) := by
  rw [State.narrowWrite_eq, ho, Option.elim_some, State.narrowSpad, if_neg (Nat.not_le_of_lt hin), hreq, Option.isSome_none,
    if_neg Bool.false_ne_true, length_leBytes]

theorem narrowStops_misaligned (hal : o % narrowLen f ≠ 0) : NarrowStops s c f s (spadStop Code.spadRange o 1) :=
  ⟨(State.narrowRead_own ho hin hreq).trans (if_pos hal), (State.narrowWrite_own ho hin hreq _).trans (if_pos hal)⟩

theorem narrowStops_refused {st : Stop} (hal : o % narrowLen f = 0) (hcheck : ∀ w, s.spadCheck c.val .clerk w o = .refused st) :
    NarrowStops s c f (s.countRefusal c.val st.code) st := by
  refine ⟨(State.narrowRead_own ho hin hreq).trans ((if_neg (not_not.mpr hal)).trans ?_),
    (State.narrowWrite_own ho hin hreq _).trans ((if_neg (not_not.mpr hal)).trans ?_)⟩
  · simp only [State.spadRead, hcheck]
    rfl
  · simp only [State.spadWrite, hcheck]
    rfl

end

theorem State.countRefusal_eq (s : State) (c code : Nat) : s.countRefusal c code = { s with regs := (s.countRefusal c code).regs } := by
  unfold State.countRefusal
  split_ifs
  · exact s.bump32_eq ..
  · exact s.bump32_eq ..
  · exact s.bump32_eq ..
  · rfl

/-- A record of DMAKE that passes the core's Scratchpad. -/
theorem bodyDmake_outside {s : State} {c : CoreId} {f : FmtD} (h : ((s.core c.val).greg f.ga.toNat).toNat < spadBase + c.val * 0x100000 ∨
    spadBase + c.val * 0x100000 + 0x60000 < ((s.core c.val).greg f.ga.toNat).toNat + 64) :
    bodyDmake c f s = .fault s Code.addrRange := by
  have hplace : ownSpad c.val ((s.core c.val).greg f.ga.toNat).toNat = none ∨
      ∃ o, ownSpad c.val ((s.core c.val).greg f.ga.toNat).toNat = some o ∧ 0x60000 < o + 64 := by
    generalize ((s.core c.val).greg f.ga.toNat).toNat = a at h
    by_cases hin : spadBase + c.val * 0x100000 ≤ a ∧ a < spadBase + (c.val + 1) * 0x100000
    · exact .inr ⟨_, ownSpad_in_range hin.1 hin.2, by omega⟩
    · exact .inl (if_neg hin)
  generalize hb : bodyDmake = body
  delta bodyDmake at hb
  subst hb
  beta_reduce
  rcases hplace with hnone | ⟨o, ho, hpast⟩
  · rw [hnone]
  · rw [ho]
    exact if_pos hpast

theorem narrowAccessFaults_holds : narrowAccessFaults := by
  intro s c p f e k n a base inSpad
  refine ⟨fun i hi hp => ⟨fun hout hreg => ?_, fun hin hal hreq => ?_, fun hin hal hreq hpool h1 h0 => ?_,
    fun hin hal hreq hpool h1 hoff => ?_⟩, fun hp => ?_⟩
  · exact (narrowStops_outside hout hreg).exec rfl rfl i hi hp
  · exact (narrowStops_misaligned (ownSpad_inside hin) hin.2 hreq hal).exec rfl rfl i hi hp
  · refine (narrowStops_refused (st := spadStop Code.bankPort (a - base) 1) (ownSpad_inside hin) hin.2 hreq hal fun w => ?_).exec rfl
      (s.countRefusal_eq ..) i hi hp
    exact (State.spadCheck_clerk hpool h0 w).trans (if_pos h1)
  · refine (narrowStops_refused (st := spadStop Code.bankOff (a - base) 1) (ownSpad_inside hin) hin.2 hreq hal fun w => ?_).exec rfl
      (s.countRefusal_eq ..) i hi hp
    have hown : k.ownerOf (bankOf (a - base)) ≠ 0 := h1 ▸ Nat.one_ne_zero
    exact (State.spadCheck_clerk hpool hown w).trans ((if_neg (not_not.mpr h1)).trans (if_neg (Bool.not_eq_true _ ▸ hoff)))
  · exact fun hx => State.exec_faults rfl rfl hp (bodyDmake_outside hx)

theorem narrowAccessMovesOneWord_holds : narrowAccessMovesOneWord := by
  intro s c p f hnext k n a o hlo hin hal hreq hpool hown hon
  have hplace : ownSpad c.val a = some o := ownSpad_inside ⟨hlo, hin⟩
  refine ⟨fun hp hparity => ?loads, fun hp => ?stores⟩
  case loads =>
    have hspad : s.spadRead c.val .clerk o (narrowLen f) = (s, .done (bytesGet 0 k.mem o n)) :=
      State.spadRead_clerk hpool hown hon hparity
    have hread : s.narrowRead c.val a n = (s, .done (bytesGet 0 k.mem o n)) :=
      (State.narrowRead_own hplace hin hreq).trans ((if_neg (not_not.mpr hal)).trans (by rw [hspad]; rfl))
    exact exec_ld_done hp hnext hread rfl
  case stores =>
    let bs := leBytes (k.greg f.gv.toNat).toNat n
    have hlen : bs.length = n := length_leBytes _ _
    have hwrite : s.narrowWrite c.val a bs = (s.modCore c.val (·.spadPut o bs), .done []) :=
      (State.narrowWrite_own hplace hin hreq _).trans ((if_neg (not_not.mpr hal)).trans
        (by rw [State.spadWrite_clerk hpool hown hon]; rfl))
    obtain ⟨u, hu, hgoes, hpassed⟩ := exec_st_done hp hnext hwrite (.modCore s c.val rfl)
    rw [State.core_modCore_same] at hgoes
    have hwait := (State.clerk_free_of_passes (c := c.val) rfl rfl hp).2.2
    have hread := bytesGet_bytesSet 0 bs k.mem o
    rw [hlen] at hread
    refine ⟨u, hu, ?_, fun x hx => ?_, ?_, fun x => ?_, .before (.modCore ..) hpassed⟩
    · rw [hgoes]
      exact hread
    · rw [hgoes]
      exact tabGet_bytesSet_other 0 bs _ (by rwa [hlen])
    · rw [hgoes]
      exact congrArg (fun w => { k.spadPut o bs with pc := k.pc + 1, waiting := w }) hwait.symm
    · rw [hgoes]
      simp only [Core.goesOnAt, Core.spadPut, List.mem_filter, hlen, Bool.or_eq_true, decide_eq_true_eq]
      rfl

/-! The core's own registers. -/

section

variable {s : State} {c : CoreId} {a n : Nat} {b : BlockAt × Nat} (hb : ownReg c.val a = some b)
include hb

theorem State.narrowRead_reg : s.narrowRead c.val a n =
    if a % n ≠ 0 then (s, .done (List.replicate n 0))
    else if n = 4 then ((s.regRead (.core c) b.2).1, .done (leBytes (s.regRead (.core c) b.2).2.toNat 4))
    else (s, .done (leBytes (s.regRead8 b.2).toNat 8)) := by
  rw [State.narrowRead_eq, ownSpad_eq_none_of_control c.isLt (ownReg_eq_some.mp hb).1, hb, Option.elim_none, State.narrowReadReg,
    CoreId.ofNat_val]

theorem State.narrowWrite_reg (bs : List Byte) : s.narrowWrite c.val a bs =
    if a % bs.length ≠ 0 then (s, .done [])
    else if bs.length = 4 then
      ((s.coreRegWrite (.core c) b.1 b.2 (BitVec.ofNat 32 (leNat bs))).1,
        (s.coreRegWrite (.core c) b.1 b.2 (BitVec.ofNat 32 (leNat bs))).2.elim (.done []) (.stop · 0))
    else if wideInside b.2 then (s.coreRegWrite8 (.core c) b bs, .done [])
    else (s, .done []) := by
  rw [State.narrowWrite_eq, ownSpad_eq_none_of_control c.isLt (ownReg_eq_some.mp hb).1, hb, Option.elim_none, State.narrowWriteReg,
    CoreId.ofNat_val]

end

theorem narrowAccessOfRegisters_holds : narrowAccessOfRegisters := by
  intro s c p f b hnext k n a reads record hreg
  obtain ⟨-, hb, hk, -, hx⟩ := ownReg_eq_some.mp hreg
  rw [← hx] at hb
  have hwide : wideInside b.2 = record := wideInside_of_coreBlock hb hk
  have hn : n = 4 ∨ n = 8 := narrowLen_eq f
  refine ⟨fun hp => ?loads, fun hp => ?stores⟩
  case loads =>
    have hreads (t : State) (bs : List Byte) (v : Dword) (hread : s.narrowRead c.val a n = (t, .done bs))
        (ht : t = { s with latches := t.latches }) (hv : BitVec.ofNat 64 (leNat bs) = v) : Ends (exec (.ld c p f) s) (reads · v) := by
      obtain ⟨u, hu, htakes, hpassed, hcount⟩ := exec_ld_done hp hnext hread (by rw [ht])
      refine ⟨u, hu, hv ▸ htakes, fun d hd => ?_, ?_, ?_⟩
      · exact (hpassed.2 d hd).trans (State.core_congr (by rw [ht]) d)
      · rw [hpassed.1, ht]
      · exact hcount.of_regs (fun x => by rw [ht]; rfl) fun _ => rfl
    have hrest := State.narrowRead_reg (s := s) (n := n) hreg
    refine ⟨fun hal h4 => ?_, fun hal h8 => ?_, fun hal => ?_⟩
    · rw [if_neg (not_not.mpr hal), if_pos h4] at hrest
      exact hreads _ _ _ hrest (s.regRead_eq_latches _ (ne_debugLeft_of_coreBlock hb hk)) (ofNat_leNat_leBytes_word _)
    · rw [if_neg (not_not.mpr hal), if_neg (by omega)] at hrest
      refine hreads _ _ _ hrest rfl ((ofNat_leNat_leBytes _).trans ?_)
      rw [State.regRead8, hwide]
    · rw [if_pos hal] at hrest
      exact hreads _ _ _ hrest rfl (by rw [leNat_replicate_zero]; rfl)
  case stores =>
    intro v
    have hwait := (State.clerk_free_of_passes (c := c.val) rfl rfl hp).2.2
    let bs := leBytes (k.greg f.gv.toNat).toNat n
    have hlen : bs.length = n := length_leBytes _ _
    have hlow : BitVec.ofNat 32 (leNat bs) = v := low_leBytes _ hn
    have hrest := State.narrowWrite_reg (s := s) hreg bs
    rw [hlen, hlow] at hrest
    have hsame (h : s.narrowWrite c.val a bs = (s, .done [])) : Ends (exec (.st c p f) s) (fun t =>
        t.core c.val = { k with pc := k.pc + 1 } ∧ PassedAlone s t c.val) := by
      obtain ⟨u, hu, hgoes, hpassed⟩ := exec_st_done hp hnext h (.refl s)
      exact ⟨u, hu, hgoes.trans (congrArg (fun w => { k with pc := k.pc + 1, waiting := w }) hwait.symm), hpassed⟩
    refine ⟨fun u hal h4 hwrite => ?_, fun u st hal h4 hwrite hseq => ?_, fun u w hal h8 hrec hfirst hsecond => ?_, fun h => ?_⟩
    · rw [if_neg (not_not.mpr hal), if_pos h4, hwrite] at hrest
      have hkept := (WriteKept.coreRegWrite s (.core c) b.1 b.2 v).1
      rw [hwrite] at hkept
      exact exec_st_done hp hnext hrest hkept
    · rw [if_neg (not_not.mpr hal), if_pos h4, hwrite] at hrest
      have hkept := (WriteKept.coreRegWrite s (.core c) b.1 b.2 v).2
      rw [hwrite] at hkept
      obtain rfl : u = s := hkept rfl
      exact exec_stops_held rfl rfl hp (bodySt_eq hrest) hseq rfl
    · have hhigh : BitVec.ofNat 32 (leNat (bs.drop 4)) = (k.greg f.gv.toNat).extractLsb' 32 32 := by
        simp only [bs, h8]
        exact high_leBytes _
      have hboth : s.coreRegWrite8 (.core c) b bs = w := by
        rw [State.coreRegWrite8, hlow, hfirst, hhigh]
        exact congrArg Prod.fst hsecond
      rw [if_neg (not_not.mpr hal), if_neg (by omega), hwide, hrec, if_pos rfl, hboth] at hrest
      have hkept := (WriteKept.coreRegWrite s (.core c) b.1 b.2 v).1
      have hkept' := (WriteKept.coreRegWrite u (.core c) { b.1 with off := b.1.off + 4 } (b.2 + 4)
        ((k.greg f.gv.toNat).extractLsb' 32 32)).1
      rw [hfirst] at hkept
      rw [hsecond] at hkept'
      exact exec_st_done hp hnext hrest (hkept.trans hkept')
    · refine hsame (hrest.trans ?_)
      rcases h with hal | ⟨h8, hrec⟩
      · exact if_pos hal
      · rw [if_neg (show ¬ n = 4 by omega), hwide, hrec, if_neg Bool.false_ne_true, ite_self]

/-- Settles O9: what a narrow access meets, by where its address lies and whether it is aligned. -/
theorem narrowAccessesMoveOneWordOrFault : Obligations.NarrowAccessesMoveOneWordOrFault :=
  ⟨narrowAccessMovesOneWord_holds, narrowAccessOfRegisters_holds, narrowAccessFaults_holds⟩

end Sys2Proof.Machine
end

section
/-! SUPPORT. FILL and COPY in the core's own Scratchpad, the completion of transfers, and the statement about them (R174, R180, R187, R219,
R283, R286). -/

namespace Sys2Proof.Machine

/-! Bytes at consecutive addresses. -/

/-- `bs` paired with addresses, from `a` on. -/
def bytesAt (a : Nat) : List Byte → List (Nat × Byte)
  | [] => []
  | b :: bs => (a, b) :: bytesAt (a + 1) bs

theorem bytesAt_append (xs ys : List Byte) (a : Nat) : bytesAt a (xs ++ ys) = bytesAt a xs ++ bytesAt (a + xs.length) ys := by
  induction xs generalizing a with
  | nil => rfl
  | cons x xs ih => simp [bytesAt, ih, Nat.add_assoc, Nat.add_comm 1]

theorem bytesAt_take_drop (k : Nat) (bs : List Byte) (a : Nat) :
    bytesAt a bs = bytesAt a (bs.take k) ++ bytesAt (a + k) (bs.drop k) := by
  rcases Nat.le_total bs.length k with h | h
  · rw [List.take_of_length_le h, List.drop_eq_nil_of_le h, bytesAt, List.append_nil]
  · conv_lhs => rw [← List.take_append_drop k bs, bytesAt_append, List.length_take_of_le h]

theorem bytesAt_range (f : Nat → Byte) (a n : Nat) : bytesAt a ((List.range n).map f) = (List.range n).map (fun i => (a + i, f i)) := by
  induction n with
  | zero => rfl
  | succ n ih => simp [List.range_succ, bytesAt_append, ih, bytesAt]

theorem any_bytesAt (bs : List Byte) (a x : Nat) : (bytesAt a bs).any (fun e => e.1 == x) = (decide (a ≤ x) && decide (x < a + bs.length)) := by
  induction bs generalizing a with
  | nil => simp [bytesAt]
  | cons b bs ih =>
    rw [bytesAt, List.any_cons, ih, List.length_cons, Bool.eq_iff_iff]
    simp only [Bool.or_eq_true, Bool.and_eq_true, beq_iff_eq, decide_eq_true_eq]
    omega

theorem map_bytesAt (bs : List Byte) {a base : Nat} (h : base ≤ a) :
    (bytesAt a bs).map (fun e => (e.1 - base, e.2)) = bytesAt (a - base) bs := by
  induction bs generalizing a with
  | nil => rfl
  | cons b bs ih =>
    rw [bytesAt, List.map_cons, ih (by omega), bytesAt, Nat.sub_add_comm h]

/-- An entry above every key joins at the end. -/
theorem tabPut_of_lt {α : Type} {t : Tab α} {k : Nat} (v : α) (h : ∀ e ∈ t, e.1 < k) : tabPut t k v = t ++ [(k, v)] := by
  induction t with
  | nil => rfl
  | cons e t ih =>
    obtain ⟨j, w⟩ := e
    have hj : j < k := h _ (List.mem_cons_self ..)
    rw [tabPut, if_neg (by omega), if_neg (by omega), ih fun e he => h e (List.mem_cons_of_mem _ he), List.cons_append]

theorem putBytes_of_lt (bs : List Byte) {t : Tab Byte} {a : Nat} (h : ∀ e ∈ t, e.1 < a) : putBytes t a bs = t ++ bytesAt a bs := by
  induction bs generalizing t a with
  | nil => exact (List.append_nil t).symm
  | cons b bs ih =>
    rw [putBytes, tabPut_of_lt b h, ih, bytesAt, List.append_assoc, List.singleton_append]
    intro e he
    rcases List.mem_append.mp he with he | he
    · exact Nat.lt_succ_of_lt (h e he)
    · rw [List.mem_singleton.mp he]
      exact Nat.lt_succ_self a

theorem putBytes_nil (bs : List Byte) (a : Nat) : putBytes [] a bs = bytesAt a bs := putBytes_of_lt bs nofun

/-- The bytes of the runs are those listed, in order. -/
theorem outRuns_bytesAt (t : Tab Byte) : (outRuns t).flatMap (fun r => bytesAt r.1 r.2) = t := by
  induction t with
  | nil => rfl
  | cons e t ih =>
    obtain ⟨a, b⟩ := e
    unfold outRuns
    cases hr : outRuns t with
    | nil => rw [hr] at ih; rw [← ih]; rfl
    | cons r rs =>
      rw [hr] at ih
      obtain ⟨a', bs⟩ := r
      dsimp only
      split
      · next h =>
        rw [← ih, ← h.1]
        rfl
      · rw [← ih]
        rfl

theorem outRuns_ne_nil (t : Tab Byte) : ∀ r ∈ outRuns t, r.2 ≠ [] := by
  induction t with
  | nil => nofun
  | cons e t ih =>
    obtain ⟨a, b⟩ := e
    unfold outRuns
    cases hr : outRuns t with
    | nil => simp
    | cons r rs =>
      rw [hr] at ih
      obtain ⟨a', bs⟩ := r
      dsimp only
      split
      · simp only [List.mem_cons, forall_eq_or_imp] at ih ⊢
        exact ⟨List.cons_ne_nil _ _, ih.2⟩
      · simp only [List.mem_cons, forall_eq_or_imp] at ih ⊢
        exact ⟨List.cons_ne_nil _ _, ih⟩

/-! What pairs of offset and byte, written in order, leave. -/

/-- The last byte written to offset `a`. -/
def lastAt (l : List (Nat × Byte)) (a : Nat) : Option Byte := (l.reverse.find? (fun e => e.1 == a)).map (·.2)

theorem byteAfter_eq (k : Core) (l : List (Nat × Byte)) (a : Nat) : byteAfter k l a = (lastAt l a).getD (tabGet 0 k.mem a) := rfl

theorem lastAt_append (l m : List (Nat × Byte)) (a : Nat) : lastAt (l ++ m) a = (lastAt m a).or (lastAt l a) := by
  simp only [lastAt, List.reverse_append, List.find?_append]
  cases m.reverse.find? (fun e => e.1 == a) <;> simp

theorem tabGet_bytesSet (bs : List Byte) (t : Tab Byte) (o a : Nat) :
    tabGet 0 (bytesSet 0 t o bs) a = (lastAt (bytesAt o bs) a).getD (tabGet 0 t a) := by
  induction bs generalizing t o with
  | nil => rfl
  | cons b bs ih =>
    rw [bytesSet, ih, bytesAt, ← List.singleton_append, lastAt_append, tabGet_set]
    cases lastAt (bytesAt (o + 1) bs) a with
    | some v => rfl
    | none =>
      rcases eq_or_ne a o with rfl | h
      · simp [lastAt]
      · simp [lastAt, h, h.symm]

/-- From core `k` the pairs of `l` have been written in order, with good parity, and nothing else has changed. -/
def Wrote (k k' : Core) (l : List (Nat × Byte)) : Prop :=
  (∀ a, tabGet 0 k'.mem a = byteAfter k l a) ∧
  k' = { k with mem := k'.mem, badParity := k.badParity.filter (fun a => !l.any (fun e => e.1 == a)) }

theorem Wrote.refl (k : Core) : Wrote k k [] := ⟨fun _ => rfl, by simp⟩

theorem Wrote.trans {k k' k'' : Core} {l m : List (Nat × Byte)} (h : Wrote k k' l) (h' : Wrote k' k'' m) : Wrote k k'' (l ++ m) := by
  obtain ⟨hmem, hcore⟩ := h
  obtain ⟨hmem', hcore'⟩ := h'
  refine ⟨fun a => ?_, ?_⟩
  · rw [hmem', byteAfter_eq, hmem, byteAfter_eq, byteAfter_eq, lastAt_append]
    cases lastAt m a <;> rfl
  · have hbad : k'.badParity = k.badParity.filter (fun a => !l.any (fun e => e.1 == a)) := by rw [hcore]
    rw [hcore', hbad, List.filter_filter, hcore]
    simp only [List.any_append, Bool.not_or, Bool.and_comm]

theorem Wrote.spadPut (k : Core) (o : Nat) (bs : List Byte) : Wrote k (k.spadPut o bs) (bytesAt o bs) := by
  refine ⟨tabGet_bytesSet bs k.mem o, ?_⟩
  have hkept : (fun x => decide (x < o) || decide (o + bs.length ≤ x)) = fun x => !(bytesAt o bs).any (fun e => e.1 == x) := by
    funext x
    rw [any_bytesAt, Bool.eq_iff_iff]
    simp only [Bool.or_eq_true, Bool.not_eq_true', Bool.and_eq_false_iff, decide_eq_true_eq, decide_eq_false_iff_not]
    omega
  rw [← hkept]
  rfl

theorem Wrote.reaches {k k' : Core} {l : List (Nat × Byte)} (h : Wrote k k' l) {a : Nat} (ha : dmaReaches k a) : dmaReaches k' a := by
  rw [h.2]
  exact ha

/-! Accesses of the DMA port to a core's own Scratchpad (R174, R180, R192). -/

/-- How a side that names no pail and no diagonal descriptor sees a Scratchpad. -/
def plainView : SideView := ⟨false, false⟩

theorem bytesGet_append (d : Byte) (t : Tab Byte) (m n a : Nat) : bytesGet d t a (m + n) = bytesGet d t a m ++ bytesGet d t (a + m) n := by
  induction m generalizing a with
  | zero => simp [bytesGet]
  | succ m ih => rw [Nat.succ_add, bytesGet, ih, bytesGet, List.cons_append, Nat.succ_add_eq_add_succ]

theorem length_bytesGet (d : Byte) (t : Tab Byte) (a n : Nat) : (bytesGet d t a n).length = n := by
  induction n generalizing a with
  | zero => rfl
  | succ n ih => rw [bytesGet, List.length_cons, ih]

theorem bytesGet_eq_range (d : Byte) (t : Tab Byte) (a n : Nat) : bytesGet d t a n = (List.range n).map (fun i => tabGet d t (a + i)) := by
  induction n with
  | zero => rfl
  | succ n ih => rw [bytesGet_append, ih, List.range_succ, List.map_append]; rfl

theorem Core.parityBad_eq_false {k : Core} {a n : Nat} (h : ∀ i, i < n → a + i ∉ k.badParity) : k.parityBad a n = false := by
  simp only [Core.parityBad, List.any_eq_false, Bool.and_eq_true, decide_eq_true_eq]
  rintro x hx ⟨hlo, hhi⟩
  exact h (x - a) (by omega) (by rwa [Nat.add_sub_cancel' hlo])

section

variable {s : State} {c : Nat}

theorem State.dmaCheck_ok {o : Nat} (hpool : s.poolMode = false) (h : dmaReaches (s.core c) o) : s.dmaCheck c plainView o = .ok := by
  obtain ⟨-, hown, hon⟩ := h
  have hpail : s.pailAt c o = none := if_pos (by omega)
  have hport : s.portOf c .dma false o = 2 := by simp [State.portOf, hpool, hpail, Agent.code]
  simp [State.dmaCheck, plainView, Core.diagOwned, State.spadCheck, hpool, hpail, hport, hown, hon]

theorem State.dmaWordRead_ok {o n : Nat} (hpool : s.poolMode = false) (h : dmaReaches (s.core c) o)
    (hp : ∀ i, i < n → o + i ∉ (s.core c).badParity) :
    s.dmaWordRead c plainView o n = (s, .ok (bytesGet 0 (s.core c).mem o n)) := by
  have hcheck := State.dmaCheck_ok hpool h
  simp only [State.dmaWordRead, Core.viewPlain, plainView] at hcheck ⊢
  simp only [Bool.false_eq_true, if_false, hcheck, Core.parityBad_eq_false hp]
  rfl

theorem State.dmaWordWrite_ok {o : Nat} (bs : List Byte) (hpool : s.poolMode = false) (h : dmaReaches (s.core c) o) :
    s.dmaWordWrite c plainView o bs = (s.modCore c (·.spadPut o bs), none) := by
  have hcheck := State.dmaCheck_ok hpool h
  simp only [State.dmaWordWrite, Core.viewPlain, plainView] at hcheck ⊢
  simp only [Bool.false_eq_true, if_false, hcheck]

/-- A read of bytes that the port reaches, with good parity, is those bytes. -/
theorem State.dmaSpadRead_ok (fuel : Nat) {o len : Nat} (hpool : s.poolMode = false) (hfuel : len = 0 ∨ o % 64 + len ≤ 64 * fuel)
    (h : ∀ i, i < len → dmaReaches (s.core c) (o + i) ∧ o + i ∉ (s.core c).badParity) :
    s.dmaSpadRead c plainView o len fuel = (s, .ok (bytesGet 0 (s.core c).mem o len)) := by
  induction fuel generalizing o len with
  | zero =>
    obtain rfl : len = 0 := by omega
    rfl
  | succ fuel ih =>
    unfold State.dmaSpadRead
    split
    · next h0 => rw [h0]; rfl
    · dsimp only
      generalize hk : min len (64 - o % 64) = n
      have hsplit : len = n + (len - n) := by omega
      rw [State.dmaWordRead_ok (o := o) hpool (h 0 (by omega)).1 (fun i hi => (h i (by omega)).2)]
      dsimp only
      rw [ih (by omega) (fun i hi => by rw [Nat.add_assoc]; exact h (n + i) (by omega))]
      conv_rhs => rw [hsplit, bytesGet_append]

/-- A write of bytes that the port reaches writes them and nothing else. -/
theorem State.dmaSpadWrite_ok (fuel : Nat) {s : State} {o : Nat} {bs : List Byte} (hpool : s.poolMode = false)
    (hfuel : o % 64 + bs.length ≤ 64 * fuel) (h : ∀ i, i < bs.length → dmaReaches (s.core c) (o + i)) :
    ∃ t, s.dmaSpadWrite c plainView o bs fuel = (t, none) ∧ OnlyCore s t c ∧ Wrote (s.core c) (t.core c) (bytesAt o bs) := by
  induction fuel generalizing s o bs with
  | zero =>
    obtain rfl : bs = [] := List.eq_nil_of_length_eq_zero (by omega)
    exact ⟨s, rfl, .refl s c, .refl _⟩
  | succ fuel ih =>
    unfold State.dmaSpadWrite
    rcases bs with _ | ⟨b, bs⟩
    · exact ⟨s, rfl, .refl s c, .refl _⟩
    · rw [if_neg (by simp)]
      dsimp only
      generalize hk : 64 - o % 64 = n
      generalize hbs : b :: bs = l at h hfuel
      have hpos : 0 < l.length := by rw [← hbs]; exact Nat.succ_pos _
      rw [State.dmaWordWrite_ok (o := o) _ hpool (h 0 hpos)]
      dsimp only
      have honly := OnlyCore.modCore s c (·.spadPut o (l.take n))
      have hwrote := Wrote.spadPut (s.core c) o (l.take n)
      generalize ht : s.modCore c (·.spadPut o (l.take n)) = t at honly
      rw [← State.core_modCore_same s c (·.spadPut o (l.take n)), ht] at hwrote
      obtain ⟨u, hu, honly', hwrote'⟩ := ih (s := t) (o := o + n) (bs := l.drop n) (by rw [← ht]; exact hpool)
        (by rw [List.length_drop]; omega) (fun i hi => by
          rw [List.length_drop] at hi
          rw [Nat.add_assoc]
          exact hwrote.reaches (h (n + i) (by omega)))
      refine ⟨u, hu, honly.trans honly', ?_⟩
      rw [bytesAt_take_drop n]
      exact hwrote.trans hwrote'

end

/-! Addresses of a core's own Scratchpad, as a transfer forms them (R172, R285). -/

/-- Span address of the first byte of core `c`'s Scratchpad on this module. -/
def State.ownBase (s : State) (c : Nat) : Nat := s.nodeId * 2 ^ 48 + (spadBase + c * 0x100000)

theorem spadPlace_own {c o : Nat} (hc : c < 64) (ho : o < 0x60000) : spadPlace (spadBase + c * 0x100000 + o) = some (c, o) := by
  generalize ha : spadBase + c * 0x100000 + o = a
  unfold spadPlace
  rw [if_pos (by omega)]
  have hcore : (a - spadBase) / 0x100000 = c := by omega
  have hoff : (a - spadBase) % 0x100000 = o := by omega
  rw [hcore, hoff]

section

variable {s : State} {c o : Nat} (hc : c < 64) (ho : o < 0x60000)
include hc ho

theorem State.ownBase_div : (s.ownBase c + o) / 2 ^ 48 = s.nodeId := by
  unfold State.ownBase spadBase
  omega

theorem State.spadPlace_ownBase : spadPlace (localOf (s.ownBase c + o)) = some (c, o) := by
  have hlocal : localOf (s.ownBase c + o) = spadBase + c * 0x100000 + o := by
    unfold localOf State.ownBase spadBase
    omega
  rw [hlocal, spadPlace_own hc ho]

end

theorem State.ownBase_congr {s t : State} {c d : Nat} (h : OnlyCore s t d) : t.ownBase c = s.ownBase c := by
  unfold State.ownBase State.nodeId
  rw [State.field_congr (h.reg _)]

theorem State.poolMode_congr {s t : State} {c : Nat} (h : OnlyCore s t c) : t.poolMode = s.poolMode := by
  unfold State.poolMode
  rw [State.field_congr (h.reg _)]

section

variable {s : State} {c o a : Nat} (hplace : spadPlace a = some (c, o)) (hpool : s.poolMode = false)
include hplace hpool

theorem State.memRead_own {len : Nat} (hlen : o + len ≤ 0x60000)
    (h : ∀ i, i < len → dmaReaches (s.core c) (o + i) ∧ o + i ∉ (s.core c).badParity) :
    s.memRead c plainView a len = (s, .ok (bytesGet 0 (s.core c).mem o len)) := by
  unfold State.memRead
  rw [hplace]
  dsimp only
  rw [if_neg (Nat.not_lt.mpr hlen)]
  exact State.dmaSpadRead_ok _ hpool (by omega) h

theorem State.memWrite_own {bs : List Byte} (hlen : o + bs.length ≤ 0x60000) (h : ∀ i, i < bs.length → dmaReaches (s.core c) (o + i)) :
    ∃ t, s.memWrite c plainView a bs = (t, none) ∧ OnlyCore s t c ∧ Wrote (s.core c) (t.core c) (bytesAt o bs) := by
  unfold State.memWrite
  rw [hplace]
  dsimp only
  rw [if_neg (Nat.not_lt.mpr hlen)]
  exact State.dmaSpadWrite_ok _ hpool (by omega) h

end

/-- Bytes that the port reaches end in the Scratchpad. -/
theorem reach_end {k : Core} {o n : Nat} (hn : 0 < n) (h : ∀ i, i < n → dmaReaches k (o + i)) : o + n ≤ 0x60000 := by
  have := (h (n - 1) (by omega)).1
  omega

/-! What a COPY reads, and where writes go (R285, R286). -/

section

variable {m : Mv} {c : Nat} (hc : c < 64) (hcore : m.core = c) (hpool : m.s.poolMode = false) (hm : m.halted = false)
include hc hcore hpool hm

theorem Mv.get_own {d : Side} {i n : Nat} (hd : d.view = plainView)
    (h : ∀ j, j < n → dmaReaches (m.s.core c) (i + j) ∧ i + j ∉ (m.s.core c).badParity) :
    m.get d (m.s.ownBase c + i) n = (m, some (bytesGet 0 (m.s.core c).mem i n)) := by
  subst hcore
  unfold Mv.get
  rw [hm, if_neg Bool.false_ne_true]
  split
  · next h0 => rw [h0]; rfl
  · next hn =>
    have hend := reach_end (Nat.pos_of_ne_zero hn) fun j hj => (h j hj).1
    have hi : i < 0x60000 := by omega
    rw [if_pos (State.ownBase_div hc hi), hd, State.memRead_own (State.spadPlace_ownBase hc hi) hpool hend h]

theorem Mv.copyBytes_own (fuel : Nat) {i b len : Nat} (hd : m.x.srcSide.view = plainView) (hfuel : len = 0 ∨ i % 256 + len ≤ 256 * fuel)
    (h : ∀ j, j < len → dmaReaches (m.s.core c) (i + j) ∧ i + j ∉ (m.s.core c).badParity) :
    m.copyBytes (m.s.ownBase c + i) b len fuel = { m with out := putBytes m.out b (bytesGet 0 (m.s.core c).mem i len) } := by
  induction fuel generalizing m i b len with
  | zero =>
    obtain rfl : len = 0 := by omega
    rfl
  | succ fuel ih =>
    unfold Mv.copyBytes
    split
    · next h0 => rw [h0]; rfl
    · have hmod : (m.s.ownBase c + i) % 256 = i % 256 := by
        unfold State.ownBase spadBase
        omega
      rw [hmod]
      dsimp only
      generalize hk : min len (256 - i % 256) = n
      have hsplit : len = n + (len - n) := by omega
      rw [Mv.get_own hc hcore hpool hm hd fun j hj => h j (by omega)]
      dsimp only
      have hrest := ih (m := m.put b (bytesGet 0 (m.s.core c).mem i n)) (i := i + n) (b := b + n) (len := len - n) hcore hpool hm hd
        (by omega) fun j hj => by rw [Nat.add_assoc]; exact h (n + j) (by omega)
      rw [Nat.add_assoc]
      refine hrest.trans ?_
      conv_rhs => rw [hsplit, bytesGet_append, putBytes_append, length_bytesGet]
      rfl

end

section

variable {s : State} {c : Nat} {x : Xfer} (out : Tab Byte) (hc : c < 64) (hdiscard : x.discard = false)
  (hgrant : x.grant = none) (hview : x.dstSide.view = plainView)
include hc hdiscard hgrant hview

theorem Flush.write_own (hpool : s.poolMode = false) {r : Nat × List Byte} {o : Nat} (hr : r.1 = s.ownBase c + o) (hne : r.2 ≠ [])
    (h : ∀ i, i < r.2.length → dmaReaches (s.core c) (o + i)) :
    ∃ t, Flush.write ⟨s, false⟩ c x out r = ⟨t, false⟩ ∧ OnlyCore s t c ∧ Wrote (s.core c) (t.core c) (bytesAt o r.2) := by
  have hend := reach_end (List.length_pos_iff.mpr hne) h
  have ho : o < 0x60000 := (h 0 (List.length_pos_iff.mpr hne)).1
  obtain ⟨t, ht, hspec⟩ := State.memWrite_own (State.spadPlace_ownBase (s := s) hc ho) hpool hend h
  refine ⟨t, ?_, hspec⟩
  have hcheck : Flush.check ⟨s, false⟩ c x = (⟨s, false⟩, true) := by
    simp [Flush.check, hdiscard, Xfer.denied, hgrant, remoteGrant, State.itemStale]
  have hhere : s.here (s.ownBase c + o) = true := by rw [State.here, State.ownBase_div hc ho, beq_self_eq_true]
  simp only [Flush.write, hcheck, hhere, if_true, hview, hr, ht]

/-- Writes to a core's own Scratchpad go out run by run. -/
theorem Flush.writes_own (rs : List (Nat × List Byte)) {s : State} (hpool : s.poolMode = false)
    (h : ∀ r ∈ rs, r.2 ≠ [] ∧ s.ownBase c ≤ r.1 ∧ ∀ i, i < r.2.length → dmaReaches (s.core c) (r.1 - s.ownBase c + i)) :
    ∃ t, rs.foldl (fun (f : Flush) r => f.write c x out r) ⟨s, false⟩ = ⟨t, false⟩ ∧ OnlyCore s t c ∧
      Wrote (s.core c) (t.core c) (rs.flatMap (fun r => bytesAt (r.1 - s.ownBase c) r.2)) := by
  induction rs generalizing s with
  | nil => exact ⟨s, rfl, .refl s c, .refl _⟩
  | cons r rs ih =>
    obtain ⟨hne, hlo, hreach⟩ := h r (List.mem_cons_self ..)
    obtain ⟨t, ht, honly, hwrote⟩ := Flush.write_own out hc hdiscard hgrant hview hpool (r := r) (by omega) hne hreach
    have hbase := State.ownBase_congr (c := c) honly
    have hpool' : t.poolMode = false := (State.poolMode_congr honly).trans hpool
    obtain ⟨u, hu, honly', hwrote'⟩ := ih hpool' (fun r' hr' => by
      obtain ⟨hne', hlo', hreach'⟩ := h r' (List.mem_cons_of_mem _ hr')
      rw [hbase]
      exact ⟨hne', hlo', fun i hi => hwrote.reaches (hreach' i hi)⟩)
    refine ⟨u, by rw [List.foldl_cons, ht, hu], honly.trans honly', ?_⟩
    rw [hbase] at hwrote'
    exact hwrote.trans hwrote'

end

/-! How a transfer moves (R283). -/

/-- Every run of bytes that stand from `a` on lies among them. -/
theorem outRuns_bounds {a : Nat} {bs : List Byte} {r : Nat × List Byte} (hr : r ∈ outRuns (bytesAt a bs)) {i : Nat} (hi : i < r.2.length) :
    a ≤ r.1 + i ∧ r.1 + i < a + bs.length := by
  have hin : (bytesAt r.1 r.2).any (fun e => e.1 == r.1 + i) = true := by
    rw [any_bytesAt]
    simp [hi]
  have hall : (bytesAt a bs).any (fun e => e.1 == r.1 + i) = true := by
    rw [← outRuns_bytesAt (bytesAt a bs), List.any_flatMap]
    exact List.any_eq_true.mpr ⟨r, hr, hin⟩
  rw [any_bytesAt] at hall
  simpa using hall

theorem outRuns_pos {t : Tab Byte} {r : Nat × List Byte} (hr : r ∈ outRuns t) : 0 < r.2.length :=
  List.length_pos_iff.mpr (outRuns_ne_nil t r hr)

/-- Where every write goes to this module, no word is asked for. -/
theorem Mv.askEnds_here {m : Mv} (h : ∀ r ∈ outRuns m.out, m.s.here r.1 = true) : m.askEnds = m := by
  refine List.foldlRecOn (motive := fun t : Mv => t = m) _ _ rfl fun t ht r hr => ?_
  rw [ht, h r hr, if_pos rfl]

section

variable {s : State} {c : Nat} {x : Xfer} {o : Nat} {bs : List Byte} (hc : c < 64) (hpool : s.poolMode = false)
  (hdiscard : x.discard = false) (hgrant : x.grant = none) (hsrc : x.srcPail = none) (hdst : x.dstPail = none)
  (htensor : x.tensor = false) (hreach : ∀ i, i < bs.length → dmaReaches (s.core c) (o + i))
  (hrun : (Mv.start s c x).run = { Mv.start s c x with out := bytesAt (s.ownBase c + o) bs })
include hc hpool hdiscard hgrant hsrc hdst htensor hreach hrun

/-- A transfer whose writes go to its core's own Scratchpad moves as it goes. -/
theorem State.xferMove_own : OnlyCore s (s.xferMove c x) c ∧
    Wrote { s.core c with dma := (s.core c).dma.map (fun y => if y.id = x.id then { y with moved := true } else y) }
      ((s.xferMove c x).core c) (bytesAt o bs) := by
  generalize hm : { Mv.start s c x with out := bytesAt (s.ownBase c + o) bs } = m at hrun
  have hout : m.out = bytesAt (s.ownBase c + o) bs := by rw [← hm]
  have hs : m.s = s := by rw [← hm]; rfl
  have hrest : m.miss = [] ∧ m.fail = none ∧ m.fills = 0 ∧ m.oob = 0 ∧ m.adds = [] := by rw [← hm]; exact ⟨rfl, rfl, rfl, rfl, rfl⟩
  obtain ⟨hmiss, hfail, hfills, hoob, hadds⟩ := hrest
  have hruns : ∀ r ∈ outRuns m.out, r.2 ≠ [] ∧ s.ownBase c ≤ r.1 ∧ ∀ i, i < r.2.length → dmaReaches (s.core c) (r.1 - s.ownBase c + i) := by
    rw [hout]
    intro r hr
    have hlo := (outRuns_bounds hr (outRuns_pos hr)).1
    refine ⟨outRuns_ne_nil _ r hr, by omega, fun i hi => ?_⟩
    obtain ⟨hlo', hhi'⟩ := outRuns_bounds hr hi
    have hplace : r.1 - s.ownBase c + i = o + (r.1 + i - (s.ownBase c + o)) := by omega
    rw [hplace]
    exact hreach _ (by omega)
  have hends : m.askEnds = m := Mv.askEnds_here fun r hr => by
    obtain ⟨hne, hlo, hr'⟩ := hruns r hr
    have h0 := (hr' 0 (List.length_pos_iff.mpr hne)).1
    rw [Nat.add_zero] at h0
    rw [hs, State.here, show r.1 = s.ownBase c + (r.1 - s.ownBase c) by omega, State.ownBase_div hc h0, beq_self_eq_true]
  have hview : x.dstSide.view = plainView := by simp [Xfer.dstSide, hdst, htensor, plainView]
  let u := s.modXfer c x.id (fun y => { y with moved := true })
  have honly : OnlyCore s u c := .modCore s c _
  have hcore : u.core c = { s.core c with dma := (s.core c).dma.map (fun y => if y.id = x.id then { y with moved := true } else y) } :=
    s.core_modCore_same c _
  have hbase : u.ownBase c = s.ownBase c := State.ownBase_congr honly
  have hpool' : u.poolMode = false := (State.poolMode_congr honly).trans hpool
  obtain ⟨t, ht, honly', hwrote⟩ := Flush.writes_own (s := u) m.out hc hdiscard hgrant hview (outRuns m.out) hpool' fun r hr => by
    obtain ⟨hne, hlo, hr'⟩ := hruns r hr
    rw [hbase]
    exact ⟨hne, hlo, fun i hi => by rw [hcore]; exact hr' i hi⟩
  have hmove : s.xferMove c x = t := by
    have hpacked (w : State) : w.notePacked c x = w := by simp [State.notePacked, Xfer.wheyPlace, htensor]
    have hdrain (w : State) : w.drainEnd c x = w := by simp [State.drainEnd, hsrc]
    have hlist (w : State) : w.noteList c x m = w := by simp [State.noteList, hdst]
    have hcount (w : State) : w.countMv c m = w := by simp [State.countMv, State.bump64, hfills, hoob]
    simp only [State.xferMove, hrun, hends, hmiss, hs, hlist, hcount, hfail, hpacked, hdrain, hadds]
    exact (congrArg Flush.s ht).trans rfl
  rw [hmove]
  refine ⟨honly.trans honly', ?_⟩
  have hpairs : (outRuns m.out).flatMap (fun r => bytesAt (r.1 - s.ownBase c) r.2) = bytesAt o bs := by
    calc (outRuns m.out).flatMap (fun r => bytesAt (r.1 - s.ownBase c) r.2)
        = (outRuns m.out).flatMap (fun r => (bytesAt r.1 r.2).map (fun e => (e.1 - s.ownBase c, e.2))) :=
          List.flatMap_congr fun r hr => (map_bytesAt r.2 (hruns r hr).2.1).symm
      _ = m.out.map (fun e => (e.1 - s.ownBase c, e.2)) := by rw [← List.map_flatMap, outRuns_bytesAt]
      _ = bytesAt o bs := by rw [hout, map_bytesAt bs (Nat.le_add_right ..), Nat.add_sub_cancel_left]
  rwa [hcore, hbase, hpairs] at hwrote

end

/-! What a FILL and a COPY write. -/

/-- A word's bytes over and over. -/
theorem flatMap_leBytes (v : Nat) (n : Nat) : (List.range n).flatMap (fun _ => leBytes v 8) =
    (List.range (8 * n)).map (fun i => (leBytes v 8).getD (i % 8) 0) := by
  induction n with
  | zero => rfl
  | succ n ih =>
    have hword : (List.range 8).map (fun i => (leBytes v 8).getD ((8 * n + i) % 8) 0) = leBytes v 8 := by
      simp only [Nat.mul_add_mod]
      rfl
    rw [List.range_succ, List.flatMap_append, ih, Nat.mul_succ, List.range_add, List.map_append, List.map_map, List.flatMap_singleton]
    exact congrArg _ hword.symm

section

variable {s : State} {c : Nat} {x : Xfer} {o : Nat}

theorem Mv.run_fill (hk : x.kind = .fill) (hlen : x.len % 8 = 0) (hdst : x.dstAddr = spadBase + c * 0x100000 + o) :
    (Mv.start s c x).run = { Mv.start s c x with
      out := bytesAt (s.ownBase c + o) ((List.range x.len).map (fun i => (leBytes x.org.toNat 8).getD (i % 8) 0)) } := by
  have haddr : s.nodeId * 2 ^ 48 + x.dstAddr = s.ownBase c + o := by rw [hdst, State.ownBase]; omega
  have hrun : (Mv.start s c x).run = (Mv.start s c x).put (s.nodeId * 2 ^ 48 + x.dstAddr)
      ((List.range (x.len / 8)).flatMap (fun _ => leBytes x.org.toNat 8)) := by
    simp only [Mv.run, Mv.start, hk]
  rw [hrun, flatMap_leBytes, Nat.mul_div_cancel' (Nat.dvd_of_mod_eq_zero hlen), haddr, ← putBytes_nil]
  rfl

theorem Mv.run_copy (hc : c < 64) (hpool : s.poolMode = false) (hk : x.kind = .copy) (hlen : x.len % 8 = 0) (hsrc : x.srcPail = none) {i : Nat}
    (hdst : x.dstAddr = spadBase + c * 0x100000 + o) (hsrcAddr : x.srcAddr = spadBase + c * 0x100000 + i)
    (h : ∀ j, j < x.len → dmaReaches (s.core c) (i + j) ∧ i + j ∉ (s.core c).badParity) :
    (Mv.start s c x).run = { Mv.start s c x with
      out := bytesAt (s.ownBase c + o) ((List.range x.len).map (fun j => tabGet 0 (s.core c).mem (i + j))) } := by
  have haddr : s.nodeId * 2 ^ 48 + x.dstAddr = s.ownBase c + o := by rw [hdst, State.ownBase]; omega
  have haddr' : s.nodeId * 2 ^ 48 + x.srcAddr = s.ownBase c + i := by rw [hsrcAddr, State.ownBase]; omega
  have hrun : (Mv.start s c x).run = (Mv.start s c x).copyBytes (s.nodeId * 2 ^ 48 + x.srcAddr) (s.nodeId * 2 ^ 48 + x.dstAddr) x.len
      (x.len / 8 + 1) := by
    simp only [Mv.run, Mv.start, hk]
  have hview : x.srcSide.view = plainView := by simp [Xfer.srcSide, hsrc, Xfer.tensor, hk, plainView]
  rw [hrun, haddr, haddr', ← bytesGet_eq_range, ← putBytes_nil]
  exact Mv.copyBytes_own (m := Mv.start s c x) hc rfl hpool rfl _ hview (by omega) h

/-! How it starts (R188). -/

/-- The transfer once it has started. -/
def Xfer.begun (x : Xfer) : Xfer := { x with started := true }

/-- The state in which a transfer without pails has started. -/
def State.xferBegun (s : State) (c : Nat) (x : Xfer) : State := (s.modCore c (·.claimPails x.begun)).modXfer c x.id (fun _ => x.begun)

theorem State.xferStart_plain (hsrc : x.srcPail = none) (hdst : x.dstPail = none) (hgrant : x.grant = none) (htensor : x.tensor = false)
    (waited : Nat) : s.xferStart c x waited = (s.xferBegun c x).xferMove c x.begun := by
  have hfault : s.startFault x = none := by simp [State.startFault, htensor]
  have hnoop : x.begun.noop = false := by
    rw [Xfer.noop, show x.begun.tensor = false from htensor]
    rfl
  have hkept : s.srcKept c x = 0 := by simp [State.srcKept, hsrc]
  have hgo : (s.xferBegun c x).xferGo c x.begun = (s.xferBegun c x).xferMove c x.begun := by
    simp only [State.xferGo, show x.begun.grant = none from hgrant]
  rw [← hgo]
  have hpails : ¬ (x.srcPail.isSome = true ∨ x.dstPail.isSome = true) := by simp [hsrc, hdst]
  simp only [State.xferStart, if_neg hpails, hfault, htensor, Bool.false_and, Bool.false_eq_true, if_false, State.bump64, if_true, hkept,
    ne_eq, not_true_eq_false]
  exact if_neg (Bool.eq_false_iff.mp hnoop)

theorem State.xferBegun_onlyCore : OnlyCore s (s.xferBegun c x) c := by
  unfold State.xferBegun State.modXfer
  exact .trans (.modCore ..) (.modCore ..)

theorem State.xferBegun_core (hdma : (s.core c).dma = [x]) (hsrc : x.srcPail = none) (hdst : x.dstPail = none) :
    (s.xferBegun c x).core c = { s.core c with dma := [x.begun] } := by
  simp [State.xferBegun, State.modXfer, Core.claimPails, Xfer.begun, hsrc, hdst, hdma]

theorem Core.mayStart_plain {k : Core} (hdma : k.dma = [x]) (hstarted : x.started = false) (hreq : k.ownerReq = none)
    (hsrc : x.srcPail = none) (hdst : x.dstPail = none) : k.mayStart x = true := by
  simp [Core.mayStart, hstarted, hreq, Core.xferReady, hsrc, hdst, Core.xferFirst, hdma]

end

/-- A transfer that is alone of its core and moves `bs` to offset `o` of its own Scratchpad. -/
theorem exec_transferStart_moved {s : State} {c : CoreId} {x : Xfer} {o : Nat} {bs : List Byte} (honly : onlyTransfer s c x)
    (htensor : x.tensor = false) (hreach : ∀ i, i < bs.length → dmaReaches (s.core c.val) (o + i))
    (hrun : (Mv.start (s.xferBegun c.val x) c.val x.begun).run = { Mv.start (s.xferBegun c.val x) c.val x.begun with
      out := bytesAt (s.ownBase c.val + o) bs }) (waited : Nat) :
    Ends (exec (.transferStart c x.id waited) s) (fun t =>
      hasMoved s t c x (bytesAt o bs) ∧ (t.core c.val).packed = (s.core c.val).packed ∧ OnlyCore s t c.val) := by
  obtain ⟨hdma, hstarted, hdiscard, hsrc, hdst, hgrant, hreq, hpool⟩ := honly
  have hfind : s.xfer c.val x.id = some x := by simp [State.xfer, hdma]
  have hbegun := s.xferBegun_onlyCore (c := c.val) (x := x)
  have hcore := State.xferBegun_core hdma hsrc hdst
  have hexec : exec (.transferStart c x.id waited) s = .next ((s.xferBegun c.val x).xferMove c.val x.begun) := by
    have hstart : exec (.transferStart c x.id waited) s = act ((s.core c.val).mayStart x) s (s.xferStart c.val x waited) := by
      simp only [exec, execTransferStart, hfind]
    rw [hstart, State.xferStart_plain hsrc hdst hgrant htensor, Core.mayStart_plain hdma hstarted hreq hsrc hdst]
    rfl
  obtain ⟨hmoved, hmem, hwrote⟩ := State.xferMove_own (s := s.xferBegun c.val x) (x := x.begun) (o := o) (bs := bs) c.isLt
    ((State.poolMode_congr hbegun).trans hpool) hdiscard hgrant hsrc hdst htensor (fun i hi => by rw [hcore]; exact hreach i hi)
    (by rw [State.ownBase_congr hbegun]; exact hrun)
  rw [hcore] at hmem hwrote
  refine ends_of_eq hexec ⟨⟨hmem, ?_⟩, ?_, hbegun.trans hmoved⟩
  · rw [hwrote]
    simp [Xfer.begun]
  · rw [hwrote]

/-! How it completes (R187, R219). -/

theorem exec_transferComplete {s : State} {c : CoreId} {id : Nat} {x : Xfer} (h : s.xfer c.val id = some x) :
    exec (.transferComplete c id) s = act x.quiet s (s.xferStep c.val x) := by
  simp only [exec, execTransferComplete, h]

/-- What a completed transfer hands to its operation. -/
def Xfer.result (x : Xfer) : OpResult := if x.status = 0 then ⟨0, none, Stop.of 0⟩ else ⟨x.stop.code, none, x.stop⟩

theorem State.xferDone_spec (s : State) (c : Nat) {x : Xfer} (hn : x.nest = false) :
    (s.xferDone c x).core c = { s.core c with
      dma := (s.core c).dma.filter (fun y => y.id != x.id)
      ops := handedOver (s.core c).ops [x.id] x.result } ∧ OnlyCore s (s.xferDone c x) c := by
  unfold State.xferDone Xfer.result
  simp only [hn, Bool.false_eq_true, if_false]
  split
  · exact ⟨by simp [State.opEnd_core], .trans (.modCore ..) (State.opEnd_onlyCore ..)⟩
  · exact ⟨by simp [State.opFail_core], .trans (.modCore ..) (State.opFail_onlyCore ..)⟩

theorem State.fillEnd_spec (s : State) (c : Nat) {x : Xfer} (hd : x.discard = false) :
    (∀ i, ((s.fillEnd c x).core c).pail i =
      if x.dstPail = some i then ((s.core c).pail i).filled x.status else (s.core c).pail i) ∧
    (s.fillEnd c x).core c = { s.core c with pails := ((s.fillEnd c x).core c).pails } ∧ OnlyCore s (s.fillEnd c x) c := by
  unfold State.fillEnd
  cases hp : x.dstPail with
  | none => exact ⟨fun i => rfl, rfl, .refl s c⟩
  | some j =>
    simp only [hd, Bool.false_eq_true, if_false, Option.some.injEq]
    refine ⟨fun i => ?_, ?_, .modCore ..⟩
    · rw [State.core_modCore_same, Core.pail_setPail]
      rcases eq_or_ne i j with rfl | h
      · simp only [if_true]
      · rw [if_neg h, if_neg h.symm]
    · rw [State.core_modCore_same]
      rfl

/-- Settles O26: a FILL and a COPY by the bytes that they write, and a completion by its two end events. -/
theorem transfersMoveAndComplete : Obligations.TransfersMoveAndComplete := by
  unfold Obligations.TransfersMoveAndComplete
  intro s c x waited k base o i
  have hplace {a : Nat} (h : base ≤ a) : a = spadBase + c.val * 0x100000 + (a - base) := by
    simp only [base, spadBase] at h ⊢
    omega
  refine ⟨fun honly hlen hdst hreach => ⟨fun hk => ?fill, fun hk hsrcAddr hsrc => ?copy⟩,
    fun hx hstarted hmoved hdiscard hnest hspan hadd => ?completes, fun hx hwaits => ?waits⟩
  case fill =>
    rw [← bytesAt_range]
    refine exec_transferStart_moved honly (by simp [Xfer.tensor, hk]) (by simpa using hreach) ?_ waited
    rw [← State.ownBase_congr (s.xferBegun_onlyCore (x := x))]
    exact Mv.run_fill (x := x.begun) hk hlen (hplace hdst)
  case copy =>
    rw [← bytesAt_range]
    refine exec_transferStart_moved honly (by simp [Xfer.tensor, hk]) (by simpa using hreach) ?_ waited
    obtain ⟨hdma, -, -, hsrcPail, hdstPail, -, -, hpool⟩ := honly
    have hcore := State.xferBegun_core hdma hsrcPail hdstPail
    have hbegun := s.xferBegun_onlyCore (c := c.val) (x := x)
    have hmem : ((s.xferBegun c.val x).core c.val).mem = k.mem := by rw [hcore]
    rw [← State.ownBase_congr hbegun, ← hmem]
    exact Mv.run_copy (x := x.begun) c.isLt ((State.poolMode_congr hbegun).trans hpool) hk hlen hsrcPail (hplace hdst) (hplace hsrcAddr)
      fun j hj => by rw [hcore]; exact hsrc j hj
  case completes =>
    have hquiet : x.quiet = true := by simp [Xfer.quiet, hstarted, hspan, hadd]
    have hstep : s.xferStep c.val x = (s.fillEnd c.val x).xferDone c.val x := by simp [State.xferStep, hdiscard, hmoved]
    rw [exec_transferComplete hx, hstep]
    obtain ⟨hpails, hfilled, honly⟩ := s.fillEnd_spec c.val hdiscard
    obtain ⟨hdone, honly'⟩ := (s.fillEnd c.val x).xferDone_spec c.val hnest
    refine ends_act hquiet ⟨fun i => ?_, ?_, honly.trans honly'⟩
    · rw [hdone]
      exact hpails i
    · rw [hdone, hfilled]
      rfl
  case waits =>
    rw [exec_transferComplete hx]
    refine act_of_false _ _ ?_
    rcases hwaits with h | h | h <;> simp [Xfer.quiet, h]

end Sys2Proof.Machine
end

section
/-! SUPPORT. What leaves the counts of operations as they were, PUSH, UPDATE and POP, and the statement about them (R175, R198–R200, R307,
R311, R312). -/

namespace Sys2Proof.Machine

/-! No core's count of operations changes while a fault is recorded or a task fails (R507, R509). -/

theorem NextOpKept.foldl {α : Type} (g : State → α → State) (hg : ∀ (t : State) a, NextOpKept t (g t a)) (l : List α) (s : State) :
    NextOpKept s (l.foldl g s) := by
  induction l generalizing s with
  | nil => exact .refl s
  | cons a l ih => exact (hg s a).trans (ih _)

section

variable (s : State)

theorem NextOpKept.setRegN (x v : Nat) : NextOpKept s (s.setRegN x v) := .of_cores rfl

theorem NextOpKept.setReg64 (x v : Nat) : NextOpKept s (s.setReg64 x v) := .of_cores (s.setReg64_cores x v)

theorem NextOpKept.setField (x lo len v : Nat) : NextOpKept s (s.setField x lo len v) := .of_cores rfl

theorem NextOpKept.bump32 (x n : Nat) : NextOpKept s (s.bump32 x n) := .of_cores (s.bump32_cores x n)

theorem NextOpKept.bump64 (x n : Nat) : NextOpKept s (s.bump64 x n) := .of_cores (s.bump64_cores x n)

theorem NextOpKept.report (e : DbEntry) : NextOpKept s (s.report e).1 := .of_cores (s.report_cores e)

theorem NextOpKept.recordTime : NextOpKept s s.recordTime.1 := .of_cores s.recordTime_cores

theorem NextOpKept.recordTimeOf (p : State × Nat) (hp : p = s.recordTime) : NextOpKept s p.1 := by
  subst hp
  exact .recordTime s

theorem NextOpKept.recordFault (c : Nat) (st : Stop) : NextOpKept s (s.recordFault c st) := .of_cores (by rw [s.recordFault_eq])

theorem NextOpKept.countRefusal (c code : Nat) : NextOpKept s (s.countRefusal c code) := .of_cores (by rw [s.countRefusal_eq])

theorem NextOpKept.freezeCut (c : Nat) : NextOpKept s (s.freezeCut c) := by
  unfold State.freezeCut
  split
  · exact .refl s
  · simp only [State.countFreeze]
    refine .trans (.of_cores ?_) (.modCore _ _ rfl)
    rw [State.maxReg_cores, State.bump64_cores, State.tick_cores]

theorem NextOpKept.stopAll : NextOpKept s (s.allCores Core.stopNow) :=
  .foldl (fun t c => State.modCore t c Core.stopNow) (fun t c => .modCore t c rfl) coreList s

theorem NextOpKept.failTask (status detail seq : Nat) : NextOpKept s (s.failTask status detail seq) := by
  unfold State.failTask
  split
  · have hcut := NextOpKept.foldl State.freezeCut .freezeCut coreList s
    generalize coreList.foldl State.freezeCut s = t at hcut ⊢
    have hstop := NextOpKept.stopAll t
    dsimp only
    generalize t.allCores Core.stopNow = u at hstop ⊢
    exact (hcut.trans hstop).trans (.of_cores rfl)
  · exact .refl s

/-- A parity error that stops no core by itself. -/
theorem NextOpKept.parityError (c a port : Nat) (remote : Bool) : NextOpKept s (s.parityError c a port remote).1 := by
  unfold State.parityError State.parityErrorAt
  simp only [Bool.false_eq_true, if_false]
  exact ((((NextOpKept.countRefusal ..).trans (.recordFault ..)).trans (.recordTime _)).trans (.report ..)).trans (.failTask ..)

/-! Nor while an event is posted or LPDDR is accessed (R339–R350, R432). -/

theorem NextOpKept.wantMsix (p v : Nat) : NextOpKept s (s.wantMsix p v) := by
  unfold State.wantMsix
  split <;> exact .of_cores rfl

theorem NextOpKept.hostWrite (p a : Nat) (bs : List Byte) : NextOpKept s (s.hostWrite p a bs) := by
  unfold State.hostWrite
  generalize p * 2 ^ 64 + a = k
  exact .of_cores rfl

theorem NextOpKept.ringAdvTail (r : Nat) : NextOpKept s (s.ringAdvTail r) := .setRegN s _ _

theorem NextOpKept.ringAdvHead (r : Nat) : NextOpKept s (s.ringAdvHead r) := .setRegN s _ _

theorem NextOpKept.cplPush (r : Nat) (bs : List Byte) : NextOpKept s (s.cplPush r bs) := by
  have hwrite := NextOpKept.hostWrite s (s.ringPort r) (s.ringSlot r (s.ringTail r)) bs
  have hpush := (hwrite.trans (.ringAdvTail _ r)).trans (.bump64 _ Reg.SPAD_RING_PUSHES_LO 1)
  unfold State.cplPush
  dsimp only
  split
  · exact hpush.trans (.wantMsix ..)
  · exact hpush

theorem NextOpKept.cplSqueezed (r : Nat) : NextOpKept s (s.cplSqueezed r) := .of_cores rfl

theorem NextOpKept.eventTo (p : Nat) (bs : List Byte) : NextOpKept s (s.eventTo p bs) := by
  unfold State.eventTo
  split
  · exact .refl s
  · split
    · exact (NextOpKept.cplPush s _ bs).trans (.cplSqueezed ..)
    · exact .bump32 ..

theorem NextOpKept.postEvent (severity origin unit inst code : Nat) (detail : List Byte) :
    NextOpKept s (s.postEvent severity origin unit inst code detail) := by
  have hreport := NextOpKept.report s (dbEvent severity origin unit inst 0 code detail)
  unfold State.postEvent
  generalize s.report (dbEvent severity origin unit inst 0 code detail) = p at hreport ⊢
  dsimp only
  exact (hreport.trans (.eventTo ..)).trans (.eventTo ..)

theorem NextOpKept.atomStored (idx : Nat) : NextOpKept s (s.atomStored idx).1 := by
  unfold State.atomStored
  dsimp only
  split
  · exact .refl s
  · split
    · exact .refl s
    · exact .of_cores rfl

theorem NextOpKept.pkgCe (w : Tab Nat) : NextOpKept s { s with pkgCe := w } := .of_cores rfl

theorem NextOpKept.writeBacks (w : List (Nat × List Byte)) : NextOpKept s { s with writeBacks := w } := .of_cores rfl

theorem NextOpKept.countCe (chan : Nat) : NextOpKept s (s.countCe chan) := by
  have hcount := NextOpKept.bump32 s (Reg.PWR_MEMC_CE chan) 1
  unfold State.countCe
  generalize s.bump32 (Reg.PWR_MEMC_CE chan) 1 = u at hcount ⊢
  have hpkg := hcount.trans (.pkgCe u (tabSet 0 u.pkgCe (chan / 4) (tabGet 0 u.pkgCe (chan / 4) + 1)))
  dsimp only
  generalize { u with pkgCe := tabSet 0 u.pkgCe (chan / 4) (tabGet 0 u.pkgCe (chan / 4) + 1) } = v at hpkg ⊢
  generalize (if chan / 4 < 32 then Reg.PWR_MEMMAP_WARN_LO else Reg.PWR_MEMMAP_WARN_HI) = x
  split
  · exact (hpkg.trans (.setField v ..)).trans (.postEvent ..)
  · exact hpkg

theorem NextOpKept.reportUe (idx : Nat) (address scrub : Bool) (core : Nat) : NextOpKept s (s.reportUe idx address scrub core).1 := by
  delta State.reportUe
  extract_lets m s1 s2 p
  have hcount : NextOpKept s s1 := .bump32 s _ 1
  have hrecord : NextOpKept s s2 := by
    unfold s2
    split
    · exact hcount
    · exact (hcount.trans (.setReg64 s1 _ _)).trans (.setRegN ..)
  have htime : NextOpKept s2 p.1 := .recordTimeOf s2 p rfl
  clear_value p
  exact (hrecord.trans htime).trans (.report p.1 _)

/-- No core's count of operations changes on the way to the state of an answer. -/
def AnswerKept {α : Type} (s : State) (a : State × α) : Prop := NextOpKept s a.1

theorem AnswerKept.of {α : Type} {s t : State} (h : NextOpKept s t) (r : α) : AnswerKept s (t, r) := h

theorem AnswerKept.kept {α : Type} {s t : State} {r : α} (h : AnswerKept s (t, r)) : NextOpKept s t := h

theorem NextOpKept.atomAnswer (idx chan : Nat) (scrub : Bool) (core : Nat) (r : AtomRead) :
    AnswerKept s (s.atomAnswer idx chan scrub core r) := by
  cases r with
  | clean d => rw [State.atomAnswer]; exact .of (.refl s) _
  | corrected d => rw [State.atomAnswer]; exact .of ((NextOpKept.countCe s chan).trans (.writeBacks ..)) _
  | bad address => rw [State.atomAnswer]; exact .of (.reportUe s idx address scrub core) _

theorem NextOpKept.atomRead (idx : Nat) (scrub : Bool) (core : Nat) : NextOpKept s (s.atomRead idx scrub core).1 :=
  ((NextOpKept.atomStored s idx).trans (.bump64 ..)).trans (.atomAnswer ..)

theorem NextOpKept.dramPut (k : Nat) (w : List Byte) : NextOpKept s (s.dramPut k w) := .of_cores rfl

theorem NextOpKept.atomWrite (idx : Nat) (data : List Byte) : NextOpKept s (s.atomWrite idx data) := by
  unfold State.atomWrite State.placeWrite
  exact ((NextOpKept.dramPut ..).trans (.writeBacks ..)).trans (.bump64 ..)

theorem NextOpKept.atomUpdate (idx off core : Nat) (f : List Byte → Option (List Byte)) : NextOpKept s (s.atomUpdate idx off core f).1 := by
  unfold State.atomUpdate
  split
  · exact .refl s
  · have hread := NextOpKept.atomRead s idx false core
    generalize s.atomRead idx false core = p at hread ⊢
    obtain ⟨t, r⟩ := p
    cases r with
    | error seq => exact hread
    | ok d =>
      dsimp only
      split
      · exact hread.trans (.atomWrite ..)
      · exact hread

theorem NextOpKept.atomMerge (idx off : Nat) (bs : List Byte) (core : Nat) : NextOpKept s (s.atomMerge idx off bs core).1 := by
  unfold State.atomMerge
  split
  · exact .atomWrite ..
  · exact .atomUpdate ..

end

theorem NextOpKept.atomsRead (n : Nat) (s : State) (idx core : Nat) : NextOpKept s (s.atomsRead idx core n).1 := by
  induction n generalizing s idx with
  | zero => exact .refl s
  | succ n ih =>
    unfold State.atomsRead
    split
    · exact ih s (idx + 1)
    · have hread := NextOpKept.atomRead s idx false core
      generalize s.atomRead idx false core = p at hread ⊢
      obtain ⟨t, r⟩ := p
      cases r with
      | error seq => exact hread.trans (ih t (idx + 1))
      | ok d => exact hread.trans (ih t (idx + 1))

theorem NextOpKept.atomsWrite (n : Nat) (s : State) (a : Nat) (bs : List Byte) (core : Nat) : NextOpKept s (s.atomsWrite a bs core n).1 := by
  induction n generalizing s a bs with
  | zero => exact .refl s
  | succ n ih =>
    unfold State.atomsWrite
    split
    · exact .refl s
    · exact (NextOpKept.atomMerge ..).trans (ih ..)

theorem NextOpKept.lpddrRead (s : State) (a len core : Nat) : NextOpKept s (s.lpddrRead a len core).1 := by
  unfold State.lpddrRead
  split
  · exact .refl s
  · split
    · exact .refl s
    · exact .atomsRead _ s _ core

theorem NextOpKept.lpddrWrite (s : State) (a : Nat) (bs : List Byte) (core : Nat) : NextOpKept s (s.lpddrWrite a bs core).1 := by
  unfold State.lpddrWrite
  split
  · exact .refl s
  · split
    · exact .refl s
    · exact .atomsWrite _ s a bs core

/-! Nor while a Scratchpad or a ring is accessed (R174–R176, R198, R199). -/

section

variable (s : State)

theorem NextOpKept.pailTouch (c : Nat) (w : Bool) (a : Nat) : NextOpKept s (s.pailTouch c w a) := by
  unfold State.pailTouch
  split
  · exact .refl s
  · split
    · exact .modCore s c rfl
    · exact .refl s

theorem NextOpKept.spadRead (c : Nat) (ag : Agent) (a n : Nat) : NextOpKept s (s.spadRead c ag a n).1 := by
  unfold State.spadRead
  split
  · exact .refl s
  · exact .countRefusal ..
  · split
    · have h := NextOpKept.parityError s c a (s.portOf c ag false a) (ag == .remote)
      dsimp only
      generalize s.parityError c a (s.portOf c ag false a) (ag == .remote) = p at h ⊢
      exact h
    · exact .pailTouch ..

theorem NextOpKept.spadWrite (c : Nat) (ag : Agent) (a : Nat) (bs : List Byte) : NextOpKept s (s.spadWrite c ag a bs).1 := by
  unfold State.spadWrite
  split
  · exact .refl s
  · exact .countRefusal ..
  · exact (NextOpKept.pailTouch s c true a).trans (.modCore (f := (·.spadPut a bs)) _ c rfl)

end

theorem NextOpKept.spadReadN (n : Nat) (s : State) (c : Nat) (ag : Agent) (a len : Nat) : NextOpKept s (s.spadReadN c ag a len n).1 := by
  induction n generalizing s a len with
  | zero => exact .refl s
  | succ n ih =>
    unfold State.spadReadN
    split
    · exact .refl s
    · have hfirst := NextOpKept.spadRead s c ag a (min len (64 - a % 64))
      dsimp only
      generalize s.spadRead c ag a (min len (64 - a % 64)) = p at hfirst ⊢
      obtain ⟨t, r⟩ := p
      cases r with
      | done d =>
        have hrest := ih t (a + min len (64 - a % 64)) (len - min len (64 - a % 64))
        dsimp only
        generalize t.spadReadN c ag (a + min len (64 - a % 64)) (len - min len (64 - a % 64)) n = q at hrest ⊢
        obtain ⟨u, r⟩ := q
        cases r <;> exact hfirst.trans hrest
      | wait => exact hfirst
      | refused st seq => exact hfirst

theorem NextOpKept.spadWriteN (n : Nat) (s : State) (c : Nat) (ag : Agent) (a : Nat) (bs : List Byte) :
    NextOpKept s (s.spadWriteN c ag a bs n).1 := by
  induction n generalizing s a bs with
  | zero => exact .refl s
  | succ n ih =>
    unfold State.spadWriteN
    split
    · exact .refl s
    · have hfirst := NextOpKept.spadWrite s c ag a (bs.take (64 - a % 64))
      dsimp only
      generalize s.spadWrite c ag a (bs.take (64 - a % 64)) = p at hfirst ⊢
      obtain ⟨t, r⟩ := p
      cases r with
      | done d => exact hfirst.trans (ih ..)
      | wait => exact hfirst
      | refused st seq => exact hfirst

section

variable (s : State)

theorem State.ringMemRead_kept (c a len : Nat) : AnswerKept s (s.ringMemRead c a len) := by
  generalize hplace : spadPlace a = place
  generalize hf : State.ringMemRead = g
  delta State.ringMemRead at hf
  subst hf
  beta_reduce
  rw [hplace]
  rcases place with _ | ⟨t, o⟩
  · have h := NextOpKept.lpddrRead s a len c
    dsimp only
    generalize s.lpddrRead a len c = p at h ⊢
    obtain ⟨u, bs, st⟩ := p
    dsimp only
    split <;> exact .of h _
  · dsimp only
    split
    · exact .of (.refl s) _
    · have h := NextOpKept.spadReadN (len / 64 + 2) s t .clerk o len
      generalize s.spadReadN t .clerk o len (len / 64 + 2) = p at h ⊢
      obtain ⟨u, r⟩ := p
      cases r <;> exact .of h _

theorem State.ringMemWrite_kept (c a : Nat) (bs : List Byte) : AnswerKept s (s.ringMemWrite c a bs) := by
  generalize hplace : spadPlace a = place
  generalize hf : State.ringMemWrite = g
  delta State.ringMemWrite at hf
  subst hf
  beta_reduce
  rw [hplace]
  rcases place with _ | ⟨t, o⟩
  · have h := NextOpKept.lpddrWrite s a bs c
    dsimp only
    generalize s.lpddrWrite a bs c = p at h ⊢
    obtain ⟨u, st⟩ := p
    dsimp only
    split <;> exact .of h _
  · dsimp only
    split
    · exact .of (.refl s) _
    · have h := NextOpKept.spadWriteN (bs.length / 64 + 2) s t .clerk o bs
      generalize s.spadWriteN t .clerk o bs (bs.length / 64 + 2) = p at h ⊢
      obtain ⟨u, r⟩ := p
      cases r <;> exact .of h _

theorem State.ringPost_kept (core ring kind : Nat) (entry : List Byte) : AnswerKept s (s.ringPost core ring kind entry) := by
  generalize hf : State.ringPost = g
  delta State.ringPost at hf
  subst hf
  beta_reduce
  split
  · exact .of (.refl s) _
  · split
    · exact .of (.refl s) _
    · extract_lets x a
      have h := s.ringMemWrite_kept core a (entry.take (s.ringEntry ring))
      generalize s.ringMemWrite core a (entry.take (s.ringEntry ring)) = p at h ⊢
      generalize s.slotFault a (s.ringEntry ring) = q
      clear_value a x
      cases q with
      | some st => exact .of (.countRefusal ..) _
      | none =>
        obtain ⟨u, r⟩ := p
        have hpost := (h.kept.trans (.ringAdvTail u ring)).trans (.bump64 (u.ringAdvTail ring) Reg.SPAD_RING_PUSHES_LO 1)
        cases r <;> exact .of hpost _

theorem State.ringTake_kept (core ring : Nat) : AnswerKept s (s.ringTake core ring) := by
  have h := s.ringMemRead_kept core (s.ringSlot ring (s.ringHead ring)) (s.ringEntry ring)
  generalize hf : State.ringTake = g
  delta State.ringTake at hf
  subst hf
  beta_reduce
  generalize s.ringMemRead core (s.ringSlot ring (s.ringHead ring)) (s.ringEntry ring) = p at h ⊢
  obtain ⟨u, r⟩ := p
  exact .of (h.kept.trans (.ringAdvHead u ring)) r

theorem NextOpKept.opEnd (c id status : Nat) (v : Option Dword) : NextOpKept s (s.opEnd c id status v) := .modCore s c rfl

theorem NextOpKept.opFail (c id : Nat) (st : Stop) : NextOpKept s (s.opFail c id st) := .modCore s c rfl

theorem NextOpKept.hubOps (l : List HubOp) : NextOpKept s { s with hubOps := l } := .of_cores rfl

theorem NextOpKept.posted (c id ring slot : Nat) (update : Bool) : NextOpKept s (s.posted c id ring slot update) := by
  unfold State.posted
  split
  · exact .hubOps ..
  · split
    · exact .hubOps ..
    · exact .opEnd ..

theorem NextOpKept.pushNow (c id ring : Nat) (entry : List Byte) (update : Bool) : NextOpKept s (s.pushNow c id ring entry update) := by
  unfold State.pushNow
  split
  · exact .hubOps ..
  · have h := s.ringPost_kept c ring (if update then 5 else ringKindOf ring) entry
    generalize s.ringPost c ring (if update then 5 else ringKindOf ring) entry = p at h ⊢
    obtain ⟨t, r⟩ := p
    cases r with
    | slot x => exact h.kept.trans (.posted ..)
    | full => exact h.kept.trans (.hubOps ..)
    | failed f => exact h.kept.trans (.opFail ..)
    | lost x f => exact h.kept.trans (.opFail ..)

end

theorem NextOpKept.ringKick (n : Nat) (s : State) (ring : Nat) : NextOpKept s (s.ringKick ring n) := by
  induction n generalizing s with
  | zero => exact .refl s
  | succ n ih =>
    unfold State.ringKick
    split
    · exact .refl s
    · next o heq =>
      dsimp only
      split
      · exact ((NextOpKept.hubOps ..).trans (.pushNow ..)).trans (ih ..)
      · exact .hubOps ..

theorem NextOpKept.ringMoved (s : State) (ring : Nat) : NextOpKept s (s.ringMoved ring) := .ringKick 256 s ring

/-! Ring words and places of entries (R306, R307). -/

section

variable {w : Nat} (hw : w < 2 ^ 15)
include hw

/-- The word of a local ring is its ID, and names no node. -/
theorem localRing_bits : bits w 0 15 = w := by
  unfold bits
  omega

theorem localRing_bitOf : bitOf w 15 = false := by
  have hzero : w / 32768 = 0 := Nat.div_eq_of_lt hw
  simp [bitOf, hzero]

theorem localRing_ok : ringWordOk w = true := by
  have hhigh : bits w 27 37 = 0 := by
    unfold bits
    omega
  have hnode : bits w 16 11 = 0 := by
    unfold bits
    omega
  simp [ringWordOk, hhigh, hnode]

theorem State.wordEntry_local (s : State) : s.wordEntry w = s.ringEntry w := by
  simp [State.wordEntry, localRing_bits hw, localRing_bitOf hw]

end

/-- Reads of a Scratchpad that are served move no more than the tags of its pails (R185). -/
structure PailsMoved (s t : State) (c : Nat) : Prop where
  onlyCore : OnlyCore s t c
  core : t.core c = { s.core c with pails := (t.core c).pails }

section

variable {s t : State} {c : Nat}

theorem PailsMoved.refl (s : State) (c : Nat) : PailsMoved s s c := ⟨.refl s c, rfl⟩

theorem PailsMoved.trans {u : State} (h : PailsMoved s t c) (h' : PailsMoved t u c) : PailsMoved s u c :=
  ⟨h.onlyCore.trans h'.onlyCore, by rw [h'.core, h.core]⟩

theorem PailsMoved.pailTouch (s : State) (c : Nat) (w : Bool) (a : Nat) : PailsMoved s (s.pailTouch c w a) c := by
  unfold State.pailTouch
  split
  · exact .refl s c
  · split
    · exact ⟨.modCore s c _, by rw [State.core_modCore_same]; rfl⟩
    · exact .refl s c

theorem PailsMoved.spadRead {ag : Agent} {a n : Nat} {d : List Byte} (h : s.spadRead c ag a n = (t, .done d)) : PailsMoved s t c := by
  unfold State.spadRead at h
  split at h
  · cases h
  · cases h
  · split at h
    · cases h
    · cases h
      exact .pailTouch ..

theorem PailsMoved.spadReadN {ag : Agent} {a n fuel : Nat} {d : List Byte} (h : s.spadReadN c ag a n fuel = (t, .done d)) :
    PailsMoved s t c := by
  induction fuel generalizing s a n d with
  | zero =>
    cases h
    exact .refl ..
  | succ fuel ih =>
    unfold State.spadReadN at h
    split at h
    · cases h
      exact .refl ..
    · dsimp only at h
      generalize hfirst : s.spadRead c ag a (min n (64 - a % 64)) = p at h
      obtain ⟨u, r⟩ := p
      cases r with
      | done d' =>
        dsimp only at h
        generalize hrest : u.spadReadN c ag (a + min n (64 - a % 64)) (n - min n (64 - a % 64)) fuel = q at h
        obtain ⟨v, r⟩ := q
        cases r with
        | done r' =>
          cases h
          exact (PailsMoved.spadRead hfirst).trans (ih hrest)
        | wait => cases h
        | refused st seq => cases h
      | wait => cases h
      | refused st seq => cases h

theorem PailsMoved.core_eq (h : PailsMoved s t c) (d : Nat) : t.core d = { s.core d with pails := (t.core d).pails } := by
  by_cases hd : d = c
  · subst hd
    exact h.core
  · rw [h.onlyCore.2 d hd]

end

/-- Whether new owners are to take effect at a ring depends on its record and on the cores' requests alone (R175). -/
theorem State.ringSettled_congr {s t : State} (hreg : ∀ x, t.reg x = s.reg x) (howner : ∀ d, (t.core d).ownerReq = (s.core d).ownerReq)
    (r : Nat) : t.ringSettled r = s.ringSettled r := by
  have hslot : t.ringSlot r 0 = s.ringSlot r 0 := by
    simp only [State.ringSlot, State.ringBase, State.ringCountLog, State.ringEntryLog, State.reg64_congr (hreg _) (hreg _),
      State.field_congr (hreg _)]
  generalize hf : State.ringSettled = g
  delta State.ringSettled at hf
  subst hf
  beta_reduce
  rw [hslot]
  generalize spadPlace (s.ringSlot r 0) = place
  rcases place with _ | ⟨d, o⟩
  · rfl
  · exact congrArg Option.isNone (howner d)

/-- An entry that lies in the core's Scratchpad and can be read is sent. -/
theorem State.entryOut_done {s t : State} {c a n o : Nat} {e : List Byte} (send : State → List Byte → State)
    (hplace : entryPlace c a n = .ok o) (hread : s.spadReadN c .clerk o n (n / 64 + 2) = (t, .done e)) :
    s.entryOut c a n send = .pass (send t e) := by
  generalize hf : State.entryOut = g
  delta State.entryOut at hf
  subst hf
  beta_reduce
  rw [hplace]
  dsimp only
  rw [hread]

/-! PUSH and UPDATE into a local ring (R199, R307, R311). -/

section

variable {s : State} {c ring : Nat} {entry : List Byte} {update : Bool}

theorem State.pushLocal_ungranted (gs : Nat) (hgrant : (s.core c).grant = none) : s.pushLocal c gs ring entry update =
    (s.newOp c .sync 0 gs true).1.pushNow c (s.newOp c .sync 0 gs true).2 ring entry update := by
  generalize hf : State.pushLocal = g
  delta State.pushLocal at hf
  subst hf
  beta_reduce
  extract_lets k
  have hk : k.grant = none := hgrant
  rw [hk, State.itemStale]
  dsimp only
  rw [if_neg Bool.false_ne_true]

theorem State.pushNow_posted {t : State} {id x : Nat} (hsettled : s.ringSettled ring = true)
    (hpost : s.ringPost c ring (if update then 5 else ringKindOf ring) entry = (t, .slot x)) :
    s.pushNow c id ring entry update = t.posted c id ring x update := by
  unfold State.pushNow
  rw [if_neg (by simp [hsettled]), hpost]

theorem State.newOp_snd (cls : OpClass) (gd gs : Nat) (named : Bool) : (s.newOp c cls gd gs named).2 = (s.core c).nextOp := rfl

theorem State.newOp_onlyCore (cls : OpClass) (gd gs : Nat) (named : Bool) : OnlyCore s (s.newOp c cls gd gs named).1 c :=
  .modCore s c (fun _ => _)

theorem State.newOp_ownerReq (cls : OpClass) (gd gs : Nat) (named : Bool) (d : Nat) :
    ((s.newOp c cls gd gs named).1.core d).ownerReq = (s.core d).ownerReq := by
  by_cases hd : d = c
  · subst hd
    simp [State.newOp]
  · rw [(State.newOp_onlyCore cls gd gs named).2 d hd]

theorem State.newOp_nextOp (cls : OpClass) (gd gs : Nat) (named : Bool) :
    ((s.newOp c cls gd gs named).1.core c).nextOp = (s.core c).nextOp + 1 := by
  simp [State.newOp]

end

/-- What PUSH and UPDATE have done to an entry, once it is read in `t`, goes on from the state `u` in which it is posted: its operation
has started, and the Clerk goes on past it. -/
theorem State.entryOut_posted {s t u : State} {c gs ring n a o x : Nat} {e : List Byte} {update : Bool}
    (hgrant : (s.core c).grant = none) (hplace : entryPlace c a n = .ok o)
    (hread : s.spadReadN c .clerk o n (n / 64 + 2) = (t, .done e)) (hsettled : s.ringSettled ring = true)
    (hpost : (t.newOp c .sync 0 gs true).1.ringPost c ring (if update then 5 else ringKindOf ring) e = (u, .slot x)) :
    s.entryOut c a n (fun t e => t.pushLocal c gs ring e update) = .pass (u.posted c (t.core c).nextOp ring x update) ∧
    (u.core c).nextOp = (s.core c).nextOp + 1 := by
  have hmoved := PailsMoved.spadReadN hread
  have hcore := hmoved.core
  constructor
  · have hnew : OnlyCore t (t.newOp c .sync 0 gs true).1 c := State.newOp_onlyCore ..
    have hsettled' : (t.newOp c .sync 0 gs true).1.ringSettled ring = true := by
      rw [State.ringSettled_congr (s := s), hsettled]
      · exact fun x => (hnew.reg x).trans (hmoved.onlyCore.reg x)
      · exact fun d => by rw [State.newOp_ownerReq, hmoved.core_eq d]
    rw [State.entryOut_done _ hplace hread, State.pushLocal_ungranted gs (by rw [hcore, hgrant]),
      State.newOp_snd, State.pushNow_posted hsettled' hpost]
  · have hkept := (t.newOp c .sync 0 gs true).1.ringPost_kept c ring (if update then 5 else ringKindOf ring) e
    rw [hpost] at hkept
    rw [hkept.kept.nextOp, State.newOp_nextOp, hcore]

/-! The instructions. -/

/-- The Clerk goes on past an instruction that has started an operation. -/
theorem State.clerkAt_started (s : State) {c ops : Nat} (pc : Nat) (h : (s.core c).nextOp ≠ ops) :
    s.clerkAt c pc ops = s.modCore c (·.goesOnAt pc) := by
  unfold State.clerkAt
  dsimp only
  rw [State.core_modCore_same, if_neg h]
  rfl

section

variable {s : State} {c : CoreId} {f : FmtG} {w : Nat} (howner : (s.core c.val).ownerReq = none)
  (hga : ((s.core c.val).greg f.ga.toNat).toNat = w) (hw : w < 2 ^ 15)
include howner hga hw

/-- PUSH into a local CORE or TELLER_SVC ring with room reads the entry and sends it. -/
theorem bodyPush_local (hgrant : (s.core c.val).grant = none) (hn : s.ringEntry w ≤ 256) (hkind : s.ringKind w = ringKindOf w)
    (hof : ringKindOf w = 1 ∨ ringKindOf w = 6) (hroom : s.ringIsFull w = false) :
    bodyPush c f s = s.entryOut c.val ((s.core c.val).greg f.gb.toNat).toNat (s.ringEntry w)
      (fun t e => t.pushLocal c.val f.gs.toNat w e false) := by
  generalize hf : bodyPush = g
  delta bodyPush at hf
  subst hf
  beta_reduce
  extract_lets k w' ring gs remote n
  have hk : w' = w := hga
  have hring : ring = w := by rw [← localRing_bits hw, ← hk]
  have hremote : remote = false := by rw [← localRing_bitOf hw, ← hk]
  have hsize : n = s.ringEntry w := by rw [← s.wordEntry_local hw, ← hk]
  have hpresent : ringAbsent s.variant w = false := by
    unfold ringAbsent
    rcases hof with h | h <;> simp [h]
  have hrole : ¬((ringKindOf w ≠ 1 ∧ ringKindOf w ≠ 6) ∨ s.ringKind w ≠ ringKindOf w) := by tauto
  have hword : ¬(ringWordOk w = false ∨ 256 < n) := by
    rw [localRing_ok hw, hsize]
    exact fun h => h.elim (by simp) (Nat.not_lt.mpr hn)
  rw [hk, hring, hremote, if_neg (by simp [k, howner]), if_neg hword, if_neg (by simp [k, hgrant, remoteGrant]), if_neg (by simp),
    if_neg (by simp [hpresent]), if_neg hrole, if_neg (by simp [hroom]), hsize]

/-- UPDATE into a local CHURN_CMD ring with room reads the entry and sends it. -/
theorem bodyUpdate_local (hgrant : (s.core c.val).grant = none) (hof : ringKindOf w = 5) (hkind : s.ringKind w = 5)
    (hpresent : ringAbsent s.variant w = false) (hroom : s.ringIsFull w = false) :
    bodyUpdate c f s = s.entryOut c.val ((s.core c.val).greg f.gb.toNat).toNat (s.ringEntry w)
      (fun t e => t.pushLocal c.val f.gs.toNat w e true) := by
  generalize hf : bodyUpdate = g
  delta bodyUpdate at hf
  subst hf
  beta_reduce
  extract_lets k w' ring gs
  have hk : w' = w := hga
  have hring : ring = w := by rw [← localRing_bits hw, ← hk]
  have hrole : ¬(ringWordOk w = false ∨ bitOf w 15 = true ∨ ringKindOf w ≠ 5) := by
    simp [localRing_ok hw, localRing_bitOf hw, hof]
  have hunit : ¬(ringAbsent s.variant w = true ∨ (remoteGrant k.grant = true ∧ spanPresent s.variant = false)) := by
    simp [k, hpresent, hgrant, remoteGrant]
  rw [hk, hring, if_neg (by simp [k, howner]), if_neg hrole, if_neg hunit, if_neg (by simp [hkind]), if_neg (by simp [hroom])]

/-- POP of a ring of an absent unit completes at once (R200). -/
theorem bodyPop_absent (habsent : ringAbsent s.variant w = true) :
    bodyPop c f s = .pass (s.opNow c.val .sync 0 0 Code.unitAbsent none) := by
  generalize hf : bodyPop = g
  delta bodyPop at hf
  subst hf
  beta_reduce
  extract_lets k w' ring
  have hk : w' = w := hga
  have hring : ring = w := by rw [← localRing_bits hw, ← hk]
  rw [hk, hring, if_neg (by simp [k, howner]), if_pos ⟨localRing_ok hw, localRing_bitOf hw, habsent⟩]

/-- POP of a ring of its own core waits for an entry and for new owners, and else takes the entry into the Scratchpad. -/
theorem bodyPop_own {o : Nat} (hof : ringKindOf w = 1) (hcore : w / 256 = c.val) (hkind : s.ringKind w = 1)
    (hplace : entryPlace c.val ((s.core c.val).greg f.gb.toNat).toNat (s.ringEntry w) = .ok o) :
    (s.ringEmpty w = true ∨ s.ringSettled w = false → bodyPop c f s = .wait s) ∧
    ∀ (u t : State) (e : List Byte), s.ringEmpty w = false → s.ringSettled w = true → s.ringTake c.val w = (u, .ok e) →
      u.spadWriteN c.val .clerk o e (e.length / 64 + 2) = (t, .done []) → bodyPop c f s = .pass (t.ringMoved w) := by
  have hpresent : ringAbsent s.variant w = false := by simp [ringAbsent, hof]
  have hmay : s.mayPop c.val w = true := by
    simp [State.mayPop, localRing_bits hw, localRing_bitOf hw, localRing_ok hw, hpresent, hkind, hof, hcore]
  generalize hf : bodyPop = g
  delta bodyPop at hf
  subst hf
  beta_reduce
  extract_lets k w' ring
  have hk : w' = w := hga
  have hring : ring = w := by rw [← localRing_bits hw, ← hk]
  rw [hk, hring, if_neg (by simp [k, howner]), if_neg (by simp [hpresent]), if_neg (by simp [hmay]), hplace]
  refine ⟨fun hwaits => if_pos (by simpa using hwaits), fun u t e hentry hsettled htake hwrite => ?_⟩
  refine (if_neg (by simp [hentry, hsettled])).trans ?_
  rw [htake]
  dsimp only
  rw [hwrite]

end

/-! An operation that fails as it starts (R200, R312). -/

section

variable {s : State} {c gd gs code : Nat}

theorem State.opNow_onlyCore (cls : OpClass) (hcode : code ≠ 0) : OnlyCore s (s.opNow c cls gd gs code none) c := by
  have hnew : OnlyCore s (s.newOp c cls gd gs true).1 c := State.newOp_onlyCore ..
  unfold State.opNow
  dsimp only
  rw [if_neg hcode]
  exact hnew.trans (State.opFail_onlyCore ..)

theorem State.opNow_core (cls : OpClass) (hcode : code ≠ 0) : (s.opNow c cls gd gs code none).core c =
    ((s.newOp c cls gd gs true).1.core c).opDone (s.core c).nextOp ⟨code, none, Stop.of code⟩ := by
  unfold State.opNow
  dsimp only
  rw [if_neg hcode]
  exact State.core_modCore_same ..

/-- What the Clerk goes on with is the core that has passed an operation with that end. -/
theorem State.opNow_passedOp (cls : OpClass) (hcode : code ≠ 0) (hwait : (s.core c).waiting = none) :
    ((s.opNow c cls gd gs code none).core c).goesOnAt ((s.core c).pc + 1) = (s.core c).passedOp cls gd gs true (endedWith code) := by
  rw [State.opNow_core cls hcode]
  simp [State.newOp, Core.opDone, Core.goesOnAt, Core.passedOp, endedWith, handedOver, hwait]

theorem State.opNow_nextOp (cls : OpClass) (hcode : code ≠ 0) :
    ((s.opNow c cls gd gs code none).core c).nextOp = (s.core c).nextOp + 1 := by
  rw [State.opNow_core cls hcode]
  simp [State.newOp, Core.opDone]

end

/-! The statement. -/

section

variable (c : CoreId) (p : Pred) (f : FmtG) (s : State)

theorem clerkBody_push : clerkBody (.push c p f) s = bodyPush c f s := rfl

theorem clerkBody_update : clerkBody (.update c p f) s = bodyUpdate c f s := rfl

theorem clerkBody_pop : clerkBody (.pop c p f) s = bodyPop c f s := rfl

end

section

variable {s : State} {i : Instr} {w : Clerked} {c : Nat} (hw : clerkOf i = some w) (hc : w.core = c) (hp : s.passes i = true)
  (hnext : (s.core c).hasNext = true)
include hw hc hp hnext

/-- An instruction whose body posts an entry and starts one operation: the Clerk goes on past it. -/
theorem State.exec_posts {t u : State} {a n o gs ring kind x : Nat} {e : List Byte} {update : Bool}
    (hbody : clerkBody i s = s.entryOut c a n (fun t e => t.pushLocal c gs ring e update)) (hgrant : (s.core c).grant = none)
    (hplace : entryPlace c a n = .ok o) (hread : s.spadReadN c .clerk o n (n / 64 + 2) = (t, .done e))
    (hsettled : s.ringSettled ring = true) (hkind : (if update then 5 else ringKindOf ring) = kind)
    (hpost : (t.newOp c .sync 0 gs true).1.ringPost c ring kind e = (u, .slot x)) :
    exec i s = .next ((u.posted c (t.core c).nextOp ring x update).modCore c (·.goesOnAt ((s.core c).pc + 1))) := by
  subst hkind
  obtain ⟨hsent, hstarted⟩ := State.entryOut_posted hgrant hplace hread hsettled hpost
  rw [State.exec_pass hw hc hp hnext (hbody.trans hsent), State.clerkAt_started]
  have hposted := (NextOpKept.posted u c (t.core c).nextOp ring x update).nextOp c
  omega

/-- An instruction whose body takes an entry into the Scratchpad and starts no operation: the Clerk goes on past it and counts it. -/
theorem State.exec_takes {u t : State} {ring o fuel : Nat} {e : List Byte} (htake : s.ringTake c ring = (u, .ok e))
    (hwrite : u.spadWriteN c .clerk o e fuel = (t, .done [])) (hbody : clerkBody i s = .pass (t.ringMoved ring)) :
    Ends (exec i s) (fun v =>
      v.core c = ((t.ringMoved ring).core c).goesOnAt ((s.core c).pc + 1) ∧ PassedAlone (t.ringMoved ring) v c) := by
  refine State.exec_passes hw hc hp hnext hbody ?_
  have hread := s.ringTake_kept c ring
  rw [htake] at hread
  have hwritten := NextOpKept.spadWriteN fuel u c .clerk o e
  rw [hwrite] at hwritten
  exact ((hread.kept.trans hwritten).trans (.ringMoved t ring)).nextOp c

end

/-- An entry in a CORE ring completes its operation with status 0. -/
theorem State.posted_core {ring : Nat} (hof : ringKindOf ring = 1) (s : State) (c id x : Nat) :
    s.posted c id ring x false = s.modCore c (·.opDone id ⟨0, none, Stop.of 0⟩) := by
  unfold State.posted
  rw [if_neg Bool.false_ne_true, if_neg (by omega)]
  rfl

/-- An entry in a TELLER_SVC ring waits for the Teller. -/
theorem State.posted_service {ring : Nat} (hof : ringKindOf ring = 6) (s : State) (c id x : Nat) :
    s.posted c id ring x false = { s with hubOps := s.hubOps ++ [HubOp.service c id ring x] } := by
  unfold State.posted
  rw [if_neg Bool.false_ne_true, if_pos hof]

/-- A command in a CHURN_CMD ring waits for the Churn. -/
theorem State.posted_update (s : State) (c id ring x : Nat) :
    s.posted c id ring x true = { s with hubOps := s.hubOps ++ [HubOp.update c id ring x s.sched.seed] } := by
  unfold State.posted
  rw [if_pos rfl]

/-- Settles O18: the body reads the entry, which moves no more than tags of pails, and posts it; no step on the way of an entry changes
the count of operations by which the Clerk tells a started operation from a complete instruction. -/
theorem pushUpdateAndPopMoveOneEntry : Obligations.PushUpdateAndPopMoveOneEntry := by
  intro s u t1 t2 c p f e o x hnext k w n hw howner hplace
  refine ⟨fun hgrant hread hroom hsettled => ⟨fun hp hn hkind => ⟨fun hof hpost => ?_, fun hof hpost => ?_⟩,
    fun hp hof hkind hpresent hpost => ?_⟩, fun hp hof hcore hkind => ?_, fun hp habsent => ?_⟩
  · have hbody := bodyPush_local howner rfl hw hgrant hn hkind (.inl hof) hroom
    refine ends_of_eq (State.exec_posts (c := c.val) (update := false) rfl rfl hp hnext ((clerkBody_push ..).trans hbody) hgrant hplace
      hread hsettled hof hpost) ?_
    rw [State.posted_core hof]
  · have hbody := bodyPush_local howner rfl hw hgrant hn hkind (.inr hof) hroom
    refine ends_of_eq (State.exec_posts (c := c.val) (update := false) rfl rfl hp hnext ((clerkBody_push ..).trans hbody) hgrant hplace
      hread hsettled hof hpost) ?_
    rw [State.posted_service hof]
  · have hbody := bodyUpdate_local howner rfl hw hgrant hof hkind hpresent hroom
    refine ends_of_eq (State.exec_posts (c := c.val) (update := true) rfl rfl hp hnext ((clerkBody_update ..).trans hbody) hgrant hplace
      hread hsettled rfl hpost) ?_
    rw [State.posted_update]
  · obtain ⟨hwaits, htakes⟩ := bodyPop_own howner rfl hw hof hcore hkind hplace
    refine ⟨fun h => State.exec_waits (c := c.val) rfl rfl hp ((clerkBody_pop ..).trans (hwaits h)),
      fun hentry hset htake hwrite => ?_⟩
    obtain ⟨t, hexec, hgoes, honly, hcount⟩ := State.exec_takes (c := c.val) rfl rfl hp hnext htake hwrite
      ((clerkBody_pop ..).trans (htakes u t1 e hentry hset htake hwrite))
    exact ⟨t, hexec, honly.1, hgoes, hcount⟩
  · obtain ⟨-, -, hwait⟩ := State.clerk_free_of_passes (c := c.val) rfl rfl hp
    have hcode : Code.unitAbsent ≠ 0 := by decide
    have hstart := State.exec_starts (c := c.val) rfl rfl hp hnext
      ((clerkBody_pop ..).trans (bodyPop_absent howner rfl hw habsent)) (State.opNow_onlyCore .sync hcode)
      (State.opNow_nextOp .sync hcode)
    rwa [State.opNow_passedOp .sync hcode hwait] at hstart

end Sys2Proof.Machine
end

section
/-! SUPPORT. The family 09_programming_model.md: branches, and the end of a program that falls through (R216, R279). -/

namespace Sys2Proof.Machine

@[simp] theorem State.clerkAt_sched (s : State) (c pc ops : Nat) : (s.clerkAt c pc ops).sched = s.sched := by
  unfold State.clerkAt
  dsimp only
  split
  · rw [State.bump64_sched, State.modCore_sched]
  · rw [State.modCore_sched]

section

variable {s : State} {i : Instr} {w : Clerked} {c : Nat} (hw : clerkOf i = some w) (hc : w.core = c) (hp : s.passes i = true)
include hw hc hp

/-- A body that jumps inside the program: the Clerk goes on at the target, from the state that the body leaves. -/
theorem State.exec_jumps {t : State} {target : Nat} (hin : target < (s.core c).progLen)
    (hbody : clerkBody i s = .jump t target) (hop : (t.core c).nextOp = (s.core c).nextOp) :
    Ends (exec i s) (fun u => u.core c = (t.core c).goesOnAt target ∧ PassedAlone t u c) := by
  refine ends_of_eq (t := t.clerkAt c target (s.core c).nextOp) ?_ ⟨t.clerkAt_core .., t.clerkAt_passedAlone _ hop⟩
  rw [State.exec_eq_clerkAfter hw hc hp, hbody]
  exact congrArg _ (if_pos hin)

/-- A body that jumps past the program stops its core, and its effect is dropped. -/
theorem State.exec_jumps_out {t : State} {target : Nat} (hout : (s.core c).progLen ≤ target)
    (hbody : clerkBody i s = .jump t target) : Ends (exec i s) (fun u => StoppedWith s u c Code.pcRange) := by
  obtain ⟨hrun, hstop, -⟩ := State.clerk_free_of_passes hw hc hp
  refine ends_of_eq (t := s.clerkStop c (s.core c).pc (Stop.of Code.pcRange) 0) ?_ ?_
  · rw [State.exec_eq_clerkAfter hw hc hp, hbody]
    exact congrArg _ (if_neg (Nat.not_lt.mpr hout))
  · exact s.stopCore_stoppedWith _ hrun hstop rfl

end

/-- An instruction that passes at the program's end: its effect stands, and the core stops (log entry 5). -/
theorem State.clerkAfter_falls_through {s t : State} {c : Nat} (i : Instr) (hlast : (s.core c).hasNext = false)
    (hr : (t.core c).running = true) (hs : (t.core c).stopped = false) (hpc : (t.core c).pc = (s.core c).pc) :
    StoppedWith t (s.clerkAfter c i (.pass t)) c Code.pcRange := by
  have hafter : s.clerkAfter c i (.pass t) =
      (t.clerkAt c (s.core c).pc (s.core c).nextOp).clerkStop c (s.core c).pc (Stop.of Code.pcRange) 0 :=
    if_neg (by simpa [Core.hasNext] using hlast)
  have hcore : (t.clerkAt c (s.core c).pc (s.core c).nextOp).core c = (t.core c).goesOnAt (s.core c).pc := t.clerkAt_core ..
  rw [hafter]
  refine .of_held (u := t.clerkAt c (s.core c).pc (s.core c).nextOp) ?_ (t.clerkAt_sched ..)
    (State.stopCore_stoppedWith _ _ ?_ ?_ rfl)
  · rw [hcore]
    exact ⟨hpc.symm, rfl, rfl, rfl, rfl, rfl, id⟩
  · rw [hcore]
    exact hr
  · rw [hcore]
    exact hs

/-- A core that waits for nothing and goes on has a new pc and nothing else. -/
theorem Core.goesOnAt_eq {k : Core} (hwait : k.waiting = none) (pc : Nat) : k.goesOnAt pc = { k with pc := pc } := by
  simp [Core.goesOnAt, hwait]

section

variable {s : State} {c : CoreId} {p : Pred} {f : FmtB}

/-- JR jumps to its register where that has no bit of [63:13] set. -/
theorem bodyJr_narrow (h : ((s.core c.val).greg f.ga.toNat).toNat < 2 ^ 13) :
    clerkBody (.jr c p f) s = .jump s ((s.core c.val).greg f.ga.toNat).toNat := if_pos h

/-- A JR register that is too wide is a fault. -/
theorem bodyJr_wide (h : 2 ^ 13 ≤ ((s.core c.val).greg f.ga.toNat).toNat) :
    clerkBody (.jr c p f) s = .fault s Code.pcRange := if_neg (Nat.not_lt.mpr h)

/-- BAL jumps inside the program and saves the pc after it. -/
theorem exec_bal_inside (hp : s.passes (.bal c p f) = true) (hin : f.target.toNat < (s.core c.val).progLen) :
    Ends (exec (.bal c p f) s) (fun t =>
      TakesG s t c.val f.gd.toNat (BitVec.ofNat 64 ((s.core c.val).pc + 1)) f.target.toNat ∧ PassedAlone s t c.val) := by
  obtain ⟨-, -, hwait⟩ := State.clerk_free_of_passes (c := c.val) rfl rfl hp
  have hop (v : Dword) : ((s.putG c.val f.gd.toNat v).core c.val).nextOp = (s.core c.val).nextOp := by
    rw [State.putG_core, Core.setG_eq]
  obtain ⟨u, hu, hgoes, hpassed⟩ := State.exec_jumps (c := c.val) rfl rfl hp hin rfl (hop _)
  exact ⟨u, hu, .of_goesOn rfl hwait hgoes, .before (.putG ..) hpassed⟩

end

/-- Settles O8: each branch by where its body jumps; a target past the program, a register too wide for one, and a fall past the
program's end stop the core. -/
theorem branchesGoToTheirTargets : Obligations.BranchesGoToTheirTargets := by
  intro s c p f k
  refine ⟨fun hp hin => ?br, exec_bal_inside, fun hp hlow hin => ?jr, fun hp hout => ?jrOut, ?out, fun e hp hlast => ?nopOut,
    fun i w body u hw hc hexec hp hlast hbody hrun hstop hpc => ?falls⟩
  case br =>
    obtain ⟨-, -, hwait⟩ := State.clerk_free_of_passes (c := c.val) rfl rfl hp
    have hjump := State.exec_jumps (c := c.val) (t := s) rfl rfl hp hin rfl rfl
    rwa [Core.goesOnAt_eq hwait] at hjump
  case jr =>
    obtain ⟨-, -, hwait⟩ := State.clerk_free_of_passes (c := c.val) rfl rfl hp
    have hjump := State.exec_jumps (c := c.val) (t := s) rfl rfl hp hin (bodyJr_narrow hlow) rfl
    rwa [Core.goesOnAt_eq hwait] at hjump
  case jrOut =>
    by_cases hwide : 2 ^ 13 ≤ (k.greg f.ga.toNat).toNat
    · exact State.exec_faults rfl rfl hp (bodyJr_wide hwide)
    · exact State.exec_jumps_out rfl rfl hp (hout.resolve_left hwide) (bodyJr_narrow (Nat.lt_of_not_le hwide))
  case out =>
    simp only [List.forall_mem_cons]
    exact ⟨fun hp hout => State.exec_jumps_out rfl rfl hp hout rfl, fun hp hout => State.exec_jumps_out rfl rfl hp hout rfl,
      fun _ h => absurd h List.not_mem_nil⟩
  case nopOut =>
    obtain ⟨hrun, hstop, -⟩ := State.clerk_free_of_passes (c := c.val) rfl rfl hp
    exact ends_of_eq (State.exec_eq_clerkAfter rfl rfl hp) (State.clerkAfter_falls_through _ hlast hrun hstop rfl)
  case falls =>
    have hafter : exec i s = .next (s.clerkAfter c.val i (.pass u)) := by
      rw [hexec, s.clerk_passes i body w hw hp, hbody, hc]
    exact ends_of_eq hafter (State.clerkAfter_falls_through i hlast hrun hstop hpc)

end Sys2Proof.Machine
end

section
/-! SUPPORT. The family 09_programming_model.md: transfers as they pass into the core DMA queue (R3, R217, R283, R286, R303). -/

namespace Sys2Proof.Machine

/-- Of core `c`, an operation has started and its transfer waits at the end of the core DMA queue. -/
def State.dmaQueued (s : State) (c gs : Nat) (x : Xfer) : State :=
  (s.newOp c .dma 0 gs true).1.modCore c (fun k => { k with dma := k.dma ++ [x] })

/-- A pail field names a pail or none (R275). -/
theorem pailField_eq (v : BitVec 7) : pailField v = if v.toNat < 64 then none else some (v.toNat - 64) := by
  have hv := v.isLt
  unfold pailField bitOf
  by_cases h : v.toNat < 64
  · rw [if_pos h, if_neg (by simp; omega)]
  · rw [if_neg h, if_pos (by simp; omega)]
    congr 1
    omega

section

variable {s : State} {c gs : Nat} {x y : Xfer}

theorem State.dmaQueued_onlyCore : OnlyCore s (s.dmaQueued c gs x) c :=
  .trans (t := (s.newOp c .dma 0 gs true).1) (State.newOp_onlyCore ..) (OnlyCore.modCore _ c _)

theorem State.dmaQueued_core (hwait : (s.core c).waiting = none) : ((s.dmaQueued c gs x).core c).goesOnAt ((s.core c).pc + 1) =
    { (s.core c).passedOp .dma 0 gs true none with dma := (s.core c).dma ++ [x] } := by
  simp [State.dmaQueued, State.newOp, Core.goesOnAt, Core.passedOp, hwait]

theorem State.dmaQueued_nextOp : ((s.dmaQueued c gs x).core c).nextOp = (s.core c).nextOp + 1 := by
  simp [State.dmaQueued, State.newOp]

/-! An operation that ends as it starts, with status 0 or with a fault (R286, R312). -/

/-- Its end is handed over at once. -/
theorem State.opNow_eq (cls : OpClass) (gd code : Nat) : s.opNow c cls gd gs code none =
    (s.newOp c cls gd gs true).1.modCore c (·.opDone (s.core c).nextOp ⟨code, none, Stop.of code⟩) := by
  by_cases h : code = 0
  · subst h
    rfl
  · exact if_neg h

theorem State.opNow_ends_onlyCore (cls : OpClass) (gd code : Nat) : OnlyCore s (s.opNow c cls gd gs code none) c := by
  rw [State.opNow_eq]
  exact .trans (State.newOp_onlyCore ..) (.modCore ..)

theorem State.opNow_ends_core (cls : OpClass) (gd code : Nat) (hwait : (s.core c).waiting = none) :
    ((s.opNow c cls gd gs code none).core c).goesOnAt ((s.core c).pc + 1) =
      (s.core c).passedOp cls gd gs true (endedWith code) := by
  rw [State.opNow_eq]
  simp [State.newOp, Core.opDone, Core.goesOnAt, Core.passedOp, endedWith, handedOver, hwait]

theorem State.opNow_ends_nextOp (cls : OpClass) (gd code : Nat) :
    ((s.opNow c cls gd gs code none).core c).nextOp = (s.core c).nextOp + 1 := by
  rw [State.opNow_eq]
  simp [State.newOp, Core.opDone]

/-! The windows of a transfer (R393). -/

/-- A transfer that stays on its module needs no handle. -/
theorem State.xferWins_local (hlocal : s.xferRemote x = false) (hsrc : x.srcWin = none) (hdst : x.dstWin = none)
    (hlist : x.listWin = none) : s.xferWins c x = some x := by
  unfold State.xferWins
  by_cases ht : x.tensor = false
  · rw [if_pos ht]
  · have hsides : (s.isLocal x.S = true ∧ s.isLocal x.D = true) ∧ (x.listed = true → s.isLocal x.L = true) := by
      simpa [State.xferRemote, ht] using hlocal
    obtain ⟨⟨hS, hD⟩, hL⟩ := hsides
    have hlistWin : (if x.listed = true then s.sideWin c x.L x.listHull else some none) = some none := by
      by_cases hl : x.listed = true
      · rw [if_pos hl, State.sideWin, if_pos (hL hl)]
      · rw [if_neg hl]
    rw [if_neg ht, State.sideWin, if_pos hS, State.sideWin, if_pos hD, hlistWin]
    refine congrArg some ?_
    exact congr (congr (congrArg (fun a b l => { x with srcWin := a, dstWin := b, listWin := l }) hsrc.symm) hdst.symm) hlist.symm

/-- FILL and COPY name no descriptor, and so need no handle. -/
theorem State.xferWins_bytes (h : x.tensor = false) : s.xferWins c x = some x := if_pos h

/-- What a transfer is does not hang on its windows. -/
theorem State.xferWins_tensor (h : s.xferWins c x = some y) : y.tensor = x.tensor := by
  unfold State.xferWins at h
  split at h
  · rw [Option.some.inj h]
  · split at h
    · rw [← Option.some.inj h]
      rfl
    · cases h

theorem State.xferRemote_bytes (h : x.tensor = false) : s.xferRemote x = false := by simp [State.xferRemote, h]

theorem State.tensor_of_xferRemote (h : s.xferRemote x = true) : x.tensor = true := by
  cases ht : x.tensor
  · rw [State.xferRemote_bytes ht] at h
    exact h
  · rfl

/-! What the body of a transfer does (R3, R217, R283, R286). -/

/-- A transfer whose epoch and faults have been checked, in a queue with room. -/
structure State.XferChecked (s : State) (c : Nat) (x : Xfer) : Prop where
  room : (s.core c).dmaQueued < 64
  epoch : x.epoch = 0 ∨ (x.dstPail ≠ none ∧ (s.core c).epoch x.epoch = .opened)
  sound : s.xferFault c x = none

/-- A checked transfer passes by its absent units, its windows and its length alone. -/
theorem State.passXfer_checked (h : s.XferChecked c x) : s.passXfer c gs x =
    if spanPresent s.variant = false && (remoteGrant x.grant || s.xferRemote x) then
      .pass (s.opNow c .dma 0 gs Code.unitAbsent none)
    else match s.xferWins c x with
      | none => .stop s { Stop.of Code.noHandle with node := s.unreached c x } 0
      | some x => if x.tensor = false ∧ x.len = 0 then .pass (s.opNow c .dma 0 gs 0 none) else .pass (s.dmaQueued c gs x) := by
  obtain ⟨hroom, hepoch, hsound⟩ := h
  have hfault : (s.core c).epochFault x.epoch x.dstPail.isSome = none := by
    rcases hepoch with h | ⟨hpail, hopen⟩
    · simp [Core.epochFault, h]
    · simp [Core.epochFault, hopen, Option.isSome_iff_ne_none.mpr hpail]
  unfold State.passXfer
  simp only [Nat.not_le.mpr hroom, if_false, hfault, hsound]
  rfl

theorem State.passXfer_absent (h : s.XferChecked c x) (hremote : s.xferRemote x = true ∨ remoteGrant x.grant = true)
    (hspan : spanPresent s.variant = false) : s.passXfer c gs x = .pass (s.opNow c .dma 0 gs Code.unitAbsent none) := by
  rw [State.passXfer_checked h, if_pos]
  rcases hremote with h | h <;> simp [hspan, h]

section

variable (h : s.XferChecked c x)
  (hhere : (s.xferRemote x = false ∧ remoteGrant x.grant = false) ∨ spanPresent s.variant = true)
  (hwins : s.xferWins c x = some y)
include h hhere hwins

theorem State.passXfer_queued (hlen : y.tensor = true ∨ y.len ≠ 0) : s.passXfer c gs x = .pass (s.dmaQueued c gs y) := by
  rw [State.passXfer_checked h, if_neg (by rcases hhere with h | h <;> simp [h]), hwins]
  exact if_neg (by rcases hlen with h | h <;> simp [h])

theorem State.passXfer_empty (ht : y.tensor = false) (hlen : y.len = 0) :
    s.passXfer c gs x = .pass (s.opNow c .dma 0 gs 0 none) := by
  rw [State.passXfer_checked h, if_neg (by rcases hhere with h | h <;> simp [h]), hwins]
  exact if_pos ⟨ht, hlen⟩

end

end

/-! The command of a transfer. -/

section

variable {s : State} {i : Instr} {w : Clerked} {c gs : Nat} {x : Xfer} (hw : clerkOf i = some w) (hc : w.core = c)
  (hp : s.passes i = true) (hnext : (s.core c).hasNext = true) (hbody : clerkBody i s = s.passXfer c gs x)
include hw hc hp hnext hbody

/-- A transfer that its body queues has passed with the windows that it moves through. -/
theorem State.exec_queues {y : Xfer} (hpass : s.passXfer c gs x = .pass (s.dmaQueued c gs y)) :
    Ends (exec i s) (fun t =>
      t.core c = { (s.core c).passedOp .dma 0 gs true none with dma := (s.core c).dma ++ [y] } ∧ OnlyCore s t c) := by
  obtain ⟨-, -, hwait⟩ := State.clerk_free_of_passes hw hc hp
  have hstart := State.exec_starts hw hc hp hnext (hbody.trans hpass) State.dmaQueued_onlyCore State.dmaQueued_nextOp
  rwa [State.dmaQueued_core hwait] at hstart

/-- A transfer that its body ends at once has passed with its status. -/
theorem State.exec_ends_at_once {code : Nat} (hpass : s.passXfer c gs x = .pass (s.opNow c .dma 0 gs code none)) :
    Ends (exec i s) (fun t => t.core c = (s.core c).passedOp .dma 0 gs true (endedWith code) ∧ OnlyCore s t c) := by
  obtain ⟨-, -, hwait⟩ := State.clerk_free_of_passes hw hc hp
  have hstart := State.exec_starts hw hc hp hnext (hbody.trans hpass) (State.opNow_ends_onlyCore ..) (State.opNow_ends_nextOp ..)
  rwa [State.opNow_ends_core _ _ _ hwait] at hstart

/-- What a checked transfer without windows yet does as it passes: it stays on the module, reaches another one, needs absent Span, or is
empty. -/
theorem State.exec_transfer (h : s.XferChecked c x) (hgrant : x.grant = (s.core c).grant) (hsrc : x.srcWin = none)
    (hdst : x.dstWin = none) (hlist : x.listWin = none) :
    (s.xferRemote x = false → (remoteGrant (s.core c).grant = false ∨ spanPresent s.variant = true) →
      (x.tensor = true ∨ x.len ≠ 0) →
      Ends (exec i s) (fun t =>
        t.core c = { (s.core c).passedOp .dma 0 gs true none with dma := (s.core c).dma ++ [x] } ∧ OnlyCore s t c)) ∧
    (∀ y, s.xferRemote x = true → spanPresent s.variant = true → s.xferWins c x = some y →
      Ends (exec i s) (fun t =>
        t.core c = { (s.core c).passedOp .dma 0 gs true none with dma := (s.core c).dma ++ [y] } ∧ OnlyCore s t c)) ∧
    ((s.xferRemote x = true ∨ remoteGrant (s.core c).grant = true) → spanPresent s.variant = false →
      Ends (exec i s) (fun t =>
        t.core c = (s.core c).passedOp .dma 0 gs true (endedWith 0x0101) ∧ OnlyCore s t c)) ∧
    (x.tensor = false → x.len = 0 → (remoteGrant (s.core c).grant = false ∨ spanPresent s.variant = true) →
      Ends (exec i s) (fun t => t.core c = (s.core c).passedOp .dma 0 gs true (endedWith 0) ∧ OnlyCore s t c)) := by
  rw [← hgrant]
  refine ⟨fun hlocal hspan hlen => ?_, fun y hremote hspan hwins => ?_, fun hremote hspan => ?_, fun ht hlen hspan => ?_⟩
  · exact State.exec_queues hw hc hp hnext hbody
      (State.passXfer_queued h (hspan.imp_left (⟨hlocal, ·⟩)) (State.xferWins_local hlocal hsrc hdst hlist) hlen)
  · exact State.exec_queues hw hc hp hnext hbody
      (State.passXfer_queued h (.inr hspan) hwins (.inl ((State.xferWins_tensor hwins).trans (State.tensor_of_xferRemote hremote))))
  · exact State.exec_ends_at_once hw hc hp hnext hbody (State.passXfer_absent h hremote hspan)
  · exact State.exec_ends_at_once hw hc hp hnext hbody
      (State.passXfer_empty h (hspan.imp_left (⟨State.xferRemote_bytes ht, ·⟩)) (State.xferWins_bytes ht) ht hlen)

end

/-- Settles O11: each of the seven bodies hands its transfer to the queue, with the pails that its fields name. -/
theorem transfersEnterTheDmaQueue : Obligations.TransfersEnterTheDmaQueue := by
  intro s c p side f h k pail box fill copy
  have hpail : pailField = pail := funext pailField_eq
  have htensor (kind : XferKind) : bodyT c kind side f s = s.passXfer c.val f.gs.toNat (box kind) := by
    rw [bodyT, hpail]
  have hfill : bodyFill c h s = s.passXfer c.val h.gs.toNat fill := by rw [bodyFill, hpail]
  have hcopy : bodyCopy c h s = s.passXfer c.val h.gs.toNat copy := by rw [bodyCopy, hpail]
  simp only [List.forall_mem_cons]
  refine ⟨?move, ?gather, ?scatter, ?xpose, ?permute, ?fill, ?copy, fun _ h => absurd h List.not_mem_nil⟩
  all_goals
    intro hp hnext hroom hepoch hsound
    refine State.exec_transfer rfl rfl hp hnext ?_ ⟨hroom, hepoch, hsound⟩ rfl rfl rfl rfl
  case fill => exact hfill
  case copy => exact hcopy
  all_goals exact htensor _

end Sys2Proof.Machine
end

section
/-! SUPPORT. The family 09_programming_model.md: planning (R223, R224, R260, R330). -/

namespace Sys2Proof.Machine

/-! Counters that lie apart. -/

theorem State.reg64_bump64_apart (s : State) {x y : Nat} (n : Nat) (h : y + 8 ≤ x ∨ x + 8 ≤ y) :
    (s.bump64 x n).reg64 y = s.reg64 y :=
  State.reg64_congr (s.reg_bump64_other n (by omega) (by omega)) (s.reg_bump64_other n (by omega) (by omega))

theorem State.reg64_bump32_apart (s : State) {x y : Nat} (n : Nat) (h : x < y ∨ y + 4 < x) :
    (s.bump32 x n).reg64 y = s.reg64 y :=
  State.reg64_congr (s.reg_bump32_other n (by omega)) (s.reg_bump32_other n (by omega))

/-! What planning counts. -/

/-- The state with the counts of a planned operation: cycles without a slip, elements that the descriptors drop, the blocks of its draws,
and the windows that its loop uses again. -/
def State.planCounted (s : State) (c gap : Nat) (o : SeqOp) (z : Planned) : State :=
  (((s.bump64 (Reg.CORE_SEQ_GAP_LO c) gap).bump64 (Reg.CORE_DESC_DROPPED_LO c) o.dropped).bump64
    (Reg.CORE_RNG_BLOCKS_LO c) z.draws).bump32 (Reg.CORE_DESC_NEST_REUSE c) z.reuse

section

variable (s : State) (c gap : Nat) (o : SeqOp) (z : Planned)

theorem State.planCounted_onlyCoreAndRegs : OnlyCoreAndRegs s (s.planCounted c gap o z) c :=
  (((OnlyCoreAndRegs.bump64 s _ _ c).trans (.bump64 _ _ _ c)).trans (.bump64 _ _ _ c)).trans (.bump32 _ _ _ c)

@[simp] theorem State.planCounted_core (d : Nat) : (s.planCounted c gap o z).core d = s.core d :=
  State.core_congr (by simp only [State.planCounted, State.bump32_cores, State.bump64_cores]) d

theorem State.planCounted_gap : (s.planCounted c gap o z).reg64 (Reg.CORE_SEQ_GAP_LO c) =
    (s.reg64 (Reg.CORE_SEQ_GAP_LO c) + gap) % 2 ^ 64 := by
  unfold State.planCounted Reg.CORE_SEQ_GAP_LO Reg.CORE_DESC_DROPPED_LO Reg.CORE_RNG_BLOCKS_LO Reg.CORE_DESC_NEST_REUSE
  rw [State.reg64_bump32_apart _ _ (by omega), State.reg64_bump64_apart _ _ (by omega), State.reg64_bump64_apart _ _ (by omega),
    State.reg64_bump64]

theorem State.planCounted_dropped : (s.planCounted c gap o z).reg64 (Reg.CORE_DESC_DROPPED_LO c) =
    (s.reg64 (Reg.CORE_DESC_DROPPED_LO c) + o.dropped) % 2 ^ 64 := by
  unfold State.planCounted Reg.CORE_SEQ_GAP_LO Reg.CORE_DESC_DROPPED_LO Reg.CORE_RNG_BLOCKS_LO Reg.CORE_DESC_NEST_REUSE
  rw [State.reg64_bump32_apart _ _ (by omega), State.reg64_bump64_apart _ _ (by omega), State.reg64_bump64,
    State.reg64_bump64_apart _ _ (by omega)]

theorem State.planCounted_blocks : (s.planCounted c gap o z).reg64 (Reg.CORE_RNG_BLOCKS_LO c) =
    (s.reg64 (Reg.CORE_RNG_BLOCKS_LO c) + z.draws) % 2 ^ 64 := by
  unfold State.planCounted Reg.CORE_SEQ_GAP_LO Reg.CORE_DESC_DROPPED_LO Reg.CORE_RNG_BLOCKS_LO Reg.CORE_DESC_NEST_REUSE
  rw [State.reg64_bump32_apart _ _ (by omega), State.reg64_bump64, State.reg64_bump64_apart _ _ (by omega),
    State.reg64_bump64_apart _ _ (by omega)]

theorem State.planCounted_reuse : CountedUp s (s.planCounted c gap o z) (Reg.CORE_DESC_NEST_REUSE c) z.reuse := by
  refine (CountedUp.bump32 _ _ _).of_reg ?_ rfl
  unfold Reg.CORE_SEQ_GAP_LO Reg.CORE_DESC_DROPPED_LO Reg.CORE_RNG_BLOCKS_LO Reg.CORE_DESC_NEST_REUSE
  rw [State.reg_bump64_other _ _ (by omega) (by omega), State.reg_bump64_other _ _ (by omega) (by omega),
    State.reg_bump64_other _ _ (by omega) (by omega)]

theorem State.planCounted_regsSameBut : RegsSameBut s (s.planCounted c gap o z) [Reg.CORE_SEQ_GAP_LO c, Reg.CORE_SEQ_GAP_LO c + 4,
    Reg.CORE_DESC_DROPPED_LO c, Reg.CORE_DESC_DROPPED_LO c + 4, Reg.CORE_DESC_NEST_REUSE c, Reg.CORE_RNG_BLOCKS_LO c,
    Reg.CORE_RNG_BLOCKS_LO c + 4] :=
  (((RegsSameBut.bump64 s gap (by simp) (by simp)).trans (.bump64 _ _ (by simp) (by simp))).trans
    (.bump64 _ _ (by simp) (by simp))).trans (.bump32 _ _ (by simp))

end

/-! What planning records in the queues (R223, R260). -/

/-- A core whose operation has the plan that planning found, and whose DMA queue holds the transfers of its loop. -/
def Core.withPlan (k : Core) (o : SeqOp) (z : Planned) : Core :=
  { k with
    seq := k.seq.map (fun a => if a.id = o.id then { a with plan := some ⟨z.parts⟩ } else a)
    dma := k.dma ++ numbered k.nextOp z.xfers
    nextOp := k.nextOp + z.xfers.length }

/-- While the head of the queue has parts to issue, no operation ends unissued. -/
theorem State.settle_of_parts {s : State} {c : Nat} {h : SeqOp} {q : List SeqOp} {pl : Plan} (hseq : (s.core c).seq = h :: q)
    (hplan : h.plan = some pl) (hparts : pl.parts ≠ []) (n : Nat) : s.settle c n = s := by
  cases n with
  | zero => rfl
  | succ n =>
    unfold State.settle
    rw [hseq]
    dsimp only
    rw [hplan]
    exact if_neg (by simpa using hparts)

section

variable {s : State} {c gap : Nat} {o h : SeqOp} {q : List SeqOp} {z : Planned} {pl : Plan}

/-- An operation that planning accepts is counted, planned and posts its transfers; the head of the queue still has what it issues. -/
theorem State.planned_ok (hok : z.fault = none) (hseq : (s.core c).seq = h :: q)
    (hplan : (if h.id = o.id then some ⟨z.parts⟩ else h.plan) = some pl) (hparts : pl.parts ≠ []) :
    s.planned c gap o z = (s.planCounted c gap o z).modCore c (·.withPlan o z) := by
  have hplanned : s.planned c gap o z = ((s.planCounted c gap o z).modCore c (·.withPlan o z)).settle c 64 := by
    unfold State.planned
    rw [hok]
    rfl
  rw [hplanned]
  refine State.settle_of_parts (h := if h.id = o.id then { h with plan := some ⟨z.parts⟩ } else h)
    (q := q.map (fun a => if a.id = o.id then { a with plan := some ⟨z.parts⟩ } else a)) ?_ ?_ hparts 64
  · rw [State.core_modCore_same, State.planCounted_core, Core.withPlan, hseq, List.map_cons]
  · rw [← hplan]
    split <;> rfl

/-- A fault of planning stops the core once the cycles before it are counted. -/
theorem State.planned_fault {st : Stop} (hfault : z.fault = some st) :
    s.planned c gap o z = (s.bump64 (Reg.CORE_SEQ_GAP_LO c) gap).stopCore c { st with pc := some o.pc } := by
  unfold State.planned
  rw [hfault]

end

theorem exec_planning {s : State} {c : CoreId} {o : SeqOp} {z : Planned} (hrun : (s.core c.val).running = true)
    (hstop : (s.core c.val).stopped = false) (hnext : (s.core c.val).toPlan = some o) (hplan : s.plan c.val o = some z) (gap : Nat) :
    exec (.planning c gap) s = .next (s.planned c.val gap o z) := by
  simp only [exec, execPlanning, hrun, hstop, hnext, hplan, Bool.not_false, Bool.and_self, if_true]

/-- Settles O20: an accepted plan is counted and recorded, and since the head of the queue has parts no operation ends with it. -/
theorem planningPlansTheFirstUnplanned : Obligations.PlanningPlansTheFirstUnplanned := by
  intro s c gap o z h q pl k blocks hrun hstop hnext hplan
  refine ⟨fun hok hseq hhead hparts => ?accepted, fun st hfault hseq => ?refused⟩
  case accepted =>
    refine ends_of_eq ((exec_planning hrun hstop hnext hplan gap).trans
      (congrArg _ (State.planned_ok hok hseq hhead hparts))) ⟨?_, ?_, s.planCounted_gap .., s.planCounted_dropped ..,
      s.planCounted_reuse .., s.planCounted_blocks .., s.planCounted_regsSameBut c.val gap o z⟩
    · rw [State.core_modCore_same, State.planCounted_core]
      rfl
    · exact (s.planCounted_onlyCoreAndRegs ..).trans (OnlyCore.modCore _ c.val _).onlyCoreAndRegs
  case refused =>
    have hcore : (s.bump64 (Reg.CORE_SEQ_GAP_LO c.val) gap).core c.val = k := State.core_congr (State.bump64_cores ..) _
    refine ends_of_eq ((exec_planning hrun hstop hnext hplan gap).trans (congrArg _ (State.planned_fault hfault)))
      (.of_held (u := s.bump64 (Reg.CORE_SEQ_GAP_LO c.val) gap) ?_ (State.bump64_sched ..) (State.stopCore_stoppedWith _ _ ?_ ?_ hseq))
    · rw [hcore]
      exact .refl k
    · rw [hcore]
      exact hrun
    · rw [hcore]
      exact hstop

end Sys2Proof.Machine
end

section
/-! SUPPORT. The family 09_programming_model.md: SPEC, VERIFY, SQUASH and END (R213, R228–R232). -/

namespace Sys2Proof.Machine

/-! An instruction that passes and counts in registers of its core (R235). -/

/-- The registers that count the instructions that a core has passed. -/
def instrRegs (c : Nat) : List Nat := [Reg.CORE_CLERK_INSTR_LO c, Reg.CORE_CLERK_INSTR_LO c + 4]

theorem PassedAlone.regsSameBut {s t : State} {c : Nat} (h : PassedAlone s t c) : RegsSameBut s t (instrRegs c) := h.2.2

/-- A body that changes its own core and registers of a list, and then the Clerk, which counts the instruction. -/
theorem PassedWith.of_passedAlone {s t u : State} {c : Nat} {l : List Nat} (honly : OnlyCoreAndRegs s t c) (hregs : RegsSameBut s t l)
    (hlist : l.Disjoint (instrRegs c)) (h : PassedAlone t u c) : PassedWith s u c l := by
  obtain ⟨hu, hcount, hrest⟩ := h
  have hlo : Reg.CORE_CLERK_INSTR_LO c ∉ l := fun hx => hlist hx (by simp [instrRegs])
  have hhi : Reg.CORE_CLERK_INSTR_LO c + 4 ∉ l := fun hx => hlist hx (by simp [instrRegs])
  refine ⟨honly.trans hu, ?_, ?_⟩
  · rw [hcount, State.reg64_congr (hregs _ hlo) (hregs _ hhi)]
  · exact (hregs.mono fun x hx => List.mem_append_left _ hx).trans
      (RegsSameBut.mono (l := instrRegs c) hrest fun x hx => List.mem_append_right _ hx)

/-- What a body has counted stands once the Clerk has gone on. -/
theorem CountedUp.passed {s t u : State} {c x n : Nat} (h : CountedUp s t x n) (hx : x ∉ instrRegs c) (hu : PassedAlone t u c) :
    CountedUp s u x n := h.of_reg rfl (hu.regsSameBut x hx)

section

variable (s : State) (c : Nat) (f : Core → Core) (x n : Nat)

theorem CountedUp.modCore_bump32 : CountedUp s ((s.modCore c f).bump32 x n) x n := (CountedUp.bump32 (s.modCore c f) x n).of_reg rfl rfl

theorem OnlyCoreAndRegs.modCore_bump32 : OnlyCoreAndRegs s ((s.modCore c f).bump32 x n) c :=
  (OnlyCore.modCore s c f).onlyCoreAndRegs.trans (.bump32 _ x n c)

theorem RegsSameBut.modCore_bump32 : RegsSameBut s ((s.modCore c f).bump32 x n) [x] :=
  ((OnlyCore.modCore s c f).regsSameBut _).trans (.bump32 _ n (by simp))

end

/-- The counts of a core's epochs. -/
def specRegs (c : Nat) : List Nat :=
  [Reg.CORE_SPEC_OPENED c, Reg.CORE_SPEC_VERIFIED c, Reg.CORE_SPEC_SQUASHED c, Reg.CORE_SPEC_DISCARDED c, Reg.CORE_SPEC_CUT c]

theorem specRegs_disjoint_instrRegs (c : Nat) : (specRegs c).Disjoint (instrRegs c) := by
  simp only [specRegs, instrRegs, Reg.CORE_SPEC_OPENED, Reg.CORE_SPEC_VERIFIED, Reg.CORE_SPEC_SQUASHED, Reg.CORE_SPEC_DISCARDED,
    Reg.CORE_SPEC_CUT, Reg.CORE_CLERK_INSTR_LO, List.disjoint_cons_left, List.disjoint_nil_left, List.mem_cons, List.not_mem_nil,
    or_false, not_or, and_true]
  omega

/-- The immediate of an instruction that passes keeps its range. -/
theorem imm_lt_of_passes {s : State} {i : Instr} {c : CoreId} {p : Pred} {op n : Nat} {f : FmtE} {bad : Bool}
    (hw : clerkOf i = some (clerkE c p op f (immOver f n || bad))) (hp : s.passes i = true) : f.imm.toNat < 2 ^ n := by
  simp only [State.passes, State.meets, hw, clerkE, immOver, Bool.and_eq_true, Bool.not_eq_true', Bool.or_eq_false_iff] at hp
  obtain ⟨⟨⟨-, -, hover, -⟩, -⟩, -⟩ := hp
  have hzero : f.imm.toNat / 2 ^ n = 0 := by simpa using hover
  exact Nat.lt_of_div_eq_zero (by positivity) hzero

/-! SPEC (R230). -/

section

variable {s : State} {c : CoreId} {f : FmtE} {e : Nat}

/-- The state in which epoch `e` of core `c` is open and counted. -/
def State.specOpened (s : State) (c e : Nat) : State := (s.modCore c (·.setEpoch e .opened)).bump32 (Reg.CORE_SPEC_OPENED c) 1

theorem bodySpec_free (he : f.imm.toNat = e) (hlt : e < 16) (h : (s.core c.val).epoch e = .free) :
    bodySpec c f s = .pass (s.specOpened c.val e) := by
  simp only [bodySpec, he, Nat.mod_eq_of_lt hlt, h, State.specOpened]

theorem bodySpec_opened (he : f.imm.toNat = e) (hlt : e < 16) (h : (s.core c.val).epoch e = .opened) :
    bodySpec c f s = .fault s Code.epochOpen := by
  simp only [bodySpec, he, Nat.mod_eq_of_lt hlt, h]

theorem bodySpec_ending (he : f.imm.toNat = e) (hlt : e < 16)
    (h : (s.core c.val).epoch e = .endingVerify ∨ (s.core c.val).epoch e = .endingSquash) : bodySpec c f s = .wait s := by
  rcases h with h | h <;> simp only [bodySpec, he, Nat.mod_eq_of_lt hlt, h]

theorem State.specOpened_core (s : State) (c e : Nat) : (s.specOpened c e).core c = (s.core c).setEpoch e .opened := by
  rw [State.specOpened, State.core_bump32, State.core_modCore_same]

end

theorem specOpensAFreeEpoch_holds : specOpensAFreeEpoch := by
  intro s c p f hp k e
  have hlt : e < 16 := imm_lt_of_passes (n := 4) rfl hp
  refine ⟨fun hnext hfree => ?opens, fun hending => ?waits, fun hopened => ?stops⟩
  case opens =>
    obtain ⟨-, -, hwait⟩ := State.clerk_free_of_passes (c := c.val) rfl rfl hp
    have hcore := s.specOpened_core c.val e
    obtain ⟨u, hu, hgoes, hpassed⟩ := State.exec_passes (c := c.val) rfl rfl hp hnext (bodySpec_free rfl hlt hfree)
      (by rw [hcore]; rfl)
    have hnotin : Reg.CORE_SPEC_OPENED c.val ∉ instrRegs c.val :=
      fun h => specRegs_disjoint_instrRegs c.val (by simp [specRegs]) h
    rw [hcore] at hgoes
    refine ⟨u, hu, fun x => ?_, ?_, ?_, ?_⟩
    · rw [hgoes]
      exact k.epoch_setEpoch e .opened x
    · rw [hgoes, Core.goesOnAt_eq (k := k.setEpoch e .opened) hwait]
      rfl
    · exact (CountedUp.modCore_bump32 ..).passed hnotin hpassed
    · exact .of_passedAlone (.modCore_bump32 ..) (RegsSameBut.modCore_bump32 _ _ _ _ _) (List.singleton_disjoint.mpr hnotin) hpassed
  case waits => exact State.exec_waits rfl rfl hp (bodySpec_ending rfl hlt hending)
  case stops => exact State.exec_faults rfl rfl hp (bodySpec_opened rfl hlt hopened)

/-! VERIFY (R231). -/

/-- A core whose epoch `e` ends verified: its pails and transfers are of epoch 0. -/
def Core.verified (k : Core) (e : Nat) : Core :=
  { (k.epochPails e (fun p => { p with epoch := 0 })).setEpoch e .endingVerify with
    dma := k.dma.map (fun x => if x.epoch = e then { x with epoch := 0 } else x) }

section

variable (k : Core) (e : Nat)

theorem Core.pail_verified {i : Nat} (hi : i < 64) :
    (k.verified e).pail i = if (k.pail i).epoch = e then { k.pail i with epoch := 0 } else k.pail i := by
  have hpail := k.pail_epochPails e (fun p => { p with epoch := 0 }) hi
  unfold Core.verified
  generalize k.epochPails e (fun p => { p with epoch := 0 }) = y at *
  exact hpail

theorem Core.epoch_verified (x : Nat) : (k.verified e).epoch x = if x = e then .endingVerify else k.epoch x := by
  have hepoch := k.epoch_epochPails e (fun p => { p with epoch := 0 }) x
  unfold Core.verified
  generalize k.epochPails e (fun p => { p with epoch := 0 }) = y at *
  rw [← hepoch]
  exact y.epoch_setEpoch e .endingVerify x

theorem Core.verified_eq : k.verified e = { k with
    pails := (k.verified e).pails
    epochs := (k.verified e).epochs
    dma := k.dma.map (fun x => if x.epoch = e then { x with epoch := 0 } else x) } := by
  have hpails := k.epochPails_eq e (fun p => { p with epoch := 0 })
  unfold Core.verified
  generalize k.epochPails e (fun p => { p with epoch := 0 }) = x at *
  rw [hpails]
  rfl

theorem Core.verified_nextOp : (k.verified e).nextOp = k.nextOp := by
  have h := k.verified_eq e
  generalize k.verified e = y at *
  rw [h]

theorem Core.verified_waiting : (k.verified e).waiting = k.waiting := by
  have h := k.verified_eq e
  generalize k.verified e = y at *
  rw [h]

end

theorem State.verifyPass_eq (s : State) (c e : Nat) : s.verifyPass c e =
    (s.modCore c (·.verified e)).bump32 (Reg.CORE_SPEC_VERIFIED c) 1 := by
  unfold State.verifyPass
  refine congrArg (fun g => (s.modCore c g).bump32 (Reg.CORE_SPEC_VERIFIED c) 1) (funext fun k => ?_)
  have hpails := k.epochPails_eq e (fun p => { p with epoch := 0 })
  unfold Core.verified
  generalize k.epochPails e (fun p => { p with epoch := 0 }) = y at *
  rw [hpails]
  rfl

section

variable (c : CoreId) (p : Pred) (f : FmtE) (s : State)

theorem clerkBody_verify : clerkBody (.verify c p f) s = bodyVerify c f s := rfl

theorem clerkBody_squash : clerkBody (.squash c p f) s = bodySquash c f s := rfl

end

section

variable {s : State} {c : CoreId} {f : FmtE} {e : Nat}

theorem bodyVerify_opened (he : f.imm.toNat = e) (hlt : e < 16) (h : (s.core c.val).epoch e = .opened) :
    bodyVerify c f s = .pass (s.verifyPass c.val e) := by
  simp only [bodyVerify, he, Nat.mod_eq_of_lt hlt, h, if_true]

theorem bodyVerify_closed (he : f.imm.toNat = e) (hlt : e < 16) (h : (s.core c.val).epoch e ≠ .opened) :
    bodyVerify c f s = .fault s Code.epochClosed := by
  simp only [bodyVerify, he, Nat.mod_eq_of_lt hlt]
  exact if_neg h

theorem bodySquash_opened (he : f.imm.toNat = e) (hlt : e < 16) (h : (s.core c.val).epoch e = .opened) :
    bodySquash c f s = .pass (s.squash c.val e) := by
  simp only [bodySquash, he, Nat.mod_eq_of_lt hlt, h, if_true]

theorem bodySquash_closed (he : f.imm.toNat = e) (hlt : e < 16) (h : (s.core c.val).epoch e ≠ .opened) :
    bodySquash c f s = .fault s Code.epochClosed := by
  simp only [bodySquash, he, Nat.mod_eq_of_lt hlt]
  exact if_neg h

end

theorem State.verifyPass_core (s : State) (c e : Nat) : (s.verifyPass c e).core c = (s.core c).verified e := by
  rw [State.verifyPass_eq, State.core_bump32, State.core_modCore_same]

/-- VERIFY of an open epoch passes with its pails and transfers of epoch 0. -/
theorem exec_verify_opened {s : State} {c : CoreId} {p : Pred} {f : FmtE} {e : Nat} (he : f.imm.toNat = e)
    (hp : s.passes (.verify c p f) = true) (hnext : (s.core c.val).hasNext = true) (hopen : (s.core c.val).epoch e = .opened) :
    Ends (exec (.verify c p f) s) (fun t =>
      t.core c.val = { (s.core c.val).verified e with pc := (s.core c.val).pc + 1 } ∧
      CountedUp s t (Reg.CORE_SPEC_VERIFIED c.val) 1 ∧ PassedWith s t c.val [Reg.CORE_SPEC_VERIFIED c.val]) := by
  have hlt : e < 16 := he ▸ imm_lt_of_passes (n := 4) rfl hp
  obtain ⟨-, -, hwait⟩ := State.clerk_free_of_passes (c := c.val) rfl rfl hp
  have hcore := s.verifyPass_core c.val e
  have hop : ((s.verifyPass c.val e).core c.val).nextOp = (s.core c.val).nextOp := by rw [hcore, Core.verified_nextOp]
  have hbody : clerkBody (.verify c p f) s = .pass (s.verifyPass c.val e) :=
    (clerkBody_verify ..).trans (bodyVerify_opened he hlt hopen)
  obtain ⟨u, hu, hgoes, hpassed⟩ := State.exec_passes (c := c.val) rfl rfl hp hnext hbody hop
  have hnotin : Reg.CORE_SPEC_VERIFIED c.val ∉ instrRegs c.val :=
    fun h => specRegs_disjoint_instrRegs c.val (by simp [specRegs]) h
  rw [hcore, Core.goesOnAt_eq (by rw [Core.verified_waiting, hwait])] at hgoes
  rw [State.verifyPass_eq] at hpassed
  exact ⟨u, hu, hgoes, (CountedUp.modCore_bump32 ..).passed hnotin hpassed,
    .of_passedAlone (.modCore_bump32 ..) (RegsSameBut.modCore_bump32 _ _ _ _ _) (List.singleton_disjoint.mpr hnotin) hpassed⟩

/-! SQUASH (R232). -/

/-- What has not started and what is cut of epoch `e`, in the order in which their ends are handed over. -/
def Core.squashIds (k : Core) (e : Nat) : List Nat :=
  (k.dma.filter (fun x => x.epoch == e && !x.started)).map (·.id) ++
    (k.seq.filter (fun o => o.epoch == e && !o.started)).map (·.id) ++
    (k.seq.filter (fun o => o.epoch == e && o.started)).map (·.id)

/-- A core whose epoch `e` ends squashed, but for the ends of its operations. -/
def Core.squashed (k : Core) (e : Nat) : Core :=
  { (k.epochPails e (fun _ => Pail.reset)).epochTiles e Tile.squash with
    dma := (k.dma.filter (fun x => !(x.epoch == e && !x.started))).map (fun x =>
      if x.epoch = e then { x with discard := true, srcPail := x.srcPail.filter (fun i => (k.pail i).epoch != e) } else x)
    seq := k.seq.filter (fun o => o.epoch != e)
    epochs := tabSet .free k.epochs e .endingSquash }

section

variable (k : Core) (e : Nat)

theorem Core.pail_squashed {i : Nat} (hi : i < 64) :
    (k.squashed e).pail i = if (k.pail i).epoch = e then Pail.reset else k.pail i := by
  have hpail := k.pail_epochPails e (fun _ => Pail.reset) hi
  rw [← Core.pail_epochTiles _ e Tile.squash] at hpail
  unfold Core.squashed
  generalize (k.epochPails e (fun _ => Pail.reset)).epochTiles e Tile.squash = y at *
  exact hpail

theorem Core.tile_squashed {l : Nat} (hl : l < 8) :
    (k.squashed e).tile l = if (k.tile l).st = .shadow ∧ (k.tile l).epoch = e then (k.tile l).squash else k.tile l := by
  have htile := (k.epochPails e (fun _ => Pail.reset)).tile_epochTiles e Tile.squash hl
  rw [Core.tile_epochPails] at htile
  unfold Core.squashed
  generalize (k.epochPails e (fun _ => Pail.reset)).epochTiles e Tile.squash = y at *
  exact htile

theorem Core.epoch_squashed (x : Nat) : (k.squashed e).epoch x = if x = e then .endingSquash else k.epoch x := by
  unfold Core.squashed
  generalize (k.epochPails e (fun _ => Pail.reset)).epochTiles e Tile.squash = y
  exact tabGet_set EpochSt.free k.epochs e x .endingSquash

theorem Core.squashed_eq : k.squashed e = { k with
    pails := (k.squashed e).pails
    tiles := (k.squashed e).tiles
    epochs := (k.squashed e).epochs
    dma := (k.squashed e).dma
    seq := (k.squashed e).seq } := by
  have hpails := k.epochPails_eq e (fun _ => Pail.reset)
  have htiles := (k.epochPails e (fun _ => Pail.reset)).epochTiles_eq e Tile.squash
  unfold Core.squashed
  generalize (k.epochPails e (fun _ => Pail.reset)).epochTiles e Tile.squash = y at *
  generalize k.epochPails e (fun _ => Pail.reset) = x at *
  rw [htiles, hpails]

end

/-- The end of one operation and then of others is the end of all. -/
theorem handedOver_handedOver (ops : List Op) (id : Nat) (ids : List Nat) (r : OpResult) :
    handedOver (handedOver ops [id] r) ids r = handedOver ops (id :: ids) r := by
  unfold handedOver
  rw [List.map_map]
  refine List.map_congr_left fun o _ => ?_
  by_cases hres : o.result = none
  · by_cases hid : o.id = id <;> simp [hres, hid]
  · simp [hres]

theorem handedOver_nil (ops : List Op) (r : OpResult) : handedOver ops [] r = ops := by simp [handedOver]

/-- Ends handed over one by one are handed over together. -/
theorem Core.foldl_opDone (r : OpResult) (ids : List Nat) (k : Core) :
    ids.foldl (fun k id => k.opDone id r) k = { k with ops := handedOver k.ops ids r } := by
  induction ids generalizing k with
  | nil => rw [List.foldl_nil, handedOver_nil]
  | cons id ids ih =>
    have hone : (k.opDone id r).ops = handedOver k.ops [id] r := by simp [Core.opDone, handedOver]
    rw [List.foldl_cons, ih, hone, handedOver_handedOver]
    rfl

/-- A core whose epoch `e` ends squashed, with the ends of operations `ids` handed over. -/
def Core.squashedWith (k : Core) (e : Nat) (ids : List Nat) : Core :=
  { k.squashed e with ops := handedOver k.ops ids ⟨0, none, Stop.of 0⟩ }

theorem Core.squashed_ops (k : Core) (e : Nat) : (k.squashed e).ops = k.ops := by
  have h := k.squashed_eq e
  generalize k.squashed e = y at *
  rw [h]

theorem Core.foldl_opDone_squashed (k : Core) (e : Nat) (ids : List Nat) :
    ids.foldl (fun k id => k.opDone id ⟨0, none, Stop.of 0⟩) (k.squashed e) = k.squashedWith e ids := by
  rw [Core.foldl_opDone, Core.squashed_ops]
  rfl

/-- Whether a SQUASH of epoch `e` ends a freeze: one on a pail of it, or one of an operation of it. -/
def Core.cutsFreeze (k : Core) (e : Nat) : Prop :=
  (∃ z, k.freeze = some z ∧ (k.pail z.pail).epoch = e) ∨ (k.freeze ≠ none ∧ k.seq.head?.map (·.epoch) = some e)

/-- The state in which a freeze that a SQUASH of epoch `e` ends is over. -/
def State.squashThawed (s : State) (c e : Nat) : State :=
  if (s.core c).freeze.any (fun f => ((s.core c).pail f.pail).epoch == e) || (match (s.core c).seq with
    | o :: _ => o.epoch == e
    | [] => false) then s.freezeCut c else s

/-- The counts of a SQUASH of epoch `e`, from what core `k` held. -/
def State.squashCounted (s : State) (c e : Nat) (k : Core) : State :=
  ((s.bump32 (Reg.CORE_SPEC_SQUASHED c) 1).bump32 (Reg.CORE_SPEC_DISCARDED c)
    ((k.dma.filter (fun x => x.epoch == e && !x.started)).length + (k.seq.filter (fun o => o.epoch == e && !o.started)).length)).bump32
    (Reg.CORE_SPEC_CUT c) (k.seq.filter (fun o => o.epoch == e && o.started)).length

theorem State.squash_eq (s : State) (c e : Nat) : s.squash c e =
    ((s.squashThawed c e).modCore c (·.squashedWith e ((s.core c).squashIds e))).squashCounted c e (s.core c) := by
  have h : s.squash c e = ((s.squashThawed c e).modCore c (fun k =>
    ((s.core c).squashIds e).foldl (fun k id => k.opDone id ⟨0, none, Stop.of 0⟩) (k.squashed e))).squashCounted c e (s.core c) := rfl
  rw [h]
  simp only [Core.foldl_opDone_squashed]

/-! The freeze (R67, R69). -/

section

variable {s : State} {c e : Nat}

theorem State.freezeCut_unfrozen (h : (s.core c).freeze = none) : s.freezeCut c = s := by
  unfold State.freezeCut
  rw [h]

/-- A freeze cut short ends after a number of cycles that no rule gives, below the limit where there is one (log entry 108). -/
theorem State.freezeCut_frozen {z : Freeze} (h : (s.core c).freeze = some z) : ∃ n, s.freezeCut c = s.tick.1.thaw c n ∧
    (s.regN (Reg.CORE_TALLY_FREEZE_LIMIT c) ≠ 0 → n < s.regN (Reg.CORE_TALLY_FREEZE_LIMIT c)) := by
  unfold State.freezeCut
  rw [h]
  refine ⟨_, rfl, fun hlimit => ?_⟩
  rw [if_neg hlimit]
  exact Nat.mod_lt _ (Nat.pos_of_ne_zero hlimit)

theorem Core.cutsFreeze_iff (k : Core) (e : Nat) : k.cutsFreeze e ↔ k.freeze ≠ none ∧
    (k.freeze.any (fun f => (k.pail f.pail).epoch == e) || (match k.seq with
      | o :: _ => o.epoch == e
      | [] => false)) = true := by
  unfold Core.cutsFreeze
  cases hf : k.freeze with
  | none => simp
  | some z => cases hs : k.seq <;> simp

theorem State.squashThawed_unfrozen (h : ¬ (s.core c).cutsFreeze e) : s.squashThawed c e = s := by
  rw [Core.cutsFreeze_iff, not_and_or, not_not] at h
  unfold State.squashThawed
  rcases h with h | h
  · rw [State.freezeCut_unfrozen h, ite_self]
  · exact if_neg h

theorem State.squashThawed_frozen (h : (s.core c).cutsFreeze e) : ∃ n, s.squashThawed c e = s.tick.1.thaw c n ∧
    (s.regN (Reg.CORE_TALLY_FREEZE_LIMIT c) ≠ 0 → n < s.regN (Reg.CORE_TALLY_FREEZE_LIMIT c)) := by
  rw [Core.cutsFreeze_iff] at h
  obtain ⟨hfrozen, hcuts⟩ := h
  obtain ⟨z, hz⟩ := Option.ne_none_iff_exists'.mp hfrozen
  unfold State.squashThawed
  rw [if_pos hcuts]
  exact State.freezeCut_frozen hz

/-- Beside its freeze the core stays. -/
theorem State.squashThawed_core (s : State) (c e : Nat) : (s.squashThawed c e).core c =
    { s.core c with freeze := ((s.squashThawed c e).core c).freeze } := by
  by_cases h : (s.core c).cutsFreeze e
  · obtain ⟨n, hn, -⟩ := State.squashThawed_frozen h
    rw [hn, State.thaw_core]
    rfl
  · rw [State.squashThawed_unfrozen h]

theorem State.squashThawed_core_other (s : State) {c e d : Nat} (hd : d ≠ c) : (s.squashThawed c e).core d = s.core d := by
  by_cases h : (s.core c).cutsFreeze e
  · obtain ⟨n, hn, -⟩ := State.squashThawed_frozen h
    rw [hn]
    exact (State.thaw_onlyCoreAndRegs _ c n).2 d hd
  · rw [State.squashThawed_unfrozen h]

end

/-! The registers of a SQUASH. -/

section

variable (s : State) (c e : Nat) (k : Core)

/-- The counts of squashed epochs. -/
def squashRegs (c : Nat) : List Nat := [Reg.CORE_SPEC_SQUASHED c, Reg.CORE_SPEC_DISCARDED c, Reg.CORE_SPEC_CUT c]

@[simp] theorem State.squashCounted_core (d : Nat) : (s.squashCounted c e k).core d = s.core d := by
  simp only [State.squashCounted, State.core_bump32]

theorem State.squashCounted_onlyCoreAndRegs : OnlyCoreAndRegs s (s.squashCounted c e k) c :=
  ((OnlyCoreAndRegs.bump32 s _ _ c).trans (.bump32 _ _ _ c)).trans (.bump32 _ _ _ c)

theorem State.squashCounted_regsSameBut : RegsSameBut s (s.squashCounted c e k) (squashRegs c) :=
  ((RegsSameBut.bump32 s _ (by simp [squashRegs])).trans (.bump32 _ _ (by simp [squashRegs]))).trans
    (.bump32 _ _ (by simp [squashRegs]))

/-- The counts stand also from a state with the same counts so far. -/
theorem State.squashCounted_counts {s' : State} (h : ∀ x ∈ squashRegs c, s.reg x = s'.reg x) :
    CountedUp s' (s.squashCounted c e k) (Reg.CORE_SPEC_SQUASHED c) 1 ∧
    CountedUp s' (s.squashCounted c e k) (Reg.CORE_SPEC_DISCARDED c)
      ((k.dma.filter (fun x => x.epoch == e && !x.started)).length + (k.seq.filter (fun o => o.epoch == e && !o.started)).length) ∧
    CountedUp s' (s.squashCounted c e k) (Reg.CORE_SPEC_CUT c) (k.seq.filter (fun o => o.epoch == e && o.started)).length := by
  obtain ⟨hone, hgone, hcut⟩ := CountedUp.bump32_three s (x := Reg.CORE_SPEC_SQUASHED c) (y := Reg.CORE_SPEC_DISCARDED c)
    (z := Reg.CORE_SPEC_CUT c) (by simp [Reg.CORE_SPEC_SQUASHED, Reg.CORE_SPEC_DISCARDED])
    (by simp [Reg.CORE_SPEC_SQUASHED, Reg.CORE_SPEC_CUT]) (by simp [Reg.CORE_SPEC_DISCARDED, Reg.CORE_SPEC_CUT]) 1
    ((k.dma.filter (fun x => x.epoch == e && !x.started)).length + (k.seq.filter (fun o => o.epoch == e && !o.started)).length)
    (k.seq.filter (fun o => o.epoch == e && o.started)).length
  exact ⟨hone.of_reg (h _ (by simp [squashRegs])) rfl, hgone.of_reg (h _ (by simp [squashRegs])) rfl,
    hcut.of_reg (h _ (by simp [squashRegs])) rfl⟩

end

theorem squashRegs_disjoint (c : Nat) : (squashRegs c).Disjoint (stallRegs c ++ instrRegs c) := by
  simp only [squashRegs, stallRegs, instrRegs, Reg.CORE_SPEC_SQUASHED, Reg.CORE_SPEC_DISCARDED, Reg.CORE_SPEC_CUT,
    Reg.CORE_TALLY_STALL_LO, Reg.CORE_TALLY_FREEZE_MAX, Reg.CORE_CLERK_INSTR_LO, List.cons_append, List.nil_append,
    List.disjoint_cons_left, List.disjoint_nil_left, List.mem_cons, List.not_mem_nil, or_false, not_or, and_true]
  omega

theorem stallRegs_disjoint_instrRegs (c : Nat) : (stallRegs c).Disjoint (instrRegs c) := by
  simp only [stallRegs, instrRegs, Reg.CORE_TALLY_STALL_LO, Reg.CORE_TALLY_FREEZE_MAX, Reg.CORE_CLERK_INSTR_LO,
    List.disjoint_cons_left, List.disjoint_nil_left, List.mem_cons, List.not_mem_nil, or_false, not_or, and_true]
  omega

section

variable (s : State) (c e : Nat)

theorem State.squashThawed_regsSameBut : RegsSameBut s (s.squashThawed c e) (stallRegs c) := by
  by_cases h : (s.core c).cutsFreeze e
  · obtain ⟨n, hn, -⟩ := State.squashThawed_frozen h
    rw [hn]
    exact State.thaw_regsSameBut s.tick.1 c n
  · rw [State.squashThawed_unfrozen h]
    exact .refl s _

/-! The core and the registers after a SQUASH. -/

theorem State.squash_core : (s.squash c e).core c =
    ((s.squashThawed c e).core c).squashedWith e ((s.core c).squashIds e) := by
  rw [State.squash_eq, State.squashCounted_core, State.core_modCore_same]

theorem State.squash_core_other {d : Nat} (hd : d ≠ c) : (s.squash c e).core d = s.core d := by
  rw [State.squash_eq, State.squashCounted_core, State.core_modCore_other _ _ hd, State.squashThawed_core_other s hd]

/-- From the thawed state a SQUASH changes its own core and its own counts. -/
theorem State.squash_onlyCoreAndRegs : OnlyCoreAndRegs (s.squashThawed c e) (s.squash c e) c := by
  rw [State.squash_eq]
  exact (OnlyCore.modCore _ c _).onlyCoreAndRegs.trans (State.squashCounted_onlyCoreAndRegs _ c e _)

theorem State.squash_regsSameBut : RegsSameBut (s.squashThawed c e) (s.squash c e) (squashRegs c) := by
  rw [State.squash_eq]
  exact ((OnlyCore.modCore _ c _).regsSameBut _).trans (State.squashCounted_regsSameBut _ c e _)

/-- What a SQUASH counts of what its core held. -/
theorem State.squash_counts : CountedUp s (s.squash c e) (Reg.CORE_SPEC_SQUASHED c) 1 ∧
    CountedUp s (s.squash c e) (Reg.CORE_SPEC_DISCARDED c) (((s.core c).dma.filter (fun x => x.epoch == e && !x.started)).length +
      ((s.core c).seq.filter (fun o => o.epoch == e && !o.started)).length) ∧
    CountedUp s (s.squash c e) (Reg.CORE_SPEC_CUT c) ((s.core c).seq.filter (fun o => o.epoch == e && o.started)).length := by
  have hbefore : ∀ x ∈ squashRegs c,
      ((s.squashThawed c e).modCore c (·.squashedWith e ((s.core c).squashIds e))).reg x = s.reg x := fun x hx => by
    rw [State.reg_modCore]
    exact s.squashThawed_regsSameBut c e x (fun h => squashRegs_disjoint c hx (List.mem_append_left _ h))
  rw [State.squash_eq]
  exact State.squashCounted_counts _ c e _ hbefore

end

section

variable (k : Core) (e : Nat)

theorem Core.squashed_dma : (k.squashed e).dma = (k.dma.filter (fun x => !(x.epoch == e && !x.started))).map (fun x =>
    if x.epoch = e then { x with discard := true, srcPail := x.srcPail.filter (fun i => (k.pail i).epoch != e) } else x) := by
  unfold Core.squashed
  generalize (k.epochPails e (fun _ => Pail.reset)).epochTiles e Tile.squash = y
  rfl

theorem Core.squashed_seq : (k.squashed e).seq = k.seq.filter (fun o => o.epoch != e) := by
  unfold Core.squashed
  generalize (k.epochPails e (fun _ => Pail.reset)).epochTiles e Tile.squash = y
  rfl

/-- Beside its pails, tiles, queues, epochs and the ends of operations the core keeps everything. -/
theorem Core.squashedWith_eq (ids : List Nat) : k.squashedWith e ids = { k with
    pails := (k.squashed e).pails
    tiles := (k.squashed e).tiles
    epochs := (k.squashed e).epochs
    dma := (k.dma.filter (fun x => !(x.epoch == e && !x.started))).map (fun x =>
      if x.epoch = e then { x with discard := true, srcPail := x.srcPail.filter (fun i => (k.pail i).epoch != e) } else x)
    seq := k.seq.filter (fun o => o.epoch != e)
    ops := handedOver k.ops ids ⟨0, none, Stop.of 0⟩ } := by
  have hshape := k.squashed_eq e
  rw [← Core.squashed_dma, ← Core.squashed_seq]
  unfold Core.squashedWith
  generalize k.squashed e = y at *
  rw [hshape]

/-- A squashed shadow tile is CLEAR with the tag that it held before. -/
theorem Tile.squash_eq (t : Tile) : t.squash = match t.before with
    | some p => { Tile.reset with tagged := true, tag := p }
    | none => Tile.reset := by
  unfold Tile.squash Tile.clearTo
  cases t.before <;> rfl

end

/-- What SQUASH of an open epoch of core `k` leaves: the core `x`, whose freeze is `z`. -/
structure Core.SquashLeft (k : Core) (e : Nat) (z : Option Freeze) (x : Core) : Prop where
  epochs : ∀ y, x.epoch y = if y = e then .endingSquash else k.epoch y
  pails : ∀ i, i < 64 → x.pail i = if (k.pail i).epoch = e then Pail.reset else k.pail i
  tiles : ∀ l, l < 8 → x.tile l = if (k.tile l).st = .shadow ∧ (k.tile l).epoch = e then (k.tile l).squash else k.tile l
  freeze : x.freeze = z
  core : x = { k with
    pails := x.pails
    tiles := x.tiles
    epochs := x.epochs
    dma := (k.dma.filter (fun x => !(x.epoch == e && !x.started))).map (fun x => if x.epoch = e then
      { x with discard := true, srcPail := x.srcPail.filter (fun i => (k.pail i).epoch != e) } else x)
    seq := k.seq.filter (fun o => o.epoch != e)
    freeze := x.freeze
    ops := handedOver k.ops (k.squashIds e) ⟨0, none, Stop.of 0⟩ }

theorem Core.squashLeft_of_freeze (k : Core) (e : Nat) (z : Option Freeze) :
    k.SquashLeft e z (({ k with freeze := z } : Core).squashedWith e (k.squashIds e)) := by
  have hepochs := ({ k with freeze := z } : Core).epoch_squashed e
  have hpails := fun i (hi : i < 64) => ({ k with freeze := z } : Core).pail_squashed e hi
  have htiles := fun l (hl : l < 8) => ({ k with freeze := z } : Core).tile_squashed e hl
  rw [Core.squashedWith_eq]
  generalize ({ k with freeze := z } : Core).squashed e = y at *
  exact ⟨hepochs, hpails, htiles, rfl, rfl⟩

theorem State.squash_left (s : State) (c e : Nat) :
    (s.core c).SquashLeft e ((s.squashThawed c e).core c).freeze ((s.squash c e).core c) := by
  rw [State.squash_core, State.squashThawed_core]
  exact Core.squashLeft_of_freeze ..

theorem Core.squashedWith_nextOp (k : Core) (e : Nat) (ids : List Nat) : (k.squashedWith e ids).nextOp = k.nextOp := by
  rw [Core.squashedWith_eq]

theorem State.squash_nextOp (s : State) (c e : Nat) : ((s.squash c e).core c).nextOp = (s.core c).nextOp := by
  rw [State.squash_core, Core.squashedWith_nextOp, State.squashThawed_core]

theorem State.squash_waiting (s : State) (c e : Nat) : ((s.squash c e).core c).waiting = (s.core c).waiting := by
  rw [(s.squash_left c e).core]

/-- The freeze that SQUASH leaves. -/
theorem State.squash_freeze (s : State) (c e : Nat) : ((s.core c).cutsFreeze e → ((s.squashThawed c e).core c).freeze = none) ∧
    (¬ (s.core c).cutsFreeze e → ((s.squashThawed c e).core c).freeze = (s.core c).freeze) := by
  refine ⟨fun h => ?_, fun h => by rw [State.squashThawed_unfrozen h]⟩
  obtain ⟨n, hn, -⟩ := State.squashThawed_frozen h
  rw [hn, State.thaw_core]

/-- What a SQUASH and the Clerk after it change beside the core, where no freeze ends. -/
theorem State.squash_passed_unfrozen {s u : State} {c e : Nat} (h : ¬ (s.core c).cutsFreeze e) (hu : PassedAlone (s.squash c e) u c) :
    PassedWith s u c (squashRegs c) := by
  have honly := s.squash_onlyCoreAndRegs c e
  have hregs := s.squash_regsSameBut c e
  rw [State.squashThawed_unfrozen h] at honly hregs
  exact .of_passedAlone honly hregs (fun x hx hi => squashRegs_disjoint c hx (List.mem_append_right _ hi)) hu

/-- Where a freeze ends a free value is used up, and its cycles are counted (R67, R69). -/
theorem State.squash_passed_frozen {s u : State} {c e : Nat} (h : (s.core c).cutsFreeze e) (hu : PassedAlone (s.squash c e) u c) :
    PassedWith { s with free := u.free } u c (stallRegs c ++ squashRegs c) ∧
    (s.regN (Reg.CORE_TALLY_FREEZE_LIMIT c) ≠ 0 → ∃ n, n < s.regN (Reg.CORE_TALLY_FREEZE_LIMIT c) ∧
      u.reg64 (Reg.CORE_TALLY_STALL_LO c) = (s.reg64 (Reg.CORE_TALLY_STALL_LO c) + n) % 2 ^ 64 ∧
      u.regN (Reg.CORE_TALLY_FREEZE_MAX c) = max (s.regN (Reg.CORE_TALLY_FREEZE_MAX c)) n) := by
  obtain ⟨n, hn, hlt⟩ := State.squashThawed_frozen h
  have honly := s.squash_onlyCoreAndRegs c e
  have hregs := s.squash_regsSameBut c e
  rw [hn] at honly hregs
  have hthawed := (State.thaw_onlyCoreAndRegs s.tick.1 c n).trans honly
  have hfree : u.free = s.tick.1.free := by
    rw [(hthawed.trans hu.1).1]
  have hstall : ∀ x ∈ stallRegs c, u.reg x = (s.tick.1.thaw c n).reg x := fun x hx =>
    (hu.regsSameBut x (fun hi => stallRegs_disjoint_instrRegs c hx hi)).trans
      (hregs x (fun hq => squashRegs_disjoint c hq (List.mem_append_left _ hx)))
  refine ⟨?_, fun hlimit => ⟨n, hlt hlimit, ?_, ?_⟩⟩
  · rw [hfree]
    refine .of_passedAlone hthawed (((State.thaw_regsSameBut s.tick.1 c n).mono fun x hx => List.mem_append_left _ hx).trans
      (hregs.mono fun x hx => List.mem_append_right _ hx)) (fun x hx hi => ?_) hu
    rcases List.mem_append.mp hx with hx | hx
    · exact stallRegs_disjoint_instrRegs c hx hi
    · exact squashRegs_disjoint c hx (List.mem_append_right _ hi)
  · rw [State.reg64_congr (hstall _ (by simp [stallRegs])) (hstall _ (by simp [stallRegs])), State.thaw_stall]
    rfl
  · have hbound : n < 2 ^ 32 := (hlt hlimit).trans (s.regN_lt _)
    rw [State.regN_congr (hstall _ (by simp [stallRegs])), State.thaw_max _ hbound]
    rfl

/-- SQUASH of an open epoch passes. -/
theorem exec_squash_opened {s : State} {c : CoreId} {p : Pred} {f : FmtE} {e : Nat} (he : f.imm.toNat = e)
    (hp : s.passes (.squash c p f) = true) (hnext : (s.core c.val).hasNext = true) (hopen : (s.core c.val).epoch e = .opened) :
    Ends (exec (.squash c p f) s) (fun t =>
      t.core c.val = { (s.squash c.val e).core c.val with pc := (s.core c.val).pc + 1 } ∧ PassedAlone (s.squash c.val e) t c.val) := by
  have hlt : e < 16 := he ▸ imm_lt_of_passes (n := 4) rfl hp
  obtain ⟨-, -, hwait⟩ := State.clerk_free_of_passes (c := c.val) rfl rfl hp
  have hbody : clerkBody (.squash c p f) s = .pass (s.squash c.val e) :=
    (clerkBody_squash ..).trans (bodySquash_opened he hlt hopen)
  have hstart := State.exec_passes (c := c.val) rfl rfl hp hnext hbody (s.squash_nextOp c.val e)
  rwa [Core.goesOnAt_eq ((s.squash_waiting c.val e).trans hwait)] at hstart

theorem verifyAndSquashEndAnOpenEpoch_holds : verifyAndSquashEndAnOpenEpoch := by
  intro s c p f k e unX unO cut gone froze limit stall longest counts
  refine ⟨fun hp hnext hopen => ?verify, fun hp hnext hopen => ?squash, ?closed⟩
  case verify =>
    obtain ⟨t, ht, hcore, hcount, hpassed⟩ := exec_verify_opened rfl hp hnext hopen
    have hpails := fun i (hi : i < 64) => k.pail_verified e hi
    have hepochs := k.epoch_verified e
    rw [Core.verified_eq] at hcore
    generalize (s.core c.val).verified e = y at *
    refine ⟨t, ht, ?_, ?_, ?_, hcount, hpassed⟩ <;> rw [hcore]
    · exact hpails
    · exact hepochs
  case squash =>
    obtain ⟨t, ht, hcore, hpassed⟩ := exec_squash_opened rfl hp hnext hopen
    obtain ⟨hone, hgone, hcut⟩ := s.squash_counts c.val e
    obtain ⟨hthaw, hkept⟩ := s.squash_freeze c.val e
    have hnotin : ∀ x ∈ squashRegs c.val, x ∉ instrRegs c.val := fun x hx hi =>
      squashRegs_disjoint c.val hx (List.mem_append_right _ hi)
    obtain ⟨hepochs, hpails, htiles, hfreeze, hleft⟩ := s.squash_left c.val e
    refine ⟨t, ht, ?_, ?_, ?_, ?_, ?_, ?_, hone.passed (hnotin _ (by simp [squashRegs])) hpassed,
      hgone.passed (hnotin _ (by simp [squashRegs])) hpassed, hcut.passed (hnotin _ (by simp [squashRegs])) hpassed,
      fun h => State.squash_passed_unfrozen h hpassed, fun h => State.squash_passed_frozen h hpassed⟩
    all_goals
      generalize (s.squash c.val e).core c.val = x at *
      rw [hcore]
    · exact hepochs
    · exact hpails
    · exact fun l hl => (htiles l hl).trans (if_congr Iff.rfl (Tile.squash_eq _) rfl)
    · exact fun h => hfreeze.trans (hthaw h)
    · exact fun h => hfreeze.trans (hkept h)
    · exact congrArg (fun y : Core => { y with pc := k.pc + 1 }) hleft
  case closed =>
    simp only [List.forall_mem_cons]
    refine ⟨fun hp hclosed => ?_, fun hp hclosed => ?_, fun _ h => absurd h List.not_mem_nil⟩
    · exact State.exec_faults rfl rfl hp
        ((clerkBody_verify ..).trans (bodyVerify_closed rfl (imm_lt_of_passes (n := 4) rfl hp) hclosed))
    · exact State.exec_faults rfl rfl hp
        ((clerkBody_squash ..).trans (bodySquash_closed rfl (imm_lt_of_passes (n := 4) rfl hp) hclosed))

/-! END (R213, R232). -/

/-- The state in which every epoch of a list that was open is squashed. -/
def State.squashEach (s : State) (c : Nat) (l : List Nat) : State :=
  l.foldl (fun s e => if (s.core c).epoch e = .opened then s.squash c e else s) s

section

variable (s : State) (c e : Nat)

theorem State.squashEach_cons (l : List Nat) : s.squashEach c (e :: l) =
    (if (s.core c).epoch e = .opened then s.squash c e else s).squashEach c l := rfl

theorem State.squashOpen_eq : s.squashOpen c = s.squashEach c (List.range 16) := rfl

/-- One step of it squashes its epoch where that is open, and leaves the other epochs. -/
theorem State.squashIfOpen_epoch (x : Nat) : ((if (s.core c).epoch e = .opened then s.squash c e else s).core c).epoch x =
    if x = e ∧ (s.core c).epoch x = .opened then .endingSquash else (s.core c).epoch x := by
  split
  · next h =>
    rw [(s.squash_left c e).epochs]
    by_cases hx : x = e
    · subst hx
      simp [h]
    · simp [hx]
  · next h =>
    refine (if_neg ?_).symm
    rintro ⟨rfl, ho⟩
    exact h ho

end

theorem State.squashEach_core_other {c d : Nat} (hd : d ≠ c) (l : List Nat) (s : State) : (s.squashEach c l).core d = s.core d := by
  induction l generalizing s with
  | nil => rfl
  | cons e l ih =>
    rw [State.squashEach_cons, ih]
    split
    · exact s.squash_core_other c e hd
    · rfl

theorem State.squashEach_epoch (c : Nat) (l : List Nat) (s : State) (x : Nat) : ((s.squashEach c l).core c).epoch x =
    if x ∈ l ∧ (s.core c).epoch x = .opened then .endingSquash else (s.core c).epoch x := by
  induction l generalizing s with
  | nil => simp [State.squashEach]
  | cons e l ih =>
    rw [State.squashEach_cons, ih, State.squashIfOpen_epoch]
    by_cases hx : x = e <;> by_cases ho : (s.core c).epoch x = .opened <;> simp_all

theorem State.squashEach_of_none {s : State} {c : Nat} {l : List Nat} (h : ∀ e ∈ l, (s.core c).epoch e ≠ .opened) :
    s.squashEach c l = s := by
  induction l with
  | nil => rfl
  | cons e l ih =>
    rw [State.squashEach_cons, if_neg (h e (List.mem_cons_self ..))]
    exact ih fun x hx => h x (List.mem_cons_of_mem _ hx)

theorem clerkBody_end (c : CoreId) (p : Pred) (f : FmtE) (s : State) : clerkBody (.end_ c p f) s = bodyEnd c s := rfl

theorem exec_end {s : State} {c : CoreId} {p : Pred} {f : FmtE} (hp : s.passes (.end_ c p f) = true) :
    exec (.end_ c p f) s = .next (((s.squashOpen c.val).modCore c.val (fun k => { k with ending := true })).clerkAt c.val
      (s.core c.val).pc (s.core c.val).nextOp) := by
  rw [State.exec_eq_clerkAfter rfl rfl hp, clerkBody_end, bodyEnd]
  generalize s.squashOpen c.val = z
  rfl

/-- The Clerk of a core that has executed END meets no instruction. -/
theorem State.meets_of_ending {t : State} {i : Instr} {c : Nat} (h : (t.core c).ending = true)
    (hi : (clerkOf i).map (·.core) = some c) : t.meets i = false := by
  unfold State.meets
  cases hw : clerkOf i with
  | none => rfl
  | some w =>
    have hc : w.core = c := by simpa [hw] using hi
    subst hc
    simp [Core.takes, h]

theorem endEndsTheProgram_holds : endEndsTheProgram := by
  intro s c p f hp k
  have hexec := exec_end hp
  have hepochs := fun e => State.squashEach_epoch c.val (List.range 16) s e
  have hothers := fun d (hd : d ≠ c.val) => State.squashEach_core_other hd (List.range 16) s
  have hnone := fun h => State.squashEach_of_none (s := s) (c := c.val) (l := List.range 16) h
  rw [← State.squashOpen_eq] at hothers hnone
  simp only [← State.squashOpen_eq, List.mem_range] at hepochs hnone
  generalize s.squashOpen c.val = z at *
  have hcore : ((z.modCore c.val (fun k => { k with ending := true })).clerkAt c.val k.pc k.nextOp).core c.val =
      ({ z.core c.val with ending := true } : Core).goesOnAt k.pc := by
    rw [State.clerkAt_core, State.core_modCore_same]
  refine ends_of_eq hexec ⟨by rw [hcore]; rfl, by rw [hcore]; rfl, fun e he => ?epochs, fun d hd => ?others,
    fun i _ hi => State.meets_of_ending (by rw [hcore]; rfl) hi, fun h => ?none⟩
  case epochs =>
    rw [hcore]
    refine (hepochs e).trans ?_
    simp only [he, true_and]
    rfl
  case others => rw [State.clerkAt_core_other _ _ _ hd, State.core_modCore_other _ _ hd, hothers d hd]
  case none =>
    obtain ⟨-, -, hwait⟩ := State.clerk_free_of_passes (c := c.val) rfl rfl hp
    rw [hcore, hnone h]
    refine ⟨Core.goesOnAt_eq (k := { k with ending := true }) hwait _, .before (.modCore s c.val _) (State.clerkAt_passedAlone _ _ ?_)⟩
    rw [State.core_modCore_same]

/-- Settles O16: SPEC by the state of its epoch, VERIFY and SQUASH by what they leave of the core, END by the fold over its epochs. -/
theorem epochsOpenAndEnd : Obligations.EpochsOpenAndEnd :=
  ⟨specOpensAFreeEpoch_holds, verifyAndSquashEndAnOpenEpoch_holds, endEndsTheProgram_holds⟩

end Sys2Proof.Machine
end

section
/-! SUPPORT. The family 09_programming_model.md: the start and the end of a task, its timeout, and the end of a failed task (R211, R213,
R214, R397, R508, R509, R511). -/

namespace Sys2Proof.Machine

/-! What a management message of this module leaves (R391, R410). -/

/-- The host side, the scheduler, the cores and the accepted requests stay, and so do the records of windows. -/
structure MessageKept (s t : State) : Prop where
  hosts : t.hosts = s.hosts
  sched : t.sched = s.sched
  cores : t.cores = s.cores
  served : t.span.served = s.span.served
  wins : ∀ x, 0x08041000 ≤ x → t.reg x = s.reg x

theorem MessageKept.refl (s : State) : MessageKept s s := ⟨rfl, rfl, rfl, rfl, fun _ _ => rfl⟩

theorem MessageKept.trans {s t u : State} (h : MessageKept s t) (h' : MessageKept t u) : MessageKept s u :=
  ⟨h'.hosts.trans h.hosts, h'.sched.trans h.sched, h'.cores.trans h.cores, h'.served.trans h.served,
    fun x hx => (h'.wins x hx).trans (h.wins x hx)⟩

section

variable (s : State)

theorem MessageKept.setPort (q : Nat) (p : PortSt) : MessageKept s (s.setPort q p) := ⟨rfl, rfl, rfl, rfl, fun _ _ => rfl⟩

theorem MessageKept.countSent {q : Nat} (hq : q < 16) (n : Nat) : MessageKept s (s.bump64 (Reg.SPAN_PORT_TX_LO q) n) where
  hosts := s.bump64_hosts _ _
  sched := s.bump64_sched _ _
  cores := s.bump64_cores _ _
  served := congrArg SpanSt.served (s.bump64_span _ _)
  wins x hx := by
    unfold Reg.SPAN_PORT_TX_LO
    exact s.reg_bump64_other n (by omega) (by omega)

end

theorem MessageKept.portPump {q : Nat} (hq : q < 16) (n : Nat) (s : State) : MessageKept s (s.portPump q n) := by
  induction n generalizing s with
  | zero => exact .refl s
  | succ n ih =>
    unfold State.portPump
    dsimp only
    split
    · exact .refl s
    · split
      · exact .refl s
      · exact ((MessageKept.setPort s q _).trans (.countSent _ hq _)).trans (ih _)

section

variable (s : State)

theorem MessageKept.sendOn {r : Route} (hr : ∀ q, r = .port q → q < 16) (i : SpanItem) (level : Nat) :
    MessageKept s (s.sendOn r i level).1 := by
  cases r with
  | here => exact ⟨rfl, rfl, rfl, rfl, fun _ _ => rfl⟩
  | port q =>
    unfold State.sendOn State.portSend
    dsimp only
    exact (MessageKept.setPort s q _).trans (.portPump (hr q rfl) _ _)
  | refused st => exact .refl s

theorem State.routeTo_port {source : Bool} {n q : Nat} (h : s.routeTo source n = .port q) : q < 16 := by
  have hbits (v lo : Nat) : bits v lo 4 < 16 := by
    unfold bits
    exact Nat.mod_lt _ (by decide)
  unfold State.routeTo at h
  dsimp only at h
  split_ifs at h
  · exact Route.port.inj h ▸ hbits _ _
  · exact Route.port.inj h ▸ hbits _ _

theorem MessageKept.spanOut (i : SpanItem) (level : Nat) : MessageKept s (s.spanOut i level).1 :=
  .sendOn s (fun _ h => s.routeTo_port h) i level

/-- A management message as the transaction that it is. -/
def mgtItem (s : State) (dst type : Nat) (payload : List Dword) : SpanItem :=
  ⟨SpanHdr.pack { reqHdr opMgt dst 0 0 payload.length type with src := s.nodeId }, payload⟩

/-- Stated of the functions, so that no check of it computes a message. -/
theorem State.mgtSend_eq : @State.mgtSend = fun s dst type payload => (s.spanOut (mgtItem s dst type payload) 0).1 := rfl

theorem MessageKept.toManager (type : Nat) (payload : List Dword) : MessageKept s (s.toManager type payload) := by
  unfold State.toManager
  split
  · rw [State.mgtSend_eq]
    exact .spanOut s _ 0
  · exact .refl s

theorem MessageKept.registrySend (w : Nat) : MessageKept s (s.registrySend w) := by
  unfold State.registrySend
  dsimp only
  split
  · exact ⟨rfl, rfl, rfl, rfl, fun _ _ => rfl⟩
  · exact .toManager s _ _

end

/-! The closing of windows (R396, R397). -/

/-- What the closing of windows leaves; a window that is closed stays closed. -/
structure WindowsClosed (s t : State) : Prop where
  hosts : t.hosts = s.hosts
  sched : t.sched = s.sched
  cores : t.cores = s.cores
  served : t.span.served = s.span.served
  closed : ∀ w, s.winOpen w = false → t.winOpen w = false

theorem WindowsClosed.refl (s : State) : WindowsClosed s s := ⟨rfl, rfl, rfl, rfl, fun _ h => h⟩

theorem WindowsClosed.trans {s t u : State} (h : WindowsClosed s t) (h' : WindowsClosed t u) : WindowsClosed s u :=
  ⟨h'.hosts.trans h.hosts, h'.sched.trans h.sched, h'.cores.trans h.cores, h'.served.trans h.served,
    fun w hw => h'.closed w (h.closed w hw)⟩

theorem State.winOpen_congr {s t : State} {w : Nat} (h : t.reg (Reg.SPAN_WIN w + 20) = s.reg (Reg.SPAN_WIN w + 20)) :
    t.winOpen w = s.winOpen w := by
  rw [State.winOpen, State.winOpen, State.field_congr h]

theorem State.winOpen_setRegN_zero (s : State) (w v : Nat) (h : v = w ∨ s.winOpen v = false) :
    (s.setRegN (Reg.SPAN_WIN w + 20) 0).winOpen v = false := by
  by_cases hv : v = w
  · subst hv
    simp [State.winOpen, State.field, State.regN_setRegN_same, bits]
  · have hreg : (s.setRegN (Reg.SPAN_WIN w + 20) 0).reg (Reg.SPAN_WIN v + 20) = s.reg (Reg.SPAN_WIN v + 20) :=
      s.reg_setRegN_other 0 (by unfold Reg.SPAN_WIN; omega)
    rw [State.winOpen_congr hreg]
    exact h.resolve_left hv

/-- Closing a window closes it and no other one opens. -/
theorem State.winCloseNow_closed (s : State) (w : Nat) : WindowsClosed s (s.winCloseNow w) ∧ (s.winCloseNow w).winOpen w = false := by
  unfold State.winCloseNow
  split
  · dsimp only
    generalize hu : ({ s.setRegN (Reg.SPAN_WIN w + 20) 0 with span := _ } : State) = u
    have hkept := MessageKept.registrySend u w
    have hopen (v : Nat) : (u.registrySend w).winOpen v = (s.setRegN (Reg.SPAN_WIN w + 20) 0).winOpen v := by
      rw [State.winOpen_congr (hkept.wins _ (by unfold Reg.SPAN_WIN; omega)), ← hu]
      rfl
    refine ⟨⟨?_, ?_, ?_, ?_, fun v hv => ?_⟩, ?_⟩
    · rw [hkept.hosts, ← hu]; rfl
    · rw [hkept.sched, ← hu]; rfl
    · rw [hkept.cores, ← hu]; rfl
    · rw [hkept.served, ← hu]; rfl
    · rw [hopen, State.winOpen_setRegN_zero s w v (.inr hv)]
    · rw [hopen, State.winOpen_setRegN_zero s w w (.inl rfl)]
  · next h => exact ⟨.refl s, by simpa using h⟩

/-- Windows of a list that close one after the other are all closed. -/
theorem State.foldl_winCloseNow_closed (l : List Nat) (s : State) :
    WindowsClosed s (l.foldl State.winCloseNow s) ∧ ∀ w ∈ l, (l.foldl State.winCloseNow s).winOpen w = false := by
  induction l generalizing s with
  | nil => exact ⟨.refl s, nofun⟩
  | cons w l ih =>
    obtain ⟨hone, hw⟩ := s.winCloseNow_closed w
    obtain ⟨hrest, hl⟩ := ih (s.winCloseNow w)
    refine ⟨hone.trans hrest, fun v hv => ?_⟩
    rcases List.mem_cons.mp hv with rfl | hv
    · exact hrest.closed _ hw
    · exact hl v hv

theorem State.closeTaskWins_closed (s : State) :
    WindowsClosed s s.closeTaskWins ∧ ∀ w ∈ s.span.taskWins, s.closeTaskWins.winOpen w = false :=
  State.foldl_winCloseNow_closed s.span.taskWins s

theorem State.closeTaskWins_none {s : State} (h : s.span.taskWins = []) : s.closeTaskWins = s := by
  rw [State.closeTaskWins, h, List.foldl_nil]

/-! CORE_START (R211). -/

theorem exec_coreStart (s : State) : exec .coreStart s = act s.startReady s
    (if s.taskCores.isEmpty then { s.taskCores.foldl (fun (s : State) c => s.modCore c (fun k => { k with running := true })) s with
      sched := { s.sched with st := .running } }.taskEnd
    else { s.taskCores.foldl (fun (s : State) c => s.modCore c (fun k => { k with running := true })) s with
      sched := { s.sched with st := .running } }) := rfl

theorem mem_taskCores {s : State} {c : Nat} (hc : c < 64) : c ∈ s.taskCores ↔ bitOf s.sched.mask c = true := by
  simp [State.taskCores, mem_coreList hc]

theorem nodup_taskCores (s : State) : s.taskCores.Nodup := List.Nodup.filter _ List.nodup_range

/-- A change made core by core changes cores alone. -/
theorem State.foldl_modCore_eq (f : Core → Core) (l : List Nat) (s : State) :
    l.foldl (fun t d => t.modCore d f) s = { s with cores := (l.foldl (fun t d => t.modCore d f) s).cores } := by
  refine List.foldlRecOn (motive := fun t : State => t = { s with cores := t.cores }) l _ rfl fun t ht d _ => ?_
  rw [State.modCore, State.setCore, ht]

theorem everyRunningCoreStartsAtOnce_holds : everyRunningCoreStartsAtOnce := by
  intro s
  refine ⟨fun hready hcores => ?_, fun hready => by rw [exec_coreStart, hready, act_false]⟩
  have heq := State.foldl_modCore_eq (fun k => { k with running := true }) s.taskCores s
  have hcore := State.core_foldl_modCore (fun k => { k with running := true }) (nodup_taskCores s) s
  rw [exec_coreStart, if_neg (by simpa using hcores)]
  generalize s.taskCores.foldl (fun t d => t.modCore d (fun k => { k with running := true })) s = u at *
  exact ends_act hready ⟨rfl, by rw [heq], fun c hc => (hcore c).trans (if_congr (mem_taskCores hc) rfl rfl)⟩

/-! The scheduler is idle again (R194, R213). -/

/-- A pass over cores that changes one core at a time changes each core of its list as one step does. -/
theorem State.core_foldl_each {g : State → Nat → State} {Q : Core → Core → Prop}
    (hother : ∀ (s : State) (c d : Nat), d ≠ c → (g s c).core d = s.core d)
    (hat : ∀ (s : State) (c : Nat), Q (s.core c) ((g s c).core c))
    {l : List Nat} (hl : l.Nodup) (s : State) {c : Nat} (hc : c ∈ l) : Q (s.core c) ((l.foldl g s).core c) := by
  have hkeep : ∀ (l : List Nat) (s : State), c ∉ l → (l.foldl g s).core c = s.core c := by
    intro l
    induction l with
    | nil => exact fun s _ => rfl
    | cons d l ih =>
      intro s hd
      rw [List.foldl_cons, ih _ (fun h => hd (List.mem_cons_of_mem _ h)), hother s d c (fun h => hd (h ▸ List.mem_cons_self ..))]
  induction l generalizing s with
  | nil => cases hc
  | cons d l ih =>
    obtain ⟨hd, hl⟩ := List.nodup_cons.mp hl
    rw [List.foldl_cons]
    rcases List.mem_cons.mp hc with rfl | hc
    · rw [hkeep l _ hd]
      exact hat s c
    · have hcd : c ≠ d := fun h => hd (h ▸ hc)
      rw [← hother s d c hcd]
      exact ih hl _ hc

/-- A core at rest after a task: it does not run, has not stopped and holds no stream; its operations are as they were. -/
structure Core.AtRest (k k' : Core) : Prop where
  running : k'.running = false
  stopped : k'.stopped = false
  streams : k'.streams = []
  ops : k'.ops = k.ops

/-- The ends of a core's epochs change its tiles, its pails and its epochs. -/
theorem Core.settleEpochs_eq (k : Core) : k.settleEpochs = { k with
    tiles := k.settleEpochs.tiles
    pails := k.settleEpochs.pails
    epochs := k.settleEpochs.epochs } := by
  unfold Core.settleEpochs
  generalize List.range 16 = l
  refine List.foldlRecOn (motive := fun x : Core => x = { k with tiles := x.tiles, pails := x.pails, epochs := x.epochs }) l _ rfl
    fun x hx e _ => ?_
  have hcommitted := x.committed_eq e
  have hvanished := x.vanished_eq e
  rw [Core.committed] at hcommitted
  rw [Core.vanished] at hvanished
  split
  · exact hx
  · rw [hcommitted, hx]
  · rw [hvanished, hx]

/-- A bank request at every bank of a core, by a mask. -/
theorem State.restBanks_eq (s : State) (c : Nat) : s.restBanks c =
    s.modCore c (fun k => k.askBanks (fun b => some (if bitOf (s.residentMask c) b then .retain else .off)) (List.range 16)) := rfl

/-- One core of a task comes to rest. -/
def State.coreRests (s : State) (c : Nat) : State :=
  (s.restBanks c).modCore c (fun k =>
    { k.settleEpochs with
      running := false
      stopped := false
      ending := false
      waiting := none
      streams := [] })

section

variable (s : State) (c : Nat)

theorem State.coreRests_core_other {d : Nat} (hd : d ≠ c) : (s.coreRests c).core d = s.core d := by
  rw [State.coreRests, State.core_modCore_other _ _ hd, State.restBanks_eq, State.core_modCore_other _ _ hd]

theorem State.coreRests_atRest : (s.core c).AtRest ((s.coreRests c).core c) := by
  have hbanks := Core.askBanks_eq (fun b => some (if bitOf (s.residentMask c) b then .retain else .off)) (List.range 16) (s.core c)
  rw [State.coreRests, State.core_modCore_same, State.restBanks_eq, State.core_modCore_same]
  generalize (s.core c).askBanks _ (List.range 16) = x at *
  refine ⟨rfl, rfl, rfl, ?_⟩
  have hepochs := x.settleEpochs_eq
  generalize x.settleEpochs = y at *
  rw [hepochs, hbanks]

theorem State.coreRests_onlyCore : OnlyCore s (s.coreRests c) c := by
  rw [State.coreRests, State.restBanks_eq]
  exact (OnlyCore.modCore s c _).trans (.modCore _ c _)

end

/-- The scheduler is idle, and no quad holds an offset of the task (R162). -/
def State.schedIdle (s : State) : State :=
  { s with skimOff := [], sched := { s.sched with st := .idle, failing := false, primary := none } }

theorem State.taskOver_eq (s : State) : s.taskOver = (coreList.foldl State.coreRests s).schedIdle := by
  unfold State.taskOver State.schedIdle State.coreRests
  dsimp only

theorem State.foldl_coreRests_eq (l : List Nat) (s : State) :
    l.foldl State.coreRests s = { s with cores := (l.foldl State.coreRests s).cores } := by
  refine List.foldlRecOn (motive := fun t : State => t = { s with cores := t.cores }) l _ rfl fun t ht c _ => ?_
  rw [(t.coreRests_onlyCore c).1, ht]

/-- Once a task is over the scheduler is idle, every core is at rest, and registers, host side and Span stay. -/
structure TaskOver (s t : State) : Prop where
  st : t.sched.st = .idle
  failing : t.sched.failing = false
  primary : t.sched.primary = none
  hosts : t.hosts = s.hosts
  reg : ∀ x, t.reg x = s.reg x
  cores : ∀ c, c < 64 → (s.core c).AtRest (t.core c)

theorem State.taskOver_over (s : State) : TaskOver s s.taskOver := by
  have heq := State.foldl_coreRests_eq coreList s
  have hcores := fun c (hc : c ∈ coreList) => State.core_foldl_each (g := State.coreRests) (Q := Core.AtRest)
    (fun s c _ hd => State.coreRests_core_other s c hd) State.coreRests_atRest (l := coreList) List.nodup_range s hc
  rw [State.taskOver_eq]
  generalize coreList.foldl State.coreRests s = u at *
  refine ⟨rfl, rfl, rfl, ?_, fun x => ?_, fun c hc => hcores c (mem_coreList hc)⟩
  · rw [heq]
    rfl
  · rw [heq]
    rfl

/-! The completion of a task (R213, R431). -/

section

variable (s : State) (status detail seq : Nat)

theorem State.queueCpl_completes (e : SubEntry) (elapsed : Nat) : (s.queueCpl e status detail elapsed seq).hosts.cplWait =
    s.hosts.cplWait ++ [⟨e.ring + 512, cplBytes e.tag status 0 e.op detail e.ring e.subHead elapsed seq 0 0 0,
      s.cplFull (e.ring + 512)⟩] := rfl

/-- A completion that its port still takes is handed over. -/
theorem State.taskPost_completes (h : s.hosts.discardTask = false) :
    completes s (s.taskPost status detail seq) s.sched.entry status detail seq := by
  unfold State.taskPost
  rw [if_neg (by simp [h])]
  exact ⟨_, _, State.queueCpl_completes ..⟩

theorem State.taskPost_reg {x : Nat} (h : ∀ k, x ≠ Reg.HOST_RESETS k) : (s.taskPost status detail seq).reg x = s.reg x := by
  unfold State.taskPost
  split
  · exact s.reg_bump32_other 1 (h _)
  · rfl

end

/-- A task without failure that is over is counted, and its completion handed over. -/
structure TaskDone (s t : State) : Prop where
  st : t.sched.st = .idle
  cpl : s.hosts.discardTask = false → completes s t s.sched.entry 0 0 s.firstRecord
  counted : t.reg64 Reg.CORE_SCHED_DONE_LO = (s.reg64 Reg.CORE_SCHED_DONE_LO + 1) % 2 ^ 64
  cores : ∀ c, c < 64 → (t.core c).running = false ∧ (t.core c).stopped = false ∧ (t.core c).streams = []
  wins : ∀ w, t.winOpen w = s.winOpen w

theorem State.taskDone_done (s : State) : TaskDone s s.taskDone := by
  have hpost (x : Nat) (h : ∀ k, x ≠ Reg.HOST_RESETS k) :
      ((s.bump64 Reg.CORE_SCHED_DONE_LO 1).taskPost 0 0 s.firstRecord).reg x = (s.bump64 Reg.CORE_SCHED_DONE_LO 1).reg x :=
    State.taskPost_reg _ 0 0 _ h
  have hcpl := (s.bump64 Reg.CORE_SCHED_DONE_LO 1).taskPost_completes 0 0 s.firstRecord
  rw [State.bump64_hosts, State.bump64_sched] at hcpl
  have hdone : s.taskDone = ((s.bump64 Reg.CORE_SCHED_DONE_LO 1).taskPost 0 0 s.firstRecord).taskOver := by
    unfold State.taskDone
    rfl
  have hover := ((s.bump64 Reg.CORE_SCHED_DONE_LO 1).taskPost 0 0 s.firstRecord).taskOver_over
  rw [hdone]
  generalize (s.bump64 Reg.CORE_SCHED_DONE_LO 1).taskPost 0 0 s.firstRecord = u at *
  have hreg (x : Nat) (h : ∀ k, x ≠ Reg.HOST_RESETS k) : u.taskOver.reg x = (s.bump64 Reg.CORE_SCHED_DONE_LO 1).reg x :=
    (hover.reg x).trans (hpost x h)
  refine ⟨hover.st, fun h => ?_, ?_, fun c hc => ⟨(hover.cores c hc).running, (hover.cores c hc).stopped, (hover.cores c hc).streams⟩,
    fun w => State.winOpen_congr ?_⟩
  · unfold completes at *
    rw [hover.hosts]
    rw [State.bump64_hosts] at hcpl
    exact hcpl h
  · rw [State.reg64_congr (hreg _ fun k => ?_) (hreg _ fun k => ?_), State.reg64_bump64] <;>
      unfold Reg.CORE_SCHED_DONE_LO Reg.HOST_RESETS <;> omega
  · rw [hreg _ fun k => by unfold Reg.SPAN_WIN Reg.HOST_RESETS; omega]
    unfold Reg.CORE_SCHED_DONE_LO Reg.SPAN_WIN
    exact s.reg_bump64_other 1 (by omega) (by omega)

/-! CORE_END (R213, R397). -/

/-- Core `c` has ended. -/
def State.coreEnded (s : State) (c : Nat) : State := s.modCore c (fun k => { k with ended := true, running := false, streams := [] })

/-- The windows of the task are closed, and it is ending. -/
def State.windowsShut (s : State) : State := { s.closeTaskWins with sched := { s.closeTaskWins.sched with st := .ending } }

theorem State.taskEnd_eq : State.taskEnd = fun s => s.windowsShut.taskSettle := rfl

theorem exec_coreEnd (s : State) (c : CoreId) : exec (.coreEnd c) s =
    act ((s.core c.val).drained && s.sched.st == .running) s
      (if (s.coreEnded c.val).taskCores.all (fun i => ((s.coreEnded c.val).core i).ended) then (s.coreEnded c.val).taskEnd
        else s.coreEnded c.val) := rfl

section

variable {s : State} {c : CoreId}

/-- Every running core has ended once core `c` has and the others had. -/
theorem State.allEnded_iff : (s.coreEnded c.val).taskCores.all (fun i => ((s.coreEnded c.val).core i).ended) = true ↔
    ∀ d ∈ s.taskCores, d ≠ c.val → (s.core d).ended = true := by
  have htask : (s.coreEnded c.val).taskCores = s.taskCores := rfl
  rw [htask, List.all_eq_true]
  refine forall₂_congr fun d _ => ?_
  rcases eq_or_ne d c.val with rfl | hd
  · simp [State.coreEnded]
  · simp [State.coreEnded, State.core_modCore_other _ _ hd, hd]

variable (hst : s.sched.st = .running) (hdrained : (s.core c.val).drained = true)
include hst hdrained

theorem exec_coreEnd_early (h : ¬ ∀ d ∈ s.taskCores, d ≠ c.val → (s.core d).ended = true) :
    exec (.coreEnd c) s = .next (s.coreEnded c.val) := by
  rw [exec_coreEnd, hdrained, hst, if_neg (fun hall => h (State.allEnded_iff.mp hall))]
  rfl

theorem exec_coreEnd_last (h : ∀ d ∈ s.taskCores, d ≠ c.val → (s.core d).ended = true) :
    exec (.coreEnd c) s = .next (s.coreEnded c.val).windowsShut.taskSettle := by
  rw [exec_coreEnd, hdrained, hst, if_pos (State.allEnded_iff.mpr h), State.taskEnd_eq]
  rfl

end

section

variable {s : State}

theorem State.windowsShut_st (s : State) : s.windowsShut.sched.st = .ending := rfl

theorem State.windowsShut_hosts (s : State) : s.windowsShut.hosts = s.hosts := (s.closeTaskWins_closed).1.hosts

theorem State.windowsShut_served (s : State) : s.windowsShut.span.served = s.span.served := (s.closeTaskWins_closed).1.served

theorem State.windowsShut_closed {w : Nat} (hw : w ∈ s.span.taskWins) : s.windowsShut.winOpen w = false :=
  (s.closeTaskWins_closed).2 w hw

theorem State.windowsShut_none (h : s.span.taskWins = []) : s.windowsShut = { s with sched := { s.sched with st := .ending } } := by
  rw [State.windowsShut, State.closeTaskWins_none h]

/-- While a request of its windows is on its way an ending task waits. -/
theorem State.taskSettle_waits (h : s.span.served ≠ []) : s.taskSettle = s := by
  unfold State.taskSettle
  exact if_neg fun hidle => h (by simpa [State.winsIdle] using hidle.2.2)

theorem State.taskSettle_done (hst : s.sched.st = .ending) (hfail : s.sched.failing = false) (h : s.span.served = []) :
    s.taskSettle = s.taskDone := by
  unfold State.taskSettle
  exact if_pos ⟨hst, hfail, by simp [State.winsIdle, h]⟩

theorem State.taskSettle_winOpen (s : State) (w : Nat) : s.taskSettle.winOpen w = s.winOpen w := by
  unfold State.taskSettle
  split
  · exact s.taskDone_done.wins w
  · rfl

end

theorem taskEndsWithItsLastCore_holds : taskEndsWithItsLastCore := by
  intro s c hst hdrained others
  refine ⟨fun h => ?early, fun h hserved => ?waits, fun h _ => ?closes, fun h hfail hdiscard hwins hserved => ?done⟩
  case early =>
    exact ends_of_eq (exec_coreEnd_early hst hdrained h) ⟨State.core_modCore_same .., .modCore ..⟩
  case waits =>
    have hshut : (s.coreEnded c.val).windowsShut.span.served ≠ [] := by
      rw [State.windowsShut_served]
      exact hserved
    refine ends_of_eq (exec_coreEnd_last hst hdrained h) ?_
    rw [State.taskSettle_waits hshut]
    exact ⟨State.windowsShut_st _, congrArg HostState.cplWait (State.windowsShut_hosts _)⟩
  case closes =>
    refine ends_of_eq (exec_coreEnd_last hst hdrained h) fun w hw => ?_
    rw [State.taskSettle_winOpen]
    exact State.windowsShut_closed (s := s.coreEnded c.val) hw
  case done =>
    have hshut := State.windowsShut_none (s := s.coreEnded c.val) hwins
    have hsettle : (s.coreEnded c.val).windowsShut.taskSettle = (s.coreEnded c.val).windowsShut.taskDone := by
      rw [hshut]
      exact State.taskSettle_done rfl hfail hserved
    obtain ⟨hidle, hcpl, hcount, hcores, -⟩ := (s.coreEnded c.val).windowsShut.taskDone_done
    refine ends_of_eq ((exec_coreEnd_last hst hdrained h).trans (congrArg _ hsettle)) ?_
    rw [hshut] at *
    exact ⟨hidle, hcpl hdiscard, hcount, hcores⟩

/-! TASK_TIMEOUT (R214, R506, R508, R509). -/

/-- While the buffer has room the entry joins it with its status and its detail. -/
theorem State.report_entry (s : State) (e : DbEntry) (h : s.dbQueue.length < 1024) :
    ∃ e', (s.report e).1.dbQueue = s.dbQueue ++ [e'] ∧ e'.status = e.status ∧ e'.detail = e.detail := by
  unfold State.report
  rw [if_neg (Nat.not_le.mpr h)]
  exact ⟨_, rfl, rfl, rfl⟩

theorem State.freezeCut_dbQueue (s : State) (c : Nat) : (s.freezeCut c).dbQueue = s.dbQueue := by
  cases hf : (s.core c).freeze with
  | none => rw [State.freezeCut_unfrozen hf]
  | some z =>
    obtain ⟨n, hn, -⟩ := State.freezeCut_frozen hf
    rw [hn, (State.thaw_onlyCoreAndRegs s.tick.1 c n).1]
    rfl

theorem State.failTask_dbQueue (s : State) (status detail seq : Nat) : (s.failTask status detail seq).dbQueue = s.dbQueue := by
  unfold State.failTask
  split
  · have hcut : (coreList.foldl State.freezeCut s).dbQueue = s.dbQueue :=
      List.foldlRecOn (motive := fun t : State => t.dbQueue = s.dbQueue) coreList _ rfl
        fun t ht c _ => (t.freezeCut_dbQueue c).trans ht
    dsimp only
    generalize coreList.foldl State.freezeCut s = u at hcut ⊢
    generalize u.allCores Core.stopNow = w
    exact hcut
  · rfl

/-- A task that is failing already fails no second time (R509). -/
theorem State.failTask_of_failing {s : State} (h : s.sched.failing = true) (status detail seq : Nat) :
    s.failTask status detail seq = s := by
  unfold State.failTask
  exact if_neg (by simp [State.primaryNow, h])

/-- A fault that ends the running task stops every running core and drops what has not started (R508). -/
theorem State.failTask_core {s : State} (h : s.primaryNow = true) (status detail seq : Nat) {c : Nat} (hc : c < 64) :
    (s.failTask status detail seq).core c = ((coreList.foldl State.freezeCut s).core c).stopNow := by
  unfold State.failTask
  rw [if_pos h]
  dsimp only
  generalize coreList.foldl State.freezeCut s = u
  have hall := State.core_allCores u Core.stopNow hc
  generalize u.allCores Core.stopNow = w at hall ⊢
  rw [← hall]
  exact State.core_congr rfl c

theorem State.failTask_sched_of_primaryNow {s : State} (h : s.primaryNow = true) (status detail seq : Nat) :
    (s.failTask status detail seq).sched =
      { s.sched with failing := true, primary := some ⟨status, detail, seq⟩, st := .ending } := by
  simp only [State.failTask, h, if_true, State.foldl_freezeCut_sched]

/-- Bit 0 of the second byte of an error record says whether its fault is the primary one (R506). -/
theorem errDetail_primary (core code time : Nat) (primary : Bool) (reg : Word) :
    bitOf (((errDetail core primary false (Stop.of code) reg time ++ List.replicate 32 0).take 32).getD 1 0).toNat 0 = primary := by
  cases primary <;> simp [errDetail, leBytes, Stop.of, b2n, bitOf]

/-- The state once the timeout is recorded, and the seq of its record. -/
def State.timeoutRecorded (s : State) : State × Nat :=
  (s.firstFault Reg.CORE_SCHED_FAULT 2).hostRecord 0x31 0 (s.firstFault Reg.CORE_SCHED_FAULT 2).primaryNow (Stop.of Code.taskTimeout)
    ((s.firstFault Reg.CORE_SCHED_FAULT 2).reg Reg.CORE_SCHED_FAULT)

theorem exec_taskTimeout (s : State) : exec .taskTimeout s =
    act ((s.sched.st == .running || s.sched.st == .ending) && s.sched.timeout != 0) s
      (s.timeoutRecorded.1.failTask Code.taskTimeout 0 s.timeoutRecorded.2) := rfl

section

variable (s : State)

theorem State.hostRecord_schedHeld (unit inst : Nat) (primary : Bool) (st : Stop) (reg : Word) :
    SchedHeld s (s.hostRecord unit inst primary st reg).1 := by
  unfold SchedHeld
  simp only [State.hostRecord]
  rw [State.report_sched, s.recordTime_sched]

theorem State.timeoutRecorded_cores : s.timeoutRecorded.1.cores = s.cores := by
  rw [State.timeoutRecorded, State.hostRecord_cores, State.firstFault_cores]

theorem State.timeoutRecorded_schedHeld : SchedHeld s s.timeoutRecorded.1 :=
  (SchedHeld.of_eq (s.firstFault_sched _ _)).trans (State.hostRecord_schedHeld ..)

theorem State.timeoutRecorded_primaryNow : s.timeoutRecorded.1.primaryNow = s.primaryNow := by
  have h := s.timeoutRecorded_schedHeld
  unfold SchedHeld at h
  rw [State.primaryNow, h]
  rfl

theorem State.timeoutRecorded_fault (h : s.field Reg.CORE_SCHED_FAULT 0 8 = 0) :
    s.timeoutRecorded.1.field Reg.CORE_SCHED_FAULT 0 8 = 2 := by
  have hreg := State.hostRecord_reg_other (s.firstFault Reg.CORE_SCHED_FAULT 2) 0x31 0 (s.firstFault Reg.CORE_SCHED_FAULT 2).primaryNow
    (Stop.of Code.taskTimeout) ((s.firstFault Reg.CORE_SCHED_FAULT 2).reg Reg.CORE_SCHED_FAULT) (x := Reg.CORE_SCHED_FAULT)
    (by decide)
  rw [State.timeoutRecorded, State.field_congr hreg, State.firstFault, if_pos h, State.field, State.regN_setRegN_same]
  rfl

theorem State.timeoutRecorded_entry (hlen : s.dbQueue.length < 1024) : ∃ e, s.timeoutRecorded.1.dbQueue = s.dbQueue ++ [e] ∧
    e.status = 0x3102 ∧ bitOf (e.detail.getD 1 0).toNat 0 = s.primaryNow := by
  have hsched : (s.firstFault Reg.CORE_SCHED_FAULT 2).primaryNow = s.primaryNow := by
    rw [State.primaryNow, State.primaryNow, State.firstFault_sched]
  have hqueue : (s.firstFault Reg.CORE_SCHED_FAULT 2).recordTime.1.dbQueue = s.dbQueue := by
    rw [State.recordTime_dbQueue, State.firstFault_dbQueue]
  simp only [State.timeoutRecorded, State.hostRecord, hsched]
  obtain ⟨e, hadd, hstatus, hdetail⟩ := State.report_entry (s.firstFault Reg.CORE_SCHED_FAULT 2).recordTime.1
    (dbEvent 2 0 0x31 0 (Stop.of Code.taskTimeout).code 0 (errDetail 0xFF s.primaryNow false (Stop.of Code.taskTimeout)
      ((s.firstFault Reg.CORE_SCHED_FAULT 2).reg Reg.CORE_SCHED_FAULT) (s.firstFault Reg.CORE_SCHED_FAULT 2).recordTime.2))
    (by rw [hqueue]; exact hlen)
  exact ⟨e, by rw [hadd, hqueue], hstatus, by rw [hdetail]; exact errDetail_primary ..⟩

end

theorem fault_notMem_freezeRegs : Reg.CORE_SCHED_FAULT ∉ freezeRegs ∧ Reg.CORE_SCHED_FAILED ∉ freezeRegs := by
  simp only [freezeRegs, List.mem_flatMap, not_exists, not_and, List.mem_cons, List.not_mem_nil, or_false, not_or]
  refine ⟨fun c hc => ?_, fun c hc => ?_⟩ <;> have hlt := lt_of_mem_coreList hc <;>
    simp only [Reg.CORE_SCHED_FAULT, Reg.CORE_SCHED_FAILED, Reg.CORE_TALLY_STALL_LO, Reg.CORE_TALLY_FREEZE_MAX] <;> omega

section

variable {s : State}

/-- A task that runs or ends has its timeout, where it has one. -/
theorem exec_taskTimeout_reached (hst : s.sched.st = .running ∨ s.sched.st = .ending) (ht : s.sched.timeout ≠ 0) :
    exec .taskTimeout s = .next (s.timeoutRecorded.1.failTask Code.taskTimeout 0 s.timeoutRecorded.2) := by
  rw [exec_taskTimeout]
  have hready : ((s.sched.st == .running || s.sched.st == .ending) && s.sched.timeout != 0) = true := by
    rcases hst with h | h <;> simp [h, ht]
  rw [hready, act_true]

/-- The record of a timeout: CORE_SCHED_FAULT, and an entry that says whether it is the primary fault. -/
theorem timeout_recorded (hst : s.sched.st = .running ∨ s.sched.st = .ending) (ht : s.sched.timeout ≠ 0) :
    Ends (exec .taskTimeout s) (fun t =>
      (s.field Reg.CORE_SCHED_FAULT 0 8 = 0 → t.field Reg.CORE_SCHED_FAULT 0 8 = 2) ∧
      (s.dbQueue.length < 1024 → ∃ e, t.dbQueue = s.dbQueue ++ [e] ∧ e.status = 0x3102 ∧
        bitOf (e.detail.getD 1 0).toNat 0 = !s.sched.failing) ∧
      (s.sched.failing = true → t.cores = s.cores ∧ t.sched = { s.sched with firstRec := t.sched.firstRec })) := by
  have hprimary : s.primaryNow = !s.sched.failing := by rcases hst with h | h <;> simp [State.primaryNow, h]
  refine ends_of_eq (exec_taskTimeout_reached hst ht) ⟨fun hfault => ?_, fun hlen => ?_, fun hfail => ?_⟩
  · rw [State.field_congr (State.failTask_regsSameBut _ _ _ _ _ fault_notMem_freezeRegs.1)]
    exact s.timeoutRecorded_fault hfault
  · rw [State.failTask_dbQueue, ← hprimary]
    exact s.timeoutRecorded_entry hlen
  · have hheld := s.timeoutRecorded_schedHeld
    rw [State.failTask_of_failing (by rw [show s.timeoutRecorded.1.sched = _ from hheld]; exact hfail)]
    exact ⟨s.timeoutRecorded_cores, hheld⟩

/-- A task that is not failing yet fails with its timeout, and its cores stop. -/
theorem timeout_fails (hst : s.sched.st = .running ∨ s.sched.st = .ending) (hfail : s.sched.failing = false)
    (ht : s.sched.timeout ≠ 0) : Ends (exec .taskTimeout s) (fun t =>
      t.sched.st = .ending ∧ t.sched.failing = true ∧ t.sched.primary.map (·.status) = some 0x3102 ∧
      ∀ c, c < 64 → (s.core c).running = true →
        (t.core c).stopped = true ∧ (t.core c).seq = [] ∧ ∀ x ∈ (t.core c).dma, x.started = true) := by
  have hprimary : s.timeoutRecorded.1.primaryNow = true := by
    rw [State.timeoutRecorded_primaryNow]
    rcases hst with h | h <;> simp [State.primaryNow, h, hfail]
  refine ends_of_eq (exec_taskTimeout_reached hst ht) ?_
  rw [State.failTask_sched_of_primaryNow hprimary]
  refine ⟨rfl, rfl, rfl, fun c hc hrun => ?_⟩
  have hheld := State.coresHeld_foldl _ State.coresHeld_freezeCut coreList s.timeoutRecorded.1 c
  have hstill : ((coreList.foldl State.freezeCut s.timeoutRecorded.1).core c).running = true := by
    rw [hheld.running, State.core_congr s.timeoutRecorded_cores, hrun]
  rw [State.failTask_core hprimary _ _ _ hc]
  generalize (coreList.foldl State.freezeCut s.timeoutRecorded.1).core c = k at hstill ⊢
  exact ⟨by simp [Core.stopNow, hstill], rfl, fun x hx => (List.mem_filter.mp hx).2⟩

theorem exec_taskTimeout_none (h : (s.sched.st ≠ .running ∧ s.sched.st ≠ .ending) ∨ s.sched.timeout = 0) :
    exec .taskTimeout s = .next s := by
  have hready : ((s.sched.st == .running || s.sched.st == .ending) && s.sched.timeout != 0) = false := by
    rcases h with ⟨hr, he⟩ | h
    · simp [hr, he]
    · simp [h]
  rw [exec_taskTimeout, hready, act_false]

end

/-! Where a recorded fault goes (R527). -/

section

variable (s : State) (c : Nat)

/-- A choice between members of a list is a member of it. -/
theorem mem_of_ite {P : Prop} [Decidable P] {l : List Nat} {a b : Nat} (ha : a ∈ l) (hb : b ∈ l) : (if P then a else b) ∈ l :=
  ite_mem.mpr ⟨fun _ => ha, fun _ => hb⟩

/-- Where a fault of core `c` is recorded: nowhere, in the register of the rings, or in a register of the core (R527). -/
def recordRegs (c : Nat) : List Nat := 0 :: Reg.SPAD_RING_FAULT :: coreFaultRegs c

theorem faultReg_mem (st : Stop) : (faultReg c st).1 ∈ recordRegs c := by
  simp only [faultReg, apply_ite Prod.fst]
  unfold recordRegs coreFaultRegs
  repeat' apply mem_of_ite
  all_goals simp only [List.mem_cons, true_or, or_true]

theorem failed_notMem_recordRegs : Reg.CORE_SCHED_FAILED ∉ recordRegs c := by
  simp only [recordRegs, coreFaultRegs, List.mem_cons, List.not_mem_nil, or_false, Reg.CORE_SCHED_FAILED, Reg.CORE_TALLY_FAULT,
    Reg.LEDG_FAULT, Reg.MINT_FAULT, Reg.CORE_STRAIN_FAULT, Reg.SPAD_RING_FAULT, Reg.SPAD_FAULT, Reg.SPAD_FAULT_SLIP,
    Reg.CORE_CLERK_FAULT, Reg.CORE_CLERK_FAULT_SLIP, Reg.CORE_DESC_FAULT, Reg.CORE_DESC_FAULT_PC, Reg.CORE_RNG_FAULT,
    Reg.SPAN_HANDLE_FAULT]
  omega

theorem State.recordFault_regsSameBut (st : Stop) : RegsSameBut s (s.recordFault c st) (recordRegs c) := by
  have hset (t : State) {y : Nat} (v : Nat) (hy : y ∈ recordRegs c) : RegsSameBut t (t.setRegN y v) (recordRegs c) :=
    fun x hx => t.reg_setRegN_other v fun h => hx (h ▸ hy)
  have hextra (t : State) : RegsSameBut t (t.faultExtra c st) (recordRegs c) := by
    simp only [State.faultExtra]
    split_ifs
    · exact hset t _ (by simp [recordRegs, coreFaultRegs])
    · exact hset t _ (by simp [recordRegs, coreFaultRegs])
    · exact hset t _ (by simp [recordRegs, coreFaultRegs])
    · exact .refl t _
  have hmem := faultReg_mem c st
  simp only [State.recordFault]
  split_ifs
  · exact .refl s _
  · exact (hset s _ hmem).trans (hextra _)
  · exact .refl s _

end

/-! What the end of a failed task's work leaves until its completion (R508). -/

@[simp] theorem State.report_hosts (s : State) (e : DbEntry) : (s.report e).1.hosts = s.hosts := by
  unfold State.report
  split
  · exact s.bump32_hosts _ _
  · rfl

@[simp] theorem State.recordTime_hosts (s : State) : s.recordTime.1.hosts = s.hosts := by rw [s.recordTime_eq]

/-- The host side, the scheduler and the count of failed tasks stay. -/
structure WorkKept (s t : State) : Prop where
  hosts : t.hosts = s.hosts
  sched : SchedHeld s t
  failed : t.reg Reg.CORE_SCHED_FAILED = s.reg Reg.CORE_SCHED_FAILED

namespace WorkKept

theorem refl (s : State) : WorkKept s s := ⟨rfl, .refl s, rfl⟩

section

variable {s t u : State} {c x : Nat}

theorem trans (h : WorkKept s t) (h' : WorkKept t u) : WorkKept s u :=
  ⟨h'.hosts.trans h.hosts, h.sched.trans h'.sched, h'.failed.trans h.failed⟩

theorem failing (h : WorkKept s t) : t.sched.failing = s.sched.failing := by
  rw [show t.sched = _ from h.sched]

theorem of_onlyCoreAndRegs (h : OnlyCoreAndRegs s t c) (hreg : t.reg Reg.CORE_SCHED_FAILED = s.reg Reg.CORE_SCHED_FAILED) :
    WorkKept s t := by
  refine ⟨?_, .of_eq ?_, hreg⟩ <;> rw [h.1]

/-- A pass whose every step keeps the task's standing keeps it. -/
theorem foldl {α : Type} {g : State → α → State} {l : List α} (hg : ∀ t, WorkKept s t → ∀ a ∈ l, WorkKept t (g t a)) :
    WorkKept s (l.foldl g s) :=
  List.foldlRecOn (motive := WorkKept s) l _ (.refl s) fun t ht a ha => ht.trans (hg t ht a ha)

end

section

variable (s : State)

theorem modCore (c : Nat) (f : Core → Core) : WorkKept s (s.modCore c f) := ⟨rfl, .refl s, rfl⟩

theorem spreadDone (i : Nat) : WorkKept s (s.spreadDone i) := by
  unfold State.spreadDone
  generalize s.allCores _ = u
  exact ⟨rfl, .of_eq rfl, rfl⟩

theorem hubOps (l : List HubOp) : WorkKept s { s with hubOps := l } := ⟨rfl, .of_eq rfl, rfl⟩

theorem tick : WorkKept s s.tick.1 := ⟨rfl, .of_eq rfl, rfl⟩

theorem completeRecord (c seq : Nat) (st : Stop) : WorkKept s (s.completeRecord c seq st) := ⟨rfl, .of_eq rfl, rfl⟩

theorem spreadAll : WorkKept s s.spreadAll := by
  refine foldl fun t _ o _ => ?_
  split
  · exact spreadDone t _
  · exact .refl t

theorem spreadEnd (c op : Nat) : WorkKept s (s.spreadEnd c op) := by
  refine foldl fun t _ o _ => ?_
  split
  · split
    · exact (hubOps t _).trans (spreadDone _ _)
    · exact .refl t
  · exact .refl t

theorem landValue (c gd : Nat) (v : Option Dword) : WorkKept s (s.landValue c gd v) := by
  unfold State.landValue
  split
  · exact .refl s
  · split
    · exact modCore s c _
    · exact (tick s).trans (modCore _ c _)

theorem errorRecord (c : Nat) (st : Stop) : WorkKept s (s.errorRecord c st).1 where
  hosts := by
    simp only [State.errorRecord]
    rw [State.report_hosts, State.recordTime_hosts]
  sched := s.errorRecord_sched c st
  failed := s.errorRecord_reg_other c st (by decide)

end

/-! Within a core (R507–R509). -/

section

variable (s : State) (c : Nat)

theorem recordFault (st : Stop) : WorkKept s (s.recordFault c st) :=
  of_onlyCoreAndRegs (OnlyCoreAndRegs.recordFault s c c st) (State.recordFault_regsSameBut s c st _ (failed_notMem_recordRegs c))

theorem thawed (n : Nat) : WorkKept s (s.tick.1.thaw c n) := by
  have hne : Reg.CORE_SCHED_FAILED ∉ stallRegs c := by
    simp only [stallRegs, Reg.CORE_SCHED_FAILED, Reg.CORE_TALLY_STALL_LO, Reg.CORE_TALLY_FREEZE_MAX, List.mem_cons, List.not_mem_nil,
      or_false, not_or]
    omega
  exact (tick s).trans (of_onlyCoreAndRegs (State.thaw_onlyCoreAndRegs _ c n) (State.thaw_regsSameBut _ c n _ hne))

theorem freezeCut : WorkKept s (s.freezeCut c) := by
  cases hf : (s.core c).freeze with
  | none =>
    rw [State.freezeCut_unfrozen hf]
    exact .refl s
  | some z =>
    obtain ⟨n, hn, -⟩ := State.freezeCut_frozen hf
    rw [hn]
    exact thawed s c n

theorem opLeft (o : Op) : WorkKept s (s.opLeft c o) := by
  have honly := s.opLeft_passedAlone c o
  exact of_onlyCoreAndRegs honly.1 (honly.regsSameBut _ (by
    simp only [instrRegs, Reg.CORE_SCHED_FAILED, Reg.CORE_CLERK_INSTR_LO, List.mem_cons, List.not_mem_nil, or_false, not_or]
    omega))

theorem squash (e : Nat) : WorkKept s (s.squash c e) := by
  have hthawed : WorkKept s (s.squashThawed c e) := by
    by_cases h : (s.core c).cutsFreeze e
    · obtain ⟨n, hn, -⟩ := State.squashThawed_frozen h
      rw [hn]
      exact thawed s c n
    · rw [State.squashThawed_unfrozen h]
      exact .refl s
  have hne : Reg.CORE_SCHED_FAILED ∉ squashRegs c := by
    simp only [squashRegs, Reg.CORE_SCHED_FAILED, Reg.CORE_SPEC_SQUASHED, Reg.CORE_SPEC_DISCARDED, Reg.CORE_SPEC_CUT, List.mem_cons,
      List.not_mem_nil, or_false, not_or]
    omega
  exact hthawed.trans (of_onlyCoreAndRegs (s.squash_onlyCoreAndRegs c e) (s.squash_regsSameBut c e _ hne))

theorem squashOpen : WorkKept s (s.squashOpen c) := by
  rw [State.squashOpen_eq, State.squashEach]
  refine foldl fun t _ e _ => ?_
  split
  · exact squash t c e
  · exact .refl t

/-- Of a task that is failing already a core stops and no more (R509). -/
theorem stopCore (hf : s.sched.failing = true) (st : Stop) : WorkKept s (s.stopCore c st) := by
  have hfails (u : State) (hu : WorkKept s u) (seq : Nat) :
      WorkKept s (((u.freezeCut c).modCore c Core.stopNow).failTask st.code st.detail seq) := by
    have hstop := (hu.trans (freezeCut u c)).trans (modCore _ c Core.stopNow)
    rw [State.failTask_of_failing (hstop.failing.trans hf)]
    exact hstop
  simp only [State.stopCore, State.stopCoreSeq]
  split_ifs
  · exact .refl s
  · exact hfails _ ((recordFault s c st).trans (completeRecord _ c _ st)) _
  · exact hfails _ ((recordFault s c st).trans (errorRecord _ c st)) _

theorem opStop (hf : s.sched.failing = true) (st : Stop) : WorkKept s (s.opStop c st) := by
  unfold State.opStop
  split_ifs
  · exact (recordFault s c st).trans (errorRecord _ c st)
  · exact recordFault s c st
  · exact stopCore s c hf st

theorem complete (hf : s.sched.failing = true) (o : Op) (r : OpResult) : WorkKept s (s.complete c o r) := by
  have hleft := (spreadEnd s c o.id).trans (opLeft _ c o)
  have heq : s.complete c o r =
    (let s := (s.spreadEnd c o.id).opLeft c o
     if r.status = 0 then
      let s := if o.gd = 0 then s else s.landValue c o.gd r.value
      if o.named then s.putG c o.gs 0 else s
    else if o.named && o.gs != 0 && takeable o.cls r.status then
      let s := if r.status / 256 = 0x26 then s.recordFault c r.stop else s
      (s.landValue c o.gd r.value).putG c o.gs (BitVec.ofNat 64 r.status)
    else
      let s := if r.status = Code.exhausted then s.landValue c o.gd r.value else s
      s.opStop c { r.stop with pc := some o.pc }) := rfl
  rw [heq]
  generalize (s.spreadEnd c o.id).opLeft c o = u at hleft ⊢
  have hland : WorkKept s (u.landValue c o.gd r.value) := hleft.trans (landValue u c _ _)
  have hstops (t : State) (ht : WorkKept s t) : WorkKept s (t.opStop c { r.stop with pc := some o.pc }) :=
    ht.trans (opStop t c (ht.failing.trans hf) _)
  have hputs (t : State) (ht : WorkKept s t) (v : Dword) : WorkKept s (t.putG c o.gs v) := ht.trans (modCore t c _)
  dsimp only
  split_ifs
  · exact hputs _ hleft _
  · exact hputs _ hland _
  · exact hleft
  · exact hland
  · exact hputs _ ((hleft.trans (recordFault u c _)).trans (landValue _ c _ _)) _
  · exact hputs _ hland _
  · exact hstops _ hland
  · exact hstops _ hleft

theorem deliverAll (hf : s.sched.failing = true) : WorkKept s (s.deliverAll c) := by
  refine foldl fun t ht o _ => ?_
  split
  · exact complete t c (ht.failing.trans hf) o _
  · exact .refl t

end

end WorkKept

/-! The end of a failed task (R397, R508, R511). -/

theorem State.taskPost_cores (s : State) (status detail seq : Nat) : (s.taskPost status detail seq).cores = s.cores := by
  unfold State.taskPost
  split
  · exact s.bump32_cores _ _
  · rfl

/-- Core `c` holds no open epoch and no operation. -/
def State.opsDropped (s : State) (c : Nat) : State := (s.squashOpen c).modCore c (fun k => { k with ops := [] })

/-- What has ended is delivered, and the shared units hold no retirement of the task. -/
def State.failDelivered (s : State) : State :=
  coreList.foldl State.deliverAll { s.spreadAll with hubOps := s.spreadAll.hubOps.filter (fun o => !o.dropped) }

/-- The state of a failed task before its completion. -/
def State.failSettled (s : State) : State := coreList.foldl State.opsDropped s.failDelivered

theorem State.taskFailEnd_eq {s : State} {p : Primary} (hp : s.sched.primary = some p) : s.taskFailEnd =
    ((s.failSettled.bump32 Reg.CORE_SCHED_FAILED 1).taskPost p.status p.detail p.seq).taskOver := by
  unfold State.taskFailEnd State.failSettled State.failDelivered State.opsDropped
  rw [hp]
  rfl

theorem WorkKept.failDelivered {s : State} (hf : s.sched.failing = true) : WorkKept s s.failDelivered := by
  have hhub : WorkKept s { s.spreadAll with hubOps := s.spreadAll.hubOps.filter (fun o => !o.dropped) } :=
    (spreadAll s).trans ⟨rfl, .refl _, rfl⟩
  exact hhub.trans (foldl fun t ht c _ => deliverAll t c (ht.failing.trans (hhub.failing.trans hf)))

theorem WorkKept.failSettled {s : State} (hf : s.sched.failing = true) : WorkKept s s.failSettled :=
  (failDelivered hf).trans (foldl fun t _ c _ => (squashOpen t c).trans (modCore _ c _))

theorem State.failSettled_ops (s : State) {c : Nat} (hc : c < 64) : (s.failSettled.core c).ops = [] := by
  refine State.core_foldl_each (g := State.opsDropped) (Q := fun _ k => k.ops = []) (fun t c d hd => ?_) (fun t c => ?_)
    (l := coreList) List.nodup_range s.failDelivered (mem_coreList hc)
  · rw [State.opsDropped, State.core_modCore_other _ _ hd, State.squashOpen_eq, State.squashEach_core_other hd]
  · rw [State.opsDropped, State.core_modCore_same]

/-- A failed task that is over is counted, and its completion carries its primary fault. -/
structure TaskFailed (s t : State) (p : Primary) : Prop where
  st : t.sched.st = .idle
  failing : t.sched.failing = false
  primary : t.sched.primary = none
  cpl : completes s t s.sched.entry p.status p.detail p.seq
  counted : CountedUp s t Reg.CORE_SCHED_FAILED 1
  cores : ∀ c, c < 64 → (t.core c).running = false ∧ (t.core c).stopped = false ∧ (t.core c).ops = []

theorem State.taskFailEnd_failed {s : State} {p : Primary} (hf : s.sched.failing = true) (hp : s.sched.primary = some p)
    (hdiscard : s.hosts.discardTask = false) : TaskFailed s s.taskFailEnd p := by
  obtain ⟨hhosts, hsched, hfailed⟩ := WorkKept.failSettled hf
  have hops (c : Nat) (hc : c < 64) : ((s.failSettled.bump32 Reg.CORE_SCHED_FAILED 1).core c).ops = [] := by
    rw [State.core_bump32, s.failSettled_ops hc]
  rw [State.taskFailEnd_eq hp]
  generalize s.failSettled = u at *
  have hentry : u.sched.entry = s.sched.entry := by rw [show u.sched = _ from hsched]
  have hcpl := (u.bump32 Reg.CORE_SCHED_FAILED 1).taskPost_completes p.status p.detail p.seq (by
    rw [State.bump32_hosts, hhosts]
    exact hdiscard)
  have hpost := State.taskPost_reg (u.bump32 Reg.CORE_SCHED_FAILED 1) p.status p.detail p.seq (x := Reg.CORE_SCHED_FAILED)
    (fun k => by unfold Reg.CORE_SCHED_FAILED Reg.HOST_RESETS; omega)
  have hkeep (c : Nat) : ((u.bump32 Reg.CORE_SCHED_FAILED 1).taskPost p.status p.detail p.seq).core c =
      (u.bump32 Reg.CORE_SCHED_FAILED 1).core c :=
     State.core_congr (State.taskPost_cores ..) c
  have hcount := CountedUp.bump32 u Reg.CORE_SCHED_FAILED 1
  rw [State.bump32_sched, hentry] at hcpl
  unfold completes at hcpl
  rw [State.bump32_hosts, hhosts] at hcpl
  generalize (u.bump32 Reg.CORE_SCHED_FAILED 1).taskPost p.status p.detail p.seq = w at *
  have hover := w.taskOver_over
  generalize w.taskOver = v at *
  refine ⟨hover.st, hover.failing, hover.primary, ?_, hcount.of_reg hfailed ((hover.reg _).trans hpost), fun c hc => ?_⟩
  · unfold completes
    rw [hover.hosts]
    exact hcpl
  · have hrest := hover.cores c hc
    exact ⟨hrest.running, hrest.stopped, by rw [hrest.ops, hkeep, hops c hc]⟩

section

variable {s : State}

theorem exec_taskFailComplete (s : State) : exec .taskFailComplete s =
    act (s.sched.st == .ending && s.sched.failing && s.failDrained) s s.taskFailClose := rfl

/-- While a request that a window accepted is on its way no completion is handed over. -/
theorem State.taskFailClose_waits (h : s.span.served ≠ []) : s.taskFailClose.hosts.cplWait = s.hosts.cplWait := by
  have hclosed := (s.closeTaskWins_closed).1
  have hidle : ¬ s.closeTaskWins.winsIdle = true := by
    rw [State.winsIdle, hclosed.served]
    simpa using h
  rw [State.taskFailClose, if_neg hidle, hclosed.hosts]

theorem State.taskFailClose_ends (hwins : s.span.taskWins = []) (h : s.span.served = []) : s.taskFailClose = s.taskFailEnd := by
  rw [State.taskFailClose, State.closeTaskWins_none hwins, if_pos (by simp [State.winsIdle, h])]

end

theorem failedTaskEndsWithItsPrimaryFault_holds : failedTaskEndsWithItsPrimaryFault := by
  intro s
  refine ⟨timeout_recorded, timeout_fails, exec_taskTimeout_none, fun p hst hf hp hdrained hdiscard hwins hserved => ?ends,
    fun hserved => ?waits, fun hdrained => ?early⟩
  case ends =>
    have hfailed := State.taskFailEnd_failed hf hp hdiscard
    refine ends_of_eq (t := s.taskFailEnd) ?_
      ⟨hfailed.st, hfailed.failing, hfailed.primary, hfailed.cpl, hfailed.counted, hfailed.cores⟩
    rw [exec_taskFailComplete, State.taskFailClose_ends hwins hserved, hst, hf, hdrained]
    exact act_true ..
  case waits =>
    rw [exec_taskFailComplete]
    cases hready : (s.sched.st == .ending && s.sched.failing && s.failDrained) with
    | false => exact ends_of_eq (act_false ..) rfl
    | true => exact ends_of_eq (act_true ..) (State.taskFailClose_waits hserved)
  case early =>
    rw [exec_taskFailComplete, hdrained, Bool.and_false, act_false]

/-- Settles O33: every running core starts at once, CORE_END closes the windows before the completion, and the end of a failed task
keeps its primary fault through everything that is delivered on the way. -/
theorem tasksStartAndEnd : Obligations.TasksStartAndEnd :=
  ⟨everyRunningCoreStartsAtOnce_holds, taskEndsWithItsLastCore_holds, failedTaskEndsWithItsPrimaryFault_holds⟩

end Sys2Proof.Machine
end

section
/-! SUPPORT. The family 09_programming_model.md: a task is taken, and loaded or refused (R194, R206–R212). -/

namespace Sys2Proof.Machine

/-! What the scheduler's reading leaves (R211, R339–R350). -/

/-- The cores, the pages of their registers, and the scheduler but for the task's first record stay. -/
structure ReadKept (s t : State) : Prop where
  cores : t.cores = s.cores
  pages : ∀ x, x < 0x04000000 → t.reg x = s.reg x
  sched : SchedHeld s t

namespace ReadKept

theorem refl (s : State) : ReadKept s s := ⟨rfl, fun _ _ => rfl, .refl s⟩

theorem trans {s t u : State} (h : ReadKept s t) (h' : ReadKept t u) : ReadKept s u :=
  ⟨h'.cores.trans h.cores, fun x hx => (h'.pages x hx).trans (h.pages x hx), h.sched.trans h'.sched⟩

section

variable (s : State)

theorem setRegN {x : Nat} (hx : 0x04000000 ≤ x) (v : Nat) : ReadKept s (s.setRegN x v) :=
  ⟨rfl, fun _ hy => s.reg_setRegN_other v (by omega), s.setRegN_schedHeld x v⟩

theorem setReg64 {x : Nat} (hx : 0x04000000 ≤ x) (v : Nat) : ReadKept s (s.setReg64 x v) :=
  (setRegN s hx _).trans (setRegN _ (by omega) _)

theorem setField {x : Nat} (hx : 0x04000000 ≤ x) (lo len v : Nat) : ReadKept s (s.setField x lo len v) := setRegN s hx _

theorem bump32 {x : Nat} (hx : 0x04000000 ≤ x) (n : Nat) : ReadKept s (s.bump32 x n) :=
  ⟨s.bump32_cores x n, fun _ hy => s.reg_bump32_other n (by omega), s.bump32_schedHeld x n⟩

theorem bump64 {x : Nat} (hx : 0x04000000 ≤ x) (n : Nat) : ReadKept s (s.bump64 x n) :=
  ⟨s.bump64_cores x n, fun _ hy => s.reg_bump64_other n (by omega) (by omega), s.bump64_schedHeld x n⟩

theorem report (e : DbEntry) : ReadKept s (s.report e).1 :=
  ⟨s.report_cores e, fun _ hy => s.report_reg_other e (by unfold Reg.SISYN_DB_LOST; omega), s.report_schedHeld e⟩

theorem recordTime : ReadKept s s.recordTime.1 := ⟨s.recordTime_cores, fun x _ => s.recordTime_reg x, .of_eq s.recordTime_sched⟩

theorem recordTimeOf (p : State × Nat) (hp : p = s.recordTime) : ReadKept s p.1 := by
  subst hp
  exact recordTime s

/-! Events. -/

theorem wantMsix (p v : Nat) : ReadKept s (s.wantMsix p v) := by
  unfold State.wantMsix
  split <;> exact ⟨rfl, fun _ _ => rfl, .refl s⟩

theorem hostWrite (p a : Nat) (bs : List Byte) : ReadKept s (s.hostWrite p a bs) := by
  unfold State.hostWrite
  generalize p * 2 ^ 64 + a = k
  exact ⟨rfl, fun _ _ => rfl, .refl s⟩

theorem ringWord_le (r k : Nat) : 0x04000000 ≤ ringReg r k := by
  unfold ringReg Reg.SPAD_RING_CFG
  omega

theorem ringAdvTail (r : Nat) : ReadKept s (s.ringAdvTail r) := setRegN s (ringWord_le r 4) _

theorem ringAdvHead (r : Nat) : ReadKept s (s.ringAdvHead r) := setRegN s (ringWord_le r 3) _

theorem cplPush (r : Nat) (bs : List Byte) : ReadKept s (s.cplPush r bs) := by
  have hwrite := hostWrite s (s.ringPort r) (s.ringSlot r (s.ringTail r)) bs
  have hpush := (hwrite.trans (ringAdvTail _ r)).trans (bump64 _ (x := Reg.SPAD_RING_PUSHES_LO) (by decide) 1)
  unfold State.cplPush
  dsimp only
  split
  · exact hpush.trans (wantMsix ..)
  · exact hpush

theorem cplSqueezed (r : Nat) : ReadKept s (s.cplSqueezed r) := ⟨rfl, fun _ _ => rfl, s.cplSqueezed_schedHeld r⟩

theorem eventTo (p : Nat) (bs : List Byte) : ReadKept s (s.eventTo p bs) := by
  unfold State.eventTo
  split
  · exact refl s
  · next r _ =>
    split
    · exact (cplPush s r bs).trans (cplSqueezed ..)
    · exact bump32 s (by unfold Reg.HOST_EVENTS_DROPPED; omega) 1

theorem postEvent (severity origin unit inst code : Nat) (detail : List Byte) :
    ReadKept s (s.postEvent severity origin unit inst code detail) := by
  have hreport := report s (dbEvent severity origin unit inst 0 code detail)
  unfold State.postEvent
  generalize s.report (dbEvent severity origin unit inst 0 code detail) = p at hreport ⊢
  dsimp only
  exact (hreport.trans (eventTo ..)).trans (eventTo ..)

/-! Atoms of LPDDR. -/

/-- The registers of a memory controller lie beyond the pages of the cores. -/
theorem memcWord_le (m : Nat) : 0x04000000 ≤ Reg.PWR_MEMC_UE m ∧ 0x04000000 ≤ Reg.PWR_MEMC_ERR m ∧
    0x04000000 ≤ Reg.PWR_MEMC_ERR_IDX_LO m ∧ 0x04000000 ≤ Reg.PWR_MEMC_CE m ∧ 0x04000000 ≤ Reg.PWR_MEMC_READS_LO m := by
  unfold Reg.PWR_MEMC_UE Reg.PWR_MEMC_ERR Reg.PWR_MEMC_ERR_IDX_LO Reg.PWR_MEMC_CE Reg.PWR_MEMC_READS_LO
  omega

theorem writeBacks (w : List (Nat × List Byte)) : ReadKept s { s with writeBacks := w } := ⟨rfl, fun _ _ => rfl, .refl s⟩

theorem atomStored (idx : Nat) : ReadKept s (s.atomStored idx).1 := by
  unfold State.atomStored
  dsimp only
  split
  · exact refl s
  · split <;> exact ⟨rfl, fun _ _ => rfl, .refl s⟩

theorem countCe (chan : Nat) : ReadKept s (s.countCe chan) := by
  obtain ⟨-, -, -, hce, -⟩ := memcWord_le chan
  have hcount := bump32 s hce 1
  unfold State.countCe
  generalize s.bump32 (Reg.PWR_MEMC_CE chan) 1 = u at hcount ⊢
  have hpkg := hcount.trans (u := { u with pkgCe := tabSet 0 u.pkgCe (chan / 4) (tabGet 0 u.pkgCe (chan / 4) + 1) })
    ⟨rfl, fun _ _ => rfl, .refl u⟩
  dsimp only
  generalize { u with pkgCe := tabSet 0 u.pkgCe (chan / 4) (tabGet 0 u.pkgCe (chan / 4) + 1) } = v at hpkg ⊢
  have hwarn : 0x04000000 ≤ (if chan / 4 < 32 then Reg.PWR_MEMMAP_WARN_LO else Reg.PWR_MEMMAP_WARN_HI) := by
    split <;> decide
  generalize (if chan / 4 < 32 then Reg.PWR_MEMMAP_WARN_LO else Reg.PWR_MEMMAP_WARN_HI) = x at hwarn ⊢
  split
  · exact (hpkg.trans (setField v hwarn ..)).trans (postEvent ..)
  · exact hpkg

theorem reportUe (idx : Nat) (address scrub : Bool) (core : Nat) : ReadKept s (s.reportUe idx address scrub core).1 := by
  delta State.reportUe
  extract_lets m s1 s2 p
  obtain ⟨hue, herr, hidx, -, -⟩ := memcWord_le m.chan
  have hcount : ReadKept s s1 := bump32 s hue 1
  have hrecord : ReadKept s s2 := by
    unfold s2
    split
    · exact hcount
    · exact (hcount.trans (setReg64 s1 hidx _)).trans (setRegN _ herr _)
  have htime : ReadKept s2 p.1 := recordTimeOf s2 p rfl
  clear_value p
  exact (hrecord.trans htime).trans (report p.1 _)

/-- The state of a controller's answer. -/
def Answered {α : Type} (s : State) (a : State × α) : Prop := ReadKept s a.1

theorem Answered.of {α : Type} {s t : State} (h : ReadKept s t) (r : α) : Answered s (t, r) := h

theorem atomAnswer (idx chan : Nat) (scrub : Bool) (core : Nat) (r : AtomRead) : Answered s (s.atomAnswer idx chan scrub core r) := by
  cases r with
  | clean d => rw [State.atomAnswer]; exact .of (refl s) _
  | corrected d => rw [State.atomAnswer]; exact .of ((countCe s chan).trans (writeBacks ..)) _
  | bad address => rw [State.atomAnswer]; exact .of (reportUe s idx address scrub core) _

theorem atomRead (idx : Nat) (scrub : Bool) (core : Nat) : ReadKept s (s.atomRead idx scrub core).1 := by
  obtain ⟨-, -, -, -, hreads⟩ := memcWord_le ((s.atomStored idx).1.memPlace (idx * 32)).chan
  exact ((atomStored s idx).trans (bump64 _ hreads 1)).trans (atomAnswer ..)

end

theorem atomsRead (n : Nat) (s : State) (idx core : Nat) : ReadKept s (s.atomsRead idx core n).1 := by
  induction n generalizing s idx with
  | zero => exact refl s
  | succ n ih =>
    unfold State.atomsRead
    split
    · exact ih s (idx + 1)
    · have hread := atomRead s idx false core
      generalize s.atomRead idx false core = p at hread ⊢
      obtain ⟨t, r⟩ := p
      cases r with
      | error seq => exact hread.trans (ih t (idx + 1))
      | ok d => exact hread.trans (ih t (idx + 1))

theorem lpddrRead (s : State) (a len core : Nat) : ReadKept s (s.lpddrRead a len core).1 := by
  unfold State.lpddrRead
  split
  · exact refl s
  · split
    · exact refl s
    · exact atomsRead _ s _ core

theorem subTake (s : State) (ring : Nat) : ReadKept s (s.subTake ring) :=
  (ringAdvHead s ring).trans (bump64 _ (by unfold Reg.HOST_ENTRIES_LO; omega) 1)

end ReadKept

/-! The steps of the reading. -/

section

variable {α β : Type}

/-- The state in which a reading ends, with or without a refusal. -/
def Ld.endState : Except (Loader × Refusal_) (α × Loader) → State
  | .ok (_, l) => l.s
  | .error (l, _) => l.s

/-- A reading that leaves the cores, their pages and the scheduler. -/
structure Ld.Reads (m : Ld α) : Prop where
  kept (l : Loader) : ReadKept l.s (Ld.endState (m l))

theorem Ld.Reads.pure (a : α) : (pure a : Ld α).Reads := ⟨fun l => .refl l.s⟩

theorem Ld.Reads.get : (get : Ld Loader).Reads := ⟨fun l => .refl l.s⟩

theorem Ld.Reads.refuse (r : Refusal_) : (Ld.refuse r : Ld α).Reads := ⟨fun l => .refl l.s⟩

theorem Ld.Reads.check (bad : Bool) (r : Refusal_) : (Ld.check bad r).Reads := by
  refine ⟨fun l => ?_⟩
  unfold Ld.check
  split <;> exact .refl l.s

theorem Ld.Reads.bind {m : Ld α} {f : α → Ld β} (hm : m.Reads) (hf : ∀ a, (f a).Reads) : (m >>= f).Reads := by
  refine ⟨fun l => ?_⟩
  have hfirst := hm.kept l
  change ReadKept l.s (Ld.endState (StateT.bind m f l))
  unfold StateT.bind
  cases h : m l with
  | ok p =>
    rw [h] at hfirst
    exact hfirst.trans ((hf p.1).kept p.2)
  | error e =>
    rw [h] at hfirst
    exact hfirst

theorem Ld.Reads.mapM {f : α → Ld β} (hf : ∀ a, (f a).Reads) (as : List α) : (as.mapM f).Reads := by
  induction as with
  | nil => exact .pure []
  | cons a as ih =>
    rw [List.mapM_cons]
    exact .bind (hf a) fun b => .bind ih fun bs => .pure (b :: bs)

theorem Ld.Reads.read (a n : Nat) : (Ld.read a n).Reads := by
  refine ⟨fun l => ?_⟩
  have hread := ReadKept.lpddrRead l.s a n 0xFF
  unfold Ld.read
  split
  · exact .refl l.s
  · split
    · exact .refl l.s
    · generalize l.s.lpddrRead a n 0xFF = p at hread ⊢
      obtain ⟨t, bs, st⟩ := p
      dsimp only
      split
      · exact hread
      · exact hread

theorem Ld.Reads.core (e : CoreEntry) : (Ld.core e).Reads := by
  unfold Ld.core
  exact .bind (.read ..) fun _ => .bind (.read ..) fun _ => .bind (.read ..) fun _ => .bind (.read ..) fun _ => .pure _

theorem Ld.Reads.task (a : Nat) (cls : Dword) : (Ld.task a cls).Reads := by
  unfold Ld.task
  refine .bind (.check ..) fun _ => .bind (.read ..) fun hb => .bind (.check ..) fun _ => .bind (.check ..) fun _ => ?_
  refine .bind (.mapM (fun c => .bind (.read ..) fun _ => .pure _) _) fun es => .bind (.check ..) fun _ => .bind (.check ..) fun _ => ?_
  refine .bind (.read ..) fun rb => .bind .get fun l => .bind (.check ..) fun _ => .bind (.check ..) fun _ => ?_
  refine .bind (.check ..) fun _ => .bind (.check ..) fun _ => .bind (.mapM .core es) fun ks => .bind .get fun l => ?_
  dsimp only
  split
  · exact .bind (.refuse _) fun _ => .bind (.check ..) fun _ => .bind (.check ..) fun _ => .pure _
  · exact .bind (.check ..) fun _ => .bind (.check ..) fun _ => .pure _

end

section

variable {a : Nat} {cls : Dword} {u : State} {l : Loader}

/-- Whether it reads a task or refuses one, the reading leaves the cores, their pages and the scheduler. -/
theorem ReadKept.task_read {z : TaskLoad} (h : (Ld.task a cls).run ⟨u, 0⟩ = .ok (z, l)) : ReadKept u l.s := by
  have hread := (Ld.Reads.task a cls).kept ⟨u, 0⟩
  rw [show Ld.task a cls ⟨u, 0⟩ = .ok (z, l) from h] at hread
  exact hread

theorem ReadKept.task_refused {r : Refusal_} (h : (Ld.task a cls).run ⟨u, 0⟩ = .error (l, r)) : ReadKept u l.s := by
  have hread := (Ld.Reads.task a cls).kept ⟨u, 0⟩
  rw [show Ld.task a cls ⟨u, 0⟩ = .error (l, r) from h] at hread
  exact hread

end

/-! Masks and tables. -/

theorem bitOf_eq_testBit (a i : Nat) : bitOf a i = a.testBit i := by
  rw [Nat.testBit_eq_decide_div_mod_eq]
  rfl

theorem bitOf_or (a b i : Nat) : bitOf (a ||| b) i = (bitOf a i || bitOf b i) := by
  simp only [bitOf_eq_testBit, Nat.testBit_or]

theorem maskOf_lt {n : Nat} {l : List Nat} (h : ∀ b ∈ l, b < n) : maskOf l < 2 ^ n :=
  List.foldlRecOn (motive := fun a : Nat => a < 2 ^ n) l _ (Nat.two_pow_pos n) fun _ ha b hb =>
    Nat.or_lt_two_pow ha (Nat.pow_lt_pow_right (by decide) (h b hb))

theorem taskBanks_lt (c : Nat) (rs : List Region) (pails : List PailCfg) : taskBanks c rs pails < 2 ^ 16 := by
  unfold taskBanks
  split
  · decide
  · exact maskOf_lt fun b hb => List.mem_range.mp (List.mem_of_mem_filter hb)

section

variable {α : Type} [DecidableEq α] (d : α)

/-- The entry of a value at its place: the default has none. -/
def tabEntry (e : α × Nat) : Option (Nat × α) := if e.1 = d then none else some (e.2, e.1)

/-- A list as a table from place `n` on holds its values there, and the default elsewhere. -/
theorem tabGet_entries (l : List α) (n i : Nat) :
    tabGet d ((l.zipIdx n).filterMap (tabEntry d)) i = if n ≤ i then l.getD (i - n) d else d := by
  induction l generalizing n with
  | nil => simp
  | cons a l ih =>
    have hfirst : tabGet d (((a :: l).zipIdx n).filterMap (tabEntry d)) i =
        if n = i then a else tabGet d ((l.zipIdx (n + 1)).filterMap (tabEntry d)) i := by
      rw [List.zipIdx_cons]
      by_cases ha : a = d
      · rw [List.filterMap_cons_none (show tabEntry d (a, n) = none from if_pos ha)]
        split
        · rw [ih, if_neg (by omega), ha]
        · rfl
      · rw [List.filterMap_cons_some (show tabEntry d (a, n) = some (n, a) from if_neg ha)]
        simp only [tabGet, tabFind]
        split <;> rfl
    rw [hfirst, ih]
    rcases lt_trichotomy n i with hlt | rfl | hgt
    · obtain ⟨m, rfl⟩ := Nat.exists_eq_add_of_lt hlt
      rw [if_neg (by omega), if_pos (by omega), if_pos (by omega), show n + m + 1 - n = m + 1 by omega, List.getD_cons_succ]
      exact congrArg (l.getD · d) (by omega)
    · simp
    · rw [if_neg (by omega), if_neg (by omega), if_neg (by omega)]

theorem tabGet_tabOf (l : List α) (i : Nat) : tabGet d (tabOf d l) i = l.getD i d :=
  (tabGet_entries d l 0 i).trans (if_pos (Nat.zero_le i))

end

/-! Registers written one after the other. -/

section

variable {α : Type} (place value : α → Nat)

theorem State.foldl_setRegN_onlyCoreAndRegs (l : List α) (s : State) (c : Nat) :
    OnlyCoreAndRegs s (l.foldl (fun t a => t.setRegN (place a) (value a)) s) c :=
  List.foldlRecOn (motive := fun t => OnlyCoreAndRegs s t c) l _ (.refl s c) fun t ht _ _ => ht.trans (.setRegN t _ _ c)

theorem State.foldl_setRegN_core (l : List α) (s : State) (c : Nat) :
    (l.foldl (fun t a => t.setRegN (place a) (value a)) s).core c = s.core c :=
  List.foldlRecOn (motive := fun t : State => t.core c = s.core c) l _ rfl fun _ ht _ _ => ht

theorem State.foldl_setRegN_regsSameBut (l : List α) (s : State) :
    RegsSameBut s (l.foldl (fun t a => t.setRegN (place a) (value a)) s) (l.map place) :=
  List.foldlRecOn (motive := fun t => RegsSameBut s t (l.map place)) l _ (.refl s _) fun t ht _ ha => ht.trans
    fun _ hx => t.reg_setRegN_other _ fun h => hx (h ▸ List.mem_map_of_mem ha)

end

/-- Registers in places of their own each hold what was written there. -/
theorem State.reg_foldl_setRegN {place : Nat → Nat} (hplace : ∀ i j, place i = place j → i = j) (value : Nat → Nat) (n : Nat)
    (s : State) {i : Nat} (hi : i < n) : ((List.range n).foldl (fun t a => t.setRegN (place a) (value a)) s).reg (place i) =
      BitVec.ofNat 32 (value i) := by
  induction n with
  | zero => exact absurd hi (Nat.not_lt_zero i)
  | succ n ih =>
    rw [List.range_succ, List.foldl_append, List.foldl_cons, List.foldl_nil]
    rcases Nat.lt_succ_iff_lt_or_eq.mp hi with hlt | rfl
    · rw [State.reg_setRegN_other _ _ fun h => absurd (hplace _ _ h) hlt.ne, ih hlt]
    · exact State.reg_setRegN_same ..

/-! What a load does to one core (R194, R211, R212). -/

/-- The tables of core `c` in a task, where it runs. -/
def TaskLoad.own (z : TaskLoad) (c : Nat) : Option CoreLoad := z.cores.find? (fun k => k.e.core == c)

/-- The words of core `c`'s pail table. -/
def TaskLoad.words (z : TaskLoad) (c : Nat) : List Nat := ((z.own c).map (·.pailWords)).getD []

/-- The banks that a task uses in core `c`. -/
def TaskLoad.banks (z : TaskLoad) (c : Nat) : Nat := taskBanks c z.regions (((z.own c).map (·.pails)).getD [])

/-- A core that holds a task's tables, or none. -/
def Core.loaded (k : Core) (z : TaskLoad) (c : Nat) : Core := ((z.own c).map (k.emptied.load · z.h.argument z.cls)).getD k.emptied

/-- A core whose banks are asked to be On where a mask names them, and else Off. -/
def Core.powered (k : Core) (mask : Nat) : Core := k.askBanks (fun b => some (if bitOf mask b then .on else .off)) (List.range 16)

/-- The state in which core `c` holds its tables. -/
def State.tabled (s : State) (z : TaskLoad) (c : Nat) : State :=
  ((List.range 64).foldl (fun t i => t.setRegN (Reg.SPAD_PAIL_CFG c i) ((z.words c).getD i 0))
    (((coreFaultRegs c).foldl (fun t x => t.setRegN x 0) s).modCore c (·.loaded z c))).setRegN (Reg.SPAD_TASK_BANKS c) (z.banks c)

theorem State.powerBanks_eq (s : State) (c : Nat) :
    s.powerBanks c = s.modCore c (·.powered (s.residentMask c ||| s.field (Reg.SPAD_TASK_BANKS c) 0 16)) := rfl

theorem State.loadCore_eq (s : State) (z : TaskLoad) (c : Nat) : s.loadCore z c = (s.tabled z c).powerBanks c := by
  unfold State.loadCore State.tabled Core.loaded TaskLoad.words TaskLoad.banks TaskLoad.own
  cases z.cores.find? (fun k => k.e.core == c) <;> rfl

/-- The registers that the load of core `c` writes. -/
def loadRegs (c : Nat) : List Nat := coreFaultRegs c ++ (List.range 64).map (Reg.SPAD_PAIL_CFG c) ++ [Reg.SPAD_TASK_BANKS c]

/-- The page of core `c`'s registers. -/
def InPage (c x : Nat) : Prop := 0x00080000 + 0x100000 * c ≤ x ∧ x < 0x00100000 + 0x100000 * c

theorem inPage_of_mem_loadRegs {c x : Nat} (h : x ∈ loadRegs c) : InPage c x := by
  simp only [loadRegs, coreFaultRegs, List.mem_append, List.mem_cons, List.not_mem_nil, or_false, List.mem_map, List.mem_range] at h
  unfold InPage
  rcases h with (hfault | ⟨i, hi, rfl⟩) | rfl
  · simp only [Reg.CORE_TALLY_FAULT, Reg.LEDG_FAULT, Reg.MINT_FAULT, Reg.CORE_STRAIN_FAULT, Reg.SPAD_FAULT, Reg.SPAD_FAULT_SLIP,
      Reg.CORE_CLERK_FAULT, Reg.CORE_CLERK_FAULT_SLIP, Reg.CORE_DESC_FAULT, Reg.CORE_DESC_FAULT_PC, Reg.CORE_RNG_FAULT,
      Reg.SPAN_HANDLE_FAULT] at hfault
    omega
  · unfold Reg.SPAD_PAIL_CFG
    omega
  · unfold Reg.SPAD_TASK_BANKS
    omega

theorem resident_notMem_loadRegs (c : Nat) {k : Nat} (hk : k < 2) :
    Reg.SPAD_RESIDENT c k ∉ loadRegs c ∧ Reg.SPAD_RESIDENT_BANKS c k ∉ loadRegs c := by
  simp only [loadRegs, coreFaultRegs, List.mem_append, List.mem_cons, List.not_mem_nil, or_false, List.mem_map, List.mem_range,
    Reg.CORE_TALLY_FAULT, Reg.LEDG_FAULT, Reg.MINT_FAULT, Reg.CORE_STRAIN_FAULT, Reg.SPAD_FAULT, Reg.SPAD_FAULT_SLIP,
    Reg.CORE_CLERK_FAULT, Reg.CORE_CLERK_FAULT_SLIP, Reg.CORE_DESC_FAULT, Reg.CORE_DESC_FAULT_PC, Reg.CORE_RNG_FAULT,
    Reg.SPAN_HANDLE_FAULT, Reg.SPAD_PAIL_CFG, Reg.SPAD_TASK_BANKS, Reg.SPAD_RESIDENT, Reg.SPAD_RESIDENT_BANKS]
  constructor
  · rintro ((h | ⟨i, hi, h⟩) | h) <;> omega
  · rintro ((h | ⟨i, hi, h⟩) | h) <;> omega

section

variable (s : State) (z : TaskLoad) (c : Nat)

theorem State.tabled_core : (s.tabled z c).core c = (s.core c).loaded z c := by
  rw [State.tabled, State.core_setRegN, State.foldl_setRegN_core, State.core_modCore_same]
  exact congrArg (Core.loaded · z c) (State.foldl_setRegN_core id (fun _ => 0) (coreFaultRegs c) s c)

theorem State.tabled_onlyCoreAndRegs : OnlyCoreAndRegs s (s.tabled z c) c :=
  (((State.foldl_setRegN_onlyCoreAndRegs id (fun _ => 0) (coreFaultRegs c) s c).trans (OnlyCore.modCore _ c _).onlyCoreAndRegs).trans
    (State.foldl_setRegN_onlyCoreAndRegs _ _ _ _ c)).trans (.setRegN _ _ _ c)

theorem State.tabled_regsSameBut : RegsSameBut s (s.tabled z c) (loadRegs c) := by
  have hfaults := State.foldl_setRegN_regsSameBut id (fun _ => 0) (coreFaultRegs c) s
  have hpails := State.foldl_setRegN_regsSameBut (Reg.SPAD_PAIL_CFG c) (fun i => (z.words c).getD i 0) (List.range 64)
    (((coreFaultRegs c).foldl (fun t x => t.setRegN x 0) s).modCore c (·.loaded z c))
  rw [List.map_id] at hfaults
  refine (((hfaults.mono (fun x hx => ?_)).trans ((OnlyCore.modCore _ c _).regsSameBut _)).trans (hpails.mono (fun x hx => ?_))).trans
    fun x hx => State.reg_setRegN_other _ _ fun h => hx ?_
  · exact List.mem_append_left _ (List.mem_append_left _ hx)
  · exact List.mem_append_left _ (List.mem_append_right _ hx)
  · exact List.mem_append_right _ (List.mem_singleton.mpr h)

theorem State.tabled_banks : (s.tabled z c).field (Reg.SPAD_TASK_BANKS c) 0 16 = z.banks c := by
  have hlt : z.banks c < 2 ^ 16 := taskBanks_lt ..
  rw [State.tabled, State.field, State.regN_setRegN_same, bits]
  omega

theorem State.tabled_pail {i : Nat} (hi : i < 64) :
    (s.tabled z c).reg (Reg.SPAD_PAIL_CFG c i) = BitVec.ofNat 32 ((z.words c).getD i 0) := by
  have hplace (i j : Nat) (h : Reg.SPAD_PAIL_CFG c i = Reg.SPAD_PAIL_CFG c j) : i = j := by
    unfold Reg.SPAD_PAIL_CFG at h
    omega
  have hbanks : Reg.SPAD_PAIL_CFG c i ≠ Reg.SPAD_TASK_BANKS c := by
    unfold Reg.SPAD_PAIL_CFG Reg.SPAD_TASK_BANKS
    omega
  rw [State.tabled, State.reg_setRegN_other _ _ hbanks]
  exact State.reg_foldl_setRegN hplace (fun i => (z.words c).getD i 0) 64 _ hi

end

theorem State.residentMask_congr {s t : State} {c : Nat} (h : ∀ k, k < 2 →
    t.reg (Reg.SPAD_RESIDENT c k) = s.reg (Reg.SPAD_RESIDENT c k) ∧
    t.reg (Reg.SPAD_RESIDENT_BANKS c k) = s.reg (Reg.SPAD_RESIDENT_BANKS c k)) : t.residentMask c = s.residentMask c := by
  unfold State.residentMask
  refine List.foldl_ext _ _ _ fun m k hk => ?_
  obtain ⟨hres, hbanks⟩ := h k (List.mem_range.mp hk)
  rw [State.field_congr hres, State.field_congr hbanks]

/-- What core `c` and its page hold once it is loaded. -/
structure Loaded (z : TaskLoad) (s t : State) (c : Nat) : Prop where
  core : t.core c = ((s.core c).loaded z c).powered (s.residentMask c ||| z.banks c)
  pails : ∀ i, i < 64 → t.reg (Reg.SPAD_PAIL_CFG c i) = BitVec.ofNat 32 ((z.words c).getD i 0)

theorem State.loadCore_loaded (s : State) (z : TaskLoad) (c : Nat) : Loaded z s (s.loadCore z c) c := by
  have hmask : (s.tabled z c).residentMask c = s.residentMask c := State.residentMask_congr fun k hk =>
    ⟨s.tabled_regsSameBut z c _ (resident_notMem_loadRegs c hk).1, s.tabled_regsSameBut z c _ (resident_notMem_loadRegs c hk).2⟩
  rw [State.loadCore_eq, State.powerBanks_eq]
  refine ⟨?_, fun i hi => ?_⟩
  · rw [State.core_modCore_same, State.tabled_core, State.tabled_banks, hmask]
  · rw [State.reg_modCore, State.tabled_pail _ _ _ hi]

/-! What another core's load leaves. -/

/-- Core `c` and its page of registers stay. -/
structure PageKept (s t : State) (c : Nat) : Prop where
  core : t.core c = s.core c
  regs : ∀ x, InPage c x → t.reg x = s.reg x

section

variable {s t u : State} {c : Nat} {z : TaskLoad}

theorem PageKept.refl (s : State) (c : Nat) : PageKept s s c := ⟨rfl, fun _ _ => rfl⟩

theorem PageKept.trans (h : PageKept s t c) (h' : PageKept t u c) : PageKept s u c :=
  ⟨h'.core.trans h.core, fun x hx => (h'.regs x hx).trans (h.regs x hx)⟩

theorem ReadKept.pageKept (h : ReadKept s t) (hc : c < 64) : PageKept s t c :=
  ⟨State.core_congr h.cores c, fun x hx => h.pages x (by unfold InPage at hx; omega)⟩

theorem PageKept.residentMask (h : PageKept s t c) : t.residentMask c = s.residentMask c :=
  State.residentMask_congr fun k hk => ⟨h.regs _ (by unfold InPage Reg.SPAD_RESIDENT; omega),
    h.regs _ (by unfold InPage Reg.SPAD_RESIDENT_BANKS; omega)⟩

theorem Loaded.before (h : PageKept s t c) (h' : Loaded z t u c) : Loaded z s u c where
  core := by rw [h'.core, h.core, h.residentMask]
  pails := h'.pails

theorem Loaded.after (h : Loaded z s t c) (h' : PageKept t u c) : Loaded z s u c where
  core := h'.core.trans h.core
  pails i hi := (h'.regs _ (by unfold InPage Reg.SPAD_PAIL_CFG; omega)).trans (h.pails i hi)

theorem State.loadCore_onlyCoreAndRegs (s : State) (z : TaskLoad) (c : Nat) : OnlyCoreAndRegs s (s.loadCore z c) c := by
  rw [State.loadCore_eq, State.powerBanks_eq]
  exact (s.tabled_onlyCoreAndRegs z c).trans (OnlyCore.modCore _ c _).onlyCoreAndRegs

theorem State.loadCore_pageKept (s : State) (z : TaskLoad) {c d : Nat} (hd : d ≠ c) : PageKept s (s.loadCore z d) c := by
  refine ⟨(s.loadCore_onlyCoreAndRegs z d).2 c (Ne.symm hd), fun x hx => ?_⟩
  have hout : x ∉ loadRegs d := fun h => by
    have := inPage_of_mem_loadRegs h
    unfold InPage at *
    omega
  rw [State.loadCore_eq, State.powerBanks_eq, State.reg_modCore, s.tabled_regsSameBut z d x hout]

end

/-- The load of a list of cores leaves a core that is not in it. -/
theorem State.foldl_loadCore_pageKept (z : TaskLoad) {c : Nat} {l : List Nat} (h : c ∉ l) (s : State) :
    PageKept s (l.foldl (fun t d => t.loadCore z d) s) c :=
  List.foldlRecOn (motive := fun t => PageKept s t c) l _ (.refl s c) fun t ht _ hd =>
    ht.trans (t.loadCore_pageKept z fun heq => h (heq ▸ hd))

theorem State.foldl_loadCore_loaded (z : TaskLoad) {c : Nat} {l : List Nat} (hl : l.Nodup) (hc : c ∈ l) (s : State) :
    Loaded z s (l.foldl (fun t d => t.loadCore z d) s) c := by
  induction l generalizing s with
  | nil => cases hc
  | cons d l ih =>
    obtain ⟨hd, hl⟩ := List.nodup_cons.mp hl
    rw [List.foldl_cons]
    by_cases hcd : d = c
    · subst hcd
      exact (s.loadCore_loaded z d).after (State.foldl_loadCore_pageKept z hd _)
    · exact (Loaded.before (s.loadCore_pageKept z hcd)) (ih hl ((List.mem_cons.mp hc).resolve_left (Ne.symm hcd)) _)

/-! A loaded core (R194, R212). -/

section

variable (k : Core) (z : TaskLoad) (c : Nat)

theorem Core.loaded_none (h : z.own c = none) : k.loaded z c = k.emptied := by rw [Core.loaded, h]; rfl

theorem Core.loaded_some {x : CoreLoad} (h : z.own c = some x) : k.loaded z c = k.emptied.load x z.h.argument z.cls := by
  rw [Core.loaded, h]
  rfl

theorem Core.loaded_owner : (k.loaded z c).owner = ((z.own c).map (·.e.owner)).getD k.owner := by
  cases h : z.own c with
  | none => rw [k.loaded_none z c h]; rfl
  | some x => rw [k.loaded_some z c h]; rfl

theorem Core.loaded_banks : (k.loaded z c).banks = k.banks := by
  cases h : z.own c with
  | none => rw [k.loaded_none z c h]; rfl
  | some x => rw [k.loaded_some z c h]; rfl

theorem Core.bank_loaded (b : Nat) : (k.loaded z c).bank b = k.bank b := by rw [Core.bank, k.loaded_banks z c, Core.bank]

theorem Core.powered_eq (mask : Nat) : k.powered mask = { k with banks := (k.powered mask).banks } := Core.askBanks_eq _ _ k

theorem Core.bank_powered (mask : Nat) {b : Nat} (hb : b < 16) :
    (k.powered mask).bank b = bankAfter (k.bank b) (if bitOf mask b then .on else .off) := by
  rw [Core.powered, Core.bank_askBanks _ List.nodup_range, if_pos (List.mem_range.mpr hb)]
  rfl

/-- Nothing of a task before is left in a core: no tile, pail, epoch, stream, precision or predicate. -/
structure Core.Fresh (k : Core) : Prop where
  tiles : k.tiles = []
  pails : k.pails = []
  epochs : k.epochs = []
  streams : k.streams = []
  precPass : k.precPass = none
  precHead : k.precHead = none
  running : k.running = false
  p : k.p = []
  pc : k.pc = 0

theorem Core.fresh_loaded : (k.loaded z c).Fresh := by
  cases h : z.own c with
  | none => rw [k.loaded_none z c h]; exact ⟨rfl, rfl, rfl, rfl, rfl, rfl, rfl, rfl, rfl⟩
  | some x => rw [k.loaded_some z c h]; exact ⟨rfl, rfl, rfl, rfl, rfl, rfl, rfl, rfl, rfl⟩

variable {k}

theorem Core.Fresh.powered (h : k.Fresh) (mask : Nat) : (k.powered mask).Fresh := by
  rw [k.powered_eq mask]
  exact ⟨h.tiles, h.pails, h.epochs, h.streams, h.precPass, h.precHead, h.running, h.p, h.pc⟩

theorem Core.Fresh.tile (h : k.Fresh) (i : Nat) : k.tile i = Tile.reset := by rw [Core.tile, h.tiles]; rfl

theorem Core.Fresh.pail (h : k.Fresh) (i : Nat) : k.pail i = Pail.reset := by rw [Core.pail, h.pails]; rfl

theorem Core.Fresh.epoch (h : k.Fresh) (i : Nat) : k.epoch i = .free := by rw [Core.epoch, h.epochs]; rfl

theorem Core.Fresh.pred (h : k.Fresh) {i : Nat} (hi : i ≠ 0) : k.pred i = false := by rw [Core.pred, if_neg hi, h.p]; rfl

end

/-- g1 is the core's ID, g2 the task's argument, and every other register is zero (R212). -/
theorem tabGet_taskRegs (id arg : Dword) (i : Nat) : (if i = 0 then 0 else tabGet 0 (tabOf 0 [0, id, arg]) i) =
    if i = 1 then id else if i = 2 then arg else 0 := by
  rw [tabGet_tabOf]
  match i with
  | 0 => rfl
  | 1 => rfl
  | 2 => rfl
  | i + 3 => simp

/-- What a running core holds of its tables. -/
structure Core.Holds (k : Core) (x : CoreLoad) (arg : Dword) : Prop where
  progLen : k.progLen = x.e.progLen
  greg (i : Nat) : k.greg i = if i = 1 then BitVec.ofNat 64 x.e.core else if i = 2 then arg else 0
  store (i : Nat) : tabGet 0 k.store i = x.prog.getD i 0
  dreg (i : Nat) : k.dreg i = x.descs.getD i 0

theorem Core.holds_powered {z : TaskLoad} {c : Nat} {x : CoreLoad} (h : z.own c = some x) (k : Core) (mask : Nat) :
    ((k.loaded z c).powered mask).Holds x z.h.argument := by
  rw [Core.powered_eq, k.loaded_some z c h]
  exact ⟨rfl, tabGet_taskRegs _ _, tabGet_tabOf 0 x.prog, tabGet_tabOf 0 x.descs⟩

/-! The load of a task (R194, R211). -/

/-- The scheduler's record of a task that it loads. -/
def Sched.taken (q : Sched) (e : SubEntry) (z : TaskLoad) : Sched :=
  { q with
    st := .loading
    lastRing := e.ring
    entry := e
    header := e.addr
    mask := z.h.mask
    seed := z.h.seed
    argument := z.h.argument
    timeout := z.h.timeout
    cls := z.cls
    regions := z.regions
    failing := false
    primary := none }

/-- Every core has loaded its tables. -/
def State.coresLoaded (s : State) (e : SubEntry) (z : TaskLoad) : State :=
  coreList.foldl (fun t c => t.loadCore z c) { s with sched := s.sched.taken e z }

/-- What follows the load of the cores: shared fault registers, the longest load, the Skim's offsets and the domains. -/
def State.loadEnd (s : State) (z : TaskLoad) (bytes : Nat) : State :=
  let s := (s.setRegN Reg.SPAD_RING_FAULT 0).setRegN Reg.TELL_FAULT 0
  let s := s.setRegN Reg.PWR_FAULT (if s.field Reg.PWR_FAULT 0 8 = 1 then s.regN Reg.PWR_FAULT else 0)
  let s := s.maxReg Reg.CORE_SCHED_LOAD_MAX (1600 + ceilDiv bytes 256)
  (s.startSkim z.cls).askQuads z.h.mask

theorem State.loadTask_eq : @State.loadTask = fun s e z bytes => (s.coresLoaded e z).loadEnd z bytes := rfl

theorem ReadKept.foldl {α : Type} {g : State → α → State} {l : List α} (hg : ∀ t a, ReadKept t (g t a)) (s : State) :
    ReadKept s (l.foldl g s) :=
  List.foldlRecOn (motive := ReadKept s) l _ (.refl s) fun t ht a _ => ht.trans (hg t a)

theorem ReadKept.startSkim (s : State) (cls : Dword) : ReadKept s (s.startSkim cls) := by
  refine .foldl (fun t q => ?_) s
  have hwindow : ReadKept t (t.setRegN (Reg.PWR_SKIM_WINDOW q) 0) := .setRegN t (by unfold Reg.PWR_SKIM_WINDOW; omega) 0
  exact hwindow.trans ⟨rfl, fun _ _ => rfl, .of_eq rfl⟩

theorem ReadKept.askQuads (s : State) (mask : Nat) : ReadKept s (s.askQuads mask) := by
  refine .foldl (fun t q => ?_) s
  split
  · exact ⟨rfl, fun _ _ => rfl, .of_eq rfl⟩
  · exact .refl t

theorem ReadKept.loadEnd (s : State) (z : TaskLoad) (bytes : Nat) : ReadKept s (s.loadEnd z bytes) := by
  have hfaults := (ReadKept.setRegN s (x := Reg.SPAD_RING_FAULT) (by decide) 0).trans (.setRegN _ (x := Reg.TELL_FAULT) (by decide) 0)
  unfold State.loadEnd
  generalize (s.setRegN Reg.SPAD_RING_FAULT 0).setRegN Reg.TELL_FAULT 0 = t at hfaults ⊢
  have hpower (v : Nat) : ReadKept t (t.setRegN Reg.PWR_FAULT v) := .setRegN t (by decide) v
  have hmax (u : State) (v : Nat) : ReadKept u (u.maxReg Reg.CORE_SCHED_LOAD_MAX v) := .setRegN u (by decide) _
  exact (((hfaults.trans (hpower _)).trans (hmax _ _)).trans (.startSkim ..)).trans (.askQuads ..)

section

variable (s : State) (e : SubEntry) (z : TaskLoad)

theorem State.coresLoaded_sched : (s.coresLoaded e z).sched = s.sched.taken e z :=
  List.foldlRecOn (motive := fun t : State => t.sched = s.sched.taken e z) coreList _ rfl fun t ht c _ => by
    rw [(t.loadCore_onlyCoreAndRegs z c).1, ht]

theorem State.loadTask_sched (bytes : Nat) : SchedHeld (s.coresLoaded e z) (s.loadTask e z bytes) := by
  rw [State.loadTask_eq]
  exact (ReadKept.loadEnd ..).sched

theorem State.loadTask_loaded (bytes : Nat) {c : Nat} (hc : c < 64) : Loaded z s (s.loadTask e z bytes) c := by
  have hload : Loaded z { s with sched := s.sched.taken e z } (s.coresLoaded e z) c :=
    State.foldl_loadCore_loaded z List.nodup_range (mem_coreList hc) _
  have hend := (ReadKept.loadEnd (s.coresLoaded e z) z bytes).pageKept hc
  have hstart : PageKept s { s with sched := s.sched.taken e z } c := ⟨rfl, fun _ _ => rfl⟩
  rw [State.loadTask_eq]
  exact (hload.before hstart).after hend

end

/-! The refusal of a task (R209, R511). -/

/-- A refused task changes no core, and its completion carries the refusal. -/
structure TaskRefused (s t : State) (e : SubEntry) (r : Refusal_) : Prop where
  st : t.sched.st = .idle
  cores : t.cores = s.cores
  cpl : ∃ seq, completes s t e r.status r.detail seq

/-- The cores and the host side stay. -/
def QuietKept (s t : State) : Prop := t.cores = s.cores ∧ t.hosts = s.hosts

theorem QuietKept.refl (s : State) : QuietKept s s := ⟨rfl, rfl⟩

theorem QuietKept.trans {s t u : State} (h : QuietKept s t) (h' : QuietKept t u) : QuietKept s u :=
  ⟨h'.1.trans h.1, h'.2.trans h.2⟩

theorem QuietKept.hostRecord (s : State) (unit inst : Nat) (primary : Bool) (st : Stop) (reg : Word) :
    QuietKept s (s.hostRecord unit inst primary st reg).1 := by
  refine ⟨s.hostRecord_cores .., ?_⟩
  simp only [State.hostRecord]
  rw [State.report_hosts, State.recordTime_hosts]

/-- A completion is handed over also from a state with the same host side. -/
theorem State.queueCpl_completed {s t : State} (h : t.hosts = s.hosts) (e : SubEntry) (status detail elapsed seq : Nat) :
    completes s (t.queueCpl e status detail elapsed seq) e status detail seq := by
  refine ⟨elapsed, t.cplFull (e.ring + 512), ?_⟩
  rw [State.queueCpl_completes, h]

theorem State.refuseTask_refused (s : State) (e : SubEntry) (r : Refusal_) : TaskRefused s (s.refuseTask e r) e r := by
  delta State.refuseTask
  extract_lets q named marked base st counted
  have hnamed : QuietKept s named := .refl s
  have hmarked : QuietKept s marked := by
    unfold marked
    split
    · exact hnamed.trans ⟨rfl, rfl⟩
    · exact hnamed
  clear_value marked
  have hrecorded : QuietKept s (if r.seq ≠ 0 then (marked, r.seq) else
      marked.hostRecord (if r.status / 256 = 0x31 then 0x31 else unitOfCode r.status) 0 true st (marked.reg Reg.CORE_SCHED_FAULT)).1 := by
    split
    · exact hmarked
    · exact hmarked.trans (.hostRecord ..)
  generalize (if r.seq ≠ 0 then (marked, r.seq) else
      marked.hostRecord (if r.status / 256 = 0x31 then 0x31 else unitOfCode r.status) 0 true st (marked.reg Reg.CORE_SCHED_FAULT)) = p
    at hrecorded ⊢
  obtain ⟨recorded, seq⟩ := p
  have hprimary : QuietKept s (recorded.markPrimary seq) := hrecorded.trans ⟨rfl, rfl⟩
  have hcounted : QuietKept s (if counted then (recorded.markPrimary seq).bump32 Reg.CORE_SCHED_REFUSED 1 else
      recorded.markPrimary seq) := by
    split
    · exact hprimary.trans ⟨State.bump32_cores .., State.bump32_hosts ..⟩
    · exact hprimary
  dsimp only
  generalize (if counted then (recorded.markPrimary seq).bump32 Reg.CORE_SCHED_REFUSED 1 else recorded.markPrimary seq) = t
    at hcounted ⊢
  obtain ⟨hcores, hhosts⟩ := hcounted
  exact ⟨rfl, hcores, seq, State.queueCpl_completed hhosts ..⟩

/-! The scheduler takes a task (R209–R212). -/

/-- The oldest entry of a ring. -/
def State.taskEntry (s : State) (ring : Nat) : SubEntry := s.subOf ring (s.subRaw ring)

/-- The state in which the scheduler reads the task that the oldest entry of a ring names. -/
def State.taskReading (s : State) (ring : Nat) : State :=
  let u := ((s.subTake ring).setRegN Reg.CORE_SCHED_FAULT 0).setReg64 Reg.CORE_SCHED_HEADER_LO (s.taskEntry ring).addr
  { u with sched := { u.sched with firstRec := 0 } }

theorem ReadKept.firstRec (s : State) (n : Nat) : ReadKept s { s with sched := { s.sched with firstRec := n } } :=
  ⟨rfl, fun _ _ => rfl, rfl⟩

theorem ReadKept.taskReading (s : State) (ring : Nat) : ReadKept s (s.taskReading ring) := by
  have hfault := (ReadKept.subTake s ring).trans (.setRegN _ (x := Reg.CORE_SCHED_FAULT) (by decide) 0)
  have hheader := hfault.trans (.setReg64 _ (x := Reg.CORE_SCHED_HEADER_LO) (by decide) (s.taskEntry ring).addr)
  exact hheader.trans (.firstRec _ 0)

/-- The outcome of a reading: a task that is loaded, or a refusal. -/
def Ld.outcome (e : SubEntry) : Except (Loader × Refusal_) (TaskLoad × Loader) → State
  | .ok (z, l) => l.s.loadTask e z l.bytes
  | .error (l, r) => l.s.refuseTask e r

/-- What the scheduler reads of the task that the oldest entry of a ring names. -/
def State.taskRead (s : State) (ring : Nat) : Except (Loader × Refusal_) (TaskLoad × Loader) :=
  (Ld.task (s.taskEntry ring).addr (BitVec.ofNat 64 ((s.taskReading ring).reg64 (ringReg ring 6)))).run ⟨s.taskReading ring, 0⟩

/-- Stated of the functions, so that no check of it reads a task. -/
theorem State.taskTake_eq : @State.taskTake = fun s ring => match (s.taskReading ring).taskBar with
    | some r => (s.taskReading ring).refuseTask (s.taskEntry ring) r
    | none => Ld.outcome (s.taskEntry ring) (s.taskRead ring) := rfl

theorem exec_taskTake {s : State} {ring : Nat} (hring : s.taskRing = some ring) (hbar : (s.taskReading ring).taskBar = none) :
    exec .taskTake s = .next (Ld.outcome (s.taskEntry ring) (s.taskRead ring)) := by
  have hexec : exec .taskTake = execTaskTake := rfl
  rw [hexec, execTaskTake, hring, State.taskTake_eq]
  dsimp only
  rw [hbar]

/-- The record of a loaded task. -/
theorem State.loadTask_record {s t : State} {e : SubEntry} {z : TaskLoad} {bytes : Nat} (h : t = s.loadTask e z bytes) :
    t.sched = { s.sched.taken e z with firstRec := t.sched.firstRec } := by
  have hsched : SchedHeld (s.coresLoaded e z) (s.loadTask e z bytes) := s.loadTask_sched e z bytes
  rw [h]
  unfold SchedHeld at hsched
  rw [State.coresLoaded_sched] at hsched
  exact hsched

/-- A task that is read is loaded. -/
theorem taskTake_loads {s : State} {ring : Nat} {l : Loader} {z : TaskLoad} (hring : s.taskRing = some ring)
    (hbar : (s.taskReading ring).taskBar = none) (hread : s.taskRead ring = .ok (z, l)) :
    ∃ t, exec .taskTake s = .next t ∧
      t.sched = { l.s.sched.taken (s.taskEntry ring) z with firstRec := t.sched.firstRec } ∧
      ∀ c, c < 64 → Loaded z s t c := by
  have hkept := (ReadKept.taskReading s ring).trans (ReadKept.task_read hread)
  refine ⟨_, exec_taskTake hring hbar, ?_⟩
  rw [hread]
  exact ⟨State.loadTask_record rfl, fun c hc => Loaded.before (hkept.pageKept hc) (State.loadTask_loaded l.s _ z l.bytes hc)⟩

/-- A task that is not read is refused. -/
theorem taskTake_refuses {s : State} {ring : Nat} {l : Loader} {r : Refusal_} (hring : s.taskRing = some ring)
    (hbar : (s.taskReading ring).taskBar = none) (hread : s.taskRead ring = .error (l, r)) :
    ∃ t, exec .taskTake s = .next t ∧ t.sched.st = .idle ∧ t.cores = s.cores ∧
      ∃ seq, completes l.s t (s.taskEntry ring) r.status r.detail seq := by
  have hkept := (ReadKept.taskReading s ring).trans (ReadKept.task_refused hread)
  have hrefused := l.s.refuseTask_refused (s.taskEntry ring) r
  refine ⟨_, exec_taskTake hring hbar, ?_⟩
  rw [hread]
  exact ⟨hrefused.st, hrefused.cores.trans hkept.cores, hrefused.cpl⟩

/-- Settles O32: the reading of a task leaves the cores and their pages, and the load of one core leaves those of every other. -/
theorem taskIsTakenLoadedOrRefused : Obligations.TaskIsTakenLoadedOrRefused := by
  intro s ring l e u _ cls hring hbar
  refine ⟨fun z hread => ?loads, fun r hread => ?refuses⟩
  case refuses =>
    obtain ⟨t, hexec, hrefused⟩ := taskTake_refuses hring hbar hread
    exact ends_of_eq hexec hrefused
  case loads =>
    obtain ⟨t, hexec, hsched, hcores⟩ := taskTake_loads hring hbar hread
    refine ends_of_eq hexec ?_
    rw [hsched]
    refine ⟨rfl, rfl, rfl, rfl, rfl, rfl, rfl, rfl, rfl, rfl, rfl, fun c hc => ?_⟩
    obtain ⟨hcore, hpails⟩ := hcores c hc
    have hfresh := ((s.core c).fresh_loaded z c).powered (s.residentMask c ||| z.banks c)
    have howner := (s.core c).loaded_owner z c
    have hbank (b : Nat) (hb : b < 16) : (t.core c).bank b = bankAfter ((s.core c).bank b)
        (if bitOf (s.residentMask c) b ∨ bitOf (z.banks c) b then .on else .off) := by
      rw [hcore, Core.bank_powered _ _ hb, Core.bank_loaded, bitOf_or]
      simp only [Bool.or_eq_true]
    rw [← hcore] at hfresh
    refine ⟨hfresh.tile, hfresh.pail, hfresh.epoch, hfresh.streams, hfresh.precPass, hfresh.precHead, hfresh.running,
      fun i hi => hfresh.pred hi, ?_, hpails, hbank, fun x hx => ?_⟩
    · rw [hcore, Core.powered_eq]
      exact howner
    · have hholds := Core.holds_powered hx (s.core c) (s.residentMask c ||| z.banks c)
      rw [← hcore] at hholds
      refine ⟨hfresh.pc, hholds.progLen, hholds.greg 1, hholds.greg 2, fun i h1 h2 => ?_, hholds.store, hholds.dreg⟩
      rw [hholds.greg, if_neg h1, if_neg h2]

end Sys2Proof.Machine
end
